-- ==== Sys2Proof/Word.lean ====
section
/-! DEFINITION. The word types of the device and their plainest arithmetic (spec 00: notation; R4: bit 0 is the least significant bit). -/

namespace Sys2Proof

abbrev Byte := BitVec 8
abbrev Word32 := BitVec 32
/-- A 64-bit word: a setup register, a descriptor word, a scalar register of an engine. -/
abbrev Word := BitVec 64
/-- A 64-byte line. -/
abbrev Line := BitVec 512
/-- A 32-byte table entry as it stands in a descriptor (R499). -/
abbrev Entry := BitVec 256

/-- Port slices PS0 to PS63; a port is named by its lowest slice (00, glossary). -/
abbrev PortId := Fin 64
/-- Tick engines E0 to E63. -/
abbrev EngineId := Fin 64
/-- Home slices HS0 to HS15. -/
abbrev SliceId := Fin 16
/-- Crossbar endpoints XE0 to XE87 (R17). -/
abbrev Endpoint := Fin 88
/-- Check units 0 to 129 (spec 10, before R415). -/
abbrev CuId := Fin 130
/-- Tick plan windows W0 to W31. -/
abbrev WinId := Fin 32
/-- Tool-change groups TCG0 to TCG15. -/
abbrev GroupId := Fin 16

end Sys2Proof
end

