-- ==== Sys2Proof/Syntax.lean ====
section
/-! DEFINITION. The commands the block takes: one constructor of Instr per row of spec/opcode_table.json, with the operands
each step names (the table itself gives none: log 2). -/

namespace Sys2Proof

/-- The path of a setup write (R667, R671 PATH): BAR0 of the manager port, or the I3C setup target. -/
inductive Path where
  | bar0 | i3c
  deriving DecidableEq, Repr

/-- The header of a descriptor whose command runs (R485), with the ring slot it came from. -/
structure Hdr where
  ring   : Fin 8192
  fmt    : Nat
  fence  : Bool
  nocpl  : Bool
  tag    : Word32
  domain : BitVec 16
  deriving DecidableEq, Repr

/-- HADDR, HSPACE and HPORT of a host object (R499). -/
structure HRef where
  space : BitVec 2
  port  : PortId
  addr  : Word
  deriving DecidableEq, Repr

/-- The MetaValue of a CXL.mem message (R253): Invalid, Shared, Any. -/
inductive Meta where
  | i | s | a
  deriving DecidableEq, Repr

/-- Who a message comes from (R190 SRC, R395). `svc` is the host interface and the writers of R18, `mar` the Marionette,
`recorder` the recorder. -/
inductive Src where
  | port (p : PortId)
  | engine (e : EngineId)
  | home (h : SliceId)
  | svc (p : PortId)
  | mar
  | recorder
  deriving Inhabited, DecidableEq, Repr

/-- The protocol kinds of messages the lookup tells apart (R194, R253, R402). -/
inductive MKind where
  | memRdS | memRdX | memUpg | memRdU | memWr | memCev | memConflict
  | memDrs | memNdr
  | biSnp | biRspI | biRspS
  | fwdReq | fwdData | fwdNack
  | cacheRd (own : Bool) | cacheWr | cacheD2hRsp | cacheD2hData | cacheH2dReq | cacheH2dRsp | cacheH2dData
  | ioRd | ioWr | ioAtomic | ioIdReq | ioIdPosted | ioCpl
  | svcRd | svcWr
  deriving Inhabited, DecidableEq, Repr

/-- A message that the link layer, an engine, a home slice or a service inlet hands the core (R189 to R195). -/
structure InMsg where
  src    : Src
  kind   : MKind
  addr   : Word
  rid    : BitVec 16       -- requester or completer ID (R396)
  dest   : BitVec 16       -- destination ID of an ID-routed TLP; bus number in bits 15:8 (R194)
  ld     : Nat             -- logical device of the answering downstream port (R194)
  pbr    : BitVec 12       -- destination PBR ID on a port with role fabric (R200)
  target : Option Endpoint -- the port or home a home slice answers (R194)
  len    : Nat             -- bytes read or written
  sc0    : Bool            -- marked SC0 by a Merad partner (R72, R184)
  rdy    : Bool            -- its LAST cell is accepted already
  head   : BitVec 320      -- its protocol header as received, bytes 0x18 to 0x3F of the header cell (R190)
  body   : List Line       -- its payload in cells, those accepted later included (R189)
  poison : Bool            -- the source marks its data poisoned (R214)
  final  : Bool            -- a response that ends the request it answers
  cu     : Fin 3           -- failure of the check unit at this message (R415): 0 none, 1 paths disagree, 2 internal error
  tag    : Nat             -- the source's own name for the transaction
  deriving Inhabited, DecidableEq, Repr

/-- A request that reaches its home slice (R253); the line is that of `fa`. -/
structure HReq where
  src    : Src
  fa     : BitVec 52
  domain : Fin 4096
  data   : Line
  poison : Bool            -- the data is marked poisoned
  be     : BitVec 64
  mv     : Meta
  io     : Bool            -- a CXL.io request of a downstream port (R195)
  posted : Bool            -- owes no completion (R195)
  sc0    : Bool
  stamp  : Nat
  seq    : Nat
  epoch  : Nat             -- table epoch in its header (R190)
  tag    : Nat
  errs   : List (Fin 8 × Bool) := []  -- errors that its lookup meets: checker of R558 (3 to 7), uncorrectable (R310)
  deriving DecidableEq, Repr

/-- The ten atomic operations of R381, in code order. -/
inductive AtomOp where
  | add | and | or | xor | swap | cas | umin | umax | smin | smax
  deriving DecidableEq, Repr

/-- The fields D, A, B, C, F and IMM of an engine instruction (R361). -/
structure Fields where
  d   : Fin 32
  a   : Fin 32
  b   : Fin 32
  c   : Fin 32
  f   : BitVec 4
  imm : Word32
  deriving DecidableEq, Repr

/-- What a link partner offers in training (R103). -/
inductive FlitOffer where
  | flit256 (lopt : Bool) | flit68 | nonFlit
  deriving DecidableEq, Repr

/-- Causes of link-down by number (R517, code 0x0130). -/
inductive DownCause where
  | dllInactive | presence | ltssm
  deriving DecidableEq, Repr

/-- How the source of time is declared lost (R44): TIME_CLK, whose last edge fell at `last`, PPS_IN, or the PTM dialogues. -/
inductive SourceLoss where
  | clk (last : Nat) | pps | ptm
  deriving DecidableEq, Repr

/-- Resets of R632 that cause a port reset. -/
inductive HotReset where
  | hotReset | secondaryBus | perst
  deriving DecidableEq, Repr

/-- JTAG instructions as R643 tells them apart. -/
inductive JtagIr where
  | samplePreload | bypass | idcode | marionette | test
  deriving DecidableEq, Repr

/-- Requests that the bound hierarchy serves without region rules (R403): configuration space, virtual bridges, the host
interface function, DOE mailbox, Merad DVSEC. -/
inductive CfgReq where
  | dvsecRead (off : BitVec 8)
  | bridgeMem (ds : PortId) (ld : Fin 16) (pref : Bool) (base limit : Word)   -- memory or prefetchable window of a virtual bridge
  | bridgeBus (ds : PortId) (ld : Fin 16) (lo hi : Byte)
  | slotStatus (ds : PortId) (ld : Fin 16) (clear : BitVec 16)  -- hot-plug status of a virtual bridge: read, and bits written 1 cleared
  | command (v : BitVec 16)
  | msix (vec : Fin 2048) (addr : Word) (data : Word32) (mask : Bool)
  | doe (ds : Option PortId) (protocol : Byte) (payload : List Word32)   -- own mailbox, or toward a bound downstream partner (R144)
  | margin (lane : Fin 16) (cmd : Byte)         -- lane margining at the receiver (R101)
  | ptm                                         -- a PTM request of the partner (R101)
  | lowPower (l1 : Bool)                        -- a request for L0s or L1 (R102)
  | absent (feature : Byte)                     -- a request for another feature that the device lacks (R102)
  | other (write : Bool) (off : BitVec 12) (v : Word32)
  deriving DecidableEq, Repr

/-- Requests of the IDE_KM requester (R144). Stream 0 is the link stream. -/
inductive IdeReq where
  | keyProg (stream : Fin 9) (rx : Bool) (sub : Fin 3) (slot : Bool) (key : Entry)
  | setGo (stream : Fin 9)
  | setStop (stream : Fin 9)
  deriving DecidableEq, Repr

/-- Credits a flit needs in one channel (R167, R183): channels 0 to 12 are the codes of R183; 13 posted, 14 non-posted, 15
completions of CXL.io. -/
structure ChUse where
  ch   : Fin 16
  hdr  : Nat
  data : Nat
  deriving DecidableEq, Repr

/-- A non-posted request that a flit carries (R166). -/
structure TxReq where
  src  : Src
  kind : MKind
  tag  : Nat
  addr : Word
  deriving DecidableEq, Repr

/-- A flit handed to the transmitter (R174). -/
structure TxFlit where
  uses   : List ChUse
  tl     : Bool            -- carries transaction-layer content (R158)
  sc0    : Bool
  np     : List TxReq      -- non-posted requests in it (R166)
  posted : Nat             -- posted writes in it (R166)
  deriving DecidableEq, Repr

/-- How a fabric or memory access of the device ended at the outside party. -/
inductive RspStatus where
  | ok | poisonData | refused (locked : Bool) | poison | portDown | timeout | retryExhausted
  deriving DecidableEq, Repr

/-- One record of a TABLES section (R597). -/
structure TabRec where
  table  : Byte
  part   : Bool
  domain : BitVec 12
  index  : Word32
  aux    : Word32
  entry  : Entry
  deriving DecidableEq, Repr

/-- LENGTH of an image given as its 64-bit words, little-endian (R5, R596). -/
def imageLength (w : List Word) : Nat := (w.getD 1 0).toNat % 2 ^ 32

/-- Bytes of an image that the device reads: LENGTH, or only the header where LENGTH is out of its range (R596). -/
def imageSpan (w : List Word) : Nat := if 4096 ≤ imageLength w ∧ imageLength w ≤ 4194304 then imageLength w else 4096

/-- What the fixed part of a STATE section holds (R577). Lists of arbiters, columns, ports and engines are in order of number; flows and
buckets carry their keys. -/
structure FixedPart where
  arbRr    : List (List Nat)
  deficit  : List (List Nat)
  colRr    : List Nat
  flowSeq  : List (Nat × Nat)
  expect   : List (Nat × Nat)
  tokens   : List (Nat × Int)
  g        : Nat
  u        : Int
  kappa    : Nat
  idx      : Nat
  epoch    : Nat
  ports    : List (Byte × Nat)          -- GEN and state code
  engines  : List Nat                   -- state codes
  pages    : List (Nat × Nat × List (Nat × Nat) × Nat)
      -- engine, domain, handle and length in words of its programs, bytes of its scratch pages
  deriving Inhabited, DecidableEq, Repr

/-- Plans and coefficient table of a CONFIG section (R577). -/
structure RecordPlans where
  current : List Word
  next    : Option (List Word)
  coef    : List Word32
  deriving Inhabited, DecidableEq, Repr

/-- Work arguments (R333). -/
structure Args where
  a0 : Word
  a1 : Word
  a2 : Word
  a3 : Word
  deriving DecidableEq, Repr

/-- The command rows. -/
inductive Instr where
  -- supplies, clocks, start-up (spec 18)
  | vddAonRise
  | pwrOkRise
  | pwrOkFall
  | rstNAssert
  | rstNRelease
  | strapSample (bootSel : BitVec 2) (mgrSel : BitVec 6)
  | pllLock
  | pllLockTimeout
  | clockMonitorLoss
  | supplyMonitorFault
  | selftestDone (us : Nat) (homes : List SliceId) (engines : List EngineId) (cus : List CuId)
  | imageLoadEnd
  | recoveryLenWrite (len : BitVec 23)
  | recoveryDataWrite (path : Path) (data : Word)
  | recoveryGo
  | glbResetWrite (path : Path) (key : BitVec 16)
  -- setup space (spec 20)
  | setupWrite (path : Path) (off : BitVec 24) (size : Nat) (value : Word)
  | tikFtimeLowRead
  | recBufRead
  | tickEnableClear (path : Path)
  | tickEnableSet (path : Path)
  | timeSourceSelect (path : Path) (src : BitVec 2)
  | quadModeWrite (path : Path) (quad : Fin 16) (mode : BitVec 2)
  | xbrPresetWrite (path : Path) (preset : BitVec 2)
  | pmcFreezeSet (path : Path)
  | pmcFreezeClear (path : Path)
  | fltThreshWrite (path : Path) (thresh : BitVec 2)
  | fltClrIndex (path : Path) (index : Byte)
  | fltClrAll (path : Path) (cls : BitVec 3)
  | mringEnable (path : Path)
  | mringDisable (path : Path)
  | fuseKeyProgram (path : Path) (blown : Bool)
  | spiReleaseWrite (path : Path) (release : Bool)
  | functionLevelReset (p : PortId)
  | configRequest (p : PortId) (r : CfgReq)
  | ideKmRequest (p : PortId) (r : IdeReq)
  | jtagInstruction (ir : JtagIr)
  | marionetteAccess (write : Bool) (fa : Word) (len : Nat) (data : List Byte)
  | fmApiMessage (msg : List Byte)
  -- ports (spec 03)
  | prsntNEdge (p : PortId) (high : Bool)
  | prsntFilterExpire (p : PortId)
  | portPowerUpStart (p : PortId)
  | dischLeadExpire (p : PortId)
  | pwrgdRise (p : PortId)
  | perstHoldExpire (p : PortId)
  | pwrgdFall (p : PortId)
  | pwrgdTimeout (p : PortId)
  | linkTrained (p : PortId) (width : Fin 6) (rate : Fin 7) (offer : FlitOffer) (isSwitch : Bool)
  | trainModeTimeout (p : PortId)
  | dllUp (p : PortId)
  | meradOfferRepeat (p : PortId)
  | meradOfferRx (p : PortId) (verMap : Byte) (respNs : BitVec 16) (tie : Option Word)
  | meradAcceptRx (p : PortId) (ver : Fin 4) (respNs : BitVec 16)
  | meradConfirmRx (p : PortId) (ver : Fin 4)
  | meradWaitExpire (p : PortId)
  | autoRebind (p : PortId)
  | retrainStart (p : PortId) (forced : Bool)
  | retrainEnd (p : PortId) (width : Fin 6) (rate : Fin 7)
  | l0pRequestRx (p : PortId) (width : Fin 6)
  | l0pWidenTimer (p : PortId) (w : WinId)
  | l0pWidthChangeEnd (p : PortId)
  | l0pProtectStart (p : PortId) (w : WinId)
  | linkDown (p : PortId) (cause : DownCause)
  | flushEnd (p : PortId)
  | lostPortWalkEnd (h : SliceId) (p : PortId)
  | hotResetRx (p : PortId) (kind : HotReset)
  | ideCheckFail (p : PortId) (stream : Fin 9)
  -- link layer (spec 04)
  | flitReceived (p : PortId) (fecCorrected fecBad crcOk : Bool) (seq : Nat) (tl : Bool) (uses : List ChUse)
  | ackTimerExpire (p : PortId)
  | ackReceived (p : PortId) (seq : Nat)
  | nakReceived (p : PortId) (seq : Nat) (selective : Bool)
  | replayTimerExpire (p : PortId)
  | flitTransmit (p : PortId) (flit : TxFlit)
  | creditUpdateRx (p : PortId) (ch : Fin 16) (data : Bool) (limit : BitVec 16) (infinite : Bool)
  | creditUpdateTimer (p : PortId) (ch : Fin 16)
  -- time and tick (spec 02, 14)
  | ptmDialogue
  | ptmResponseRx (failed : Bool) (err : Int)
  | ppsInEdge
  | timeSourceLoss (why : SourceLoss)
  | holdoverLimitExpire
  | boundaryFix
  | tickBoundary
  | tickOutPulseEnd (n : Fin 4)
  | windowOpen (w : WinId)
  | windowClose (w : WinId)
  | counterSnapshot (domain : Fin 4096) (index : Nat)
  | bwWindowClose (p : PortId)
  | columnAudit (upsets : List (Endpoint × Int))
  | auditReclaimEnd (ep : Endpoint)
  -- engines (spec 08)
  | dispatchDue (index : Nat)
  | budgetSpent (e : EngineId)
  | engineFence (e : EngineId)
  | engineResponse (e : EngineId) (tag : Nat) (status : RspStatus) (data : Line)
  | engineFailure (e : EngineId) (cause : Fin 8)
  | spareLoadEnd (e : EngineId)
  | progCopyEnd (domain : Fin 4096) (handle : BitVec 12)
  -- engine instructions (spec 09)
  | add (e : EngineId) (x : Fields)
  | sub (e : EngineId) (x : Fields)
  | and (e : EngineId) (x : Fields)
  | or (e : EngineId) (x : Fields)
  | xor (e : EngineId) (x : Fields)
  | shl (e : EngineId) (x : Fields)
  | shr (e : EngineId) (x : Fields)
  | sar (e : EngineId) (x : Fields)
  | mul (e : EngineId) (x : Fields)
  | min (e : EngineId) (x : Fields)
  | max (e : EngineId) (x : Fields)
  | movi (e : EngineId) (x : Fields)
  | rdt (e : EngineId) (x : Fields)
  | br (e : EngineId) (x : Fields)
  | loop (e : EngineId) (x : Fields)
  | waito (e : EngineId) (x : Fields)
  | waitoExpire (e : EngineId)
  | fence (e : EngineId) (x : Fields)
  | end_ (e : EngineId) (x : Fields)
  | lds (e : EngineId) (x : Fields)
  | sts (e : EngineId) (x : Fields)
  | lls (e : EngineId) (x : Fields)
  | sls (e : EngineId) (x : Fields)
  | lext (e : EngineId) (x : Fields)
  | lins (e : EngineId) (x : Fields)
  | lop (e : EngineId) (x : Fields)
  | lzero (e : EngineId) (x : Fields)
  | ldl (e : EngineId) (x : Fields)
  | stl (e : EngineId) (x : Fields)
  | stlm (e : EngineId) (x : Fields)
  | cpy (e : EngineId) (x : Fields)
  | pub (e : EngineId) (x : Fields)
  | red (e : EngineId) (x : Fields)
  | pubh (e : EngineId) (x : Fields)
  | atom32 (e : EngineId) (x : Fields)
  | atom64 (e : EngineId) (x : Fields)
  | crcl (e : EngineId) (x : Fields)
  | crcs (e : EngineId) (x : Fields)
  -- fabric (spec 05, 11)
  | messageIngress (m : InMsg)
  | ingressHoldRelease (id : Nat)
  | columnAdmit (ep : Endpoint) (input : Endpoint) (cls : Fin 8)
  | arbiterChoose (ep : Endpoint) (ecc : Fin 4) (cell : Fin 8)
      -- ECC of the cells read (R238, R239): 0 good, 1 corrected, 2 payload word of data cell `cell`, 3 link word or header cell
  | egressRestart (id : Nat)
  | ageLimitExpire (id : Nat)
  | reseqTimeout (src : Fin 88) (dst : Endpoint) (cls : Fin 8)
  | epochSlotFree
  | barrierComplete
  -- home slices (spec 06, 07, 10)
  | rds (r : HReq)
  | rdx (r : HReq)
  | upg (r : HReq)
  | rdu (r : HReq)
  | wru (r : HReq)
  | atomic (r : HReq) (op : AtomOp) (w64 : Bool) (operand compare : Word)
  | wb (r : HReq)
  | cev (r : HReq)
  | biconflict (p : PortId) (fa : BitVec 52)
  | rspi (p : PortId) (fa : BitVec 52)
  | rsps (p : PortId) (fa : BitVec 52)
  | fwdData (p : PortId) (tag : BitVec 16) (fa : BitVec 52) (data : Line)
  | fwdNack (p : PortId) (tag : BitVec 16) (fa : BitVec 52)
  | memd (fa : BitVec 52) (data : Line) (poison : Bool)
  | bisnpFromBacking (h : SliceId) (p : PortId) (fa : BitVec 52)
  | retryDue (h : SliceId)
  | snoopTimeout (p : PortId) (fa : BitVec 52)
  | watchRecall (fa : BitVec 52)
  | writebackIssue (h : SliceId)
  | writebackComplete (fa : BitVec 52)
  | scrubStep (h : SliceId) (errs : List (Fin 8 × Bool))   -- errors found: checker of R558 (3 to 7), uncorrectable (R310)
  | rtLoadEnd (index : Fin 16384)
  | unbindWalkStart
  | wbDone
  | revokeDone
  | domainResetDrained
  | domainResetWalkEnd
  | domainResetDone
  -- Bellows and shaping (spec 11, 12)
  | bellowsInterval
  | tempSample (quarters : List Int)
  | regulatorReading (mv ma : Option Nat)
  | shaperRefresh
  | bucketSlotRelease (domain : Fin 4096) (slot : Nat)
  -- tool change (spec 03, 12)
  | tcrNFall (g : GroupId)
  | toolReleaseRequest (g : GroupId)
  | toolDrainEnd (p : PortId)
  | toolDrainCut (p : PortId)
  | proofSample (p : PortId) (reading : Option (BitVec 16))
  | proofDeadline (p : PortId)
  | tcrNRise (g : GroupId)
  -- host interface (spec 13)
  | doorbellPoll (ring : Fin 8192) (evq : Bool)
  | doorbellReadComplete (ring : Fin 8192) (evq : Bool) (word : Option Word)
  | descriptorFetch (ring : Fin 8192) (desc : Option (List Word))
  | descriptorStart (ring : Fin 8192)
  -- manager and tenant commands (spec 13 R499)
  | nop (h : Hdr)
  | barrier (h : Hdr)
  | tableRead (h : Hdr) (table : Byte) (index : Word32) (sub : Fin 16) (o : HRef)
  | domainCreate (h : Hdr) (w10 w18 w20 : Word)
  | domainDestroy (h : Hdr)
  | domainReset (h : Hdr) (squash : Bool)
  | windowBind (h : Hdr) (index : Word32) (entry : Entry)
  | windowUnbind (h : Hdr) (index : Word32)
  | tlistWrite (h : Hdr) (index : Word32) (o : HRef) (targets : List Word32)
  | pbrWrite (h : Hdr) (index : Word32) (entry : BitVec 16)
  | ldBind (h : Hdr) (index : Word32) (aux : Word32)
  | ldUnbind (h : Hdr) (index : Word32) (aux : Word32)
  | portRidmap (h : Hdr) (index : Word32) (sub : Fin 16) (entry : Word)
  | ruleWrite (h : Hdr) (index : Word32) (revoke : Bool) (entry : Entry)
  | ruleClear (h : Hdr) (index : Word32) (revoke : Bool)
  | planLoad (h : Hdr) (o : HRef) (plan : List Word)
  | planSwitch (h : Hdr) (tick : BitVec 48) (next : Bool)
  | timeStep (h : Hdr) (delta : Int)
  | engineRetire (h : Hdr) (index : Word32)
  | progLoad (h : Hdr) (index : Word32) (o : HRef) (image : List Word)
  | progUnload (h : Hdr) (index : Word32)
  | workSubmit (h : Hdr) (w10 w18 : Word) (args : Args)
  | bucketWrite (h : Hdr) (index : Word32) (entry : Entry)
  | bucketClear (h : Hdr) (index : Word32)
  | blwSet (h : Hdr) (index : Word32) (value : Word)
  | blwCoefLoad (h : Hdr) (o : HRef) (table : List Word32)
  | portBind (h : Hdr) (index : Word32)
  | portDown (h : Hdr) (index : Word32)
  | ideKey (h : Hdr) (index : Word32) (aux : Word32) (key : Entry)
  | evqCreate (h : Hdr) (w10 w18 w20 w28 w30 w38 : Word)
  | evqDestroy (h : Hdr) (index : Word32)
  | sourceMap (h : Hdr) (index : Word32) (entry : Word)
  | sourceMapRead (h : Hdr) (index : Word32)
  | counterCfg (h : Hdr) (index : Word32) (entry : Entry)
  | bwWindow (h : Hdr) (index : Word32) (nTick : BitVec 16)
  | counterRead (h : Hdr) (index : Word32)
  | recStart (h : Hdr) (w10 w18 w20 w28 w30 w38 : Word) (wlist : List Word32)
  | recQuiesceStart
  | recQuiescePoint
  | recSectionsDone
  | recQlimitExpire
  | digestSpanEnd
  | spillWriteComplete (status : RspStatus)
  | recMarkRx (p : PortId) (value : Word32) (tag : BitVec 16)
  | recStop (h : Hdr)
  | recReplay (h : Hdr) (addr : Word) (length : Nat) (rec : List Word) (report : Word)
  | replaySpanEnd
  | imageStage (h : Hdr) (index : Word32) (o : HRef) (img : List Word)
  | stageProgramEnd (ok : Bool)
  | imageActivate (h : Hdr) (w10 w18 : Word)
  | imageActivateCold (h : Hdr) (w10 w18 : Word)
  | activateVerifyEnd
  | activateDrainStart
  | activateDrained
  | activateDrainTimeout
  | activatePauseEnd
  | trialWindowEnd
  | fallbackDrainRetry
  | imageConfirm (h : Hdr)
  | poweredHours
  | retentionCheck (sel0Bad sel1Bad aBad bBad : Bool)
  | slotRefresh
  | ageingSample (age margin : List Nat)
  | healthRecord
  | ringCreate (h : Hdr) (w10 w18 w20 w28 w30 : Word)
  | ringDestroy (h : Hdr) (index : Word32)
  | ringReset (h : Hdr) (index : Word32) (w18 : Word)
  | ringDoorbell (h : Hdr) (index : Word32) (w20 w28 : Word)
  | ringStatus (h : Hdr) (index : Word32)
  | faultClear (h : Hdr) (index : Byte)
  | faultClearAll (h : Hdr) (cls : BitVec 3)
  | faultInject (h : Hdr) (w10 : Word) (detected corrected : BitVec 16)
  | faultInjectLive (h : Hdr) (w10 : Word) (detected corrected : BitVec 16)
  | faultnHoldExpire
  | dbgSet (h : Hdr) (value : Word)
  | timeClkReturn
  | admissionIntervalOpen (w : WinId)
  | coldStartDelayExpire
  | slotRefreshEnd
  | dynamicAddressAssign (mctp : Bool) (addr : BitVec 7)
  deriving DecidableEq, Repr

end Sys2Proof
end

