-- ==== Sys2Proof/Decode.lean ====
section
/-! DEFINITION. The command words of the opcode table. No row of spec/opcode_table.json gives bits, so no word spells a
command (log 2). -/

namespace Sys2Proof

/-- The command that a word spells by the table's bits: none, for the table gives no row any bits. -/
def decodeTableWord (_nbits _w : Nat) : Option Instr := none

end Sys2Proof
end

