-- ==== Sys2Proof/Config.lean ====
section
/-! DEFINITION. What the spec leaves open: free values, opaque, so that nothing in Lean can evaluate them (log 3). Each is
applied to the counter `State.free`, which a step advances, or to the operands it depends on. -/

namespace Sys2Proof.Config

/-- A word the spec does not give (answers of standards outside the spec, undefined bits). -/
opaque freeWord : Nat → Word

/-- A 32-bit word the spec does not give. -/
opaque freeWord32 : Nat → Word32

/-- A natural number the spec does not give. -/
opaque freeNat : Nat → Nat

/-- A signed number the spec does not give. -/
opaque freeInt : Nat → Int

/-- A line of data the spec does not give. -/
opaque freeLine : Nat → Line

/-- A byte the spec does not give. -/
opaque freeByte : Nat → Byte

/-- The die identifier and grade fused at manufacture (R671: reset "fuses"). -/
opaque dieId : BitVec 56

/-- The grade fuses of GLB_ID (R671). -/
opaque gradeFuse : BitVec 2

/-- SUB codes of SIDE items (R564 names none): 0 PRSNT_N, 1 PWRGD, 2 TCR_N, 3 data link layer, 4 trained width and rate, 5 L0p
width, 6 telemetry. -/
opaque sideCode : Nat → Byte

/-- LTSSM substate codes of PRT_STATUS (the spec names none): 0 Detect, 1 L0, 2 Recovery, 3 Disabled, 4 Hot Reset. -/
opaque ltssmCode : Nat → BitVec 6

/-- Check bits of a directory entry over its bits 119:0 (R290), and of an OLC tag word over its bits 36:0 (R297): R310 names the
code SECDED and gives no matrix. -/
opaque dirEcc : BitVec 120 → BitVec 8
opaque olcEcc : BitVec 37 → BitVec 7

/-- Bits 47:32 of the second word of a section header for a tick and a number of items (R576, log 84). -/
opaque sectionTick : Nat → Nat → Nat

/-- Bodies of a GAP section for CCLK and tick of the first lost item, ticks lost and bytes discarded (R582), and of an END section for
last tick, total bytes, gap count, cause and, in a record that wraps, the oldest tick still held (R581, R584): the spec gives no layout
(log 85). -/
opaque gapBody : Nat → Nat → Nat → Nat → List Word
opaque endBody : Nat → Nat → Nat → Nat → Option Nat → List Word

/-- Word of the fixed part of a STATE section, from the numbers that it holds (R577), and what a fixed part says when it is read (R587):
the spec gives no layout (log 85). -/
opaque fixedWord : List Int → Nat → Word
opaque fixedPart : List Word → FixedPart

/-- The plans and the coefficient table of a CONFIG section from the words that stand between its table items and its setup items
(R577, log 85). -/
opaque recordPlans : List Word → RecordPlans

/-- The message that a protocol header as received stands for, as the slice that accepted it reads it (R190, R587); the spec gives no
layout of CXL and PCIe headers. -/
opaque headMessage : BitVec 320 → InMsg

/-- Receive credits of one channel out of those of its class, where the class has several channels (R167, R168). -/
opaque chanShare : Nat → Nat → Nat

/-- Whether the content of a SIGNATURE section verifies for the bytes before it under a fused key hash: FIPS 186-5 and SHA-384, which the
spec names and does not give (R599, log 8). -/
opaque signatureVerifies : List Word → List Word → List Word → Bool

end Sys2Proof.Config
end

