-- ==== Sys2Proof/Machine/Tab.lean ====
section
/-! DEFINITION. Sparse tables: keys strictly rising, no entry equal to what an unlisted key reads as, so that equal tables
are equal data. Memory of the device is such a table of bytes. -/

namespace Sys2Proof.Machine

/-- A sparse table from natural keys. -/
abbrev Tab (α : Type) := List (Nat × α)

/-- The value at a key; an unlisted key reads as `d key`. -/
def Tab.get {α : Type} (d : Nat → α) : Tab α → Nat → α
  | [], k => d k
  | (j, a) :: t, k => if j = k then a else Tab.get d t k

/-- The table without key `k`. -/
def Tab.erase {α : Type} : Tab α → Nat → Tab α
  | [], _ => []
  | (j, a) :: t, k => if j = k then Tab.erase t k else (j, a) :: Tab.erase t k

/-- The table with `v` at key `k`, in key order. -/
def Tab.insert {α : Type} : Tab α → Nat → α → Tab α
  | [], k, v => [(k, v)]
  | (j, a) :: t, k, v =>
    if k < j then (k, v) :: (j, a) :: t
    else if j = k then (k, v) :: t
    else (j, a) :: Tab.insert t k v

/-- Write `v` at `k`: writing what an unlisted key reads as removes the entry. -/
def Tab.set {α : Type} [DecidableEq α] (d : Nat → α) (t : Tab α) (k : Nat) (v : α) : Tab α :=
  if v = d k then Tab.erase t k else Tab.insert t k v

/-- Change the value at a key. -/
def Tab.upd {α : Type} [DecidableEq α] (d : Nat → α) (t : Tab α) (k : Nat) (f : α → α) : Tab α :=
  Tab.set d t k (f (Tab.get d t k))

/-- Every listed key is at least `n`, keys rise strictly, and no entry is a default. -/
def Tab.wfFrom {α : Type} [DecidableEq α] (d : Nat → α) : Nat → Tab α → Bool
  | _, [] => true
  | n, (j, a) :: t => decide (n ≤ j) && decide (a ≠ d j) && Tab.wfFrom d (j + 1) t

/-- The canonical form. -/
def Tab.wf {α : Type} [DecidableEq α] (d : Nat → α) (t : Tab α) : Bool := Tab.wfFrom d 0 t

/-- Default of a table of optional entries: none. -/
def noneAt {α : Type} (_ : Nat) : Option α := none

/-- The listed entries whose key satisfies `p`. -/
def Tab.keys {α : Type} (t : Tab α) : List Nat := t.map Prod.fst

/-- Change every listed entry in place. -/
def Tab.mapAll {α : Type} [DecidableEq α] (d : Nat → α) (t : Tab α) (f : Nat → α → α) : Tab α :=
  t.foldl (fun u e => Tab.set d u e.1 (f e.1 e.2)) t

/-- Memory: bytes at addresses; a byte nothing has written reads as 0 (R327: scratch is zeroed at reservation). -/
abbrev Memory := List (Nat × BitVec 8)

def memDefault (_ : Nat) : BitVec 8 := 0

/-- Read one byte. -/
def Memory.readByte (m : Memory) (a : Nat) : BitVec 8 := Tab.get memDefault m a

/-- Write one byte. -/
def Memory.writeByte (m : Memory) (a : Nat) (v : BitVec 8) : Memory := Tab.set memDefault m a v

/-- Little-endian read of `n` bytes from `a` (R5, R360). -/
def Memory.read (m : Memory) (a : Nat) : Nat → Nat
  | 0 => 0
  | n + 1 => (m.readByte a).toNat + 256 * Memory.read m (a + 1) n

/-- Little-endian write of the low `n` bytes of `v` at `a`. -/
def Memory.write (m : Memory) (a : Nat) (v : Nat) : Nat → Memory
  | 0 => m
  | n + 1 => Memory.write (m.writeByte a (BitVec.ofNat 8 v)) (a + 1) (v / 256) n

def Memory.wf (m : Memory) : Bool := Tab.wf memDefault m

end Sys2Proof.Machine
end

