-- ==== Sys2Proof/Machine/Regs.lean ====
section
/-! DEFINITION. The setup registers of the device: every row of the register tables of spec 02 to 18 and 20 (R675 lists
them), with the factory value of each field (R11), its access code (R7), the range a table states for it (R692), the
instances it exists in (R669), and whether an image gives it a start value (R11). -/

namespace Sys2Proof.Machine

/-- Access codes of R7. -/
inductive Acc where
  | ro | rw | rwx | w1c | wo | rws | rwl
  deriving DecidableEq, Repr

/-- The instances a field exists in (R669). -/
inductive Scope where
  | every | lowestSlice | ps4n | first
  deriving DecidableEq, Repr

/-- One field of a register: place, access, factory value, stated range, instances. -/
structure Field where
  lo    : Nat
  width : Nat
  acc   : Acc
  reset : Nat
  range : Option (Nat × Nat)
  scope : Scope
  img   : Bool
  deriving DecidableEq, Repr

/-- One register or array of registers: offset of its first instance, distance and number of instances. -/
structure RegRow where
  base   : Nat
  stride : Nat
  count  : Nat
  fields : List Field
  deriving DecidableEq, Repr

/-- A field named by place, for the rules that read and write it. -/
structure FRef where
  base   : Nat
  stride : Nat
  lo     : Nat
  width  : Nat
  deriving DecidableEq, Repr

/-- A field without a stated range. -/
def fld (lo width : Nat) (acc : Acc) (reset : Nat) (scope : Scope := .every) : Field :=
  ⟨lo, width, acc, reset, none, scope, false⟩

/-- A field with a range its table states. -/
def fldR (lo width : Nat) (acc : Acc) (reset rmin rmax : Nat) (scope : Scope := .every) : Field :=
  ⟨lo, width, acc, reset, some (rmin, rmax), scope, false⟩

/-- A field that an image gives a start value. -/
def Field.starred (f : Field) : Field := { f with img := true }

namespace R
def GLB_ID_VENDOR : FRef := ⟨0x000000, 0, 0, 16⟩
def GLB_ID_DEVICE : FRef := ⟨0x000000, 0, 16, 16⟩
def GLB_ID_STEP : FRef := ⟨0x000000, 0, 32, 8⟩
def GLB_ID_GRADE : FRef := ⟨0x000000, 0, 40, 2⟩
def GLB_CAP_PORTS : FRef := ⟨0x000008, 0, 0, 7⟩
def GLB_CAP_ENGINES : FRef := ⟨0x000008, 0, 8, 7⟩
def GLB_CAP_HOMES : FRef := ⟨0x000008, 0, 16, 5⟩
def GLB_CAP_CUS : FRef := ⟨0x000008, 0, 24, 8⟩
def GLB_CAP_RING_FMT : FRef := ⟨0x000008, 0, 32, 4⟩
def GLB_CAP_IMG_FMT : FRef := ⟨0x000008, 0, 36, 4⟩
def GLB_CAP_PLAN_FMT : FRef := ⟨0x000008, 0, 40, 4⟩
def GLB_CAP_REC_FMT : FRef := ⟨0x000008, 0, 44, 4⟩
def GLB_CAP_MERAD : FRef := ⟨0x000008, 0, 48, 4⟩
def GLB_CAP_CMDSET : FRef := ⟨0x000008, 0, 56, 8⟩
def GLB_EXPERT_EN : FRef := ⟨0x000010, 0, 0, 16⟩
def GLB_EXPERT_LOCK : FRef := ⟨0x000010, 0, 63, 1⟩
def GLB_CTRL_I3C_WR : FRef := ⟨0x000018, 0, 0, 1⟩
def GLB_CTRL_SEAL : FRef := ⟨0x000018, 0, 8, 1⟩
def GLB_DISCARD_CNT_COUNT : FRef := ⟨0x000020, 0, 0, 48⟩
def GLB_DISCARD_LAST_BLOCK : FRef := ⟨0x000028, 0, 0, 4⟩
def GLB_DISCARD_LAST_PATH : FRef := ⟨0x000028, 0, 4, 2⟩
def GLB_DISCARD_LAST_CAUSE : FRef := ⟨0x000028, 0, 8, 3⟩
def GLB_DISCARD_LAST_OFFSET : FRef := ⟨0x000028, 0, 16, 24⟩
def GLB_SCRATCH_DATA : FRef := ⟨0x000030, 0, 0, 64⟩
def GLB_DIEID_DIEID : FRef := ⟨0x000038, 0, 0, 56⟩
def GLB_STRAP_BOOT_SEL : FRef := ⟨0x000040, 0, 0, 2⟩
def GLB_STRAP_MGR_SEL : FRef := ⟨0x000040, 0, 8, 6⟩
def GLB_START_CAUSE : FRef := ⟨0x000048, 0, 0, 3⟩
def GLB_START_COLD_CNT : FRef := ⟨0x000048, 0, 16, 16⟩
def GLB_START_PHASE_STEP : FRef := ⟨0x000050, 0, 0, 4⟩
def GLB_START_PHASE_SELFTEST_US : FRef := ⟨0x000050, 0, 16, 16⟩
def GLB_RESET_KEY : FRef := ⟨0x000058, 0, 0, 16⟩
def GLB_CLK_PLL_LOCK : FRef := ⟨0x000060, 0, 0, 1⟩
def GLB_CLK_SD_PRESENT : FRef := ⟨0x000060, 0, 1, 4⟩
def GLB_RCV_CTRL_LEN : FRef := ⟨0x000068, 0, 0, 23⟩
def GLB_RCV_CTRL_GO : FRef := ⟨0x000068, 0, 24, 1⟩
def GLB_RCV_CTRL_STATUS : FRef := ⟨0x000068, 0, 26, 2⟩
def GLB_RCV_CTRL_CODE : FRef := ⟨0x000068, 0, 32, 32⟩
def GLB_RCV_DATA_DATA : FRef := ⟨0x000070, 0, 0, 64⟩
def GLB_SPI_RELEASE : FRef := ⟨0x000078, 0, 0, 1⟩
def GLB_MRING_SQ_LOG2N : FRef := ⟨0x000100, 0, 0, 5⟩
def GLB_MRING_SQ_FMT : FRef := ⟨0x000100, 0, 8, 2⟩
def GLB_MRING_SQ_BASE : FRef := ⟨0x000100, 0, 12, 52⟩
def GLB_MRING_CQ_LOG2N : FRef := ⟨0x000108, 0, 0, 5⟩
def GLB_MRING_CQ_FMT : FRef := ⟨0x000108, 0, 8, 2⟩
def GLB_MRING_CQ_BASE : FRef := ⟨0x000108, 0, 12, 52⟩
def GLB_MRING_EVQ_LOG2N : FRef := ⟨0x000110, 0, 0, 5⟩
def GLB_MRING_EVQ_FMT : FRef := ⟨0x000110, 0, 8, 2⟩
def GLB_MRING_EVQ_BASE : FRef := ⟨0x000110, 0, 12, 52⟩
def GLB_MRING_DB_ADDR : FRef := ⟨0x000118, 0, 3, 61⟩
def GLB_MRING_SHADOW_ADDR : FRef := ⟨0x000120, 0, 3, 61⟩
def GLB_MRING_CTRL_EN : FRef := ⟨0x000128, 0, 0, 1⟩
def GLB_MRING_CTRL_DBMODE : FRef := ⟨0x000128, 0, 1, 2⟩
def GLB_MRING_CTRL_POLL : FRef := ⟨0x000128, 0, 8, 8⟩
def GLB_MRING_CTRL_GEN : FRef := ⟨0x000128, 0, 16, 8⟩
def GLB_MRING_CTRL_VEC : FRef := ⟨0x000128, 0, 24, 11⟩
def GLB_MRING_STATUS_READY : FRef := ⟨0x000130, 0, 0, 1⟩
def GLB_MRING_STATUS_ERR : FRef := ⟨0x000130, 0, 1, 1⟩
def GLB_MRING_STATUS_CONS : FRef := ⟨0x000130, 0, 32, 32⟩
def IMG_CTRL_RET_EN : FRef := ⟨0x010000, 0, 0, 1⟩
def IMG_CTRL_CHECK_H : FRef := ⟨0x010000, 0, 8, 16⟩
def IMG_RET_REFRESH_H : FRef := ⟨0x010008, 0, 0, 18⟩
def IMG_STATUS_SRC : FRef := ⟨0x010010, 0, 0, 3⟩
def IMG_STATUS_ALT : FRef := ⟨0x010010, 0, 3, 1⟩
def IMG_STATUS_PHASE : FRef := ⟨0x010010, 0, 4, 3⟩
def IMG_STATUS_VALID : FRef := ⟨0x010010, 0, 8, 2⟩
def IMG_STATUS_RET_ERR : FRef := ⟨0x010010, 0, 10, 1⟩
def IMG_STATUS_REFRESH_DUE : FRef := ⟨0x010010, 0, 11, 1⟩
def IMG_STATUS_LEFT_S : FRef := ⟨0x010010, 0, 16, 16⟩
def IMG_STATUS_CODE : FRef := ⟨0x010010, 0, 32, 8⟩
def IMG_VERSION_RUN : FRef := ⟨0x010018, 0, 0, 32⟩
def IMG_VERSION_OTHER : FRef := ⟨0x010018, 0, 32, 32⟩
def IMG_SVN_FUSED : FRef := ⟨0x010020, 0, 0, 8⟩
def IMG_SVN_RUN : FRef := ⟨0x010020, 0, 8, 8⟩
def IMG_SVN_KEYSET : FRef := ⟨0x010020, 0, 16, 1⟩
def IMG_HOURS_HOURS : FRef := ⟨0x010028, 0, 0, 32⟩
def IMG_PAUSE_PAUSE_US : FRef := ⟨0x010030, 0, 0, 16⟩
def IMG_PAUSE_DRAIN_US : FRef := ⟨0x010030, 0, 16, 16⟩
def IMG_ACT_COUNT : FRef := ⟨0x010080, 0, 0, 48⟩
def IMG_FALLBACK_COUNT : FRef := ⟨0x010088, 0, 0, 48⟩
def IMG_RET_ERR_COUNT : FRef := ⟨0x010090, 0, 0, 48⟩
def IMG_REFRESH_COUNT : FRef := ⟨0x010098, 0, 0, 48⟩
def IMG_FUSE_KEY_KEY : FRef := ⟨0x010100, 8, 0, 64⟩
def IMG_FUSE_CMD_GO : FRef := ⟨0x010140, 0, 0, 1⟩
def IMG_FUSE_CMD_RESULT : FRef := ⟨0x010140, 0, 8, 2⟩
def TIK_CTRL_SRC : FRef := ⟨0x020000, 0, 0, 2⟩
def TIK_CTRL_ENABLE : FRef := ⟨0x020000, 0, 4, 1⟩
def TIK_CTRL_TCLK_FREQ : FRef := ⟨0x020000, 0, 8, 2⟩
def TIK_CTRL_PPS_FALL : FRef := ⟨0x020000, 0, 12, 1⟩
def TIK_HOLD_LIMIT_MS : FRef := ⟨0x020008, 0, 0, 16⟩
def TIK_PTM_PORT : FRef := ⟨0x020010, 0, 0, 6⟩
def TIK_PTM_INTERVAL : FRef := ⟨0x020010, 0, 16, 16⟩
def TIK_SERVO_KP : FRef := ⟨0x020018, 0, 0, 16⟩
def TIK_SERVO_KI : FRef := ⟨0x020018, 0, 16, 16⟩
def TIK_LEAD_LEAD_NS : FRef := ⟨0x020020, 0, 0, 16⟩
def TIK_STATUS_STATE : FRef := ⟨0x020028, 0, 0, 3⟩
def TIK_STATUS_PHASE_ERR : FRef := ⟨0x020028, 0, 16, 16⟩
def TIK_FTIME_FTIME : FRef := ⟨0x020030, 0, 0, 64⟩
def TIK_COUNT_COUNT : FRef := ⟨0x020038, 0, 0, 48⟩
def TIK_PERIOD_PERIOD : FRef := ⟨0x020040, 0, 0, 22⟩
def TIK_OUT_MODE : FRef := ⟨0x020048, 8, 0, 2⟩
def TIK_OUT_WIDTH : FRef := ⟨0x020048, 8, 8, 16⟩
def TIK_OUT_DIV : FRef := ⟨0x020048, 8, 24, 8⟩
def TIK_OUT_DLY_ADJ : FRef := ⟨0x020048, 8, 32, 8⟩
def TIK_PPS_FTIME_PPS_FTIME : FRef := ⟨0x020070, 0, 0, 64⟩
def TIK_PORT_WIRE_WIRE : FRef := ⟨0x020400, 8, 0, 8⟩
def TIK_PORT_WIRE_RESP : FRef := ⟨0x020400, 8, 16, 12⟩
def PRT_CFG_ROLE : FRef := ⟨0x040000, 2048, 0, 2⟩
def PRT_CFG_MAX_RATE : FRef := ⟨0x040000, 2048, 4, 3⟩
def PRT_CFG_FLIT : FRef := ⟨0x040000, 2048, 8, 2⟩
def PRT_CFG_LOPT : FRef := ⟨0x040000, 2048, 10, 1⟩
def PRT_QUAD_MODE : FRef := ⟨0x040008, 2048, 0, 2⟩
def PRT_MERAD_MAX_VER : FRef := ⟨0x040010, 2048, 0, 2⟩
def PRT_MERAD_WAIT_MS : FRef := ⟨0x040010, 2048, 8, 8⟩
def PRT_MERAD_NEG_VER : FRef := ⟨0x040010, 2048, 16, 2⟩
def PRT_L0P_BLW_EN : FRef := ⟨0x040018, 2048, 0, 1⟩
def PRT_L0P_MIN_W : FRef := ⟨0x040018, 2048, 1, 3⟩
def PRT_L0P_WIDEN_US : FRef := ⟨0x040018, 2048, 8, 8⟩
def PRT_HP_SURPRISE : FRef := ⟨0x040020, 2048, 0, 1⟩
def PRT_HP_AUTO_REBIND : FRef := ⟨0x040020, 2048, 1, 1⟩
def PRT_HP_TCG_EN : FRef := ⟨0x040020, 2048, 4, 1⟩
def PRT_HP_TCG : FRef := ⟨0x040020, 2048, 8, 4⟩
def PRT_TC_DRAIN_US : FRef := ⟨0x040028, 2048, 0, 16⟩
def PRT_CLKM_MODE : FRef := ⟨0x040030, 2048, 0, 2⟩
def PRT_CLKM_REFO_EN : FRef := ⟨0x040030, 2048, 4, 1⟩
def PRT_STATUS_STATE : FRef := ⟨0x040040, 2048, 0, 4⟩
def PRT_STATUS_WIDTH : FRef := ⟨0x040040, 2048, 4, 3⟩
def PRT_STATUS_RATE : FRef := ⟨0x040040, 2048, 8, 3⟩
def PRT_STATUS_MODE : FRef := ⟨0x040040, 2048, 12, 2⟩
def PRT_STATUS_GEN : FRef := ⟨0x040040, 2048, 16, 8⟩
def PRT_STATUS_LTSSM : FRef := ⟨0x040040, 2048, 24, 6⟩
def PRT_IDE_SECURE : FRef := ⟨0x040048, 2048, 0, 9⟩
def PRT_LDOWN_CNT_COUNT : FRef := ⟨0x040050, 2048, 0, 32⟩
def PRT_LNK_CFG_PRESET : FRef := ⟨0x040100, 2048, 0, 2⟩
def PRT_LNK_CFG_ACK_FLITS : FRef := ⟨0x040100, 2048, 8, 7⟩
def PRT_LNK_CFG_ACK_NS : FRef := ⟨0x040100, 2048, 16, 8⟩
def PRT_LNK_CFG_REPLAY_NS : FRef := ⟨0x040100, 2048, 32, 16⟩
def PRT_LNK_HCRED_H0 : FRef := ⟨0x040108, 2048, 0, 8⟩
def PRT_LNK_HCRED_H1 : FRef := ⟨0x040108, 2048, 8, 8⟩
def PRT_LNK_HCRED_H2 : FRef := ⟨0x040108, 2048, 16, 8⟩
def PRT_LNK_HCRED_H3 : FRef := ⟨0x040108, 2048, 24, 8⟩
def PRT_LNK_HCRED_H4 : FRef := ⟨0x040108, 2048, 32, 8⟩
def PRT_LNK_HCRED_H5 : FRef := ⟨0x040108, 2048, 40, 8⟩
def PRT_LNK_HCRED_H6 : FRef := ⟨0x040108, 2048, 48, 8⟩
def PRT_LNK_DCRED0_D0 : FRef := ⟨0x040110, 2048, 0, 16⟩
def PRT_LNK_DCRED0_D1 : FRef := ⟨0x040110, 2048, 16, 16⟩
def PRT_LNK_DCRED0_D2 : FRef := ⟨0x040110, 2048, 32, 16⟩
def PRT_LNK_DCRED0_D3 : FRef := ⟨0x040110, 2048, 48, 16⟩
def PRT_LNK_DCRED1_D4 : FRef := ⟨0x040118, 2048, 0, 16⟩
def PRT_LNK_DCRED1_D5 : FRef := ⟨0x040118, 2048, 16, 16⟩
def PRT_LNK_DCRED1_D6 : FRef := ⟨0x040118, 2048, 32, 16⟩
def PRT_LNK_SC0RSV_HDR : FRef := ⟨0x040120, 2048, 0, 4⟩
def PRT_LNK_SC0RSV_DATA : FRef := ⟨0x040120, 2048, 8, 8⟩
def PRT_LNK_RETRY_RETRAIN_MAX : FRef := ⟨0x040128, 2048, 0, 8⟩
def PRT_LNK_FEC_CORR_COUNT : FRef := ⟨0x040180, 2048, 0, 48⟩
def PRT_LNK_FEC_UNC_COUNT : FRef := ⟨0x040188, 2048, 0, 48⟩
def PRT_LNK_CRC_ERR_COUNT : FRef := ⟨0x040190, 2048, 0, 48⟩
def PRT_LNK_NAK_TX_COUNT : FRef := ⟨0x040198, 2048, 0, 48⟩
def PRT_LNK_NAK_RX_COUNT : FRef := ⟨0x0401A0, 2048, 0, 48⟩
def PRT_LNK_REPLAY_COUNT : FRef := ⟨0x0401A8, 2048, 0, 48⟩
def PRT_LNK_REPLAY_TO_COUNT : FRef := ⟨0x0401B0, 2048, 0, 48⟩
def PRT_LNK_DUP_COUNT : FRef := ⟨0x0401B8, 2048, 0, 48⟩
def PRT_LNK_RETRAIN_COUNT : FRef := ⟨0x0401C0, 2048, 0, 48⟩
def PRT_LNK_STALE_COUNT : FRef := ⟨0x0401C8, 2048, 0, 48⟩
def PRT_LNK_YOYO_FULL_COUNT : FRef := ⟨0x0401D0, 2048, 0, 48⟩
def PRT_LNK_UNCONF_COUNT : FRef := ⟨0x0401D8, 2048, 0, 48⟩
def PRT_LNK_SC0_DEMOTED_COUNT : FRef := ⟨0x0401E0, 2048, 0, 48⟩
def PRT_LNK_CSTALL_COUNT : FRef := ⟨0x0401E8, 2048, 0, 48⟩
def XBR_CTRL_PRESET : FRef := ⟨0x080000, 0, 0, 2⟩
def XBR_ALPHA_A0 : FRef := ⟨0x080008, 0, 0, 4⟩
def XBR_ALPHA_A1 : FRef := ⟨0x080008, 0, 4, 4⟩
def XBR_ALPHA_A2 : FRef := ⟨0x080008, 0, 8, 4⟩
def XBR_ALPHA_A3 : FRef := ⟨0x080008, 0, 12, 4⟩
def XBR_ALPHA_A4 : FRef := ⟨0x080008, 0, 16, 4⟩
def XBR_ALPHA_A5 : FRef := ⟨0x080008, 0, 20, 4⟩
def XBR_ALPHA_A6 : FRef := ⟨0x080008, 0, 24, 4⟩
def XBR_ALPHA_A7 : FRef := ⟨0x080008, 0, 28, 4⟩
def XBR_DWRR_W2 : FRef := ⟨0x080010, 0, 0, 8⟩
def XBR_DWRR_W3 : FRef := ⟨0x080010, 0, 8, 8⟩
def XBR_DWRR_W4 : FRef := ⟨0x080010, 0, 16, 8⟩
def XBR_DWRR_W5 : FRef := ⟨0x080010, 0, 24, 8⟩
def XBR_DWRR_W6 : FRef := ⟨0x080010, 0, 32, 8⟩
def XBR_DWRR_W7 : FRef := ⟨0x080010, 0, 40, 8⟩
def XBR_NPCAP_NP_CAP : FRef := ⟨0x080018, 0, 0, 12⟩
def XBR_AGE_LIMIT_US : FRef := ⟨0x080020, 0, 0, 16⟩
def XBR_AUDIT_TICKS : FRef := ⟨0x080028, 0, 0, 8⟩
def XBR_EPOCH_CUR : FRef := ⟨0x080030, 0, 0, 16⟩
def XBR_EPOCH_OLDEST : FRef := ⟨0x080030, 0, 16, 16⟩
def XBR_EPOCH_LIVE : FRef := ⟨0x080030, 0, 32, 9⟩
def XBR_FLUSH_NP_COUNT : FRef := ⟨0x080040, 0, 0, 48⟩
def XBR_FLUSH_POSTED_COUNT : FRef := ⟨0x080048, 0, 0, 48⟩
def XBR_FLUSH_CPL_COUNT : FRef := ⟨0x080050, 0, 0, 48⟩
def XBR_RESEQ_SKIP_COUNT : FRef := ⟨0x080058, 0, 0, 48⟩
def XBR_AUDIT_LEAK_COUNT : FRef := ⟨0x080060, 0, 0, 48⟩
def XBR_SAF_SAF : FRef := ⟨0x080100, 8, 0, 8⟩
def XBR_COL_FREE_FREE : FRef := ⟨0x081000, 64, 0, 14⟩
def XBR_COL_FREE_NP : FRef := ⟨0x081000, 64, 16, 12⟩
def XBR_COL_FREE_RSV : FRef := ⟨0x081000, 64, 32, 13⟩
def XBR_COL_REFUSE_COUNT : FRef := ⟨0x081008, 64, 0, 48⟩
def XBR_COL_GRANTLOSS_COUNT : FRef := ⟨0x081010, 64, 0, 48⟩
def XBR_COL_AGE_DROP_COUNT : FRef := ⟨0x081018, 64, 0, 48⟩
def XBR_COL_GEN_DROP_COUNT : FRef := ⟨0x081020, 64, 0, 48⟩
def XBR_COL_TAIL_BAD_COUNT : FRef := ⟨0x081028, 64, 0, 48⟩
def XBR_COL_RESTART_COUNT : FRef := ⟨0x081030, 64, 0, 48⟩
def XBR_COL_ECC_COUNT : FRef := ⟨0x081038, 64, 0, 48⟩
def HOM_CTRL_FWD_EN : FRef := ⟨0x0A0000, 4096, 0, 1⟩
def HOM_SNP_TSNP_US : FRef := ⟨0x0A0008, 4096, 0, 7⟩
def HOM_TRK_SC2_MAX : FRef := ⟨0x0A0010, 4096, 0, 12⟩
def HOM_WATCH_DELAY_NS : FRef := ⟨0x0A0018, 4096, 0, 12⟩
def HOM_STATUS_WALK : FRef := ⟨0x0A0020, 4096, 0, 1⟩
def HOM_STATUS_OPEN : FRef := ⟨0x0A0020, 4096, 1, 13⟩
def HOM_STATUS_GUARD : FRef := ⟨0x0A0020, 4096, 16, 6⟩
def HOM_STATUS_RETRY : FRef := ⟨0x0A0020, 4096, 32, 11⟩
def HOM_HEALTH_FAILED : FRef := ⟨0x0A0028, 4096, 0, 1⟩
def HOM_HEALTH_CAUSE : FRef := ⟨0x0A0028, 4096, 1, 3⟩
def HOM_WB_EN : FRef := ⟨0x0A0030, 4096, 0, 1⟩
def HOM_WB_RATE : FRef := ⟨0x0A0030, 4096, 8, 8⟩
def HOM_SCRUB_EN : FRef := ⟨0x0A0038, 4096, 0, 1⟩
def HOM_SCRUB_STEP_NS : FRef := ⟨0x0A0038, 4096, 16, 16⟩
def HOM_OCC_LIVE : FRef := ⟨0x0A0040, 4096, 0, 16⟩
def HOM_OCC_PINNED : FRef := ⟨0x0A0040, 4096, 16, 16⟩
def HOM_OCC_DIRTY : FRef := ⟨0x0A0040, 4096, 32, 16⟩
def HOM_OCC_RES : FRef := ⟨0x0A0040, 4096, 48, 16⟩
def HOM_NAK_COUNT : FRef := ⟨0x0A0080, 4096, 0, 48⟩
def HOM_GUARD_COUNT : FRef := ⟨0x0A0088, 4096, 0, 48⟩
def HOM_EXHAUST_COUNT : FRef := ⟨0x0A0090, 4096, 0, 48⟩
def HOM_CONFLICT_COUNT : FRef := ⟨0x0A0098, 4096, 0, 48⟩
def HOM_CROSS_WB_COUNT : FRef := ⟨0x0A00A0, 4096, 0, 48⟩
def HOM_SNP_TOUT_COUNT : FRef := ⟨0x0A00A8, 4096, 0, 48⟩
def HOM_FWD_COUNT : FRef := ⟨0x0A00B0, 4096, 0, 48⟩
def HOM_LOST_COUNT : FRef := ⟨0x0A00B8, 4096, 0, 48⟩
def HOM_STALE_COUNT : FRef := ⟨0x0A00C0, 4096, 0, 48⟩
def HOM_RT_WAIT_COUNT : FRef := ⟨0x0A00C8, 4096, 0, 48⟩
def HOM_EVICT_COUNT : FRef := ⟨0x0A00D0, 4096, 0, 48⟩
def HOM_FULLPIN_COUNT : FRef := ⟨0x0A00D8, 4096, 0, 48⟩
def HOM_WB_SLACK_COUNT : FRef := ⟨0x0A00E0, 4096, 0, 48⟩
def HOM_WB_FORCED_COUNT : FRef := ⟨0x0A00E8, 4096, 0, 48⟩
def HOM_ECC_CORR_COUNT : FRef := ⟨0x0A00F0, 4096, 0, 48⟩
def HOM_ECC_UNC_COUNT : FRef := ⟨0x0A00F8, 4096, 0, 48⟩
def HOM_SCRUB_PASS_COUNT : FRef := ⟨0x0A0100, 4096, 0, 48⟩
def ENG_CTRL_REDISP_EN : FRef := ⟨0x0C0000, 1024, 0, 1⟩
def ENG_CTRL_OUTST : FRef := ⟨0x0C0000, 1024, 8, 6⟩
def ENG_STATUS_STATE : FRef := ⟨0x0C0008, 1024, 0, 3⟩
def ENG_STATUS_SPARE : FRef := ⟨0x0C0008, 1024, 3, 1⟩
def ENG_STATUS_CAUSE : FRef := ⟨0x0C0008, 1024, 4, 3⟩
def ENG_STATUS_DOMAIN : FRef := ⟨0x0C0008, 1024, 16, 12⟩
def ENG_STATUS_SLOT : FRef := ⟨0x0C0008, 1024, 32, 16⟩
def ENG_CYCLES_USED : FRef := ⟨0x0C0010, 1024, 0, 24⟩
def ENG_RUN_COUNT : FRef := ⟨0x0C0080, 1024, 0, 48⟩
def ENG_OVERRUN_COUNT : FRef := ⟨0x0C0088, 1024, 0, 48⟩
def ENG_OVERBUDGET_COUNT : FRef := ⟨0x0C0090, 1024, 0, 48⟩
def ENG_DEFER_COUNT : FRef := ⟨0x0C0098, 1024, 0, 48⟩
def ENG_SHED_COUNT : FRef := ⟨0x0C00A0, 1024, 0, 48⟩
def ENG_REDISP_COUNT : FRef := ⟨0x0C00A8, 1024, 0, 48⟩
def ENG_STALE_RSP_COUNT : FRef := ⟨0x0C00B0, 1024, 0, 48⟩
def ENG_ECC_CORR_COUNT : FRef := ⟨0x0C00B8, 1024, 0, 48⟩
def ENG_ECC_UNC_COUNT : FRef := ⟨0x0C00C0, 1024, 0, 48⟩
def DOM_FREE0_RULES : FRef := ⟨0x0E0000, 0, 0, 17⟩
def DOM_FREE0_BUCKETS : FRef := ⟨0x0E0000, 0, 32, 15⟩
def DOM_FREE1_COUNTERS : FRef := ⟨0x0E0008, 0, 0, 14⟩
def DOM_FREE1_EVQ : FRef := ⟨0x0E0008, 0, 32, 14⟩
def DOM_FREE2_DOMAINS : FRef := ⟨0x0E0010, 0, 0, 13⟩
def DOM_CTRL_EVT_LIMIT : FRef := ⟨0x0E0018, 0, 0, 16⟩
def DOM_RESET_STATUS_BUSY : FRef := ⟨0x0E0020, 0, 0, 1⟩
def DOM_RESET_STATUS_STEP : FRef := ⟨0x0E0020, 0, 1, 4⟩
def DOM_RESET_STATUS_DOMAIN : FRef := ⟨0x0E0020, 0, 16, 12⟩
def DOM_RULE_CORR_COUNT : FRef := ⟨0x0E0080, 0, 0, 48⟩
def DOM_RULE_UNC_COUNT : FRef := ⟨0x0E0088, 0, 0, 48⟩
def DOM_CU_STATUS_FENCED : FRef := ⟨0x0E1000, 32, 0, 1⟩
def DOM_CU_STATUS_CAUSE : FRef := ⟨0x0E1000, 32, 1, 3⟩
def DOM_CU_REFUSE_COUNT : FRef := ⟨0x0E1008, 32, 0, 48⟩
def DOM_CU_LOCKED_COUNT : FRef := ⟨0x0E1010, 32, 0, 48⟩
def DOM_CU_MISS_COUNT : FRef := ⟨0x0E1018, 32, 0, 48⟩
def SHP_CTRL_EN : FRef := ⟨0x100000, 0, 0, 1⟩
def SHP_CTRL_REPORT : FRef := ⟨0x100000, 0, 1, 1⟩
def SHP_STATUS_ACTIVE : FRef := ⟨0x100008, 0, 0, 15⟩
def SHP_STATUS_DRAIN : FRef := ⟨0x100008, 0, 16, 15⟩
def SHP_HOLD_COUNT : FRef := ⟨0x100080, 0, 0, 48⟩
def SHP_DROP_COUNT : FRef := ⟨0x100088, 0, 0, 48⟩
def SHP_SKIP_COUNT : FRef := ⟨0x100090, 0, 0, 48⟩
def SHP_NC_COUNT : FRef := ⟨0x100098, 0, 0, 48⟩
def BLW_CAP_CAP_W : FRef := ⟨0x110000, 0, 0, 8⟩
def BLW_RT_SHARE_PCT : FRef := ⟨0x110008, 0, 0, 7⟩
def BLW_LSTEP_A_US : FRef := ⟨0x110010, 0, 0, 7⟩
def BLW_LSTEP_BALLAST_EN : FRef := ⟨0x110010, 0, 8, 1⟩
def BLW_GOV_G_MIN : FRef := ⟨0x110018, 0, 0, 5⟩
def BLW_GOV_G_UP : FRef := ⟨0x110018, 0, 8, 5⟩
def BLW_GOV_DEFER_G : FRef := ⟨0x110018, 0, 16, 5⟩
def BLW_GOV_SLACK_W : FRef := ⟨0x110018, 0, 24, 8⟩
def BLW_THERM_KNEE : FRef := ⟨0x110020, 0, 0, 8⟩
def BLW_THERM_D105_PCT : FRef := ⟨0x110020, 0, 8, 8⟩
def BLW_THERM_WARN : FRef := ⟨0x110020, 0, 16, 8⟩
def BLW_THERM_TRIP : FRef := ⟨0x110020, 0, 24, 8⟩
def BLW_CAL_EN : FRef := ⟨0x110028, 0, 0, 1⟩
def BLW_CAL_ADDR : FRef := ⟨0x110028, 0, 1, 7⟩
def BLW_CAL_PAGE : FRef := ⟨0x110028, 0, 8, 8⟩
def BLW_L0P_IDLE_US : FRef := ⟨0x110030, 0, 0, 8⟩
def BLW_PWR_CONC : FRef := ⟨0x110038, 0, 0, 4⟩
def BLW_PWR_IMAX_DA : FRef := ⟨0x110038, 0, 8, 8⟩
def BLW_PWR_SAMPLE_US : FRef := ⟨0x110038, 0, 16, 9⟩
def BLW_PWR_ELIM_UJ : FRef := ⟨0x110038, 0, 32, 8⟩
def BLW_PWR_LEGACY : FRef := ⟨0x110038, 0, 40, 1⟩
def BLW_STATUS_G : FRef := ⟨0x110040, 0, 0, 5⟩
def BLW_STATUS_SLACK : FRef := ⟨0x110040, 0, 5, 1⟩
def BLW_STATUS_HOT : FRef := ⟨0x110040, 0, 6, 1⟩
def BLW_STATUS_CAL_HELD : FRef := ⟨0x110040, 0, 7, 1⟩
def BLW_STATUS_TEMP : FRef := ⟨0x110040, 0, 8, 11⟩
def BLW_STATUS_KAPPA : FRef := ⟨0x110040, 0, 32, 16⟩
def BLW_POWER_P_EST : FRef := ⟨0x110048, 0, 0, 16⟩
def BLW_POWER_P_BAL : FRef := ⟨0x110048, 0, 16, 16⟩
def BLW_POWER_I_CORE : FRef := ⟨0x110048, 0, 32, 16⟩
def BLW_DEFER_COUNT : FRef := ⟨0x110080, 0, 0, 48⟩
def BLW_CAPX_COUNT : FRef := ⟨0x110088, 0, 0, 48⟩
def BLW_BALLAST_UJ_COUNT : FRef := ⟨0x110090, 0, 0, 48⟩
def BLW_RT_OVER_COUNT : FRef := ⟨0x110098, 0, 0, 48⟩
def BLW_CAL_FAIL_COUNT : FRef := ⟨0x1100A0, 0, 0, 48⟩
def BLW_LSTEP_MISS_COUNT : FRef := ⟨0x1100A8, 0, 0, 48⟩
def BLW_PORT_HS_ADDR : FRef := ⟨0x111000, 32, 0, 7⟩
def BLW_PORT_HS_VREG : FRef := ⟨0x111000, 32, 8, 8⟩
def BLW_PORT_HS_VLSB_UV : FRef := ⟨0x111000, 32, 16, 16⟩
def BLW_PORT_LOAD_CLOAD_UF : FRef := ⟨0x111008, 32, 0, 16⟩
def BLW_PORT_LOAD_VNOM_DV : FRef := ⟨0x111008, 32, 16, 8⟩
def BLW_PORT_LOAD_RAMP_MS : FRef := ⟨0x111008, 32, 24, 8⟩
def BLW_PORT_LOAD_RREG : FRef := ⟨0x111008, 32, 32, 8⟩
def BLW_PORT_LOAD_RVAL : FRef := ⟨0x111008, 32, 40, 8⟩
def BLW_PORT_PROOF_E_NJ : FRef := ⟨0x111010, 32, 0, 32⟩
def BLW_PORT_PROOF_PASSED : FRef := ⟨0x111010, 32, 32, 1⟩
def BLW_PORT_PROOF_FAILED : FRef := ⟨0x111010, 32, 33, 1⟩
def RNG_CTRL_BURST : FRef := ⟨0x120000, 0, 0, 6⟩
def RNG_STATUS_ACTIVE : FRef := ⟨0x120008, 0, 0, 14⟩
def RNG_STATUS_ERROR : FRef := ⟨0x120008, 0, 16, 14⟩
def RNG_FETCH_COUNT : FRef := ⟨0x120080, 0, 0, 48⟩
def RNG_BAD_COUNT : FRef := ⟨0x120088, 0, 0, 48⟩
def RNG_DB_STALE_COUNT : FRef := ⟨0x120090, 0, 0, 48⟩
def RNG_CQ_DROP_COUNT : FRef := ⟨0x120098, 0, 0, 48⟩
def RNG_STAT_DROP_COUNT : FRef := ⟨0x1200A0, 0, 0, 48⟩
def RNG_RING_ERR_COUNT : FRef := ⟨0x1200A8, 0, 0, 48⟩
def RNG_WATCH_SIG_COUNT : FRef := ⟨0x1200B0, 0, 0, 48⟩
def RNG_POLL_COUNT : FRef := ⟨0x1200B8, 0, 0, 48⟩
def EVQ_STATUS_ACTIVE : FRef := ⟨0x130008, 0, 0, 14⟩
def EVQ_WRITTEN_COUNT : FRef := ⟨0x130080, 0, 0, 48⟩
def EVQ_INACTIVE_COUNT : FRef := ⟨0x130088, 0, 0, 48⟩
def EVQ_FULL_DROP_COUNT : FRef := ⟨0x130090, 0, 0, 48⟩
def EVQ_MSIX_COUNT : FRef := ⟨0x130098, 0, 0, 48⟩
def PMC_CTRL_FREEZE : FRef := ⟨0x140000, 0, 0, 1⟩
def PMC_STATUS_ENABLED : FRef := ⟨0x140008, 0, 0, 14⟩
def PMC_SAMPLE_COUNT : FRef := ⟨0x140080, 0, 0, 48⟩
def PMC_SAMPLE_LOST_COUNT : FRef := ⟨0x140088, 0, 0, 48⟩
def PMC_SNAP_COUNT : FRef := ⟨0x140090, 0, 0, 48⟩
def PMC_NOSTAT_COUNT : FRef := ⟨0x140098, 0, 0, 48⟩
def FLT_CTRL_THRESH : FRef := ⟨0x150000, 0, 0, 2⟩
def FLT_CTRL_AUTOCLR1 : FRef := ⟨0x150000, 0, 4, 1⟩
def FLT_CTRL_INJ_LIVE : FRef := ⟨0x150000, 0, 8, 1⟩
def FLT_STATUS_SAFE : FRef := ⟨0x150008, 0, 0, 1⟩
def FLT_STATUS_FAULTN : FRef := ⟨0x150008, 0, 1, 1⟩
def FLT_STATUS_OVF : FRef := ⟨0x150008, 0, 2, 1⟩
def FLT_STATUS_INJ : FRef := ⟨0x150008, 0, 3, 1⟩
def FLT_STATUS_OPEN : FRef := ⟨0x150008, 0, 4, 9⟩
def FLT_STATUS_HIGH : FRef := ⟨0x150008, 0, 16, 3⟩
def FLT_LAST_CAUSE : FRef := ⟨0x150010, 0, 0, 12⟩
def FLT_LAST_STAMP : FRef := ⟨0x150010, 0, 16, 48⟩
def FLT_FC4_MASK_MASK : FRef := ⟨0x150018, 0, 0, 16⟩
def FLT_CLR_INDEX : FRef := ⟨0x150020, 0, 0, 8⟩
def FLT_CLR_ALL : FRef := ⟨0x150020, 0, 16, 1⟩
def FLT_CLR_CLASS : FRef := ⟨0x150020, 0, 24, 3⟩
def FLT_FC1_CNT_COUNT : FRef := ⟨0x150080, 0, 0, 48⟩
def FLT_FC2_CNT_COUNT : FRef := ⟨0x150088, 0, 0, 48⟩
def FLT_FC3_CNT_COUNT : FRef := ⟨0x150090, 0, 0, 48⟩
def FLT_OVF_CNT_COUNT : FRef := ⟨0x150098, 0, 0, 48⟩
def FLT_INJ_CNT_COUNT : FRef := ⟨0x1500A0, 0, 0, 48⟩
def FLT_ENTRY0_CAUSE : FRef := ⟨0x151000, 16, 0, 12⟩
def FLT_ENTRY0_CLASS : FRef := ⟨0x151000, 16, 12, 3⟩
def FLT_ENTRY0_INJ : FRef := ⟨0x151000, 16, 15, 1⟩
def FLT_ENTRY0_UNIT : FRef := ⟨0x151000, 16, 16, 8⟩
def FLT_ENTRY0_COUNT : FRef := ⟨0x151000, 16, 24, 16⟩
def FLT_ENTRY0_VALID : FRef := ⟨0x151000, 16, 63, 1⟩
def FLT_ENTRY1_STAMP : FRef := ⟨0x151008, 16, 0, 48⟩
def REC_CTRL_SPILL_GBS : FRef := ⟨0x160000, 0, 0, 7⟩
def REC_CTRL_QLIMIT_US : FRef := ⟨0x160000, 0, 16, 16⟩
def REC_STATUS_STATE : FRef := ⟨0x160008, 0, 0, 3⟩
def REC_STATUS_GAP : FRef := ⟨0x160008, 0, 3, 1⟩
def REC_STATUS_ID : FRef := ⟨0x160008, 0, 32, 32⟩
def REC_BUF_USED : FRef := ⟨0x160010, 0, 0, 25⟩
def REC_BUF_HIGH : FRef := ⟨0x160010, 0, 32, 25⟩
def REC_SINK_WRITTEN : FRef := ⟨0x160018, 0, 0, 48⟩
def REC_ITEMS_COUNT : FRef := ⟨0x160080, 0, 0, 48⟩
def REC_DISCARD_COUNT : FRef := ⟨0x160088, 0, 0, 48⟩
def REC_GAPS_COUNT : FRef := ⟨0x160090, 0, 0, 48⟩
def REC_BUF_READ_DATA : FRef := ⟨0x160100, 0, 0, 64⟩
def DBG_CTRL_EN : FRef := ⟨0x170000, 0, 0, 1⟩
def DBG_CTRL_DOMAIN : FRef := ⟨0x170000, 0, 16, 12⟩
def DBG_STATUS_SESSION : FRef := ⟨0x170008, 0, 0, 1⟩
def DBG_STATUS_FENCED : FRef := ⟨0x170008, 0, 1, 1⟩
def DBG_REFUSE_COUNT : FRef := ⟨0x170080, 0, 0, 48⟩
def DBG_LOCKED_COUNT : FRef := ⟨0x170088, 0, 0, 48⟩
end R

/-- Registers of block GLB. -/
def glbRows : List RegRow := [
  ⟨0x000000, 0, 1, [fld 0 16 .ro 8043, fld 16 16 .ro 25728, fld 32 8 .ro 177, fld 40 2 .ro 0]⟩,
  ⟨0x000008, 0, 1, [fld 0 7 .ro 64, fld 8 7 .ro 64, fld 16 5 .ro 16, fld 24 8 .ro 130, fld 32 4 .ro 2, fld 36 4 .ro 2, fld 40 4 .ro 1, fld 44 4 .ro 1, fld 48 4 .ro 3, fld 56 8 .ro 1]⟩,
  ⟨0x000010, 0, 1, [(fld 0 16 .rw 0).starred, fld 63 1 .rwl 0]⟩,
  ⟨0x000018, 0, 1, [(fld 0 1 .rw 1).starred, fld 8 1 .rwl 0]⟩,
  ⟨0x000020, 0, 1, [fld 0 48 .rws 0]⟩,
  ⟨0x000028, 0, 1, [fld 0 4 .ro 0, fld 4 2 .ro 0, fld 8 3 .ro 0, fld 16 24 .ro 0]⟩,
  ⟨0x000030, 0, 1, [fld 0 64 .rw 0]⟩,
  ⟨0x000038, 0, 1, [fld 0 56 .ro 0]⟩,
  ⟨0x000040, 0, 1, [fld 0 2 .ro 0, fld 8 6 .ro 0]⟩,
  ⟨0x000048, 0, 1, [fld 0 3 .ro 0, fld 16 16 .ro 0]⟩,
  ⟨0x000050, 0, 1, [fld 0 4 .ro 0, fld 16 16 .ro 0]⟩,
  ⟨0x000058, 0, 1, [fld 0 16 .wo 0]⟩,
  ⟨0x000060, 0, 1, [fld 0 1 .ro 0, fld 1 4 .ro 0]⟩,
  ⟨0x000068, 0, 1, [fldR 0 23 .rw 0 4096 4194304, fld 24 1 .wo 0, fld 26 2 .ro 0, fld 32 32 .ro 0]⟩,
  ⟨0x000070, 0, 1, [fld 0 64 .wo 0]⟩,
  ⟨0x000078, 0, 1, [fld 0 1 .rwx 0]⟩,
  ⟨0x000100, 0, 1, [fld 0 5 .rw 0, fld 8 2 .rw 0, fld 12 52 .rw 0]⟩,
  ⟨0x000108, 0, 1, [fld 0 5 .rw 0, fld 8 2 .rw 0, fld 12 52 .rw 0]⟩,
  ⟨0x000110, 0, 1, [fld 0 5 .rw 0, fld 8 2 .rw 0, fld 12 52 .rw 0]⟩,
  ⟨0x000118, 0, 1, [fld 3 61 .rw 0]⟩,
  ⟨0x000120, 0, 1, [fld 3 61 .rw 0]⟩,
  ⟨0x000128, 0, 1, [fld 0 1 .rw 0, fld 1 2 .rw 1, fld 8 8 .rw 8, fld 16 8 .rw 0, fld 24 11 .rw 0]⟩,
  ⟨0x000130, 0, 1, [fld 0 1 .ro 0, fld 1 1 .ro 0, fld 32 32 .ro 0]⟩]

/-- Registers of block IMG. -/
def imgRows : List RegRow := [
  ⟨0x010000, 0, 1, [(fld 0 1 .rw 1).starred, (fldR 8 16 .rwx 720 24 8760).starred]⟩,
  ⟨0x010008, 0, 1, [(fldR 0 18 .rwx 87600 8760 175200).starred]⟩,
  ⟨0x010010, 0, 1, [fld 0 3 .ro 0, fld 3 1 .ro 0, fld 4 3 .ro 0, fld 8 2 .ro 0, fld 10 1 .ro 0, fld 11 1 .ro 0, fld 16 16 .ro 0, fld 32 8 .ro 0]⟩,
  ⟨0x010018, 0, 1, [fld 0 32 .ro 0, fld 32 32 .ro 0]⟩,
  ⟨0x010020, 0, 1, [fld 0 8 .ro 0, fld 8 8 .ro 0, fld 16 1 .ro 0]⟩,
  ⟨0x010028, 0, 1, [fld 0 32 .ro 0]⟩,
  ⟨0x010030, 0, 1, [fld 0 16 .ro 0, fld 16 16 .ro 0]⟩,
  ⟨0x010080, 0, 1, [fld 0 48 .rws 0]⟩,
  ⟨0x010088, 0, 1, [fld 0 48 .rws 0]⟩,
  ⟨0x010090, 0, 1, [fld 0 48 .rws 0]⟩,
  ⟨0x010098, 0, 1, [fld 0 48 .rws 0]⟩,
  ⟨0x010100, 8, 6, [fld 0 64 .wo 0]⟩,
  ⟨0x010140, 0, 1, [fld 0 1 .wo 0, fld 8 2 .ro 0]⟩]

/-- Registers of block TIK. -/
def tikRows : List RegRow := [
  ⟨0x020000, 0, 1, [(fldR 0 2 .rw 0 0 2).starred, (fld 4 1 .rw 1).starred, (fldR 8 2 .rw 0 0 2).starred, fld 12 1 .rwx 0]⟩,
  ⟨0x020008, 0, 1, [(fldR 0 16 .rw 100 1 10000).starred]⟩,
  ⟨0x020010, 0, 1, [(fld 0 6 .rw 0).starred, (fldR 16 16 .rwx 1000 125 10000).starred]⟩,
  ⟨0x020018, 0, 1, [(fld 0 16 .rwx 2048).starred, (fld 16 16 .rwx 64).starred]⟩,
  ⟨0x020020, 0, 1, [(fldR 0 16 .rwx 4000 1000 64000).starred]⟩,
  ⟨0x020028, 0, 1, [fld 0 3 .ro 0, fld 16 16 .ro 0]⟩,
  ⟨0x020030, 0, 1, [fld 0 64 .ro 0]⟩,
  ⟨0x020038, 0, 1, [fld 0 48 .ro 0]⟩,
  ⟨0x020040, 0, 1, [fld 0 22 .ro 1000000]⟩,
  ⟨0x020048, 8, 4, [(fld 0 2 .rw 1).starred, (fldR 8 16 .rw 100 8 65535).starred, (fld 24 8 .rw 1).starred, (fld 32 8 .rwx 0).starred]⟩,
  ⟨0x020070, 0, 1, [fld 0 64 .rw 0]⟩,
  ⟨0x020400, 8, 64, [(fld 0 8 .rw 10).starred, (fld 16 12 .rw 400).starred]⟩]

/-- Registers of block PRT. -/
def prtRows : List RegRow := [
  ⟨0x040000, 2048, 64, [(fld 0 2 .rw 0 .lowestSlice).starred, (fldR 4 3 .rw 6 1 6 .lowestSlice).starred, (fldR 8 2 .rwx 0 0 2 .lowestSlice).starred, (fld 10 1 .rwx 0 .lowestSlice).starred]⟩,
  ⟨0x040008, 2048, 64, [(fld 0 2 .rw 0 .ps4n).starred]⟩,
  ⟨0x040010, 2048, 64, [(fld 0 2 .rw 3 .lowestSlice).starred, (fldR 8 8 .rwx 50 1 255 .lowestSlice).starred, fld 16 2 .ro 0 .lowestSlice]⟩,
  ⟨0x040018, 2048, 64, [(fld 0 1 .rw 1 .lowestSlice).starred, (fldR 1 3 .rwx 1 0 3 .lowestSlice).starred, (fldR 8 8 .rwx 16 4 64 .lowestSlice).starred]⟩,
  ⟨0x040020, 2048, 64, [(fld 0 1 .rw 0 .lowestSlice).starred, (fld 1 1 .rw 0 .lowestSlice).starred, (fld 4 1 .rw 0 .lowestSlice).starred, (fld 8 4 .rw 0 .lowestSlice).starred]⟩,
  ⟨0x040028, 2048, 64, [(fldR 0 16 .rwx 100 10 65535 .lowestSlice).starred]⟩,
  ⟨0x040030, 2048, 64, [(fldR 0 2 .rw 0 0 2 .lowestSlice).starred, (fld 4 1 .rw 0 .ps4n).starred]⟩,
  ⟨0x040040, 2048, 64, [fld 0 4 .ro 0, fld 4 3 .ro 0, fld 8 3 .ro 0, fld 12 2 .ro 0, fld 16 8 .ro 0, fld 24 6 .ro 0]⟩,
  ⟨0x040048, 2048, 64, [fld 0 9 .ro 0 .lowestSlice]⟩,
  ⟨0x040050, 2048, 64, [fld 0 32 .rws 0 .lowestSlice]⟩,
  ⟨0x040100, 2048, 64, [(fld 0 2 .rw 0 .lowestSlice).starred, (fldR 8 7 .rwx 16 1 64 .lowestSlice).starred, (fldR 16 8 .rwx 64 8 255 .lowestSlice).starred, (fldR 32 16 .rwx 1024 256 16384 .lowestSlice).starred]⟩,
  ⟨0x040108, 2048, 64, [(fld 0 8 .rwx 32 .lowestSlice).starred, (fld 8 8 .rwx 96 .lowestSlice).starred, (fld 16 8 .rwx 112 .lowestSlice).starred, (fld 24 8 .rwx 112 .lowestSlice).starred, (fld 32 8 .rwx 48 .lowestSlice).starred, (fld 40 8 .rwx 48 .lowestSlice).starred, (fld 48 8 .rwx 64 .lowestSlice).starred]⟩,
  ⟨0x040110, 2048, 64, [(fld 0 16 .rwx 256 .lowestSlice).starred, (fld 16 16 .rwx 64 .lowestSlice).starred, (fld 32 16 .rwx 448 .lowestSlice).starred, (fld 48 16 .rwx 512 .lowestSlice).starred]⟩,
  ⟨0x040118, 2048, 64, [(fld 0 16 .rwx 256 .lowestSlice).starred, (fld 16 16 .rwx 16 .lowestSlice).starred, (fld 32 16 .rwx 496 .lowestSlice).starred]⟩,
  ⟨0x040120, 2048, 64, [(fld 0 4 .rwx 4 .lowestSlice).starred, (fld 8 8 .rwx 16 .lowestSlice).starred]⟩,
  ⟨0x040128, 2048, 64, [(fldR 0 8 .rwx 8 1 255 .lowestSlice).starred]⟩,
  ⟨0x040180, 2048, 64, [fld 0 48 .rws 0 .lowestSlice]⟩,
  ⟨0x040188, 2048, 64, [fld 0 48 .rws 0 .lowestSlice]⟩,
  ⟨0x040190, 2048, 64, [fld 0 48 .rws 0 .lowestSlice]⟩,
  ⟨0x040198, 2048, 64, [fld 0 48 .rws 0 .lowestSlice]⟩,
  ⟨0x0401A0, 2048, 64, [fld 0 48 .rws 0 .lowestSlice]⟩,
  ⟨0x0401A8, 2048, 64, [fld 0 48 .rws 0 .lowestSlice]⟩,
  ⟨0x0401B0, 2048, 64, [fld 0 48 .rws 0 .lowestSlice]⟩,
  ⟨0x0401B8, 2048, 64, [fld 0 48 .rws 0 .lowestSlice]⟩,
  ⟨0x0401C0, 2048, 64, [fld 0 48 .rws 0 .lowestSlice]⟩,
  ⟨0x0401C8, 2048, 64, [fld 0 48 .rws 0 .lowestSlice]⟩,
  ⟨0x0401D0, 2048, 64, [fld 0 48 .rws 0 .lowestSlice]⟩,
  ⟨0x0401D8, 2048, 64, [fld 0 48 .rws 0 .lowestSlice]⟩,
  ⟨0x0401E0, 2048, 64, [fld 0 48 .rws 0 .lowestSlice]⟩,
  ⟨0x0401E8, 2048, 64, [fld 0 48 .rws 0 .lowestSlice]⟩]

/-- Registers of block XBR. -/
def xbrRows : List RegRow := [
  ⟨0x080000, 0, 1, [(fld 0 2 .rw 0).starred]⟩,
  ⟨0x080008, 0, 1, [(fldR 0 4 .rwx 9 0 9).starred, (fldR 4 4 .rwx 7 0 9).starred, (fldR 8 4 .rwx 5 0 9).starred, (fldR 12 4 .rwx 6 0 9).starred, (fldR 16 4 .rwx 5 0 9).starred, (fldR 20 4 .rwx 4 0 9).starred, (fldR 24 4 .rwx 6 0 9).starred, (fldR 28 4 .rwx 3 0 9).starred]⟩,
  ⟨0x080010, 0, 1, [(fldR 0 8 .rwx 8 1 255).starred, (fldR 8 8 .rwx 8 1 255).starred, (fldR 16 8 .rwx 4 1 255).starred, (fldR 24 8 .rwx 2 1 255).starred, (fldR 32 8 .rwx 8 1 255).starred, (fldR 40 8 .rwx 1 1 255).starred]⟩,
  ⟨0x080018, 0, 1, [(fldR 0 12 .rwx 2048 256 2048).starred]⟩,
  ⟨0x080020, 0, 1, [(fldR 0 16 .rwx 2000 100 65535).starred]⟩,
  ⟨0x080028, 0, 1, [(fldR 0 8 .rwx 1 1 255).starred]⟩,
  ⟨0x080030, 0, 1, [fld 0 16 .ro 0, fld 16 16 .ro 0, fld 32 9 .ro 0]⟩,
  ⟨0x080040, 0, 1, [fld 0 48 .rws 0]⟩,
  ⟨0x080048, 0, 1, [fld 0 48 .rws 0]⟩,
  ⟨0x080050, 0, 1, [fld 0 48 .rws 0]⟩,
  ⟨0x080058, 0, 1, [fld 0 48 .rws 0]⟩,
  ⟨0x080060, 0, 1, [fld 0 48 .rws 0]⟩,
  ⟨0x080100, 8, 64, [(fld 0 8 .rw 0).starred]⟩,
  ⟨0x081000, 64, 88, [fld 0 14 .ro 8192, fld 16 12 .ro 0, fld 32 13 .ro 0]⟩,
  ⟨0x081008, 64, 88, [fld 0 48 .rws 0]⟩,
  ⟨0x081010, 64, 88, [fld 0 48 .rws 0]⟩,
  ⟨0x081018, 64, 88, [fld 0 48 .rws 0]⟩,
  ⟨0x081020, 64, 88, [fld 0 48 .rws 0]⟩,
  ⟨0x081028, 64, 88, [fld 0 48 .rws 0]⟩,
  ⟨0x081030, 64, 88, [fld 0 48 .rws 0]⟩,
  ⟨0x081038, 64, 88, [fld 0 48 .rws 0]⟩]

/-- Registers of block HOM. -/
def homRows : List RegRow := [
  ⟨0x0A0000, 4096, 16, [(fld 0 1 .rw 1 .first).starred]⟩,
  ⟨0x0A0008, 4096, 16, [(fldR 0 7 .rw 4 1 64 .first).starred]⟩,
  ⟨0x0A0010, 4096, 16, [(fldR 0 12 .rwx 2048 256 2048 .first).starred]⟩,
  ⟨0x0A0018, 4096, 16, [(fldR 0 12 .rwx 256 64 4095 .first).starred]⟩,
  ⟨0x0A0020, 4096, 16, [fld 0 1 .ro 0, fld 1 13 .ro 0, fld 16 6 .ro 0, fld 32 11 .ro 0]⟩,
  ⟨0x0A0028, 4096, 16, [fld 0 1 .ro 0, fld 1 3 .ro 0]⟩,
  ⟨0x0A0030, 4096, 16, [(fld 0 1 .rw 1 .first).starred, (fldR 8 8 .rwx 16 1 64 .first).starred]⟩,
  ⟨0x0A0038, 4096, 16, [(fld 0 1 .rw 1 .first).starred, (fldR 16 16 .rwx 1024 64 65535 .first).starred]⟩,
  ⟨0x0A0040, 4096, 16, [fld 0 16 .ro 0, fld 16 16 .ro 0, fld 32 16 .ro 0, fld 48 16 .ro 0]⟩,
  ⟨0x0A0080, 4096, 16, [fld 0 48 .rws 0]⟩,
  ⟨0x0A0088, 4096, 16, [fld 0 48 .rws 0]⟩,
  ⟨0x0A0090, 4096, 16, [fld 0 48 .rws 0]⟩,
  ⟨0x0A0098, 4096, 16, [fld 0 48 .rws 0]⟩,
  ⟨0x0A00A0, 4096, 16, [fld 0 48 .rws 0]⟩,
  ⟨0x0A00A8, 4096, 16, [fld 0 48 .rws 0]⟩,
  ⟨0x0A00B0, 4096, 16, [fld 0 48 .rws 0]⟩,
  ⟨0x0A00B8, 4096, 16, [fld 0 48 .rws 0]⟩,
  ⟨0x0A00C0, 4096, 16, [fld 0 48 .rws 0]⟩,
  ⟨0x0A00C8, 4096, 16, [fld 0 48 .rws 0]⟩,
  ⟨0x0A00D0, 4096, 16, [fld 0 48 .rws 0]⟩,
  ⟨0x0A00D8, 4096, 16, [fld 0 48 .rws 0]⟩,
  ⟨0x0A00E0, 4096, 16, [fld 0 48 .rws 0]⟩,
  ⟨0x0A00E8, 4096, 16, [fld 0 48 .rws 0]⟩,
  ⟨0x0A00F0, 4096, 16, [fld 0 48 .rws 0]⟩,
  ⟨0x0A00F8, 4096, 16, [fld 0 48 .rws 0]⟩,
  ⟨0x0A0100, 4096, 16, [fld 0 48 .rws 0]⟩]

/-- Registers of block ENG. -/
def engRows : List RegRow := [
  ⟨0x0C0000, 1024, 64, [(fld 0 1 .rw 1 .first).starred, (fldR 8 6 .rwx 32 4 32 .first).starred]⟩,
  ⟨0x0C0008, 1024, 64, [fld 0 3 .ro 0, fld 3 1 .ro 0, fld 4 3 .ro 0, fld 16 12 .ro 0, fld 32 16 .ro 0]⟩,
  ⟨0x0C0010, 1024, 64, [fld 0 24 .ro 0]⟩,
  ⟨0x0C0080, 1024, 64, [fld 0 48 .rws 0]⟩,
  ⟨0x0C0088, 1024, 64, [fld 0 48 .rws 0]⟩,
  ⟨0x0C0090, 1024, 64, [fld 0 48 .rws 0]⟩,
  ⟨0x0C0098, 1024, 64, [fld 0 48 .rws 0]⟩,
  ⟨0x0C00A0, 1024, 64, [fld 0 48 .rws 0]⟩,
  ⟨0x0C00A8, 1024, 64, [fld 0 48 .rws 0]⟩,
  ⟨0x0C00B0, 1024, 64, [fld 0 48 .rws 0]⟩,
  ⟨0x0C00B8, 1024, 64, [fld 0 48 .rws 0]⟩,
  ⟨0x0C00C0, 1024, 64, [fld 0 48 .rws 0]⟩]

/-- Registers of block DOM. -/
def domRows : List RegRow := [
  ⟨0x0E0000, 0, 1, [fld 0 17 .ro 64512, fld 32 15 .ro 16320]⟩,
  ⟨0x0E0008, 0, 1, [fld 0 14 .ro 8128, fld 32 14 .ro 8184]⟩,
  ⟨0x0E0010, 0, 1, [fld 0 13 .ro 4095]⟩,
  ⟨0x0E0018, 0, 1, [(fldR 0 16 .rwx 16 1 65535).starred]⟩,
  ⟨0x0E0020, 0, 1, [fld 0 1 .ro 0, fld 1 4 .ro 0, fld 16 12 .ro 0]⟩,
  ⟨0x0E0080, 0, 1, [fld 0 48 .rws 0]⟩,
  ⟨0x0E0088, 0, 1, [fld 0 48 .rws 0]⟩,
  ⟨0x0E1000, 32, 130, [fld 0 1 .ro 0, fld 1 3 .ro 0]⟩,
  ⟨0x0E1008, 32, 130, [fld 0 48 .rws 0]⟩,
  ⟨0x0E1010, 32, 130, [fld 0 48 .rws 0]⟩,
  ⟨0x0E1018, 32, 130, [fld 0 48 .rws 0]⟩]

/-- Registers of block SHP. -/
def shpRows : List RegRow := [
  ⟨0x100000, 0, 1, [(fld 0 1 .rw 1).starred, (fld 1 1 .rw 1).starred]⟩,
  ⟨0x100008, 0, 1, [fld 0 15 .ro 0, fld 16 15 .ro 0]⟩,
  ⟨0x100080, 0, 1, [fld 0 48 .rws 0]⟩,
  ⟨0x100088, 0, 1, [fld 0 48 .rws 0]⟩,
  ⟨0x100090, 0, 1, [fld 0 48 .rws 0]⟩,
  ⟨0x100098, 0, 1, [fld 0 48 .rws 0]⟩]

/-- Registers of block BLW. -/
def blwRows : List RegRow := [
  ⟨0x110000, 0, 1, [(fldR 0 8 .rw 235 60 235).starred]⟩,
  ⟨0x110008, 0, 1, [(fldR 0 7 .rw 40 0 90).starred]⟩,
  ⟨0x110010, 0, 1, [(fldR 0 7 .rw 20 5 80).starred, (fld 8 1 .rwx 1).starred]⟩,
  ⟨0x110018, 0, 1, [(fldR 0 5 .rwx 2 1 16).starred, (fldR 8 5 .rwx 2 1 16).starred, (fldR 16 5 .rwx 8 0 16).starred, (fldR 24 8 .rwx 20 0 100).starred]⟩,
  ⟨0x110020, 0, 1, [(fldR 0 8 .rwx 95 70 100).starred, (fldR 8 8 .rwx 85 50 100).starred, (fldR 16 8 .rwx 100 80 104).starred, (fldR 24 8 .rwx 110 106 115).starred]⟩,
  ⟨0x110028, 0, 1, [(fld 0 1 .rw 1).starred, (fld 1 7 .rw 64).starred, (fld 8 8 .rw 0).starred]⟩,
  ⟨0x110030, 0, 1, [(fldR 0 8 .rwx 32 8 255).starred]⟩,
  ⟨0x110038, 0, 1, [(fldR 0 4 .rw 2 1 8).starred, (fldR 8 8 .rw 20 1 255).starred, (fldR 16 9 .rwx 100 20 500).starred, (fldR 32 8 .rw 25 1 255).starred, (fld 40 1 .rw 0).starred]⟩,
  ⟨0x110040, 0, 1, [fld 0 5 .ro 16, fld 5 1 .ro 0, fld 6 1 .ro 0, fld 7 1 .ro 0, fld 8 11 .ro 0, fld 32 16 .ro 4096]⟩,
  ⟨0x110048, 0, 1, [fld 0 16 .ro 0, fld 16 16 .ro 0, fld 32 16 .ro 0]⟩,
  ⟨0x110080, 0, 1, [fld 0 48 .rws 0]⟩,
  ⟨0x110088, 0, 1, [fld 0 48 .rws 0]⟩,
  ⟨0x110090, 0, 1, [fld 0 48 .rws 0]⟩,
  ⟨0x110098, 0, 1, [fld 0 48 .rws 0]⟩,
  ⟨0x1100A0, 0, 1, [fld 0 48 .rws 0]⟩,
  ⟨0x1100A8, 0, 1, [fld 0 48 .rws 0]⟩,
  ⟨0x111000, 32, 64, [(fld 0 7 .rw 0).starred, (fld 8 8 .rw 0).starred, (fld 16 16 .rw 0).starred]⟩,
  ⟨0x111008, 32, 64, [(fld 0 16 .rw 0).starred, (fld 16 8 .rw 120).starred, (fldR 24 8 .rw 5 1 20).starred, (fld 32 8 .rwx 255).starred, (fld 40 8 .rwx 0).starred]⟩,
  ⟨0x111010, 32, 64, [fld 0 32 .ro 0, fld 32 1 .ro 0, fld 33 1 .ro 0]⟩]

/-- Registers of block RNG. -/
def rngRows : List RegRow := [
  ⟨0x120000, 0, 1, [(fldR 0 6 .rwx 8 1 64).starred]⟩,
  ⟨0x120008, 0, 1, [fld 0 14 .ro 0, fld 16 14 .ro 0]⟩,
  ⟨0x120080, 0, 1, [fld 0 48 .rws 0]⟩,
  ⟨0x120088, 0, 1, [fld 0 48 .rws 0]⟩,
  ⟨0x120090, 0, 1, [fld 0 48 .rws 0]⟩,
  ⟨0x120098, 0, 1, [fld 0 48 .rws 0]⟩,
  ⟨0x1200A0, 0, 1, [fld 0 48 .rws 0]⟩,
  ⟨0x1200A8, 0, 1, [fld 0 48 .rws 0]⟩,
  ⟨0x1200B0, 0, 1, [fld 0 48 .rws 0]⟩,
  ⟨0x1200B8, 0, 1, [fld 0 48 .rws 0]⟩]

/-- Registers of block EVQ. -/
def evqRows : List RegRow := [
  ⟨0x130008, 0, 1, [fld 0 14 .ro 0]⟩,
  ⟨0x130080, 0, 1, [fld 0 48 .rws 0]⟩,
  ⟨0x130088, 0, 1, [fld 0 48 .rws 0]⟩,
  ⟨0x130090, 0, 1, [fld 0 48 .rws 0]⟩,
  ⟨0x130098, 0, 1, [fld 0 48 .rws 0]⟩]

/-- Registers of block PMC. -/
def pmcRows : List RegRow := [
  ⟨0x140000, 0, 1, [fld 0 1 .rw 0]⟩,
  ⟨0x140008, 0, 1, [fld 0 14 .ro 0]⟩,
  ⟨0x140080, 0, 1, [fld 0 48 .rws 0]⟩,
  ⟨0x140088, 0, 1, [fld 0 48 .rws 0]⟩,
  ⟨0x140090, 0, 1, [fld 0 48 .rws 0]⟩,
  ⟨0x140098, 0, 1, [fld 0 48 .rws 0]⟩]

/-- Registers of block FLT. -/
def fltRows : List RegRow := [
  ⟨0x150000, 0, 1, [(fldR 0 2 .rw 1 0 2).starred, (fld 4 1 .rwx 1).starred, fld 8 1 .rwx 0]⟩,
  ⟨0x150008, 0, 1, [fld 0 1 .ro 0, fld 1 1 .ro 0, fld 2 1 .ro 0, fld 3 1 .ro 0, fld 4 9 .ro 0, fld 16 3 .ro 0]⟩,
  ⟨0x150010, 0, 1, [fld 0 12 .ro 0, fld 16 48 .ro 0]⟩,
  ⟨0x150018, 0, 1, [fld 0 16 .ro 0]⟩,
  ⟨0x150020, 0, 1, [fld 0 8 .wo 0, fld 16 1 .wo 0, fld 24 3 .wo 0]⟩,
  ⟨0x150080, 0, 1, [fld 0 48 .rws 0]⟩,
  ⟨0x150088, 0, 1, [fld 0 48 .rws 0]⟩,
  ⟨0x150090, 0, 1, [fld 0 48 .rws 0]⟩,
  ⟨0x150098, 0, 1, [fld 0 48 .rws 0]⟩,
  ⟨0x1500A0, 0, 1, [fld 0 48 .rws 0]⟩,
  ⟨0x151000, 16, 256, [fld 0 12 .ro 0, fld 12 3 .ro 0, fld 15 1 .ro 0, fld 16 8 .ro 0, fld 24 16 .ro 0, fld 63 1 .ro 0]⟩,
  ⟨0x151008, 16, 256, [fld 0 48 .ro 0]⟩]

/-- Registers of block REC. -/
def recRows : List RegRow := [
  ⟨0x160000, 0, 1, [(fldR 0 7 .rw 100 1 100).starred, (fldR 16 16 .rwx 200 20 2000).starred]⟩,
  ⟨0x160008, 0, 1, [fld 0 3 .ro 0, fld 3 1 .ro 0, fld 32 32 .ro 0]⟩,
  ⟨0x160010, 0, 1, [fld 0 25 .ro 0, fld 32 25 .ro 0]⟩,
  ⟨0x160018, 0, 1, [fld 0 48 .ro 0]⟩,
  ⟨0x160080, 0, 1, [fld 0 48 .rws 0]⟩,
  ⟨0x160088, 0, 1, [fld 0 48 .rws 0]⟩,
  ⟨0x160090, 0, 1, [fld 0 48 .rws 0]⟩,
  ⟨0x160100, 0, 1, [fld 0 64 .ro 0]⟩]

/-- Registers of block DBG. -/
def dbgRows : List RegRow := [
  ⟨0x170000, 0, 1, [(fld 0 1 .rw 0).starred, (fld 16 12 .rw 0).starred]⟩,
  ⟨0x170008, 0, 1, [fld 0 1 .ro 0, fld 1 1 .ro 0]⟩,
  ⟨0x170080, 0, 1, [fld 0 48 .rws 0]⟩,
  ⟨0x170088, 0, 1, [fld 0 48 .rws 0]⟩]

/-- Every setup register (R675). -/
def regRows : List RegRow :=
  glbRows ++ imgRows ++ tikRows ++ prtRows ++ xbrRows ++ homRows ++ engRows ++ domRows ++ shpRows ++ blwRows ++ rngRows ++ evqRows ++ pmcRows ++ fltRows ++ recRows ++ dbgRows

/-- The row and the instance that an offset names, when the tables assign it (R669). -/
def findReg (off : Nat) : Option (RegRow × Nat) :=
  regRows.findSome? fun r =>
    if r.stride = 0 then (if off = r.base then some (r, 0) else none)
    else if r.base ≤ off ∧ (off - r.base) % r.stride = 0 ∧ (off - r.base) / r.stride < r.count then
      some (r, (off - r.base) / r.stride)
    else none

/-- Whether a field of an instanced register exists in instance `n`; `lowest` says whether slice `n` names a port (R669). -/
def Field.inInstance (f : Field) (lowest : Bool) (n : Nat) : Bool :=
  match f.scope with
  | .every => true
  | .lowestSlice => lowest
  | .ps4n => n % 4 = 0
  | .first => n = 0

/-- The factory value of a register: its fields at their reset values (R11), reserved bits 0 (R9). -/
def RegRow.factory (r : RegRow) : Word :=
  r.fields.foldl (fun w f => w ||| (BitVec.ofNat 64 f.reset <<< f.lo)) 0

/-- The value that the register at an offset holds while nothing has written it. -/
def regDefault (off : Nat) : Word :=
  match findReg off with
  | some (r, _) => r.factory
  | none => 0

/-- Bits `lo` to `lo + width - 1` of a word. -/
def getBits (w : Word) (lo width : Nat) : Nat := w.toNat / 2 ^ lo % 2 ^ width

/-- A word with bits `lo` to `lo + width - 1` replaced by the low bits of `v`. -/
def setBits (w : Word) (lo width v : Nat) : Word :=
  BitVec.ofNat 64 (w.toNat % 2 ^ lo + v % 2 ^ width * 2 ^ lo + w.toNat / 2 ^ (lo + width) * 2 ^ (lo + width))

end Sys2Proof.Machine
end

