-- ==== Sys2Proof/Machine/State.lean ====
section
/-! DEFINITION. The state of the device as plain data. A field with a setup register of its own lives in `State.regs`; a field
that also has a structured home here is read through `readReg` (Machine/Ops.lean). -/

namespace Sys2Proof.Machine

/-- Reasons a step ends the machine. No command of this device ends it: every fault the spec describes (FC1 to FC4, program
faults, refusals of accesses) is an effect on State. -/
inductive Fault where
  /-- Raised by no meaning: the spec gives every command an effect. Safe. -/
  | none
  deriving DecidableEq, Repr

/-- Reasons a command has no meaning. -/
inductive Refusal where
  /-- A command of the table whose meaning is not written; raised by the arms of Dispatch.lean only. Safe. -/
  | notModelled (mnemonic : String)
  deriving DecidableEq, Repr

/-- Status codes of completions (R501). -/
inductive Status where
  | ok | partial_ | denied | poison | timeout | domainReset | portDown | overrun | engineFault | deferred | badDesc
  | unsupported | retryExhausted | locked | busy | shed | gap
  deriving DecidableEq, Repr

/-- Port states of R104, in code order. -/
inductive PState where
  | off | powerUp | training | up | active | quiesce | flush | flushWait | released
  deriving DecidableEq, Repr

/-- States of FTIME discipline (R43). -/
inductive TState where
  | free | acquire | locked | holdover | lost
  deriving DecidableEq, Repr

/-- Engine states (R349). -/
inductive EState where
  | idle | running | loading | failed | retired
  deriving DecidableEq, Repr

/-- Domain states (R388). -/
inductive DState where
  | free | active | resetting
  deriving DecidableEq, Repr

/-- Ring states (R482). -/
inductive RState where
  | active | stopped | error
  deriving DecidableEq, Repr

/-- Ring kinds (R478). -/
inductive RKind where
  | sq | cq | stat | evq
  deriving DecidableEq, Repr

/-- A completion record (R487, R488). -/
structure CplRec where
  sq         : Nat
  standing   : Bool
  status     : Status
  phase      : Bool
  tag        : Nat
  stamp      : Nat
  code       : Nat
  index      : Nat
  redispatch : Bool
  addr       : Nat
  result     : Nat
  deriving DecidableEq, Repr

/-- An event record (R516). -/
structure EvtRec where
  code   : Nat
  cls    : Nat
  ext    : Nat
  source : Nat
  cnt    : Nat
  stamp  : Nat
  phase  : Bool
  arg0   : Nat
  arg1   : Nat
  deriving DecidableEq, Repr

/-- What a port's partner is sent by the port's own logic: link, Merad and power messages. -/
inductive PMsg where
  | tickEdge (k ftime period : Nat) (sync : Bool)          -- R54
  | ptmRequest                                              -- R42
  | offer (verMap respNs : Nat) (tie : Option Nat)          -- R107: vendor-defined message with code 1; accept 2, confirm 3
  | accept (ver respNs : Nat)
  | confirm (ver : Nat)
  | l0pRequest (width : Nat)
  | l0pAccept (width : Nat)
  | l0pDecline
  | ts1                                                     -- entry to Recovery
  | ack (seq : Nat)
  | nak (seq : Nat)
  | flit (seq : Nat) (returns : List (Nat × Nat × Nat))     -- with its credit returns: channel, headers, data (R181)
  | replay (seq : Nat) (returns : List (Nat × Nat × Nat))
  | creditInit (ch h d : Nat)                               -- the advertisement of a channel at training (R167)
  | creditDllp (bytes : List Nat)                           -- Merad credit DLLP (R183)
  | updateFc (ch h d : Nat)                                 -- the standard's UpdateFC DLLPs of a CXL.io channel (R180, R181)
  | vdm (vendor type code : Nat) (bytes : List Nat) (sc0 : Bool)   -- publish hint (R380), REC_MARK (R585)
  | hotPlug (downstream ld : Nat) (presence dll : Bool)     -- hot-plug event of a virtual bridge: what changed (R132)
  | cplAbort (tag : Nat)
  | poisonData (tag : Nat)
  | cmp (tag : Nat)
  | unsupportedRequest (tag : Nat)
  | ptmResponse (ftime : Nat)                               -- R101
  | pmNak                                                   -- a request for L1 declined (R102)
  | doe (protocol : Nat) (payload : List Word32)            -- into the partner's mailbox (R144)
  | config (payload : List Nat)                             -- answers to configuration requests, DOE and IDE_KM
  | disableLink
  | hotReset
  deriving DecidableEq, Repr

/-- A data cell: 64 bytes of payload and its POISON bit (R189, R191). -/
structure Cell where
  data   : Line
  poison : Bool
  deriving DecidableEq, Repr

/-- A message in the core: queued in a column or held at an input (R189, R190). -/
structure Msg where
  id     : Nat
  src    : Nat                  -- SRC of R190
  dst    : Nat
  cls    : Nat
  proto  : Nat
  ncell  : Nat
  domain : Nat
  epoch  : Nat
  gen    : Nat
  sf     : Bool
  sh     : Bool
  sc0a   : Bool
  addr   : Nat
  seq    : Nat
  np     : Bool
  stamp  : Nat
  hs     : Nat
  win    : Nat
  head   : BitVec 320           -- bytes 0x18 to 0x3F of the header cell: the protocol header as received
  body   : List Cell            -- NCELL data cells
  input  : Nat                  -- input endpoint
  port   : Nat                  -- destination port name, 64 + n cluster, 72 + n home
  ld     : Nat                  -- logical device of its target (R199)
  pbr    : Option Nat           -- destination PBR ID, toward a fabric port (R199)
  kind   : MKind
  tag    : Nat
  status : Status               -- of a completion of the flush to an engine or a home (R233)
  owed   : Option PMsg          -- what a completion of the flush is to a source port (R233)
  flush  : Bool                 -- a completion of R234
  last   : Bool                 -- LAST cell accepted
  bad    : Bool                 -- BAD of the LAST cell (R191)
  skip   : Bool                 -- discarded: a skip token (R215)
  held   : Bool                 -- held by a bucket at ingress (R430)
  queued : Bool                 -- admitted to its column
  since  : Nat                  -- FTIME of its admission (R231)
  started : Bool
  restarts : Nat
  safIn  : Bool                 -- store-and-forward at its source port (R216)
  from_  : Src
  bytes  : Nat
  final  : Bool                 -- a response that ends the request it answers
  waited : Bool                 -- it has waited for partner credit (R524)
  ch     : Nat                  -- channel it arrived in (R167)
  group  : Nat                  -- first of the parts that share its protocol header (R195), itself when it was not split
  units  : Nat                  -- data units that it holds in the receive buffer (R168, R175)
  deriving DecidableEq, Repr

/-- A data cell of the message is poisoned. -/
def Msg.poison (m : Msg) : Bool := m.body.any Cell.poison

/-- A message a unit hands the core for another unit or port; MESSAGE_INGRESS is its entry. -/
structure CoreMsg where
  src  : Src
  dst  : Endpoint
  kind : MKind
  cls  : Nat
  fa   : Nat
  tag  : Nat
  epoch : Option Nat                                        -- epoch of the message that it answers (R205)
  data : Line
  poison : Bool
  status : Status
  be   : BitVec 64                                          -- bytes a write carries
  code : Nat                                                -- of a completion: 0 Cmp, 1 Cmp-S, 2 Cmp-E, 3 BIConflictAck; of a BISnp: 1 BISnpData, 0 BISnpInv
  atom : Option (AtomOp × Bool × Word × Word)               -- operation, 64-bit, operand, compare value
  deriving DecidableEq, Repr

/-- Everything the device shows the outside, newest first in `State.out`. -/
inductive Out where
  | cpl (cq index : Nat) (words : List Nat)                 -- completion record written (R487)
  | evt (queue index : Nat) (words : List Nat)              -- event record written (R516)
  | stat (ring index : Nat) (words : List Nat)              -- statistics record written
  | shadow (addr index : Nat)                               -- shadow index of a format 1 ring (R483)
  | msix (port vec : Nat)                                   -- MSI-X message (R521)
  | port (p : Nat) (m : PMsg)                               -- toward a link partner
  | core (m : CoreMsg)                                      -- from a unit into the core
  | egress (m : Msg) (vdm : Option (Nat × Nat × Nat)) (nullified : Bool)
      -- a message leaves the core at endpoint m.dst; vendor, Type and code of a vendor-defined one (R276)
  | hostWrite (space port addr : Nat) (words : List Nat)    -- a host object written (TABLE_READ, reports, spill)
  | doorbellRead (ring : Nat) (evq : Bool)                  -- a doorbell word is read
  | hostRead (space port addr bytes : Nat)                  -- a program image is read again (R325)
  | sink (addr : Nat) (words : List Nat)                    -- the recorder writes 64-bit words at an FA (R572, R580)
  | fetch (ring index : Nat)                                -- a descriptor is fetched
  | jtag (status : Status) (addr : Nat) (data : List Nat)   -- answer to a JTAG request
  | readData (value : Nat)                                  -- value a setup read returns
  | mctp (payload : List Nat)                               -- answer on the I3C MCTP target
  | pmbus (addr page reg : Nat) (value : Option Nat)        -- PMBus access
  | i3c (addr reg : Nat) (value : Option Nat)               -- port power bus access
  | tickOut (pin : Nat) (high : Bool) (due : Int)           -- an edge of TICK_OUT and the FTIME at which it is due (R52, R53)
  | flash (addr : Nat) (words : List Nat)                   -- the external flash is written from an address on, in 64-bit words (R593)
  deriving DecidableEq, Repr

/-- What the next health record tells (R689, R690). -/
structure Life where
  temps  : Tab Nat            -- samples of T in the hour by quarter degree, key 1000 at 0 degrees
  volts  : Option (Nat × Nat) -- lowest and highest VDD_CORE reading of the hour, mV
  age    : Option (Nat × Nat) -- largest ageing shift of the hour, ppm, and its monitor
  slack  : Option (Nat × Nat) -- lowest slack of the hour, ps, and its monitor
  hour   : Nat                -- whole hours recorded
  deriving DecidableEq, Repr

/-- Supplies, resets, straps, management buses (spec 18, 19, 21). -/
structure Sys where
  vddAon    : Bool
  pwrOk     : Bool
  rstN      : Bool
  lowSince  : Bool          -- core shut down after a fall of PWR_OK (R623) and not yet restarted
  coldDue   : Option Nat    -- cause of a cold start waiting 50 us (R630)
  jtagHold  : Bool          -- a test instruction holds the core in reset (R643)
  jtagIr    : JtagIr
  oscOnly   : Bool          -- collector and safe-state actions run on the internal oscillator (R551)
  i3cSetup  : BitVec 7      -- address of the setup target (R642)
  i3cMctp   : BitVec 7
  rcvPos    : Nat           -- recovery buffer position (R640)
  rcvLenSet : Bool
  rcvData   : List Word     -- recovery bytes received, newest first
  perstN    : BitVec 64     -- pins driven, one bit per slice
  pwren     : BitVec 64
  disch     : BitVec 64
  tcok      : BitVec 16
  tcrN      : BitVec 16     -- inputs, filtered level
  tickOut   : BitVec 4
  alertN    : Bool          -- true: released
  corePower : Bool          -- core power up (false: ramping down or off)
  life      : Life
  ageAt     : Nat           -- FTIME multiple of 1 s of the last sample of the monitors (R24)
  deriving DecidableEq, Repr

/-- A window of a tick plan (R65). -/
structure Window where
  opn   : Nat
  close : Nat
  guard : Nat
  tail  : Nat
  k     : Nat
  rsv   : Nat
  smax  : Nat
  deriving DecidableEq, Repr

/-- A dispatch entry (R329). -/
structure Disp where
  offset : Nat
  budget : Nat
  win    : Nat
  bound  : Bool
  sc0    : Bool
  idem   : Bool
  fed    : Bool
  any    : Bool
  ceach  : Bool
  engine : Nat
  prio   : Nat
  domain : Nat
  prog   : Nat
  slot   : Nat
  cring  : Nat
  deriving DecidableEq, Repr

/-- A tick plan (R63, R64): `place` is the engine each dispatch entry stands on after admission (R81). -/
structure Plan where
  period  : Nat
  spares  : Nat
  margin  : Nat             -- fence margin in ns
  tag     : Nat
  windows : List Window
  gates   : List Entry
  disp    : List Disp
  place   : List Nat
  deriving DecidableEq, Repr

/-- A command waiting for a boundary: PLAN_SWITCH or TIME_STEP. -/
structure Wait where
  hdr   : Option Hdr        -- none: the switch that an image activation makes (R602)
  tick  : Nat               -- the boundary it acts at
  delta : Int               -- TIME_STEP only
  deriving DecidableEq, Repr

/-- A boundary fixed under R56. -/
structure FixedB where
  k      : Nat
  due    : Nat              -- FTIME at which it falls, reckoned without its own step
  period : Nat              -- period of tick k
  plan   : Option Plan      -- plan committed to a switch at it
  switch : Option Hdr
  step   : Option Wait
  deriving DecidableEq, Repr

/-- The Pitch pipe. -/
structure Pitch where
  ftime     : Nat
  frac      : Nat           -- fraction of a nanosecond, 2^-32
  rate      : Nat           -- rate word, ns per CCLK in 2^-32 (R37)
  tick      : Nat           -- tick counter (R38)
  bk        : Nat           -- latched B_k
  period    : Nat           -- period of tick k
  running   : Bool          -- step 8 of start-up has started the Pitch pipe
  stopAfter : Bool          -- boundaries no longer generated (R694)
  resumeAt  : Option Nat    -- grid instant at which generation resumes (R694)
  fixed     : List FixedB   -- boundaries fixed ahead, oldest first
  switches  : List Wait
  steps     : List Wait
  current   : Plan
  pendingPlan : Option Plan
  openWin   : BitVec 32     -- windows open now
  admitWin  : BitVec 32     -- windows whose admission interval lasts
  tstate    : TState
  phaseErr  : Int
  good      : Nat           -- consecutive samples below 4 ns
  ptmFails  : Nat
  srcWait   : Option (BitVec 2)
  source    : BitVec 2      -- source in force
  srcAt     : Nat           -- FTIME at which it was selected (R24)
  ptmAt     : Option Nat    -- FTIME of the last PTM dialogue since (R42)
  ppsAt     : Option Nat    -- FTIME of the last PPS_IN edge (R44)
  ppsLost   : Bool          -- PPS_IN has been declared lost and shows no edge since (R44)
  clkLost   : Bool          -- TIME_CLK has been declared lost and has not returned (R44, R51)
  pulses    : List (Nat × Nat)  -- TICK_OUT pulses that last: pin and FTIME of the start (R52)
  holdAt    : Nat           -- FTIME of the entry to HOLDOVER (R50)
  outStop   : Bool          -- TICK_OUT pulses stop after LOST (R50)
  outLast   : Bool          -- the boundary after the entry to LOST has not passed: it still drives its pulses (R50)
  faultSeen : Bool          -- tick fault raised and not cleared since (R51)
  ftimeHigh : Nat           -- high half latched by a read of the low half
  deriving DecidableEq, Repr

/-- An event source (R508, R511). -/
structure Source where
  cnt : Nat
  evq : Nat
  en  : Bool
  deriving DecidableEq, Repr

/-- A fetched descriptor that has started and not completed. -/
structure Live where
  tag : Nat
  bg  : Bool
  deriving DecidableEq, Repr

/-- A ring or an event queue (R478 to R483, R502, R519). -/
structure Ring where
  state    : RState
  kind     : RKind
  log2n    : Nat
  fmt      : Nat
  base     : Nat
  space    : Nat
  port     : Nat
  dbMode   : Nat
  dbSpace  : Nat
  dbPort   : Nat
  dbAddr   : Nat
  poll     : Nat
  gen      : Nat
  pair     : Nat
  evqEn    : Bool
  evq      : Nat
  shadow   : Nat
  vec      : Nat
  vecEn    : Bool
  domain   : Nat
  prod     : Nat
  cons     : Nat
  reserved : Nat            -- entries of a CQ reserved by fetches (R493)
  fetched  : List (List Word)  -- descriptors fetched and not started, oldest first
  live     : List Live
  full     : Bool           -- QUEUE_FULL written, no free entry seen since (R515)
  dropped  : Nat            -- statistics records dropped since the last GAP record; CQ records dropped this tick
  dropAt   : Nat            -- FTIME of the first of them
  dropTold : Bool           -- CQ_DROP raised this tick (R497)
  pollAt   : Option Nat     -- FTIME of the last polled read of its doorbell (R24, R491)
  deriving DecidableEq, Repr

/-- A programmable counter (R523). -/
structure Counter where
  value   : Nat
  snap    : Nat             -- value at the previous snapshot
  snapAt  : Option Nat      -- value latched at a boundary whose record is not queued yet (R534)
  sel     : Nat
  level   : Bool
  en      : Bool
  snapEn  : Bool
  sample  : Bool
  fany    : Bool
  fdom    : Nat
  cls     : Nat
  unit    : Nat
  snapDiv : Nat
  reload  : Nat
  deriving DecidableEq, Repr

/-- A bandwidth window of a port (R536, R537). -/
structure BwWin where
  ntick   : Nat
  next    : Nat             -- length from the next boundary
  start   : Nat             -- first tick; 0 before the first boundary
  count   : Nat
  rx      : Nat
  tx      : Nat
  rxTick  : Nat
  txTick  : Nat
  rxPeak  : Nat
  txPeak  : Nat
  down    : Bool
  deriving DecidableEq, Repr

/-- An MSI-X vector of a host interface function. -/
structure MsixEnt where
  addr : Nat
  data : Nat
  mask : Bool
  pend : Bool
  deriving DecidableEq, Repr

/-- Host interface, event queues and counters. Ring slots and event queues are keyed by number; counters by
domain * 1024 + index. -/
structure HostIf where
  rings    : Tab (Option Ring)
  evqs     : Tab (Option Ring)
  sources  : Tab Source
  counters : Tab Counter
  bw       : Tab BwWin
  msix     : Tab MsixEnt               -- port * 2048 + vector
  cmdReg   : Tab Nat                   -- command register of each host interface function
  bridgeMem : Tab (Nat × Nat)          -- windows of the virtual bridges, by (port * 32 + LD) * 2, + 1 for the prefetchable one
  bridgeBus : Tab (Nat × Nat)          -- secondary to subordinate bus of the virtual bridges, by port * 32 + LD
  bridgeEvt : Tab Nat                  -- their slot status: bit 3 presence detect changed, bit 8 data link layer state changed (R132)
  refTick  : Tab Nat                   -- REFUSED records of a domain in this tick (R407)
  refSupp  : Tab Nat                   -- REFUSED records suppressed (R407)
  roundAt  : Nat                       -- SQ served last in the fetch round in progress (R493)
  roundN   : Nat                       -- descriptors fetched from it in this round
  deriving DecidableEq, Repr

/-- An entry of the fault collector (R540). -/
structure FltEntry where
  cause : Nat
  unit  : Nat
  count : Nat
  inj   : Bool
  stamp : Nat
  age   : Nat               -- order of entry, for "the oldest FC1 fault" of R543
  deriving DecidableEq, Repr

/-- A check bit left inverted by LIVE injection (R561). -/
structure Inverted where
  checker : Nat
  unit    : Nat
  word    : Nat
  two     : Bool
  deriving DecidableEq, Repr

/-- The fault collector. -/
structure Flt where
  entries  : Tab (Option FltEntry)    -- 256 entries
  nextAge  : Nat
  ovf      : Bool
  safe     : Bool
  faultN   : Bool                     -- FAULT_N driven low
  hold     : Bool                     -- the 10 us of R548 have not passed
  fellAt   : Nat                      -- FTIME at which FAULT_N fell last (R548)
  safeAt   : Nat                      -- CCLK of the first FC4 fault, by FTIME and its fraction (R551)
  onset    : List (Nat × Nat)         -- condition faults raised since their onset (R542)
  monClock : Bool                     -- latched monitor flags (R546)
  monSupply : Bool
  scans    : Nat                      -- fault scans since cold start
  inverted : List Inverted
  deriving DecidableEq, Repr

/-- A fabric request of a work item that has left the check unit. -/
inductive EDest where
  | line (l : Fin 8)
  | scalar (d : Fin 32) (wide : Bool)
  | write
  | copyScratch (addr : Nat)
  | copyFabric (dst : Nat)
  | reduce (part : Nat)
  deriving DecidableEq, Repr

structure EReq where
  tag  : Nat
  line : Nat
  sc0  : Bool
  dest : EDest
  pc   : Nat                -- index of the instruction that issued it
  acc  : Nat                -- the access it is a part of
  checked : Bool            -- its check unit has decided
  deriving DecidableEq, Repr

/-- What a fabric request of an engine does at its target. -/
inductive EOp where
  | read
  | write (data : Line) (be : BitVec 64) (poison : Bool)
  | atom (op : AtomOp) (wide : Bool) (operand compare : Word)
  deriving DecidableEq, Repr

/-- A request of the multi-line instruction in progress that has not been issued (R321, R377 to R379). -/
structure ETodo where
  addr : Nat
  op   : EOp
  dest : EDest
  acc  : Nat
  deriving DecidableEq, Repr

/-- A loop in progress (R369). -/
structure LoopSt where
  first : Nat
  last  : Nat
  index : Fin 32
  j     : Nat
  n     : Nat
  deriving DecidableEq, Repr

/-- A line reduction in progress (R379). -/
structure RedSt where
  dest  : Fin 8
  op    : Nat
  parts : List (Option (Line × Bool))
  deriving DecidableEq, Repr

/-- Refused parts of one access of a work item, reported once all its parts are decided (R406). -/
structure RefAcc where
  acc   : Nat
  kind  : Nat               -- access kind of R406
  parts : Nat
  first : Nat               -- first refused address
  lock  : Bool              -- cause of the first refused part
  tag   : Nat               -- TAG of the locking rule
  deriving DecidableEq, Repr

/-- A running work item. -/
structure Item where
  disp    : Disp
  hdr     : Option Hdr      -- work descriptor of a fed run
  args    : Args
  tick    : Nat
  bk      : Nat
  firstAt : Nat             -- FTIME of the first instruction, 8 CCLK after dispatch (R339)
  pc      : Nat
  loops   : List LoopSt
  reqs    : List EReq
  red     : Option RedSt
  accs    : List RefAcc
  accNow  : Nat             -- access of the multi-line instruction in progress
  refused : Option Nat      -- first refused address
  instrs  : Nat             -- instructions issued (R569)
  todo    : List ETodo      -- requests of the instruction in progress still to issue
  multi   : Bool            -- CPY, PUB or RED in progress at pc
  ending  : Option Nat      -- END executed, waiting for requests (R371): its code
  waitUntil : Option Nat    -- WAITO
  overran : Bool            -- OVERBUDGET reported
  redisp  : Bool
  muted   : Bool            -- its ring was destroyed: its completion is written (R503)
  stalled : Bool            -- the instruction at pc waits for a pending register or a request (R363)
  deriving DecidableEq, Repr

/-- A takeover load (R354). -/
structure LoadSt where
  doneAt : Nat
  domains : List Nat
  again  : Option Item      -- the failed work item, for re-dispatch (R355)
  deriving DecidableEq, Repr

structure Engine where
  st    : EState
  cause : Nat
  spare : Bool
  item  : Option Item
  sregs : Vector Word 32
  lregs : Vector (Line × Bool) 8
  used  : Nat
  load  : Option LoadSt
  nextTag : Nat             -- tag of its next request, never used again
  lastFa : Nat              -- FA of its latest fabric request (R532)
  lastDomain : Nat          -- domain of the running or last work item
  deriving DecidableEq, Repr

/-- A loaded program (R324, R385). -/
structure Prog where
  code    : List Word
  scrMin  : Nat
  ptag    : Nat
  from_   : HRef              -- its image in host memory (R325)
  bytes   : Nat
  unit    : Nat               -- check unit of its ring's port (R477)
  deriving DecidableEq, Repr

/-- A program load in progress. -/
structure ProgLoad where
  hdr    : Hdr
  prog   : Prog
  doneAt : Nat
  deriving DecidableEq, Repr

/-- A work descriptor queued for a fed slot (R335). -/
structure Work where
  hdr  : Hdr
  tick : Nat
  args : Args
  deriving DecidableEq, Repr

structure Slot where
  queue : List Work
  args  : Args
  wait  : Option (Nat × Args)
  deriving DecidableEq, Repr

/-- Engines and their programs. -/
structure Eng where
  engs    : Vector Engine 64
  progs   : Tab (Option Prog)       -- domain * 4096 + handle
  loads   : Tab (Option ProgLoad)
  scratch : Memory                  -- (engine * 4096 + domain) * 2^18 + byte
  slots   : Tab Slot
  place   : List (Option Nat)       -- engine of each entry of the current plan; none once shed
  ran     : BitVec 256              -- entries of the current plan dispatched or not run in this tick
  lost    : List Nat                -- entries of engines failed in this tick, to be reassigned from B_k+1 (R356)
  deriving DecidableEq, Repr

/-- A region rule (R398). -/
structure Rule where
  base  : Nat
  limit : Nat
  tag   : Nat
  lock  : Bool
  a     : Bool
  w     : Bool
  r     : Bool
  port  : Nat
  space : Nat
  dead  : Bool              -- allows nothing after an uncorrectable error (R417)
  deriving DecidableEq, Repr

structure Domain where
  st       : DState
  debug    : Bool
  rules    : Nat
  buckets  : Nat
  counters : Nat
  evqs     : Nat
  mask     : BitVec 64
  prg      : Nat
  scr      : Nat
  deriving DecidableEq, Repr

/-- A requester-ID map entry (R396). -/
structure RidEnt where
  base   : BitVec 16
  mask   : BitVec 16
  domain : Nat
  valid  : Bool
  deriving DecidableEq, Repr

/-- The domain reset in progress (R420, R394). -/
structure ResetRun where
  hdr     : Hdr
  domain  : Nat
  squash  : Bool
  destroy : Bool
  step    : Nat
  epoch   : Nat
  walkAt  : Nat               -- FTIME at which the walks of step 5 began
  deriving DecidableEq, Repr

/-- A revocation walk (R410). -/
structure Revoke where
  domain : Nat
  base   : Nat
  limit  : Nat
  walkAt : Nat                -- FTIME at which the walks began
  deriving DecidableEq, Repr

/-- Domains and protection. Rules are keyed domain * 4096 + slot, requester-ID entries port * 16 + entry. -/
structure Dom where
  doms    : Tab Domain
  rules   : Tab (Option Rule)
  rids    : Tab RidEnt
  reset   : Option ResetRun
  revokes : List Revoke
  deriving DecidableEq, Repr

/-- Merad handshake of a link (R107 to R111). -/
inductive Merad where
  | none                        -- data link layer not active
  | waitOffer                   -- not leading (R110)
  | leading (sent : Nat)        -- OFFER sent so many times (R109)
  | accepted (ver : Nat)        -- ACCEPT sent, waiting for CONFIRM
  | ended                       -- negotiation ended
  | closed                      -- ended at version 0 by expiry; later OFFERs get version 0
  deriving DecidableEq, Repr

/-- Steps of a tool-change release (R135). -/
inductive Release where
  | none
  | deferred                    -- waits for CLOSE of a window (R134)
  | draining                    -- step 2
  | flushing                    -- steps 3 and 4
  | proving                     -- step 6
  deriving DecidableEq, Repr

/-- A key slot that holds a key (R143). -/
structure IdeKeySlot where
  stream : Nat
  rx     : Bool
  sub    : Nat
  slot   : Bool
  key    : Entry
  deriving DecidableEq, Repr

/-- Credits of one channel: what this side consumed and may consume, what it advertised and freed (R178, R182). -/
structure Credit where
  hCons   : Nat
  hLim    : Nat
  hInf    : Bool
  dCons   : Nat
  dLim    : Nat
  dInf    : Bool
  rxHCons : Nat
  rxHLim  : Nat
  rxDCons : Nat
  rxDLim  : Nat
  rxHAdv  : Nat
  rxDAdv  : Nat
  rxHTold : Nat                 -- limit last reported
  rxDTold : Nat
  freeAt  : Nat                 -- FTIME at which the first unreported credit was freed (R182)
  sentAt  : Nat                 -- FTIME of the last update sent (R182)
  deriving DecidableEq, Repr

/-- A flit held in the Yo-yo (R160). -/
structure YoFlit where
  seq  : Nat
  flit : TxFlit
  returns : List (Nat × Nat × Nat)   -- credits it returns at version 0 (R181)
  deriving DecidableEq, Repr

/-- Errors that a port records in its AER capability (R177, R201). -/
inductive AerErr where
  | receiverOverflow | unsupportedRequest | malformedTlp
  deriving DecidableEq, Repr

/-- Link layer of a port (spec 04). -/
structure Link where
  txSeq    : Nat
  rxNext   : Nat
  yoyo     : List YoFlit        -- oldest first
  replays  : Nat                -- replays of the same oldest flit (R164)
  replayFrom : Nat              -- FTIME from which the replay timer runs (R163)
  sinceAck : Nat                -- flits accepted and not acknowledged
  ackFrom  : Nat                -- FTIME at which the oldest of them was accepted (R162)
  stall    : Option TxFlit      -- a flit that may not leave (R161, R174)
  credits  : Vector Credit 16
  retrains : List Nat           -- FTIME of error-forced retrains, newest first (R165)
  preset   : Nat                -- credit preset in force
  sc0Adv   : Nat × Nat          -- credits of the Merad SC0 channel, advertised from version 1 on (R167)
  deriving DecidableEq, Repr

structure Port where
  state     : PState
  width     : Nat               -- width code in force (PRT_STATUS)
  trained   : Nat               -- width code of the last training or Recovery
  rate      : Nat
  mode      : Nat
  gen       : BitVec 8
  ltssm     : Nat
  dll       : Bool              -- data link layer active
  partnerSwitch : Bool
  role      : Nat               -- configuration in force since it left OFF, taken anew at each training (R151)
  maxRate   : Nat
  flit      : Nat
  lopt      : Bool
  clkMode   : Nat
  merad     : Merad
  meradAt   : Nat               -- FTIME from which its wait of PRT_MERAD.WAIT_MS runs (R109, R110)
  negVer    : Nat
  respNs    : Nat
  wasBound  : Bool
  waitBind  : Bool              -- an automatic entry to ACTIVE waits for the walks (R105, R638)
  flushing  : Bool              -- the flush has not ended
  flushOwed : Nat               -- completions of R234 still to leave
  walks     : BitVec 16         -- home slices whose lost-port walk runs (R267)
  prsntRaw  : Bool              -- PRSNT_N high
  prsntAt   : Nat               -- FTIME of its last edge (R123)
  prsnt     : Bool              -- after the filter
  pwrgd     : Bool
  fenced    : Bool              -- stays OFF until cold start (R415)
  retrain   : Bool
  l0pAsk    : Option Nat        -- width this side has asked for
  lateAt    : Option Nat        -- start of the protected period last checked for L0P_LATE (R122)
  release   : Release
  relStart  : Nat               -- FTIME of the fall of PWREN
  relWait   : Bool              -- power-up waits for the release to complete (R141)
  powerAt   : Nat               -- FTIME of the last step of its power-up: fall of DISCH, rise of PWREN, rise of PWRGD (R124, R471, R659)
  trainAt   : Nat               -- FTIME at which it entered TRAINING (R103)
  upWait    : Bool              -- waits for a power-up turn (R470)
  ramping   : Bool
  proofPass : Bool
  proofFail : Bool
  samples   : List (Nat × Nat × Bool)  -- proof samples: FTIME, CLOAD × V² in µF × µV², within the limit with PWRGD low; newest first
  insecure  : BitVec 9
  secure    : BitVec 9
  keys      : List IdeKeySlot
  bwDown    : Bool
  outNp     : Nat               -- non-posted requests accepted from the port and not completed (R135)
  sent      : List Msg          -- non-posted requests that have left toward the port and are not answered, oldest first (R135)
  aer       : List AerErr       -- errors recorded, newest first
  link      : Link
  deriving DecidableEq, Repr

/-- Tool-change groups. -/
structure Tool where
  tcrLow : BitVec 16            -- release requested (R133)
  tcrAt : Tab Nat               -- FTIME of the last edge of each TCR_N (R133)
  busFree : Nat                 -- FTIME at which the port power bus is free (R126)
  quadWait : Tab (Option Nat)   -- bundling mode written and held until the quad is OFF, by quad (R93)
  deriving DecidableEq, Repr

/-- State of one column (R217 to R222). -/
structure Column where
  free   : Nat
  rsvWant : Nat
  rsv    : Nat                  -- SC0 reserve cells held and not filled
  np     : Nat
  rr     : Nat                  -- round-robin pointer of R217
  leakD  : Nat                  -- D of the last audit (R241)
  walk   : Bool                 -- the background walk of R241 runs
  down   : Bool
  deriving DecidableEq, Repr

/-- State of one output arbiter (R225, R226). -/
structure Arb where
  rrs     : List Nat            -- round-robin pointer per class
  deficit : List Nat            -- per class 2 to 7
  turn    : Nat
  given   : Bool                -- the class at turn has received its quantum in this visit
  busy    : Option Nat          -- message in egress
  deriving DecidableEq, Repr

/-- What L_snp of R75 takes of a port: T_ing, T_egr, T_wire and T_resp in ns. -/
structure SnpTerm where
  ing  : Nat
  egr  : Nat
  wire : Nat
  resp : Nat
  deriving DecidableEq, Repr

/-- An SC0 request under way (R76). -/
structure Sc0Live where
  src   : Nat
  win   : Nat
  stamp : Nat
  tag   : Nat
  domain : Nat
  bound : Nat   -- L_SC0 in 1/320 ns without L_snp; 0 when voided (R287)
  snps  : List (Nat × Nat)      -- L_snp of each line it snoops for, 1/320 ns: line address first (R286)
  terms : List SnpTerm          -- of PS0 to PS63 at its stamp (R76)
  deriving DecidableEq, Repr

/-- A request of a downstream port split per 64-byte line (R195): its completion merges the parts. -/
structure Split where
  port : Nat
  tag  : Nat
  left : Nat                    -- parts not done
  bad  : Option PMsg            -- completion owed when a part did not complete normally
  deriving DecidableEq, Repr

/-- The switch core. Flow counters are keyed source * 2^10 + destination * 8 + class. -/
structure Fab where
  msgs    : List Msg            -- oldest first
  nextId  : Nat
  columns : Vector Column 88
  arbs    : Vector Arb 88
  flowSeq : Tab Nat
  expect  : Tab Nat
  sc0     : List Sc0Live
  epoch   : Nat
  used    : Bool                -- a message carries the current epoch (R204)
  ledger  : Tab Nat             -- live messages per epoch (R205)
  wait    : List Instr          -- table changes that wait for a ledger slot (R206)
  barriers : List (Hdr × Nat)
  splits  : List Split
  inbox   : List CoreMsg        -- messages that engines, homes and service blocks have handed the core and that have not entered it
  writes  : List (Nat × Nat × Nat)   -- inputs that write cells now: input, column, time after the last cell in 2^-32 ns (R217)
  auditAt : Nat                 -- fault scan of the last audit (R240)
  served  : List Nat            -- engine that each cluster's input has served last (R320)
  deriving DecidableEq, Repr

/-- A decode window (R197). -/
structure DWin where
  kind   : Bool
  c      : Bool
  rt     : Bool
  u      : Bool
  w      : Bool
  sc0    : Bool
  scope  : Nat
  domain : Nat
  writer : Nat
  base   : Nat                  -- 2 MiB units
  limit  : Nat
  faBase : Nat
  iw     : Nat
  ig     : Nat
  tlist  : Nat
  epoch  : Nat
  deriving DecidableEq, Repr

/-- A binding of a logical device or CXL.cache device of a downstream port to an upstream port. Key: port * 32 + LD + 16
for a CXL.cache device. -/
structure Bind where
  up     : Nat
  domain : Nat
  deriving DecidableEq, Repr

/-- A range being unbound (R308). -/
structure Unbind where
  base   : Nat                  -- FA, 2 MiB units
  limit  : Nat
  epoch  : Nat
  walking : Bool
  walkAt : Nat                  -- FTIME at which the walks began
  win    : DWin                 -- the entry removed: it maps the lines until they are written back
  deriving DecidableEq, Repr

/-- An RT window being loaded (R283): the command completes at the end of the load. -/
structure RtLoad where
  hdr   : Option Hdr          -- none: of an image
  index : Nat
  win   : DWin                  -- the entry, not in effect yet
  deriving DecidableEq, Repr

/-- What decides which messages a bucket charges, and how (R436): in force for messages of epochs older than `until_`. -/
structure BucketDec where
  until_ : Nat
  port   : Nat
  cls    : BitVec 8
  egress : Bool
  act    : Nat
  deriving DecidableEq, Repr

/-- A token bucket (R425, R430, R441). Key: domain * 1024 + slot. -/
structure Bucket where
  rate    : Nat
  burst   : Nat
  port    : Nat
  cls     : BitVec 8
  egress  : Bool                -- POINT 1
  act     : Nat                 -- 0 HOLD or SHAPE, 1 DROP, 2 COUNT
  init    : Nat
  blw     : Bool
  gfreeze : Bool
  report  : Bool
  ovh     : Nat
  ovhIn   : Nat                 -- OVH of the charges: a new one counts from the first refresh after its write (R436)
  tag     : Nat
  tokens  : Int                 -- T, 1/64 byte
  since   : Nat                 -- epoch at which it took effect
  cleared : Option Nat          -- epoch of its clear, while it goes on charging (R438)
  load    : Bool                -- T to be set by INIT at the next refresh (R437)
  wasValid : Bool               -- the slot was valid before the write
  past    : List BucketDec      -- decisions of earlier writes, oldest first
  repB    : Nat                 -- bytes charged in the interval (R441)
  repNc   : Nat
  repHeld : Nat
  repLow  : Int
  deriving DecidableEq, Repr

/-- Tables of the core: windows by index, target lists, PBR routes, bindings. -/
structure Tabs where
  wins    : Tab (Option DWin)
  tlists  : Tab (List Word32)
  pbr     : Tab Nat
  binds   : Tab (Option Bind)
  unbinds : List Unbind
  rtLoads : List RtLoad
  buckets : Tab (Option Bucket)
  refresh : Nat                 -- shaper refreshes of this tick done (R431)
  deriving DecidableEq, Repr

/-- Line states of R254, R260 and R291 with a directory code. -/
inductive LSt where
  | s | e | m | oOlc | oq
  | ieD | imD | ioD | esA | msA | emA | mmA | eoA | moA | smA | smDA | soA | soDA | omA | ooA | ooD | moD
  | siA | eiA | miA | oiA
  deriving DecidableEq, Repr

/-- A directory entry (R290). -/
structure DirEnt where
  la     : Nat                  -- line address FA / 64, standing for slice, set and TAG (R289)
  st     : LSt
  shr    : BitVec 63
  owner  : Nat
  olcv   : Bool
  watch  : Bool
  rt     : Bool
  trk    : Nat
  ecc    : BitVec 8             -- check bits over bits 119:0
  deriving DecidableEq, Repr

/-- An OLC line: tag word (R297) and data. -/
structure OlcEnt where
  la     : Nat
  dirty  : Bool
  poison : Bool
  rt     : Bool
  wb     : Bool
  ev     : Bool
  data   : Line
  ecc    : BitVec 7             -- check bits over bits 36:0 of the tag word
  deriving DecidableEq, Repr

/-- Why a line leaves its stable state. -/
inductive Why where
  | request
  | victim
  | reset (domain : Nat) (squash : Bool)   -- R271
  | revoke (domain : Nat)                  -- R410
  | lost                                   -- owner of an O(q) line lost (R265)
  deriving DecidableEq, Repr

/-- A request at its home, with what its NAKs left (R272, R275). Kinds: 0 RdS, 1 RdX, 2 Upg, 3 RdU, 4 WrU, 5 atomic, 6 Wb, 7 CEv. -/
structure Retry where
  req   : HReq
  kind  : Nat
  op    : Option (AtomOp × Bool × Word × Word)
  tries : Nat
  due   : Nat                   -- time at which it is presented again, in 2^-32 ns (R272)
  first : Nat                   -- time of its first arrival, in 2^-32 ns: the CCLK of R273
  guard : Option (Nat × Bool)   -- guard entry order, and whether it is bound to the set (R275)
  deriving DecidableEq, Repr

/-- A tracker: the open transaction of a line (R258, R260). -/
structure Trk where
  la      : Nat
  why     : Why
  req     : Option HReq         -- none: nobody is owed an answer (R269, R271)
  kind    : Nat
  op      : Option (AtomOp × Bool × Word × Word)
  keep    : Nat                 -- copy that the source of a partial Wb keeps: 0 none, 1 S, 2 exclusive, 3 the sharers of `shr0`
  await   : BitVec 64           -- snoop responses awaited, one bit per port
  inv     : Bool                -- the snoops are BISnpInv
  awaitMem : Bool
  awaitFwd : Bool
  awaitWb : Bool
  rsps    : BitVec 64           -- ports that kept a copy (RspS)
  mem     : Option (Line × Bool)   -- MemD taken
  fwd     : Option Line         -- FWD_DATA taken
  orig    : LSt                 -- state in which it began
  shr0    : BitVec 63           -- sharers that remain when it ends
  owner0  : Nat
  written : Bool                -- the request's W is done (R259, O(OLC))
  prior   : Line × Bool         -- prior value of an atomic's operand, and whether the line was poisoned (R280, R312)
  sent    : Nat                 -- FTIME at which its snoops were sent (R270)
  queue   : List Retry          -- writes of the writer of an RT line (R285)
  after   : List Why            -- resets and revocations to apply when it ends (R271)
  wbTaken : Bool                -- a Wb of a snooped port was taken as the snoop data
  snooped : BitVec 64           -- ports that were sent a BISnp
  lostDue : Bool                -- the owner was lost: poisoned data is to be written (R265, R268)
  wbPend  : Option (Line × BitVec 64 × Bool)   -- a Wb taken and not yet written: data, byte enables, poison
  mute    : Bool                -- the requester's port was lost: it is no holder and gets no answer (R269)
  wbDone  : Bool                -- a write-back completed meanwhile (R306)
  deriving DecidableEq, Repr

/-- A backing read under way: for the line's tracker, or for a request served in a stable state, with what it is granted
(0 Cmp, 1 S, 2 E). -/
structure RdOut where
  la    : Nat
  req   : Option HReq
  kind  : Nat
  grant : Nat
  deriving DecidableEq, Repr

/-- One home slice. -/
structure Slice where
  failed  : Bool
  cause   : Nat
  retry   : List Retry
  wbPtr   : Nat                 -- set pointer of R304
  scrubPtr : Nat
  wbFlight : Nat
  wbUs    : Nat                 -- write-backs issued in this microsecond
  wbAt    : Nat
  scrubAt : Nat                 -- FTIME multiple of STEP_NS of the last scrub step (R24)
  deriving DecidableEq, Repr

/-- Home slices. Directory and OLC are keyed slice * 32768 + set * 16 + way; ages slice * 2048 + set; trackers by LA. -/
structure Home where
  slices : Vector Slice 16
  dir    : Tab (Option DirEnt)
  olc    : Tab (Option OlcEnt)
  dirAge : Tab (List Nat)
  olcAge : Tab (List Nat)
  trk    : Tab (Option Trk)
  recalls : List (Nat × Nat)    -- watched lines to recall: LA and due FTIME (R279)
  reads  : List RdOut           -- oldest first
  confs  : List (Nat × Nat)     -- conflicts to acknowledge: LA and port (R263)
  pins   : List Nat             -- watched lines whose entry waits for a way (R30, R491)
  owed   : List (Nat × Why)     -- evictions of walks that wait for a tracker, oldest first (R258)
  wbOut  : List Nat             -- lines with a write-back in flight (R302)
  deriving DecidableEq, Repr

/-- Energy and heat governor (spec 12). Energies in pJ, powers in mW (1 mW over 1 ns is 1 pJ). -/
structure Bel where
  coef     : List Nat           -- the 64 entries of the coefficient table (R447)
  g        : Nat
  slack    : Bool
  hot      : Bool
  warn     : Bool               -- T at or above WARN since its crossing (R469)
  calHeld  : Bool
  calFails : Nat
  drift    : Bool               -- kappa outside [0.90, 1.10]
  temp     : Int                -- quarter degrees
  kappa    : Nat                -- 1/4096
  u        : Int                -- account balance, pJ
  idx      : Nat                -- interval index in the tick
  start    : Nat                -- FTIME of the interval's start
  evCwr    : Nat                -- counts of the interval: cells written, cells read, lookups, OLC reads, writes, cycles, parts
  evCrd    : Nat
  evDir    : Nat
  evOlcR   : Nat
  evOlcW   : Nat
  evCyc    : Nat
  evChk    : Nat
  rtPj     : Nat                -- real-time dynamic energy of the interval (R446)
  winPj    : Tab Nat            -- real-time energy per open window (R458)
  prevBe   : Nat                -- e_be of interval i - 1
  prevCore : Nat                -- core power of interval i - 1, ballast included, mW
  prevBare : Nat                -- without ballast
  prevDyn  : Nat                -- dynamic part
  prevI    : Nat                -- core current of i - 1 and i - 2, mA
  prevI2   : Nat
  prevLane : Nat                -- lane power, mW
  pBal     : Nat
  ending   : Nat                -- reserved power of the windows that close at the boundary, mW (R464)
  energy   : Nat                -- E(i) of the last interval
  capTold  : Bool               -- CAP_EXCEED raised in this tick (R457)
  tMax     : Int
  gMin     : Nat
  sumRt    : Nat
  sumEst   : Nat
  slackN   : Nat
  defers   : Nat
  ballast  : Nat
  calSum   : Nat                -- kappa-scaled core energy since the last reading, pJ
  calSpan  : Nat                -- ns
  calAt    : Nat                -- FTIME of the last reading
  calDue   : Bool               -- a reading is due since the last boundary or 1,000th interval (R449)
  tempAt   : Nat                -- FTIME multiple of 10 us of the last temperature sample (R24)
  safeFall : Bool
  regs     : Tab Word           -- BLW registers at offsets 0x000 to 0x038 in force: those at the start of the interval (R475)
  traffic  : Tab (List (Nat × Nat))   -- per port: bytes in and out of the last intervals, newest first (R462)
  deriving DecidableEq, Repr

/-- Recorder states in REC_STATUS order. -/
inductive RecSt where
  | idle | quiesce | sections | recording | gap | replay | replayEnded
  deriving DecidableEq, Repr

/-- A recording as REC_START named it (R570). -/
structure RecCfg where
  hdr    : Hdr
  ports  : BitVec 64
  engs   : BitVec 64
  base   : Nat
  len    : Nat
  full   : Bool
  wrap   : Bool
  homes  : Bool
  domain : Nat
  offset : Nat
  wins   : List Nat
  tick   : Nat
  deriving DecidableEq, Repr

/-- An item of a record (R564). -/
structure RecItem where
  kind  : Nat
  unit  : Nat
  flags : Nat
  cclk  : Nat
  words : List Nat
  len   : Nat                   -- bytes
  deriving DecidableEq, Repr

/-- Digest of one endpoint in the span in progress (R569). -/
structure Digest where
  crc   : Nat
  count : Nat
  deriving DecidableEq, Repr

/-- An item of the EPOCH sections of a record in replay, or a GAP section in its place: its tick and the byte of the record at which it
begins. -/
structure Feed where
  tick : Nat
  off  : Nat
  item : Option RecItem
  deriving DecidableEq, Repr

/-- The recorder (spec 16). -/
structure Rec where
  st      : RecSt
  cfg     : Option RecCfg
  id      : Nat
  qStart  : Nat                 -- FTIME of step 1 of R572
  epochQ  : Nat
  hold    : Bool                -- step 1 holds new messages and engine requests
  walked  : Bool
  chunk   : List RecItem        -- items of the chunk in progress, in the order of R566
  cont    : Bool                -- that chunk is not the first of its section (R578)
  buf     : List Nat            -- 64-bit words of closed sections that wait to be spilled, oldest first
  used    : Nat
  high    : Nat
  written : Nat
  gap     : Bool
  gaps    : Nat
  gapAt   : Nat                 -- CCLK of the first lost item
  gapTick : Nat
  gapLost : Nat
  first   : Nat                 -- place in the sink after the STATE or RTDATA section (R581)
  begun   : List (Nat × Nat)    -- tick of each EPOCH section, and the bytes written or waiting before it
  span    : Nat
  digests : Tab Digest
  frozen  : Bool                -- buffer frozen in the safe state
  endCause : Nat
  lastTick : Nat
  replay  : Option Hdr
  replayed : Nat
  report  : Nat
  scan    : Nat                 -- CCLKs since the boundary
  rdy     : Tab Nat             -- egress-ready vector of each port (R564), in replay that of the record (R587)
  feed    : List Feed           -- in replay, what the record still holds
  fed     : Nat                 -- entries at its front that are read (R588)
  want    : List RecItem        -- DIGEST items that it holds for the span in progress (R589)
  spanOff : Option Nat          -- byte of the record at which the first item of that span begins (R590)
  deriving DecidableEq, Repr

/-- Phases of IMG_STATUS. -/
inductive Phase where
  | idle | staging | verify | drain | pause | trial | fallback | refresh
  deriving DecidableEq, Repr

/-- A slot selector record (R594): ACTIVE and PREV are 0 slot A, 1 slot B, 2 factory. -/
structure Selector where
  seq     : Nat
  active  : Nat
  prev    : Nat
  trial   : Bool
  armed   : Bool
  trialS  : Nat
  validA  : Bool
  validB  : Bool
  hours   : Nat
  whoursA : Nat
  whoursB : Nat
  verA    : Nat
  verB    : Nat
  deriving DecidableEq, Repr

/-- An activation under way (R602). -/
structure Act where
  hdr     : Option Hdr          -- none once its completion is written, and in a trial after a cold start (R613)
  slot    : Nat
  tick    : Nat
  offset  : Nat
  windowS : Nat
  cold    : Bool
  started : Nat                 -- FTIME of the drain
  prev    : Nat
  tries   : Nat                 -- failed drains of a fallback (R611)
  paused  : Bool                -- the pause has begun
  pauseAt : Nat                 -- FTIME of its start
  capx0   : Nat                 -- BLW_CAPX at the start of the trial
  miss    : Nat                 -- SC0_MISS events in the trial
  trialAt : Nat
  fc3     : Bool                -- an FC3 entry without INJ has been made in the trial
  unready : Bool                -- READY has been clear in the trial
  evict   : List (Nat × Nat)    -- FA ranges whose lines leave before a cold start (R35, R612)
  deriving DecidableEq, Repr

/-- The HEALTH section (R608). -/
structure Health where
  windowS  : Nat
  self     : Bool
  tickLock : Bool
  noFc3    : Bool
  mgr      : Bool
  maxMiss  : Nat
  maxCapx  : Nat
  ports    : BitVec 64
  deriving DecidableEq, Repr

/-- What the loader takes from the bytes of a Pafogen image (R596, R597). -/
structure Image where
  version   : Word32
  fmt       : Nat
  svn       : Nat
  svnCommit : Bool
  length    : Nat
  setup     : List (BitVec 24 × Word)
  coef      : Option (List Word32)
  domains   : List (BitVec 16 × List Word)
  tables    : List TabRec
  plan      : Option (List Word)
  health    : Option Health
  deriving DecidableEq, Repr

/-- Configuration images (spec 17). -/
structure Img where
  slotA    : Option (List Word) -- external flash: the words of each slot, none where it is erased
  slotB    : Option (List Word)
  sels     : List (Option Selector)  -- two copies; none: not valid (R595)
  src      : Nat                -- 0 factory, 1 slot A, 2 slot B, 3 recovery
  running  : Option Image
  alt      : Bool
  phase    : Phase
  act      : Option Act
  stage    : Option (Hdr × Nat × List Word)
  hold     : Bool               -- drain or pause holds new messages (R602)
  retErr   : Bool
  refreshDue : Bool
  code     : Nat
  fused    : Nat                -- fused security version
  key      : List Word          -- key hash fuses, as written to IMG_FUSE_KEY0-5 before they are programmed
  keyset   : Bool
  keyHash  : List Word          -- the key hash fuses, programmed once (R616)
  fuseRes  : Nat
  drainUs  : Nat
  pauseUs  : Nat
  health   : Option Health
  checked  : Bool               -- the retention check of this cold start has been made (R618)
  refresh : Option Nat          -- slot being rewritten (R619)
  checkAt : Nat                -- FTIME of the last retention check (R618)
  hoursAt : Nat                -- FTIME multiple of 24 hours last added to HOURS (R24, R617)
  deriving DecidableEq, Repr

/-- The device. -/
structure State where
  pending : List Instr          -- commands that wait, first in, first out
  free    : Nat                 -- counter that the free values of Config are applied to; the model's own (log 3)
  out     : List Out
  regs    : Tab Word            -- setup registers by offset
  sys     : Sys
  pit     : Pitch
  host    : HostIf
  flt     : Flt
  eng     : Eng
  dom     : Dom
  ports   : Vector Port 64
  tool    : Tool
  fab     : Fab
  tabs    : Tabs
  home    : Home
  bel     : Bel
  rec_    : Rec
  img     : Img
  deriving DecidableEq, Repr

/-- The empty plan of R40: factory period, default margin, no window, no entry. -/
def Plan.factory : Plan := ⟨1000000, 0, 2000, 0, [], [], [], []⟩

/-- Credits of a channel before training. -/
def Credit.zero : Credit := ⟨0, 0, false, 0, 0, false, 0, 0, 0, 0, 0, 0, 0, 0, 0, 0⟩

def Link.init : Link := ⟨0, 0, [], 0, 0, 0, 0, none, Vector.replicate 16 Credit.zero, [], 0, (0, 0)⟩

/-- A port before any configuration: OFF, generation 0, PRSNT_N high by its pull-up (R653). -/
def Port.init : Port :=
  { state := .off, width := 0, trained := 0, rate := 0, mode := 0, gen := 0, ltssm := 0, dll := false, partnerSwitch := false,
    role := 0, maxRate := 6, flit := 0, lopt := false, clkMode := 0, merad := .none, meradAt := 0, negVer := 0, respNs := 0,
    wasBound := false, waitBind := false, flushing := false, flushOwed := 0, walks := 0, prsntRaw := true, prsntAt := 0, prsnt := true,
    pwrgd := false, fenced := false, retrain := false, l0pAsk := none, lateAt := none, release := .none, relStart := 0, relWait := false,
    powerAt := 0, trainAt := 0, upWait := false, ramping := false, proofPass := false, proofFail := false, samples := [], insecure := 0, secure := 0,
    keys := [], bwDown := false, outNp := 0, sent := [], aer := [], link := Link.init }

/-- An engine at dispatchable rest: every register 0 (R337). -/
def Engine.init : Engine :=
  { st := .idle, cause := 0, spare := false, item := none, sregs := Vector.replicate 32 0,
    lregs := Vector.replicate 8 (0, false), used := 0, load := none, nextTag := 0, lastFa := 0, lastDomain := 0 }

def Column.init : Column := ⟨8192, 0, 0, 0, 0, 0, false, false⟩

def Arb.init : Arb := ⟨[0, 0, 0, 0, 0, 0, 0, 0], [0, 0, 0, 0, 0, 0, 0, 0], 2, false, none⟩

def Slice.init : Slice := ⟨false, 0, [], 0, 0, 0, 0, 0, 0⟩

def Source.none : Source := ⟨0, 0, false⟩

def Counter.none : Counter := ⟨0, 0, Option.none, 0, false, false, false, false, false, 0, 0, 0, 0, 0⟩

def BwWin.none : BwWin := ⟨0, 0, 0, 0, 0, 0, 0, 0, 0, 0, false⟩

def MsixEnt.none : MsixEnt := ⟨0, 0, true, false⟩

def Domain.none : Domain := ⟨.free, false, 0, 0, 0, 0, 0, 0, 0⟩

/-- D0 from cold start (R389, R391). -/
def Domain.zero : Domain := ⟨.active, false, 1024, 64, 64, 8, 0, 0, 0⟩

def RidEnt.none : RidEnt := ⟨0, 0, 0, false⟩

def Slot.none : Slot := ⟨[], ⟨0, 0, 0, 0⟩, Option.none⟩

def Digest.none : Digest := ⟨0xFFFFFFFF, 0⟩

/-- What an unlisted key of each table reads as. -/
def sourceAt (_ : Nat) : Source := Source.none
def counterAt (_ : Nat) : Counter := Counter.none
def bwAt (_ : Nat) : BwWin := BwWin.none
def msixAt (_ : Nat) : MsixEnt := MsixEnt.none
def domainAt (_ : Nat) : Domain := Domain.none
def ridAt (_ : Nat) : RidEnt := RidEnt.none
def slotAt (_ : Nat) : Slot := Slot.none
def digestAt (_ : Nat) : Digest := Digest.none
def natAt (_ : Nat) : Nat := 0
def pairAt (_ : Nat) : Nat × Nat := (0, 0)
def tlistAt (_ : Nat) : List Word32 := []
def agesAt (_ : Nat) : List Nat := List.range 16
def trafficAt (_ : Nat) : List (Nat × Nat) := []

/-- Factory coefficient table of stepping B1 (R447); entry 63 is its CRC-32C, kept as 0 here since it is checked at load
only (log 9). -/
def Bel.factoryCoef : List Nat :=
  [1, 6000, 9500, 14500, 22500, 35000, 60, 75, 110, 160, 225, 360, 32, 1100, 780, 250, 450, 520, 300, 20, 110000, 625, 1250]
    ++ List.replicate 41 0

def Bel.init : Bel :=
  { coef := Bel.factoryCoef, g := 16, slack := false, hot := false, warn := false, calHeld := false, calFails := 0,
    drift := false, temp := 0, kappa := 4096, u := 0, idx := 0, start := 0, evCwr := 0, evCrd := 0, evDir := 0, evOlcR := 0,
    evOlcW := 0, evCyc := 0, evChk := 0, rtPj := 0, winPj := [], prevBe := 0, prevCore := 0, prevBare := 0, prevDyn := 0,
    prevI := 0, prevI2 := 0, prevLane := 0, pBal := 0, ending := 0, energy := 0, capTold := false, tMax := 0, gMin := 16, sumRt := 0,
    sumEst := 0, slackN := 0, defers := 0, ballast := 0, calSum := 0, calSpan := 0, calAt := 0, calDue := false, tempAt := 0, safeFall := false, regs := [],
    traffic := [] }

def Rec.init : Rec :=
  { st := .idle, cfg := none, id := 0, qStart := 0, epochQ := 0, hold := false, walked := false, chunk := [], cont := false,
    buf := [], used := 0, high := 0, written := 0, gap := false, gaps := 0, gapAt := 0, gapTick := 0, gapLost := 0, first := 0,
    begun := [], span := 0, digests := [], frozen := false, endCause := 0, lastTick := 0, replay := none,
    replayed := 0, report := 0, scan := 0, rdy := [], feed := [], fed := 0, want := [], spanOff := none }

def Img.init : Img :=
  { slotA := none, slotB := none, sels := [none, none], src := 0, running := none, alt := false, phase := .idle, act := none,
    stage := none, hold := false, retErr := false, refreshDue := false, code := 0, fused := 0, key := List.replicate 6 0, keyset := false, keyHash := List.replicate 6 0, fuseRes := 0,
    drainUs := 0, pauseUs := 0, health := none, checked := false, refresh := none, checkAt := 0, hoursAt := 0 }

/-- The Pitch pipe at cold start: FTIME and the tick counter at 0 (R631), 0.625 ns per CCLK, the empty plan (R40). -/
def Pitch.init : Pitch :=
  { ftime := 0, frac := 0, rate := 2684354560, tick := 0, bk := 0, period := 1000000, running := false, stopAfter := false,
    resumeAt := none, fixed := [], switches := [], steps := [], current := Plan.factory, pendingPlan := none, openWin := 0,
    admitWin := 0, tstate := .free, phaseErr := 0, good := 0, ptmFails := 0, srcWait := none, source := 0, srcAt := 0, ptmAt := none, ppsAt := none, ppsLost := false, clkLost := false, pulses := [], holdAt := 0, outStop := false, outLast := false,
    faultSeen := false, ftimeHigh := 0 }

/-- D0's sources mapped to event queue 0 (R514). -/
def HostIf.sources0 : Tab Source :=
  [0x00, 0x01, 0x02, 0x03, 0x10, 0x11, 0x12, 0x13, 0x14, 0x15, 0x16, 0x17, 0x18].map (fun n => (n, ⟨0, 0, true⟩))

def HostIf.init : HostIf :=
  { rings := [], evqs := [], sources := HostIf.sources0, counters := [], bw := [], msix := [], cmdReg := [], bridgeMem := [],
    bridgeBus := [], bridgeEvt := [], refTick := [], refSupp := [], roundAt := 0, roundN := 0 }

def Flt.init : Flt :=
  { entries := [], nextAge := 0, ovf := false, safe := false, faultN := false, hold := false, fellAt := 0, safeAt := 0, onset := [], monClock := false,
    monSupply := false, scans := 0, inverted := [] }

def Eng.init : Eng :=
  { engs := Vector.replicate 64 Engine.init, progs := [], loads := [], scratch := [], slots := [], place := [], ran := 0,
    lost := [] }

/-- Domains at cold start: D0 active, rule slot 0 of D0 over the I/O space of the manager port (R391, R392). -/
def Dom.init (mgr : Nat) : Dom :=
  { doms := [(0, Domain.zero)],
    rules := [(0, some ⟨0, 2 ^ 52, 0, false, false, true, true, mgr, 1, false⟩)],
    rids := [], reset := none, revokes := [] }

def Fab.init : Fab :=
  { msgs := [], nextId := 0, columns := Vector.replicate 88 Column.init, arbs := Vector.replicate 88 Arb.init, flowSeq := [],
    expect := [], sc0 := [], epoch := 0, used := false, ledger := [], wait := [], barriers := [], splits := [], inbox := [], writes := [], auditAt := 0, served := List.replicate 8 7 }

def Tabs.init : Tabs := ⟨[], [], [], [], [], [], [], 0⟩

def Home.init : Home :=
  { slices := Vector.replicate 16 Slice.init, dir := [], olc := [], dirAge := [], olcAge := [], trk := [], recalls := [], reads := [], confs := [], pins := [], owed := [], wbOut := [] }

def Life.init : Life := ⟨[], none, none, none, 0⟩

/-- Rails down, reset pin released by its pull-up, every output pin at its reset level (R653). -/
def Sys.init : Sys :=
  { vddAon := false, pwrOk := false, rstN := true, lowSince := false, coldDue := none, jtagHold := false,
    jtagIr := .idcode, oscOnly := false, i3cSetup := 0x4E, i3cMctp := 0x4F, rcvPos := 0, rcvLenSet := false, rcvData := [],
    perstN := 0, pwren := 0, disch := BitVec.allOnes 64, tcok := 0, tcrN := BitVec.allOnes 16, tickOut := 0, alertN := true,
    corePower := false, life := Life.init, ageAt := 0 }

/-- The device before its first start: every setup register at the value of its Reset column, every structured part as a
cold start leaves it, the rails down. VDD_AON_RISE begins the start (log 5). -/
def State.reset : State :=
  { pending := [], free := 0, out := [], regs := [], sys := Sys.init, pit := Pitch.init, host := HostIf.init, flt := Flt.init,
    eng := Eng.init, dom := Dom.init 0, ports := Vector.replicate 64 Port.init, tool := ⟨0, [], 0, []⟩, fab := Fab.init,
    tabs := Tabs.init, home := Home.init, bel := Bel.init, rec_ := Rec.init, img := Img.init }

end Sys2Proof.Machine
end

