-- ==== Sys2Proof/Machine/Ops.lean ====
section
/-! DEFINITION. The named operations on the state: one modifier per group, setup fields, outputs, time, free values. -/

namespace Sys2Proof.Machine

/-! ### One modifier per group -/

def State.onSys (f : Sys → Sys) (s : State) : State := { s with sys := f s.sys }
def State.onPit (f : Pitch → Pitch) (s : State) : State := { s with pit := f s.pit }
def State.onHost (f : HostIf → HostIf) (s : State) : State := { s with host := f s.host }
def State.onFlt (f : Flt → Flt) (s : State) : State := { s with flt := f s.flt }
def State.onEng (f : Eng → Eng) (s : State) : State := { s with eng := f s.eng }
def State.onDom (f : Dom → Dom) (s : State) : State := { s with dom := f s.dom }
def State.onFab (f : Fab → Fab) (s : State) : State := { s with fab := f s.fab }
def State.onTabs (f : Tabs → Tabs) (s : State) : State := { s with tabs := f s.tabs }
def State.onHome (f : Home → Home) (s : State) : State := { s with home := f s.home }
def State.onBel (f : Bel → Bel) (s : State) : State := { s with bel := f s.bel }
def State.onRec (f : Rec → Rec) (s : State) : State := { s with rec_ := f s.rec_ }
def State.onImg (f : Img → Img) (s : State) : State := { s with img := f s.img }

/-- What the next health record tells. -/
def State.onLife (f : Life → Life) (s : State) : State := s.onSys fun y => { y with life := f y.life }

/-- The pause of an activation lasts: work items that still run issue no request either (R602; log 47). -/
def State.imagePaused (s : State) : Bool :=
  s.img.hold && (match s.img.act with
    | some a => a.paused
    | none => false)

/-- Note something for the health criteria of a trial (R608). -/
def State.inTrial (f : Act → Act) (s : State) : State :=
  if s.img.phase = .trial then s.onImg fun g => { g with act := g.act.map f } else s

def State.onTool (f : Tool → Tool) (s : State) : State := { s with tool := f s.tool }

/-- Port `p`. -/
def State.port (s : State) (p : PortId) : Port := s.ports[p.val]

def State.onPort (p : PortId) (f : Port → Port) (s : State) : State :=
  { s with ports := s.ports.set p.val (f (s.port p)) }

/-- All ports at once. -/
def State.onPorts (f : Vector Port 64 → Vector Port 64) (s : State) : State := { s with ports := f s.ports }

/-- Port by number; a number above 63 names none and reads as a port that is OFF. -/
def State.portN (s : State) (n : Nat) : Port := if h : n < 64 then s.ports[n] else Port.init

def State.onPortN (n : Nat) (f : Port → Port) (s : State) : State :=
  if h : n < 64 then s.onPort ⟨n, h⟩ f else s

def State.link (s : State) (p : PortId) : Link := (s.port p).link

def State.onLink (p : PortId) (f : Link → Link) (s : State) : State :=
  s.onPort p fun q => { q with link := f q.link }

/-- Engine `e`. -/
def State.engine (s : State) (e : EngineId) : Engine := s.eng.engs[e.val]

def State.onEngine (e : EngineId) (f : Engine → Engine) (s : State) : State :=
  s.onEng fun g => { g with engs := g.engs.set e.val (f (s.engine e)) }

def State.slice (s : State) (h : SliceId) : Slice := s.home.slices[h.val]

def State.onSlice (h : SliceId) (f : Slice → Slice) (s : State) : State :=
  s.onHome fun g => { g with slices := g.slices.set h.val (f (s.slice h)) }

def State.column (s : State) (m : Endpoint) : Column := s.fab.columns[m.val]

def State.onColumn (m : Endpoint) (f : Column → Column) (s : State) : State :=
  s.onFab fun g => { g with columns := g.columns.set m.val (f (s.column m)) }

def State.arb (s : State) (m : Endpoint) : Arb := s.fab.arbs[m.val]

def State.onArb (m : Endpoint) (f : Arb → Arb) (s : State) : State :=
  s.onFab fun g => { g with arbs := g.arbs.set m.val (f (s.arb m)) }

/-! ### Setup fields -/

/-- The register at an offset. -/
def State.reg (s : State) (off : Nat) : Word := Tab.get regDefault s.regs off

def State.setReg (off : Nat) (w : Word) (s : State) : State := { s with regs := Tab.set regDefault s.regs off w }

/-- Offset of instance `i` of a field's register (R664, R669). -/
def FRef.off (f : FRef) (i : Nat) : Nat := f.base + f.stride * i

/-- Value of a BLW field in the interval in progress (R475). -/
def State.blw (s : State) (f : FRef) : Nat := getBits (Tab.get regDefault s.bel.regs f.base) f.lo f.width

/-- Value of a field. -/
def State.rd (s : State) (f : FRef) (i : Nat := 0) : Nat := getBits (s.reg (f.off i)) f.lo f.width

/-- Write a field. -/
def State.wr (f : FRef) (i : Nat) (v : Nat) (s : State) : State :=
  s.setReg (f.off i) (setBits (s.reg (f.off i)) f.lo f.width v)

/-- A one-bit field as a truth value. -/
def State.bit (s : State) (f : FRef) (i : Nat := 0) : Bool := s.rd f i = 1

/-- Add to a fixed counter, which saturates at 2^48 - 1 (R670). -/
def State.bump (f : FRef) (i : Nat) (n : Nat) (s : State) : State :=
  s.wr f i (min (2 ^ f.width - 1) (s.rd f i + n))

/-! ### Outputs, free values, time -/

def State.emit (o : Out) (s : State) : State := { s with out := o :: s.out }

/-- A new argument for the free values of Config, and the state with the counter advanced (log 3). -/
def State.nextFree (s : State) : State := { s with free := s.free + 1 }

/-- `n` arguments of free values are used up. -/
def State.takeFree (n : Nat) (s : State) : State := { s with free := s.free + n }

/-- FTIME as blocks read it (R37). -/
def State.now (s : State) : Nat := s.pit.ftime

/-- The time of this CCLK in 2^-32 ns: no two CCLKs share it. -/
def State.fine (s : State) : Nat := s.pit.ftime * 2 ^ 32 + s.pit.frac

/-- CCLKs from now on until the first edge at or after a time in 2^-32 ns. -/
def State.cclksTo (s : State) (t : Nat) : Nat := (t - s.fine + s.pit.rate - 1) / s.pit.rate

/-- Events are stamped with FTIME[47:0]. -/
def State.stamp48 (s : State) : Nat := s.pit.ftime % 2 ^ 48

/-- Signed 32-bit and 64-bit values as bits of an argument. -/
def intBits (n : Nat) (i : Int) : Nat := (BitVec.ofInt n i).toNat

/-- The manager port (R100). -/
def State.mgrPort (s : State) : Nat := s.rd R.GLB_STRAP_MGR_SEL

/-- The start-up sequence of R636 has ended and core power is up. -/
def State.started (s : State) : Bool := s.rd R.GLB_START_PHASE_STEP = 10 && !s.sys.lowSince && !s.sys.jtagHold

/-- Started and not in the safe state: the device forwards, dispatches and serves. -/
def State.serving (s : State) : Bool := s.started && !s.flt.safe

/-- Do nothing unless the device serves. -/
def State.whenServing (f : State → State) (s : State) : State := if s.serving then f s else s

/-- Apply `f` when `b` holds. -/
def State.when (b : Bool) (f : State → State) (s : State) : State := if b then f s else s

/-- Fold a state change over a list. -/
def State.forAll {α : Type} (l : List α) (f : α → State → State) (s : State) : State := l.foldl (fun t a => f a t) s

/-- Natural numbers below `n` whose bit is set. -/
def bitsOf {w : Nat} (v : BitVec w) : List Nat := (List.range w).filter fun i => v.getLsbD i

/-- All ports in order of name. -/
def allPorts : List PortId := List.finRange 64
def allEngines : List EngineId := List.finRange 64
def allSlices : List SliceId := List.finRange 16
def allEndpoints : List Endpoint := List.finRange 88

/-! ### Bundles and roles (R92, R99) -/

/-- Bundling mode in force of the quad of slice `n`. -/
def State.quadMode (s : State) (n : Nat) : Nat := s.rd R.PRT_QUAD_MODE (n / 4 * 4)

/-- Lowest slice of the port that slice `n` belongs to (R92). -/
def State.lowest (s : State) (n : Nat) : Nat :=
  match s.quadMode n with
  | 0 => n
  | 1 => n / 2 * 2
  | 2 => n / 4 * 4
  | _ => if n % 4 < 2 then n / 4 * 4 else n

/-- Slices of the port named by slice `n`: its configured width in slices. -/
def State.nslices (s : State) (n : Nat) : Nat :=
  match s.quadMode n with
  | 0 => 1
  | 1 => 2
  | 2 => 4
  | _ => if n % 4 < 2 then 2 else 1

/-- Slice `n` names a port. -/
def State.isLowest (s : State) (n : Nat) : Bool := n < 64 && s.lowest n = n

/-- Configured width of the port in lanes. -/
def State.cfgLanes (s : State) (n : Nat) : Nat := 4 * s.nslices n

/-- Width code of PRT_STATUS for a number of lanes. -/
def widthCode (lanes : Nat) : Nat :=
  if lanes = 1 then 1 else if lanes = 2 then 2 else if lanes = 4 then 3 else if lanes = 8 then 4 else if lanes = 16 then 5 else 0

/-- Lanes of a width code. -/
def lanesOf (code : Nat) : Nat := if code = 0 then 0 else 2 ^ (code - 1)

/-- A port that has left OFF runs by the configuration it took then or at a later training, and one that is OFF by the registers
(R151). -/
def PState.trained : PState → Bool
  | .off => false
  | _ => true

/-- Role that the registers give the port named by slice `n`: that of its next training. -/
def State.cfgRole (s : State) (n : Nat) : Nat := if s.isLowest n then s.rd R.PRT_CFG_ROLE n else 0

/-- Role in force of the port named by slice `n` (R99, R151); an instance that names no port reads 0. -/
def State.role (s : State) (n : Nat) : Nat :=
  if s.isLowest n && (s.portN n).state.trained then (s.portN n).role else s.cfgRole n

def State.isUpstream (s : State) (n : Nat) : Bool := s.role n = 1
def State.isDownstream (s : State) (n : Nat) : Bool := s.role n = 2
def State.isFabric (s : State) (n : Nat) : Bool := s.role n = 3

/-- The port is ACTIVE. -/
def State.isActive (s : State) (n : Nat) : Bool := (s.portN n).state = .active

/-- Endpoints of the port named by slice `n`. -/
def State.portEndpoints (s : State) (n : Nat) : List Nat := (List.range (s.nslices n)).map (n + ·)

end Sys2Proof.Machine
end

