-- ==== Sys2Proof/Machine/Region.lean ====
section
/-! DEFINITION. Region rules, decode windows and the domain of an access (R193 to R201, R395 to R402). -/

namespace Sys2Proof.Machine

/-- Permissions an access part needs (R402). -/
structure Need where
  r : Bool
  w : Bool
  a : Bool
  deriving DecidableEq, Repr

def needR : Need := ⟨true, false, false⟩
def needW : Need := ⟨false, true, false⟩
def needRW : Need := ⟨true, true, false⟩
def needRWA : Need := ⟨true, true, true⟩

/-- Access kind code of R406. -/
def Need.kind (n : Need) : Nat := if n.a then 3 else if n.r && n.w then 4 else if n.w then 2 else 1

/-- Outcome of the region check of one part (R400). -/
inductive Decision where
  | allowed | refused | refusedLock (tag : Nat)
  deriving DecidableEq, Repr

/-- Domain that a rule key belongs to. -/
def ruleDomain (key : Nat) : Nat := key / 4096

/-- The rule covers an address of a space (R398). -/
def Rule.covers (r : Rule) (space port addr : Nat) : Bool :=
  r.space = space && (space = 0 || r.port = port) && r.base * 4096 ≤ addr && addr < r.limit * 4096

/-- The rule permits everything needed. -/
def Rule.permits (r : Rule) (n : Need) : Bool := !r.dead && (!n.r || r.r) && (!n.w || r.w) && (!n.a || r.a)

/-- A lock of another domain that covers the address. -/
def lockOver (t : Tab (Option Rule)) (d space port addr : Nat) : Option Rule :=
  t.findSome? fun e =>
    match e.2 with
    | some r => if r.lock && r.covers space port addr && ruleDomain e.1 ≠ d then some r else none
    | none => none

/-- A rule of the domain that permits the access. -/
def ruleFor (t : Tab (Option Rule)) (d space port addr : Nat) (n : Need) : Bool :=
  t.any fun e =>
    match e.2 with
    | some r => ruleDomain e.1 = d && r.covers space port addr && r.permits n
    | none => false

/-- The decision of a check unit on one 64-byte part (R400). -/
def decidePart (s : State) (d space port addr : Nat) (n : Need) : Decision :=
  match lockOver s.dom.rules d space port addr with
  | some r => .refusedLock r.tag
  | none => if ruleFor s.dom.rules d space port addr n then .allowed else .refused

def State.domain (s : State) (d : Nat) : Domain := Tab.get domainAt s.dom.doms d

def State.setDomain (d : Nat) (x : Domain) (s : State) : State :=
  s.onDom fun g => { g with doms := Tab.set domainAt g.doms d x }

/-- The domain is in a state in which its accesses have a domain (R397). -/
def State.domainLive (s : State) (d : Nat) : Bool := (s.domain d).st ≠ .free

/-! ### Decode windows -/

def mib2 : Nat := 2 ^ 21

/-- The window covers an address of its scope. -/
def DWin.covers (w : DWin) (addr : Nat) : Bool := w.base * mib2 ≤ addr && addr < w.limit * mib2

/-- The FA an address of the window maps to (R197): at fabric scope the address itself. -/
def DWin.fa (w : DWin) (addr : Nat) : Nat :=
  if w.scope = 64 then addr else w.faBase * mib2 + (addr - w.base * mib2)

/-- FA range of the window in 2 MiB units. -/
def DWin.faRange (w : DWin) : Nat × Nat :=
  if w.scope = 64 then (w.base, w.limit) else (w.faBase, w.faBase + (w.limit - w.base))

/-- The decode window of a scope that covers an address (R194). -/
def State.window (s : State) (scope addr : Nat) : Option (Nat × DWin) :=
  s.tabs.wins.findSome? fun e =>
    match e.2 with
    | some w => if w.scope = scope && w.covers addr then some (e.1, w) else none
    | none => none

/-- Any decode window that maps an FA, of any scope. -/
def State.windowOfFa (s : State) (fa : Nat) : Option DWin :=
  s.tabs.wins.findSome? fun e =>
    match e.2 with
    | some w => if (w.faRange.1 * mib2 ≤ fa) && (fa < w.faRange.2 * mib2) then some w else none
    | none => none

/-- The SH window that maps an FA. -/
def State.shOfFa (s : State) (fa : Nat) : Option DWin :=
  s.tabs.wins.findSome? fun e =>
    match e.2 with
    | some w => if w.kind && (w.faRange.1 * mib2 ≤ fa) && (fa < w.faRange.2 * mib2) then some w else none
    | none => none

/-- FA of a line. -/
def faOf (la : Nat) : Nat := 64 * la

/-- The SH window of a line; one that is being unbound maps its lines until WB_DONE (R308). -/
def State.lineWin (s : State) (la : Nat) : Option DWin :=
  (s.shOfFa (faOf la)).orElse fun _ =>
    (s.tabs.unbinds.find? fun u => u.base * mib2 ≤ faOf la && faOf la < u.limit * mib2).map fun u => u.win

/-- Domains that own a line's window: those of its entries outside fabric scope, at which DOMAIN is ignored (R197). -/
def State.lineOwners (s : State) (la : Nat) : List Nat :=
  s.tabs.wins.filterMap fun e => e.2.bind fun w =>
    if w.kind && w.scope < 64 && w.faRange.1 * mib2 ≤ faOf la && faOf la < w.faRange.2 * mib2 then some w.domain else none

/-- The line's domain (R395): the first owner; of a line that fabric scope alone maps, the DOMAIN written there (log 63). -/
def State.lineDomain (s : State) (la : Nat) : Nat :=
  ((s.lineOwners la).head?.orElse fun _ => (s.lineWin la).map fun w => w.domain).getD 0

/-- Domains whose decode entry maps an FA; DOMAIN is ignored at fabric scope (R197). -/
def State.domainsOfFa (s : State) (fa : Nat) : List Nat :=
  (s.tabs.wins.filterMap fun e =>
    match e.2 with
    | some w => if w.scope < 64 && (w.faRange.1 * mib2 ≤ fa) && (fa < w.faRange.2 * mib2) then some w.domain else none
    | none => none).eraseDups

/-- A target of a target list (R199). -/
structure Target where
  port   : Nat
  ld     : Nat
  pbr    : Nat
  usePbr : Bool
  deriving DecidableEq, Repr

/-- The target of a list, when VALID. -/
def targetOf (w : Word32) : Option Target :=
  if w.getLsbD 31 then
    some ⟨(w.extractLsb' 0 6).toNat, (w.extractLsb' 6 4).toNat, (w.extractLsb' 10 12).toNat, w.getLsbD 22⟩
  else none

/-- Target number of an offset in a window (R199). -/
def DWin.targetNo (w : DWin) (off : Nat) : Nat := off / 2 ^ (8 + w.ig) % 2 ^ w.iw

/-- The route of a PBR ID: the port, when VALID (R200). -/
def State.pbrPort (s : State) (id : Nat) : Option Nat :=
  let e := Tab.get natAt s.tabs.pbr id
  if e / 64 % 2 = 1 then some (e % 64) else none

/-- The target that a window serves an offset with, its port that of the PBR route where USE_PBR is set (R199, R200). -/
def State.targetAt (s : State) (w : DWin) (off : Nat) : Option Target :=
  match (Tab.get tlistAt s.tabs.tlists w.tlist)[w.targetNo off]? with
  | some t =>
    match targetOf t with
    | some x => if x.usePbr then (s.pbrPort x.pbr).map fun p => { x with port := p } else some x
    | none => none
  | none => none

/-- The port that the target of a window serves an offset with. -/
def State.targetPort (s : State) (w : DWin) (off : Nat) : Option Nat := (s.targetAt w off).map Target.port

/-- The ports of every target a window uses. -/
def State.targetPorts (s : State) (w : DWin) : List (Option Nat) :=
  (List.range (2 ^ w.iw)).map fun i => s.targetPort w (i * 2 ^ (8 + w.ig))

/-- Home slice of an FA (R250). -/
def homeOf (fa : Nat) : Nat :=
  let la := fa / 64 % 2 ^ 46
  (List.range 12).foldl (fun h i => h ^^^ (la / 16 ^ i % 16)) 0

/-- Directory and OLC set of a line address LA (R289). -/
def setOf (la : Nat) : Nat :=
  (la / 2 ^ 4 % 2048) ^^^ (la / 2 ^ 15 % 2048) ^^^ (la / 2 ^ 26 % 2048) ^^^ (la / 2 ^ 37 % 512)

/-- TAG of a line address (R289). -/
def tagOf (la : Nat) : Nat := la / 2 ^ 15 % 2 ^ 31

/-- The domain of a requester ID on a port (R396): the first valid matching entry. -/
def State.ridDomain (s : State) (port : Nat) (rid : BitVec 16) : Option Nat :=
  (List.range 16).findSome? fun i =>
    let e := Tab.get ridAt s.dom.rids (port * 16 + i)
    if e.valid && (rid &&& e.mask = e.base &&& e.mask) then some e.domain else none

/-- Whether an access of the host interface, an event or a statistics writer for a domain passes (R477): the region check,
and at FA space a decode window of fabric scope. -/
def State.hostAllows (s : State) (d space port addr : Nat) (n : Need) : Bool :=
  decidePart s d space port addr n = .allowed && (space ≠ 0 || (s.window 64 addr).isSome)

end Sys2Proof.Machine
end

