-- ==== Sys2Proof/Machine/Events.lean ====
section
/-! DEFINITION. Records the device writes: events (R506 to R521), statistics (R484), completions (R487 to R497), and the
fault collector (R538 to R556). -/

namespace Sys2Proof.Machine

/-! ### Event sources and event queues -/

def State.source (s : State) (n : Nat) : Source := Tab.get sourceAt s.host.sources n

def State.setSource (n : Nat) (x : Source) (s : State) : State :=
  s.onHost fun h => { h with sources := Tab.set sourceAt h.sources n x }

def State.evq (s : State) (q : Nat) : Option Ring := Tab.get noneAt s.host.evqs q

def State.setEvq (q : Nat) (r : Option Ring) (s : State) : State :=
  s.onHost fun h => { h with evqs := Tab.set noneAt h.evqs q r }

def State.ring (s : State) (n : Nat) : Option Ring := Tab.get noneAt s.host.rings n

def State.setRing (n : Nat) (r : Option Ring) (s : State) : State :=
  s.onHost fun h => { h with rings := Tab.set noneAt h.rings n r }

/-- Free entries of a ring that the device writes. -/
def Ring.freeEntries (r : Ring) : Nat := 2 ^ r.log2n - (r.prod + 2 ^ 32 - r.cons) % 2 ^ 32

/-- PHASE of the entry of index `i` (R483): format 2 only. -/
def Ring.phase (r : Ring) (i : Nat) : Bool := r.fmt = 2 && (i / 2 ^ r.log2n) % 2 = 0

/-- An event queue that receives records: state ACTIVE, queue 0 only while READY is set (R514), and the host interface
not stopped by the safe state (R552). -/
def State.evqActive (s : State) (q : Nat) : Bool :=
  match s.evq q with
  | some r => r.state = .active && !s.flt.safe && (q ≠ 0 || s.bit R.GLB_MRING_STATUS_READY)
  | none => false

def State.sourceActive (s : State) (n : Nat) : Bool := (s.source n).en && s.evqActive (s.source n).evq

/-- Send an event queue's MSI-X message (R521): queue 0 always signals; a masked vector is left pending. -/
def State.signal (q : Nat) (r : Ring) (s : State) : State :=
  if q = 0 || r.vecEn then
    let port := if q = 0 then s.mgrPort else r.port
    let vec := if q = 0 then s.rd R.GLB_MRING_CTRL_VEC else r.vec
    let e := Tab.get msixAt s.host.msix (port * 2048 + vec)
    let s := s.bump R.EVQ_MSIX_COUNT 0 1
    if e.mask then
      s.onHost fun h => { h with msix := Tab.set msixAt h.msix (port * 2048 + vec) { e with pend := true } }
    else s.emit (.msix port vec)
  else s

/-- The four words of an event record, little-endian (R5, R516). -/
def EvtRec.words (e : EvtRec) : List Nat :=
  [e.code % 2 ^ 16 + 2 ^ 16 + e.cls % 8 * 2 ^ 24 + (if e.phase then 2 ^ 27 else 0) + e.source % 2 ^ 20 * 2 ^ 32 + e.ext % 2 ^ 12 * 2 ^ 52,
   e.stamp % 2 ^ 48 + e.cnt % 2 ^ 16 * 2 ^ 48, e.arg0 % 2 ^ 64, e.arg1 % 2 ^ 64]

/-- The shadow index of a format 1 ring or queue may be written (R19, R477, R483). -/
def State.shadowAllowed (s : State) (r : Ring) : Bool := r.fmt ≠ 1 || s.hostAllows r.domain r.space r.port r.shadow needW

/-- Write the shadow index of a format 1 ring or queue, where its check passes. -/
def State.writeShadow (r : Ring) (prod : Nat) (s : State) : State :=
  if r.fmt = 1 && s.shadowAllowed r then s.emit (.shadow r.shadow prod) else s

/-- How the writing of a record to a ring ends: done, the record refused by its check, the record written and its shadow index refused. -/
inductive Pushed where
  | done | refused | unshadowed
  deriving DecidableEq, Repr

/-- Append a record to an event queue: the record, the shadow index of a format 1 queue, then the message when the queue
was empty (R483, R521), each write checked under R477. -/
def State.pushEvt (q : Nat) (r : Ring) (e : EvtRec) (s : State) : State × Pushed :=
  if s.hostAllows r.domain r.space r.port (r.base + 32 * (r.prod % 2 ^ r.log2n)) needW then
    let r' := { r with prod := (r.prod + 1) % 2 ^ 32 }
    let ok := s.shadowAllowed r
    let s := (s.emit (.evt q r.prod { e with phase := r.phase r.prod }.words)).setEvq q (some r')
    let s := (s.bump R.EVQ_WRITTEN_COUNT 0 1).writeShadow r r'.prod
    (if r.prod = r.cons then s.signal q r else s, if ok then .done else .unshadowed)
  else (s.setEvq q (some r), .refused)

/-- Write an event of source `n` whose CNT is already counted into its queue `q` (R515): a record that would leave no free
entry gives way to QUEUE_FULL, and nothing is written until a doorbell read shows a free entry. -/
def State.writeEvt (n q : Nat) (e : EvtRec) (s : State) : State × Pushed :=
  match s.evq q with
  | none => (s, .done)
  | some r =>
    if r.full then (s.bump R.EVQ_FULL_DROP_COUNT 0 1, .done)
    else if r.freeEntries ≤ 1 then
      let m := 256 * r.domain + 3
      let fullRec : EvtRec := ⟨0x0001, 7, 0, m, min 65535 ((s.source m).cnt + 1), s.stamp48, false, q, r.cons⟩
      let s := s.setSource m { s.source m with cnt := 0 }
      (s.bump R.EVQ_FULL_DROP_COUNT 0 1).pushEvt q { r with full := true } fullRec
    else (s.setSource n { s.source n with cnt := 0 }).pushEvt q r e

/-- An event of local source `loc` of domain `d` (R508, R509): it counts, and an active source writes one record. -/
def State.raiseOnce (d loc code cls ext arg0 arg1 : Nat) (s : State) : State × Pushed :=
  let n := 256 * d + loc
  let src := s.source n
  let cnt := min 65535 (src.cnt + 1)
  let s := s.setSource n { src with cnt := cnt }
  if s.sourceActive n then
    s.writeEvt n src.evq ⟨code, cls, ext % 4096, n, cnt, s.stamp48, false, arg0 % 2 ^ 64, arg1 % 2 ^ 64⟩
  else (s.bump R.EVQ_INACTIVE_COUNT 0 1, .done)

/-- A way to raise an event: domain, local source, code, class, EXT, ARG0, ARG1. What a failed event record brings is written over
one, since it raises events itself. -/
abbrev Raise := Nat → Nat → Nat → Nat → Nat → Nat → Nat → State → State

/-! ### Discarded setup writes (R8, R666) -/

/-- Block index of a setup offset (R664). -/
def blockOf (off : Nat) : Nat :=
  if off < 0x010000 then 0 else if off < 0x020000 then 1 else if off < 0x040000 then 2 else if off < 0x080000 then 3
  else if off < 0x0A0000 then 4 else if off < 0x0C0000 then 5 else if off < 0x0E0000 then 6 else if off < 0x100000 then 7
  else if off < 0x110000 then 8 else if off < 0x120000 then 9 else if off < 0x130000 then 10 else if off < 0x140000 then 11
  else if off < 0x150000 then 12 else if off < 0x160000 then 13 else if off < 0x170000 then 14 else 15

/-- Base of a block (R664). -/
def blockBase (b : Nat) : Nat :=
  [0x000000, 0x010000, 0x020000, 0x040000, 0x080000, 0x0A0000, 0x0C0000, 0x0E0000, 0x100000, 0x110000, 0x120000, 0x130000,
   0x140000, 0x150000, 0x160000, 0x170000].getD b 0

/-- PATH code of R671. -/
def Path.code : Path → Nat
  | .bar0 => 0
  | .i3c => 1

/-! ### The fault collector -/

/-- Class of a cause code (R538). -/
def causeClass (cause : Nat) : Nat := cause / 256

def State.fltEntry (s : State) (i : Nat) : Option FltEntry := Tab.get noneAt s.flt.entries i

def State.setFltEntry (i : Nat) (e : Option FltEntry) (s : State) : State :=
  s.onFlt fun f => { f with entries := Tab.set noneAt f.entries i e }

/-- Class threshold of FAULT_N (FLT_CTRL.THRESH). -/
def threshClass (t : Nat) : Nat := if t = 0 then 1 else if t = 1 then 3 else 4

/-- A reason for FAULT_N to be low (R547), or the start-up drive of R654. -/
def State.faultReason (s : State) : Bool :=
  s.flt.safe
  || s.flt.entries.any (fun e => match e.2 with
      | some x => threshClass (s.rd R.FLT_CTRL_THRESH) ≤ causeClass x.cause
      | none => false)
  || (s.flt.ovf && s.rd R.FLT_CTRL_THRESH ≤ 1)
  || (s.sys.pwrOk && s.rd R.GLB_START_PHASE_STEP < 7)

/-- Drive FAULT_N by R547; once fallen it stays low until the hold of R548 ends. -/
def State.driveFaultN (s : State) : State :=
  if s.faultReason then
    if s.flt.faultN then s else s.onFlt fun f => { f with faultN := true, hold := true, fellAt := s.now }
  else s.onFlt fun f => { f with faultN := f.faultN && f.hold }

/-- The valid entry of a key (R540). -/
def State.findFlt (s : State) (cause unit : Nat) : Option (Nat × FltEntry) :=
  s.flt.entries.findSome? fun e =>
    match e.2 with
    | some x => if x.cause = cause && x.unit = unit then some (e.1, x) else none
    | none => none

/-- A free entry of the 256. -/
def State.freeFlt (s : State) : Option Nat := (List.range 256).find? fun i => (s.fltEntry i).isNone

/-- The entry of the oldest fault of class FC1, injected FC2 detections included (R543, R560). -/
def State.oldestFc1 (s : State) : Option Nat :=
  (s.flt.entries.foldl (fun (b : Option (Nat × Nat)) e =>
    match e.2 with
    | some x =>
      if causeClass x.cause ≤ 2 then
        match b with
        | some (_, age) => if x.age < age then some (e.1, x.age) else b
        | none => some (e.1, x.age)
      else b
    | none => b) none).map Prod.fst

/-- FAULT event of a first occurrence (R540); FC4 raises none, and the safe state raises none (R555). -/
def State.faultEventBy (ev : Raise) (i cause unit : Nat) (inj : Bool) (detail addr : Nat) (s : State) : State :=
  if s.flt.safe || causeClass cause = 4 then s
  else ev 0 0x18 0x0180 (causeClass cause) cause
    (unit % 256 + i * 256 + (if inj then 65536 else 0) + detail % 2 ^ 32 * 2 ^ 32) addr s

/-- Fill entry `i` and raise its event; with AUTOCLR1 set an FC1 entry then clears itself (R542). -/
def State.fillFltBy (ev : Raise) (i cause unit : Nat) (inj : Bool) (detail addr : Nat) (s : State) : State :=
  let e : FltEntry := ⟨cause, unit, 1, inj, s.stamp48, s.flt.nextAge⟩
  let told := !s.flt.safe
  let s := (s.setFltEntry i (some e)).onFlt fun f => { f with nextAge := f.nextAge + 1 }
  let s := if causeClass cause = 3 && !inj then s.inTrial fun a => { a with fc3 := true } else s
  let s := s.faultEventBy ev i cause unit inj detail addr
  if told && causeClass cause = 1 && s.bit R.FLT_CTRL_AUTOCLR1 then s.setFltEntry i none else s

/-- Enter a fault into the collector (R540, R541, R543, R560). -/
def State.collectBy (ev : Raise) (cause unit : Nat) (inj : Bool) (detail addr : Nat) (s : State) : State :=
  let cls := causeClass cause
  let s := if cls = 1 then s.bump R.FLT_FC1_CNT_COUNT 0 1 else if cls = 2 then s.bump R.FLT_FC2_CNT_COUNT 0 1
    else if cls = 3 then s.bump R.FLT_FC3_CNT_COUNT 0 1 else s
  let s := match s.findFlt cause unit with
    | some (i, e) => s.setFltEntry i (some { e with count := min 65535 (e.count + 1) })
    | none =>
      match s.freeFlt with
      | some i => s.fillFltBy ev i cause unit inj detail addr
      | none =>
        if cls = 3 then
          match s.oldestFc1 with
          | some i => s.fillFltBy ev i cause unit inj detail addr
          | none => (s.bump R.FLT_OVF_CNT_COUNT 0 1).onFlt fun f => { f with ovf := true }
        else if cls = 4 then s
        else s.bump R.FLT_OVF_CNT_COUNT 0 1
  s.driveFaultN

/-- An FC2 fault of a domain: a DOMAIN_EVENT of its source 0x00 (R539, R517). ARG1 is cause-dependent and stated for no cause:
a free value (log 3). -/
def State.fc2By (ev : Raise) (d cause addr : Nat) (s : State) : State :=
  ev d 0x00 0x0010 2 cause addr (Config.freeNat s.free) (s.nextFree.bump R.FLT_FC2_CNT_COUNT 0 1)

/-- A decision of a lock. -/
def Decision.isLock : Decision → Bool
  | .refusedLock _ => true
  | _ => false

/-- TAG of the locking rule. -/
def Decision.lockTag : Decision → Nat
  | .refusedLock t => t
  | _ => 0

/-- Report an access with refused parts (R406, R407): an FC2 event to its domain, and a REFUSED record while the domain has
written fewer than EVT_LIMIT in this tick; the first one of a tick tells how many were suppressed before. -/
def State.reportRefusedBy (ev : Raise) (u d : Nat) (a : RefAcc) (s : State) : State :=
  let s := s.fc2By ev d 0x201 a.first
  let n := Tab.get natAt s.host.refTick d
  let supp := Tab.get natAt s.host.refSupp d
  if s.rd R.DOM_CTRL_EVT_LIMIT ≤ n then
    s.onHost fun h => { h with refSupp := Tab.set natAt h.refSupp d (supp + 1) }
  else
    let told := if n = 0 then supp else 0
    let s := s.onHost fun h =>
      { h with refTick := Tab.set natAt h.refTick d (n + 1), refSupp := Tab.set natAt h.refSupp d (supp - told) }
    ev 0 0x10 0x0100 2 d a.first
      (a.tag % 2 ^ 32 + u * 2 ^ 32 + a.kind * 2 ^ 40 + min 127 a.parts * 2 ^ 44 + (if a.lock then 2 ^ 51 else 0) + min 4095 told * 2 ^ 52) s

/-- A message without a domain or a decision (R201, R397): counted in DOM_CU_MISS. -/
def State.countMiss (u : Nat) (s : State) : State := s.bump R.DOM_CU_MISS_COUNT u 1

/-- An access of the host interface that did not pass (R404, R477): refused parts count in the check unit of the ring's port and
are reported; an FA that no decode window maps counts as a miss. -/
def State.refuseHostBy (ev : Raise) (r : Ring) (addr : Nat) (n : Need) (s : State) : State :=
  let u := s.lowest r.port
  match decidePart s r.domain r.space r.port addr n with
  | .allowed => s.countMiss u
  | .refused => (s.bump R.DOM_CU_REFUSE_COUNT u 1).reportRefusedBy ev u r.domain ⟨0, n.kind, 1, addr, false, 0⟩
  | .refusedLock t => (s.bump R.DOM_CU_LOCKED_COUNT u 1).reportRefusedBy ev u r.domain ⟨0, n.kind, 1, addr, true, t⟩

/-- A ring enters ERROR (R498): FC3 MGR_RING and STATUS.ERR for the manager's rings, FC2 RING_ERR to the domain otherwise.
`why` is 1 access error, 2 port left ACTIVE, 3 doorbell check. -/
def State.ringErrorBy (ev : Raise) (n : Nat) (isEvq : Bool) (why : Nat) (s : State) : State :=
  match (if isEvq then s.evq n else s.ring n) with
  | none => s
  | some r =>
    if r.state = .error then s
    else
      let r' := { r with state := .error }
      let s := if isEvq then s.setEvq n (some r') else s.setRing n (some r')
      let s := s.bump R.RNG_RING_ERR_COUNT 0 1
      if (isEvq && n = 0) || (!isEvq && n ≤ 1) then
        (s.wr R.GLB_MRING_STATUS_ERR 0 1).collectBy ev 0x30F 0 false 0 0
      else ev r.domain 0x01 0x0013 2 0 n why (s.bump R.FLT_FC2_CNT_COUNT 0 1)

/-- What follows the writing of an event record (R404, R477, R498): a refused record is reported and the queue enters ERROR; a refused
shadow index is reported (log 80). -/
def State.evqFailed (ev : Raise) (q : Nat) (p : Pushed) (s : State) : State :=
  match s.evq q, p with
  | some r, .refused => (s.refuseHostBy ev r (r.base + 32 * (r.prod % 2 ^ r.log2n)) needW).ringErrorBy ev q true 1
  | some r, .unshadowed => s.refuseHostBy ev r r.shadow needW
  | _, _ => s

/-- An event, and what follows where its record's write failed. Each refused record leaves one queue more in ERROR, so `k` of them are
followed at most; as many refused shadow indices are (log 80). -/
def State.raiseN : Nat → Raise
  | 0, d, loc, code, cls, ext, arg0, arg1, s => (s.raiseOnce d loc code cls ext arg0 arg1).1
  | k + 1, d, loc, code, cls, ext, arg0, arg1, s =>
    let q := (s.source (256 * d + loc)).evq
    let r := s.raiseOnce d loc code cls ext arg0 arg1
    r.1.evqFailed (State.raiseN k) q r.2

/-- An event of local source `loc` of domain `d` (R508, R509, R515, R498). -/
def State.raise (d loc code cls ext arg0 arg1 : Nat) (s : State) : State :=
  s.raiseN s.host.evqs.length d loc code cls ext arg0 arg1

/-- A record written to a queue outside `raise`, with what follows where its write failed. -/
def State.wrote (q : Nat) (r : State × Pushed) : State :=
  r.1.evqFailed (fun d loc code cls ext arg0 arg1 s => s.raise d loc code cls ext arg0 arg1) q r.2

/-- One SUMMARY record for a source whose CNT is above 0 (R513, R514). -/
def State.summary (n : Nat) (s : State) : State :=
  let src := s.source n
  if src.cnt > 0 && s.sourceActive n then
    State.wrote src.evq (s.writeEvt n src.evq ⟨0x0002, 7, 0, n, src.cnt, s.stamp48, false, 0, 0⟩)
  else s

/-- A discarded setup write: counted, recorded and raised as DISCARD (R666, R672, R517). -/
def State.discard (path cause off value : Nat) (s : State) : State :=
  let b := blockOf off
  let s := s.bump R.GLB_DISCARD_CNT_COUNT 0 1
  let s := s.wr R.GLB_DISCARD_LAST_BLOCK 0 b
  let s := s.wr R.GLB_DISCARD_LAST_PATH 0 path
  let s := s.wr R.GLB_DISCARD_LAST_CAUSE 0 cause
  let s := s.wr R.GLB_DISCARD_LAST_OFFSET 0 off
  s.raise 0 0x17 0x0170 0 b (off - blockBase b) value

/-- Fill a collector entry and raise its event. -/
def State.fillFlt (i cause unit : Nat) (inj : Bool) (detail addr : Nat) (s : State) : State :=
  s.fillFltBy (fun d loc code cls ext arg0 arg1 s => s.raise d loc code cls ext arg0 arg1) i cause unit inj detail addr

/-- Enter a fault into the collector (R540, R541, R543, R560). -/
def State.collectAs (cause unit : Nat) (inj : Bool) (detail addr : Nat) (s : State) : State :=
  s.collectBy (fun d loc code cls ext arg0 arg1 s => s.raise d loc code cls ext arg0 arg1) cause unit inj detail addr

/-- A fault of class FC1 or FC3. -/
def State.fault (cause unit : Nat) (addr : Nat := 0) (detail : Nat := 0) (s : State) : State :=
  s.collectAs cause unit false detail addr

/-- An FC2 fault of a domain (R539, R517). -/
def State.fc2 (d cause addr : Nat) (s : State) : State :=
  s.fc2By (fun d loc code cls ext arg0 arg1 s => s.raise d loc code cls ext arg0 arg1) d cause addr

/-- Report an access with refused parts (R406, R407). -/
def State.reportRefused (u d : Nat) (a : RefAcc) (s : State) : State :=
  s.reportRefusedBy (fun d loc code cls ext arg0 arg1 s => s.raise d loc code cls ext arg0 arg1) u d a

/-- An access of the host interface that did not pass (R404, R477). -/
def State.refuseHost (r : Ring) (addr : Nat) (n : Need) (s : State) : State :=
  s.refuseHostBy (fun d loc code cls ext arg0 arg1 s => s.raise d loc code cls ext arg0 arg1) r addr n

/-- A ring enters ERROR (R498). -/
def State.ringError (n : Nat) (isEvq : Bool) (why : Nat) (s : State) : State :=
  s.ringErrorBy (fun d loc code cls ext arg0 arg1 s => s.raise d loc code cls ext arg0 arg1) n isEvq why

/-- A condition fault at the onset of its condition (R542): raised once while the condition lasts. -/
def State.condition (cause unit : Nat) (s : State) : State :=
  if s.flt.onset.contains (cause, unit) then s
  else (s.onFlt fun f => { f with onset := (cause, unit) :: f.onset }).fault cause unit

/-- The condition has ended: a fault scan takes it out of the onset list. -/
def State.conditionEnd (cause unit : Nat) (s : State) : State :=
  s.onFlt fun f => { f with onset := f.onset.filter (· ≠ (cause, unit)) }

/-- An FC0 event of a D0 source. -/
def State.fc0 (loc code ext arg0 arg1 : Nat) (s : State) : State := s.raise 0 loc code 0 ext arg0 arg1

/-! ### Rings -/

/-- Ring 1 for ring 0, PAIR otherwise (R479, R502); 8192, which names no ring, for a slot that is FREE. -/
def State.cqOf (s : State) (sq : Nat) : Nat :=
  if sq = 0 then 1 else match s.ring sq with
    | some r => r.pair
    | none => 8192

/-- The ring is in service: the manager's rings only while READY is set (R504). -/
def State.ringServes (s : State) (n : Nat) : Bool :=
  match s.ring n with
  | some r => r.state ≠ .error && (n > 1 || s.bit R.GLB_MRING_STATUS_READY)
  | none => false

/-- Numeric value of a status (R501). -/
def Status.code : Status → Nat
  | .ok => 0 | .partial_ => 1 | .denied => 2 | .poison => 3 | .timeout => 4 | .domainReset => 5 | .portDown => 6 | .overrun => 7
  | .engineFault => 8 | .deferred => 9 | .badDesc => 10 | .unsupported => 11 | .retryExhausted => 12 | .locked => 13 | .busy => 14
  | .shed => 15 | .gap => 16

/-- The four words of a completion record, little-endian (R5, R487, R488). -/
def CplRec.words (c : CplRec) : List Nat :=
  [c.tag % 2 ^ 32 + c.status.code * 2 ^ 32 + (if c.phase then 2 ^ 40 else 0) + c.sq % 2 ^ 13 * 2 ^ 48 + (if c.standing then 2 ^ 61 else 0),
   c.code % 2 ^ 16 + c.index % 2 ^ 13 * 2 ^ 16 + (if c.redispatch then 2 ^ 31 else 0) + c.stamp % 2 ^ 32 * 2 ^ 32, c.addr % 2 ^ 64,
   c.result % 2 ^ 64]

/-- The shadow index after a record of a ring: written, or refused and reported (R477, log 80). -/
def State.ringShadow (r : Ring) (prod : Nat) (s : State) : State :=
  if s.shadowAllowed r then s.writeShadow r prod else s.refuseHost r r.shadow needW

/-- Append a completion record to a CQ: record, shadow, CQ_READY when it was empty (R483, R497, R510). -/
def State.pushCpl (n : Nat) (r : Ring) (c : CplRec) (s : State) : State :=
  if s.hostAllows r.domain r.space r.port (r.base + 32 * (r.prod % 2 ^ r.log2n)) needW then
    let r' := { r with prod := (r.prod + 1) % 2 ^ 32 }
    let c := { c with phase := r.phase r.prod, stamp := if r.fmt = 2 then s.now % 2 ^ 32 else 0 }
    let s := ((s.emit (.cpl n r.prod c.words)).setRing n (some r')).ringShadow r r'.prod
    if r.prod = r.cons && r.evqEn then
      let m := 256 * r.domain + 1
      let cnt := min 65535 ((s.source m).cnt + 1)
      let s := s.setSource m { s.source m with cnt := cnt }
      if s.evqActive r.evq then
        State.wrote r.evq (s.writeEvt m r.evq ⟨0x0011, 7, 0, m, cnt, s.stamp48, false, n, r'.prod⟩)
      else s.bump R.EVQ_INACTIVE_COUNT 0 1
    else s
  else (s.refuseHost r (r.base + 32 * (r.prod % 2 ^ r.log2n)) needW).ringError n false 1

/-- A record that uses no reserved entry (R497): dropped and counted when no unreserved entry is free, with CQ_DROP at
most once per ring and tick. -/
def State.unreserved (n : Nat) (c : CplRec) (s : State) : State :=
  if !s.ringServes n then s
  else match s.ring n with
  | none => s
  | some r =>
    if r.reserved < r.freeEntries then s.pushCpl n r c
    else
      let r' := { r with dropped := r.dropped + 1, dropTold := true }
      let s := (s.setRing n (some r')).bump R.RNG_CQ_DROP_COUNT 0 1
      if r.dropTold then s
      else (s.bump R.FLT_FC2_CNT_COUNT 0 1).raise r.domain 0x01 0x0012 2 0 n r'.dropped

/-- What a command's completion carries beside its status. -/
structure Cpl where
  status : Status := .ok
  code   : Nat := 0
  index  : Nat := 0
  addr   : Nat := 0
  result : Nat := 0
  redispatch : Bool := false
  deriving DecidableEq, Repr

def Cpl.record (c : Cpl) (sq tag : Nat) (standing : Bool) : CplRec :=
  ⟨sq % 8192, standing, c.status, false, tag % 2 ^ 32, 0, c.code % 65536, c.index % 8192, c.redispatch, c.addr % 2 ^ 64,
    c.result % 2 ^ 64⟩

/-- Take a completed descriptor out of its ring's list. -/
def Ring.finish (r : Ring) (tag : Nat) : Ring :=
  { r with live := r.live.eraseP (fun l => l.tag = tag) }

/-- Complete a descriptor (R495 to R497): the record goes to the ring's CQ and uses one reservation; a format 2 descriptor
with NOCPL and status OK writes none; completions owed to a ring in ERROR use no reserved entry; records of rings out of
service are dropped (R504). -/
def State.complete (h : Hdr) (c : Cpl) (s : State) : State :=
  let n := h.ring.val
  let s := if c.status = .badDesc || c.status = .unsupported then s.bump R.RNG_BAD_COUNT 0 1 else s
  let inError : Bool := match s.ring n with
    | some r => r.state == .error
    | none => false
  let s := match s.ring n with
    | some r => s.setRing n (some (r.finish h.tag.toNat))
    | none => s
  let cq := s.cqOf n
  let quiet := h.fmt == 2 && h.nocpl && c.status == .ok
  match s.ring cq with
  | none => s
  | some q =>
    if inError || q.reserved = 0 then if quiet then s else s.unreserved cq (c.record n h.tag.toNat false)
    else
      let q := { q with reserved := q.reserved - 1 }
      let s := s.setRing cq (some q)
      if quiet || !s.ringServes cq then s else s.pushCpl cq q (c.record n h.tag.toNat false)

/-- Complete with a status alone. -/
def State.done (h : Hdr) (st : Status) (s : State) : State := s.complete h { status := st }

/-- Complete DENIED with a reason code. -/
def State.denied (h : Hdr) (code : Nat) (s : State) : State := s.complete h { status := .denied, code := code }

/-- Complete BAD_DESC naming a byte offset. -/
def State.bad (h : Hdr) (code : Nat) (s : State) : State := s.complete h { status := .badDesc, code := code }

/-- Complete what a command is owed, if one waits. -/
def State.tell (h : Option Hdr) (c : Cpl) (s : State) : State :=
  match h with
  | some h => s.complete h c
  | none => s

/-! ### Statistics rings (R484) -/

/-- The statistics ring of a domain. -/
def State.statRing (s : State) (d : Nat) : Option (Nat × Ring) :=
  s.host.rings.findSome? fun e =>
    match e.2 with
    | some r => if r.kind = .stat && r.domain = d then some (e.1, r) else none
    | none => none

/-- Append words to a statistics ring. -/
def State.pushStat (n : Nat) (r : Ring) (w : List Nat) (s : State) : State :=
  if s.hostAllows r.domain r.space r.port (r.base + 32 * (r.prod % 2 ^ r.log2n)) needW then
    let r' := { r with prod := (r.prod + 1) % 2 ^ 32 }
    ((s.emit (.stat n r.prod w)).setRing n (some r')).ringShadow r r'.prod
  else (s.refuseHost r (r.base + 32 * (r.prod % 2 ^ r.log2n)) needW).ringError n false 1

/-- Queue a statistics record for a domain: dropped and counted when the ring is full; the next record that finds space is
preceded by a GAP record, which stands alone when only one entry is free (R484). -/
def State.stat (d : Nat) (w : List Nat) (s : State) : State :=
  match s.statRing d with
  | none => s
  | some (n, r) =>
    if r.state ≠ .active then s
    else if r.freeEntries = 0 || (r.dropped > 0 && r.freeEntries = 1) then
      let s := if r.freeEntries = 1 then
          let gap := [1 + 0x0001 * 65536, min (2 ^ 32 - 1) r.dropped, r.dropAt, 0]
          s.pushStat n { r with dropped := 0 } gap
        else s
      match s.ring n with
      | some r =>
        (s.setRing n (some { r with dropped := r.dropped + 1, dropAt := if r.dropped = 0 then s.now else r.dropAt })).bump
          R.RNG_STAT_DROP_COUNT 0 1
      | none => s
    else if r.dropped > 0 then
      let gap := [1 + 0x0001 * 65536, min (2 ^ 32 - 1) r.dropped, r.dropAt, 0]
      let s := s.pushStat n { r with dropped := 0 } gap
      match s.ring n with
      | some r => s.pushStat n r w
      | none => s
    else s.pushStat n r w

end Sys2Proof.Machine
end

