-- ==== Sys2Proof/Machine/Hooks.lean ====
section
/-! DEFINITION. What observes the device while it works: performance counters (R523 to R533), the recorder's items (R564 to
R569), and time (R37; log 4). -/

namespace Sys2Proof

/-- CXL.io and PCIe kinds. -/
def MKind.isIo : MKind → Bool
  | .ioRd | .ioWr | .ioAtomic | .ioIdReq | .ioIdPosted | .ioCpl => true
  | _ => false

/-- The Merad forwarding messages as vendor-defined messages: vendor, Type, code (R276). -/
def MKind.vdm : MKind → Option (Nat × Nat × Nat)
  | .fwdReq => some (0x1F6B, 1, 0x20)
  | .fwdData => some (0x1F6B, 1, 0x21)
  | .fwdNack => some (0x1F6B, 1, 0x22)
  | _ => none

end Sys2Proof

namespace Sys2Proof.Machine

/-! ### Messages -/

/-- The internal header of a message (R190). -/
def Msg.word0 (m : Msg) : Nat :=
  m.src % 128 + m.dst % 128 * 2 ^ 7 + m.cls % 8 * 2 ^ 14 + m.proto % 8 * 2 ^ 17 + m.ncell % 16 * 2 ^ 20 + m.domain % 4096 * 2 ^ 24
    + m.epoch % 65536 * 2 ^ 36 + m.gen % 256 * 2 ^ 52 + (if m.sf then 2 ^ 60 else 0) + (if m.sh then 2 ^ 61 else 0)
    + (if m.sc0a then 2 ^ 62 else 0)

def Msg.word1 (m : Msg) : Nat := m.addr / 64 % 2 ^ 46 + m.seq % 65536 * 2 ^ 46

def Msg.word2 (m : Msg) : Nat :=
  m.stamp % 2 ^ 32 + (if m.np then 2 ^ 32 else 0) + m.hs % 16 * 2 ^ 39 + m.win % 32 * 2 ^ 43

/-- Bytes 0x18 to 0x3F of the header cell as words. -/
def Msg.headWords (m : Msg) : List Nat := (List.range 5).map fun i => (m.head.extractLsb' (64 * i) 64).toNat

/-- The data cells as words. -/
def Msg.bodyWords (m : Msg) : List Nat :=
  (m.body.map fun c => (List.range 8).map fun i => (c.data.extractLsb' (64 * i) 64).toNat).flatten

/-- Control bits of cell `i`, the header cell being cell 0: FIRST, LAST, BAD, POISON (R191). -/
def Msg.ctl (m : Msg) (i : Nat) : Nat :=
  (if i = 0 then 1 else 0) + (if i = m.ncell then 2 else 0) + (if i = m.ncell && m.bad then 4 else 0)
    + (if i ≠ 0 && ((m.body[i - 1]?).map Cell.poison).getD false then 8 else 0)

/-- Poison one data cell; none when the message has no such cell. -/
def Msg.poisonCell (m : Msg) (i : Nat) : Msg :=
  { m with body := (List.range m.body.length).zipWith (fun j c => if j = i then { c with poison := true } else c) m.body }

/-- Cells of a message with its header cell (R189). -/
def Msg.cells (m : Msg) : Nat := 1 + m.ncell

/-- Credit channel that a message toward a port travels in (R167, R183, R184): channel 0 is the Merad SC0 channel, 13 posted,
14 non-posted and 15 completions of CXL.io. -/
def chanOf (k : MKind) : Nat :=
  match k with
  | .memRdS | .memRdX | .memUpg | .memRdU | .memCev | .memConflict => 1
  | .memWr => 2
  | .memDrs => 3
  | .memNdr => 4
  | .biSnp => 5
  | .biRspI | .biRspS => 6
  | .cacheRd _ | .cacheWr => 7
  | .cacheD2hRsp => 8
  | .cacheD2hData => 9
  | .cacheH2dReq => 10
  | .cacheH2dRsp => 11
  | .cacheH2dData => 12
  | .fwdReq | .fwdData | .fwdNack | .ioWr | .ioIdPosted | .svcWr => 13
  | .ioRd | .ioAtomic | .ioIdReq | .svcRd => 14
  | .ioCpl => 15

/-- Data credits that `bytes` of payload take in a channel (R168, R170): 16-byte units in CXL.io and SC0 channels, one per
64-byte message in CXL.mem and CXL.cache channels. -/
def dataUnits (ch bytes : Nat) : Nat :=
  if ch = 0 || 13 ≤ ch then (bytes + 15) / 16 else (bytes + 63) / 64

/-- Available credits of a channel (R178). -/
def Credit.availH (c : Credit) : Nat := (c.hLim + 2 ^ 12 - c.hCons) % 2 ^ 12
def Credit.availD (c : Credit) : Nat := (c.dLim + 2 ^ 16 - c.dCons) % 2 ^ 16

/-- The partner's credits cover `h` headers and `d` data units (R174), `rh` and `rd` of them held back (R185). -/
def Credit.covers (c : Credit) (h d rh rd : Nat) : Bool :=
  (c.hInf || h = 0 || h + rh ≤ c.availH) && (c.dInf || d = 0 || d + rd ≤ c.availD)

/-- Channel of a message toward port `n` (R184, R185). -/
def State.chanFor (s : State) (n : Nat) (m : Msg) : Nat := if m.sc0a && (s.portN n).negVer ≥ 1 then 0 else chanOf m.kind

/-- Gate state bits of slice `n` in the windows open now (R68, R70): bit 0 SRC, 1 SNK, 2 QUIET. -/
def gateBits (e : Entry) (n : Nat) : Nat := e.toNat / 2 ^ (4 * n) % 16

def State.gate (s : State) (n : Nat) : Nat :=
  (bitsOf s.pit.openWin).foldl (fun g w => g ||| gateBits (s.pit.current.gates.getD w 0) n) 0

def State.gateSrc (s : State) (n : Nat) : Bool := s.gate n % 2 = 1
def State.gateSnk (s : State) (n : Nat) : Bool := s.gate n / 2 % 2 = 1
def State.gateQuiet (s : State) (n : Nat) : Bool := s.gate n / 4 % 2 = 1

/-- Header and data credits that best-effort traffic leaves in a channel (R185): while the port has SNK, on a link at version 0, in
the channels of the base classes of SC0, SC2 to SC6; no SC0 message travels in those of SC1. -/
def State.sc0Hold (s : State) (n ch : Nat) (sc0 : Bool) : Nat × Nat :=
  if s.gateSnk n && !sc0 && (s.portN n).negVer = 0 && !([5, 6, 8, 10].contains ch) then
    (s.rd R.PRT_LNK_SC0RSV_HDR n, s.rd R.PRT_LNK_SC0RSV_DATA n)
  else (0, 0)

/-- The link layer of port `n` can take the message now (R174, R185). -/
def State.linkTakes (s : State) (n : Nat) (m : Msg) : Bool :=
  if s.rec_.st = .replay then Tab.get natAt s.rec_.rdy n / 2 ^ m.cls % 2 = 1 else
  let ch := s.chanFor n m
  let c := (s.portN n).link.credits.toList.getD ch Credit.zero
  let x := s.sc0Hold n ch m.sc0a
  c.covers 1 (dataUnits ch m.bytes) x.1 x.2

/-! ### The transmitter of a link (R152, R161, R174, R185) -/

/-- Numbers of the sequence space of a mode: non-flit, 68-byte, 256-byte. -/
def seqSpace (mode : Nat) : Nat := if mode = 0 then 4096 else if mode = 1 then 256 else 1024

/-- Unacknowledged limit. -/
def unackLimit (mode : Nat) : Nat := if mode = 0 then 2047 else if mode = 1 then 255 else 1023

def sumNat (l : List Nat) : Nat := l.foldl (· + ·) 0

/-- Bytes of a TLP in the Yo-yo of a non-flit port: 16 per data unit, and 24 of header and framing each (log 36). -/
def txSize (f : TxFlit) : Nat := sumNat (f.uses.map fun u => 24 * u.hdr + 16 * u.data)

/-- The Yo-yo has room for a flit with transaction-layer content (R152, R161). -/
def State.yoyoRoom (s : State) (n : Nat) (f : TxFlit) : Bool :=
  let p := s.portN n
  let l := p.link.yoyo
  l.length < unackLimit p.mode
    && (if p.mode = 0 then sumNat (l.map fun y => txSize y.flit) + txSize f ≤ 65536 * s.nslices n
        else if p.mode = 1 then l.length < 255
        else l.length < 256 * s.nslices n)

/-- What a list of uses takes of one channel. -/
def usesOf (uses : List ChUse) (ch : Nat) : Nat × Nat :=
  let l := uses.filter fun u => u.ch.val = ch
  (sumNat (l.map ChUse.hdr), sumNat (l.map ChUse.data))

/-- The partner's credits cover all of the flit (R174); best-effort flits leave the SC0 reserve (R185). -/
def State.txCovers (s : State) (n : Nat) (f : TxFlit) : Bool :=
  (List.range 16).all fun ch =>
    let u := usesOf f.uses ch
    let x := s.sc0Hold n ch f.sc0
    ((s.portN n).link.credits.toList.getD ch Credit.zero).covers u.1 u.2 x.1 x.2

/-- `k` CCLKs pass for the flits that may not leave: for want of room in the Yo-yo (R161), or of credit (R174). -/
def State.stallTime (k : Nat) (s : State) : State :=
  s.forAll (List.range 64) fun n t =>
    match (t.portN n).link.stall with
    | none => t
    | some f =>
      if f.tl && !t.yoyoRoom n f then t.bump R.PRT_LNK_YOYO_FULL_COUNT n k
      else if !t.txCovers n f then t.bump R.PRT_LNK_CSTALL_COUNT n k else t

/-- A unit hands the core a message; MESSAGE_INGRESS is its entry. -/
def State.sendCore (m : CoreMsg) (s : State) : State := (s.emit (.core m)).onFab fun f => { f with inbox := f.inbox ++ [m] }

/-! ### Programmable counters -/

/-- What a counted item is: its domain, its class, and the transaction that a sample of it describes (R525, R532). -/
structure Counted where
  domain : Option Nat
  cls    : Nat
  arg0   : Nat
  arg1   : Nat
  deriving DecidableEq, Repr

/-- A message as a counted item. -/
def Msg.counted (m : Msg) : Counted :=
  ⟨some m.domain, m.cls, m.addr / 64 * 64, m.src % 128 + m.dst % 128 * 2 ^ 7 + m.cls % 8 * 2 ^ 14 + m.domain % 4096 * 2 ^ 20⟩

/-- Selections whose class filter is ignored: engines and check units (R523). -/
def selNoClass (sel : Nat) : Bool := 0x30 ≤ sel

/-- The counter counts the item (R525). -/
def Counter.matches (c : Counter) (x : Counted) : Bool :=
  (c.fany || x.domain = some c.fdom) && (selNoClass c.sel || c.cls / 2 ^ x.cls % 2 = 1)

/-- Add to one counter: it wraps modulo 2^48 (R526); with SAMPLE a wrap takes RELOAD plus the remainder (R530) and writes
one COUNTER_SAMPLE with SKID 0 (R531); a further wrap in the same addition is a lost sample (R533). -/
def State.addCounter (key : Nat) (c : Counter) (amt : Nat) (x : Counted) (s : State) : State :=
  let put (v : Nat) (s : State) : State :=
    s.onHost fun h => { h with counters := Tab.set counterAt h.counters key { c with value := v } }
  let v := c.value + amt
  if v < 2 ^ 48 then put v s
  else if c.sample then
    let r := v - 2 ^ 48 + c.reload
    let step := 2 ^ 48 - c.reload % 2 ^ 48
    let lost := if r < 2 ^ 48 then 0 else (r - 2 ^ 48) / step + 1
    let v' := if r < 2 ^ 48 then r else (r - 2 ^ 48) % step + c.reload
    let s := ((put v' s).bump R.PMC_SAMPLE_COUNT 0 1).bump R.PMC_SAMPLE_LOST_COUNT 0 lost
    s.raise (key / 1024) 0x02 0x0014 7 (key % 1024) x.arg0 x.arg1
  else put (v % 2 ^ 48) s

/-- Counters that are enabled, by key. -/
def State.enabledCounters (s : State) : List (Nat × Counter) := s.host.counters.filter fun e => e.2.en

/-- An edge event of a selection at a unit (R524). FREEZE stops every counter (R529). -/
def State.count (sel unit amt : Nat) (x : Counted) (s : State) : State :=
  if s.bit R.PMC_CTRL_FREEZE then s
  else (s.enabledCounters.filter fun e => !e.2.level && e.2.sel = sel && e.2.unit = unit && e.2.matches x).foldl
    (fun t e => t.addCounter e.1 (Tab.get counterAt t.host.counters e.1) amt x) s

/-- The message matches a counter's filters. -/
def Counter.sees (c : Counter) (m : Msg) : Bool := c.matches m.counted

/-- What a tracker serves (R525): its request, or its line when nobody is owed an answer, which counts in the class of its snoops. -/
def State.trkCounted (s : State) (t : Trk) : Counted :=
  match t.req with
  | some r => ⟨some r.domain.val, if r.sc0 then 0 else 2, 0, 0⟩
  | none => ⟨some (s.lineDomain t.la), 1, 0, 0⟩

/-- Trackers of a home slice. -/
def State.trksOf (s : State) (h : Nat) : List Trk :=
  s.home.trk.filterMap fun e => e.2.bind fun t => if homeOf (faOf t.la) = h then some t else none

/-- The work item of engine `e`, where it matches a counter's domain. -/
def State.itemOf (s : State) (e : Nat) (c : Counter) : Option Item :=
  (s.eng.engs.toList.getD e Engine.init).item.bind fun i => if c.fany || i.disp.domain = c.fdom then some i else none

/-- Level quantity of a counter (R524). OLC lines with DIRTY set are in no class (log 90). -/
def State.levelOf (s : State) (c : Counter) : Nat :=
  let cls (x : Nat) : Bool := c.cls / 2 ^ x % 2 = 1
  match c.sel with
  | 0x01 => (s.fab.msgs.filter fun m => !m.queued && s.lowest m.input = c.unit && m.input < 64 && c.sees m).length
  | 0x03 => if (s.portEndpoints c.unit).any (fun e => s.fab.msgs.any fun m => (s.fab.arbs.toList.getD e Arb.init).busy = some m.id && c.sees m)
      then 1 else 0
  | 0x05 => (s.fab.sc0.filter fun r => r.src = c.unit && c.matches ⟨some r.domain, 0, 0, 0⟩).length
  | 0x07 => (s.fab.msgs.filter fun m => m.queued && !m.started && m.port = c.unit && c.sees m && !s.linkTakes c.unit m).length
  | 0x10 => ((s.fab.msgs.filter fun m => m.queued && m.dst = c.unit && c.sees m).map Msg.cells).foldl (· + ·) 0
  | 0x20 => ((s.trksOf c.unit).filter fun t => c.matches (s.trkCounted t)).length
  | 0x21 => if h : c.unit < 16 then
      (s.home.slices[c.unit].retry.filter fun r => c.matches ⟨some r.req.domain.val, if r.req.sc0 then 0 else 2, 0, 0⟩).length else 0
  | 0x22 => if !c.fany then 0 else (s.home.olc.filter fun e => match e.2 with
      | some o => e.1 / 32768 = c.unit && o.dirty
      | none => false).length
  | 0x23 => sumNat ((s.trksOf c.unit).map fun t =>
      if c.matches ⟨some (s.lineDomain t.la), 1, 0, 0⟩ then (bitsOf t.await).length + (if t.awaitFwd then 1 else 0) else 0)
  | 0x24 => if h : c.unit < 16 then (if c.fany && cls 2 then s.home.slices[c.unit].wbFlight else 0) else 0
  | 0x30 => ((s.itemOf c.unit c).map fun i => if i.stalled then 1 else 0).getD 0
  | 0x31 => ((s.itemOf c.unit c).map fun i => i.reqs.length).getD 0
  | 0x32 => if (s.itemOf c.unit c).isSome then 1 else 0
  | _ => 0

/-- The transaction that a sample of a level counter describes (R531, R532): one that matches the counter's filter, at most 64
transactions later, or 16 instructions. Which one it is the spec leaves free: it is drawn from the free value `x`. -/
def Counter.levelSample (c : Counter) (x : Nat) : Counted :=
  if selNoClass c.sel then ⟨Option.none, 0, x % 2 ^ 29, x / 2 ^ 29 % 2 ^ 52 + x / 2 ^ 81 % 17 * 2 ^ 52⟩
  else
    let l := (List.range 8).filter fun y => c.cls / 2 ^ y % 2 = 1
    let d := if c.fany then x / 2 ^ 80 % 4096 else c.fdom
    ⟨Option.none, 0, x % 2 ^ 46 * 64,
     x / 2 ^ 46 % 2 ^ 14 + l.getD (x / 2 ^ 60 % l.length) 0 * 2 ^ 14 + d * 2 ^ 20 + x / 2 ^ 92 % 65 * 2 ^ 54⟩

/-- `n` edges of CCLK pass for the level counters (R524, R525). -/
def State.levels (n : Nat) (s : State) : State :=
  if s.bit R.PMC_CTRL_FREEZE then s
  else (s.enabledCounters.filter fun e => e.2.level).foldl
    (fun t e => t.nextFree.addCounter e.1 e.2 (n * s.levelOf e.2) (e.2.levelSample (Config.freeNat t.free))) s

/-! ### Token buckets (R427 to R430, R436) -/

/-- Epoch `e` is older than epoch `f` (R207). -/
def olderEpoch (e f : Nat) : Bool := 1 ≤ (f + 65536 - e) % 65536 && (f + 65536 - e) % 65536 ≤ 255

/-- The decision of a bucket for a message of epoch `e`; none before the bucket's first write or after its clear. -/
def Bucket.decAt (b : Bucket) (e : Nat) : Option BucketDec :=
  match b.past.find? fun d => olderEpoch e d.until_ with
  | some d => some d
  | none =>
    if olderEpoch e b.since then none
    else match b.cleared with
      | some c => if olderEpoch e c then some ⟨c, b.port, b.cls, b.egress, b.act⟩ else none
      | none => some ⟨0, b.port, b.cls, b.egress, b.act⟩

/-- Buckets that match a message of a domain, class and epoch at a point of a port, by key (R427, R428). -/
def State.bucketsOf (s : State) (egress : Bool) (port domain cls epoch : Nat) : List (Nat × Bucket × BucketDec) :=
  if cls ≤ 1 then []
  else s.tabs.buckets.filterMap fun e =>
    match e.2 with
    | none => none
    | some b =>
      if e.1 / 1024 ≠ domain then none
      else match b.decAt epoch with
        | some d => if d.egress = egress && d.port = port && d.cls.getLsbD cls then some (e.1, b, d) else none
        | none => none

/-- L of R429. -/
def Bucket.charge (b : Bucket) (bytes : Nat) : Nat := bytes + b.ovhIn

/-- The bucket conforms for a message of `bytes` bytes (R430). -/
def Bucket.conforms (b : Bucket) (d : BucketDec) (bytes : Nat) : Bool :=
  if d.act = 1 && !d.egress then decide ((64 * b.charge bytes : Nat) ≤ b.tokens) else decide (0 < b.tokens)

/-- Every matching bucket other than COUNT conforms (R430, R440). -/
def State.proceeds (s : State) (l : List (Nat × Bucket × BucketDec)) (bytes : Nat) : Bool :=
  !s.bit R.SHP_CTRL_EN || l.all fun x => x.2.2.act = 2 || x.2.1.conforms x.2.2 bytes

def State.setBucket (key : Nat) (b : Option Bucket) (s : State) : State :=
  s.onTabs fun t => { t with buckets := Tab.set noneAt t.buckets key b }

def State.onBucket (key : Nat) (f : Bucket → Bucket) (s : State) : State :=
  s.onTabs fun t => { t with buckets := Tab.upd noneAt t.buckets key (Option.map f) }

/-- Charge a message that proceeds (R430, R441). -/
def State.chargeBuckets (l : List (Nat × Bucket × BucketDec)) (bytes : Nat) (s : State) : State :=
  if !s.bit R.SHP_CTRL_EN then s
  else s.forAll l fun x t =>
    if x.2.1.conforms x.2.2 bytes then
      t.onBucket x.1 fun b =>
        let T : Int := b.tokens - (64 * b.charge bytes : Nat)
        { b with tokens := T, repB := b.repB + b.charge bytes, repLow := if T < b.repLow then T else b.repLow }
    else (t.onBucket x.1 fun b => { b with repNc := b.repNc + 1 }).bump R.SHP_NC_COUNT 0 1

/-- A policer drops the message (R434): a DROP bucket that it does not conform to. -/
def State.dropsAt (s : State) (l : List (Nat × Bucket × BucketDec)) (bytes : Nat) : Bool :=
  s.bit R.SHP_CTRL_EN && l.any fun x => x.2.2.act = 1 && !x.2.2.egress && !x.2.1.conforms x.2.2 bytes

/-- Count a message that does not proceed as non-conforming in the buckets that stop it (R441). -/
def State.countNc (l : List (Nat × Bucket × BucketDec)) (bytes : Nat) (s : State) : State :=
  s.forAll (l.filter fun x => x.2.2.act ≠ 2 && !x.2.1.conforms x.2.2 bytes) fun x t =>
    t.onBucket x.1 fun b => { b with repNc := b.repNc + 1 }

/-- Key of a flow counter (R228). -/
def flowKey (src port cls : Nat) : Nat := src * 1024 + port * 8 + cls

def Msg.flow (m : Msg) : Nat := flowKey m.src m.port m.cls

/-- The message stands in its column and is the next of its flow (R229). -/
def State.inSequence (s : State) (m : Msg) : Bool := m.queued && !m.skip && m.seq = Tab.get natAt s.fab.expect m.flow

/-- Messages that wait for a bucket: held at ingress, or next in sequence toward a port in a class of step 4 of R225. -/
def State.bucketWaiters (s : State) : List (Msg × List (Nat × Bucket × BucketDec)) :=
  s.fab.msgs.filterMap fun m =>
    let l := if m.sc0a then [] else if m.held then s.bucketsOf false m.src m.domain m.cls m.epoch
      else if m.port < 64 && 2 ≤ m.cls && s.inSequence m then s.bucketsOf true m.port m.domain m.cls m.epoch else []
    let l := l.filter fun x => x.2.2.act ≠ 2 && !x.2.1.conforms x.2.2 m.bytes
    if l.isEmpty then none else some (m, l)

/-- `n` CCLKs pass for messages that buckets hold (R441, SHP_HOLD). -/
def State.bucketTime (n : Nat) (s : State) : State :=
  if !s.bit R.SHP_CTRL_EN then s
  else
    let w := s.bucketWaiters
    let s := if w.any fun x => x.1.held then s.bump R.SHP_HOLD_COUNT 0 n else s
    s.forAll ((w.map fun x => x.2.map Prod.fst).flatten.eraseDups) fun key t =>
      t.onBucket key fun b => { b with repHeld := b.repHeld + n }

/-! ### Time -/

/-- Count `n` events of a coefficient in the current interval; `rt` names the window of real-time work (R446). -/
def State.spend (idx n : Nat) (rt : Option Nat) (s : State) : State :=
  s.onBel fun b =>
    let b := match idx with
      | 13 => { b with evCwr := b.evCwr + n }
      | 14 => { b with evCrd := b.evCrd + n }
      | 15 => { b with evDir := b.evDir + n }
      | 16 => { b with evOlcR := b.evOlcR + n }
      | 17 => { b with evOlcW := b.evOlcW + n }
      | 18 => { b with evCyc := b.evCyc + n }
      | _ => { b with evChk := b.evChk + n }
    match rt with
    | none => b
    | some w =>
      let e := n * b.coef.getD idx 0
      { b with rtPj := b.rtPj + e, winPj := Tab.upd natAt b.winPj w (· + e) }

/-- The work item waits: a stall, a multi-line instruction, WAITO, or END with requests outstanding (R363, R370, R371). Its
other cycles are those of the instructions it executes, added at each (R365). -/
def Item.waits (i : Item) : Bool := i.stalled || i.multi || i.waitUntil.isSome || i.ending.isSome

/-- A work item that waits uses `n` more cycles (R340, R362). -/
def Engine.edges (n : Nat) (e : Engine) : Engine :=
  match e.item with
  | some i => if i.waits then { e with used := min (2 ^ 24 - 1) (e.used + n) } else e
  | none => e

/-- `n` cycles of an engine as Bellows counts them, those of an SC0 work item as real-time work of its window (R446). -/
def State.spendCycles (i : Item) (n : Nat) (s : State) : State := s.spend 18 n (if i.disp.sc0 then some i.disp.win else none)

/-- `n` cycles pass for the work items that wait. -/
def State.engineCycles (n : Nat) (s : State) : State :=
  if s.eng.engs.toList.all fun e => e.item.isNone then s
  else (s.forAll allEngines fun e t =>
    match (s.engine e).item with
    | some i => if i.waits then t.spendCycles i n else t
    | none => t).onEng fun g => { g with engs := g.engs.map (Engine.edges n) }

/-- `n` edges of CCLK pass for what counts them: level counters, bucket reports, stalls of the links, work items that wait. -/
def State.passCclk (n : Nat) (s : State) : State := (((s.levels n).bucketTime n).stallTime n).engineCycles n

/-- One CCLK edge adds the rate word to FTIME (R37). -/
def Pitch.edge (p : Pitch) : Pitch :=
  { p with ftime := (p.ftime + (p.frac + p.rate) / 2 ^ 32) % 2 ^ 64, frac := (p.frac + p.rate) % 2 ^ 32 }

/-- FTIME is at least `t`: a timed event falls due at `t`, and the CCLK edges up to it pass for the level counters (log 4). In a replay
only the record's CCLKs move FTIME (R588, log 87). -/
def State.reach (t : Nat) (s : State) : State :=
  if t ≤ s.now || s.rec_.st = .replay then s
  else (s.passCclk ((t - s.now) * 8 / 5)).onPit fun p => { p with ftime := t }

/-- A second, an hour and a day, in ns of FTIME. -/
def secondNs : Nat := 1000000000

@[inherit_doc secondNs] def hourNs : Nat := 3600000000000

@[inherit_doc secondNs] def dayNs : Nat := 86400000000000

/-- Due FTIME of an action that runs at every multiple of a period (R24), last taken for the multiple `last`: the next one, or the
first still to come when it has been missed. -/
def State.multipleDue (s : State) (last period : Nat) : Nat :=
  let d := (last / period + 1) * period
  if s.now < d + period then d else (s.now + period - 1) / period * period

/-! ### Recorder -/

/-- Bytes of the on-die recorder buffer (R582). -/
def recBufBytes : Nat := 16777216

/-- CCLK edges since the current boundary (R564), by FTIME at 0.625 ns per edge. -/
def State.cclkInTick (s : State) : Nat := (s.now - s.pit.bk) * 8 / 5 % 2 ^ 32

/-- The port named by slice `n` is in scope (R563). -/
def State.recPort (s : State) (n : Nat) : Bool :=
  match s.rec_.cfg with
  | some c => (s.portEndpoints (s.lowest n)).any fun e => c.ports.getLsbD e
  | none => false

def State.recEngine (s : State) (e : Nat) : Bool :=
  match s.rec_.cfg with
  | some c => c.engs.getLsbD e
  | none => false

def State.recHomes (s : State) : Bool :=
  match s.rec_.cfg with
  | some c => c.homes
  | none => false

/-- The record is one of full mode (R565). -/
def State.recFull (s : State) : Bool :=
  match s.rec_.cfg with
  | some c => c.full
  | none => false

/-- A crossbar endpoint is scoped (R563). -/
def State.recEndpoint (s : State) (e : Nat) : Bool :=
  if e < 64 then s.recPort e
  else if e < 72 then (List.range 8).any fun i => s.recEngine (8 * (e - 64) + i)
  else s.recHomes

/-- Capture of items has begun and no gap lasts (R572 step 5). -/
def RecSt.takes (r : RecSt) : Bool := r = .recording || r = .sections

/-- `n` bits go through the bit-reflected CRC-32C (00, CRC-32C). -/
def crcBits : Nat → Nat → Nat
  | 0, c => c
  | n + 1, c => crcBits n (if c % 2 = 1 then (c / 2) ^^^ 0x82F63B78 else c / 2)

/-- The low `n` bytes of a number go through it, least significant first. -/
def crcFold : Nat → Nat → Nat → Nat
  | 0, _, c => c
  | n + 1, v, c => crcFold n (v / 256) (crcBits 8 (c ^^^ v % 256))

/-- CRC over the low `n` bytes of a number, least significant first. -/
def crcNat (n v : Nat) (c : BitVec 32) : BitVec 32 := BitVec.ofNat 32 (crcFold n v c.toNat)

/-- CRC-32C of a list of 64-bit words: initial value and final inversion of all ones. -/
def crc32c (ws : List Nat) : Nat := (~~~ (ws.foldl (fun c w => crcNat 8 w c) (BitVec.allOnes 32))).toNat

/-- The item stands before `y` in its epoch: order of CCLK, then of KIND, then of UNIT (R566). -/
def RecItem.before (x y : RecItem) : Bool :=
  x.cclk < y.cclk || (x.cclk = y.cclk && (x.kind < y.kind || (x.kind = y.kind && x.unit < y.unit)))

/-- Put an item into its place among those captured: after every one that it does not stand before (R566). -/
def placeItem (x : RecItem) : List RecItem → List RecItem
  | [] => [x]
  | y :: t => if x.before y then x :: y :: t else y :: placeItem x t

/-- An item as it stands in a record: its header, then its content, padded with zeros to its length (R564). -/
def RecItem.bytes (i : RecItem) : List Nat :=
  (i.kind % 256 + i.len / 16 % 256 * 2 ^ 8 + i.unit % 256 * 2 ^ 16 + i.flags % 256 * 2 ^ 24 + i.cclk % 2 ^ 32 * 2 ^ 32)
    :: (List.range (i.len / 8 - 1)).map fun k => i.words.getD k 0 % 2 ^ 64

/-- Bytes of a list of items. -/
def itemBytes (l : List RecItem) : Nat := (l.map RecItem.len).foldl (· + ·) 0

/-- Bytes of items that one chunk holds: 64 KiB with its header (R578). -/
def chunkRoom : Nat := 65504

/-- Items cut into chunks that are full, oldest first, and the rest. -/
def cutChunks (l : List RecItem) : List (List RecItem) × List RecItem :=
  l.foldl (fun a x => if itemBytes a.2 + x.len ≤ chunkRoom then (a.1, a.2 ++ [x]) else (a.1 ++ [a.2], [x])) ([], [])

/-- A section header (R576). The table puts ITEMS into bits 63:32 of a word whose bits 47:0 hold the tick: the bits that both claim are
free (log 84). -/
def sectionHeader (type flags length tick items crc : Nat) : List Nat :=
  [type % 256 + 2 ^ 8 + flags % 2 ^ 16 * 2 ^ 16 + length % 2 ^ 32 * 2 ^ 32,
   tick % 2 ^ 32 + Config.sectionTick tick items % 2 ^ 16 * 2 ^ 32 + items % 2 ^ 32 / 2 ^ 16 * 2 ^ 48, crc % 2 ^ 32 * 2 ^ 32, 0]

/-- A chunk of a section: header, body, and zeros up to the 64-byte boundary on which the next one starts (R575, R578). -/
def chunkWords (type : Nat) (cont last : Bool) (tick items : Nat) (body : List Nat) : List Nat :=
  let w := sectionHeader type ((if cont then 1 else 0) + if last then 2 else 0) (8 * body.length + 32) tick items (crc32c body) ++ body
  w ++ List.replicate ((8 - w.length % 8) % 8) 0

/-- Words enter the on-die buffer to be spilled (R580). -/
def Rec.push (w : List Nat) (r : Rec) : Rec := { r with buf := r.buf ++ w }

/-- A chunk of the EPOCH section in progress closes; its items are in the buffer already. -/
def Rec.closeChunk (tick : Nat) (last : Bool) (l : List RecItem) (r : Rec) : Rec :=
  let w := chunkWords 0x10 r.cont last tick l.length (l.flatMap RecItem.bytes)
  let r := if r.cont then r else { r with begun := r.begun ++ [(tick, r.written + 8 * r.buf.length)] }
  { r.push w with used := r.used + (8 * w.length - itemBytes l), cont := !last }

/-- The EPOCH section of a tick closes with the chunk in progress. -/
def Rec.closeEpoch (tick : Nat) (r : Rec) : Rec := { r.closeChunk tick true r.chunk with chunk := [] }

/-- An item of a later CCLK than those captured closes the chunks that are full. -/
def Rec.cut (tick : Nat) (x : RecItem) (r : Rec) : Rec :=
  if (r.chunk.getLast?.map RecItem.cclk).getD x.cclk < x.cclk then
    let c := cutChunks (r.chunk ++ [x])
    { c.1.foldl (fun r l => r.closeChunk tick false l) r with chunk := c.2 }
  else { r with chunk := placeItem x r.chunk }

/-- A gap begins at this CCLK with `n` bytes lost, or loses as many more (R582). -/
def State.beginGap (n : Nat) (s : State) : State :=
  if s.rec_.st.takes then
    ((s.onRec fun r =>
      { r with st := .gap, gap := true, gaps := r.gaps + 1, gapAt := s.cclkInTick, gapTick := s.pit.tick, gapLost := n }).bump
      R.REC_GAPS_COUNT 0 1).bump R.REC_DISCARD_COUNT 0 n
  else (s.onRec fun r => { r with gapLost := r.gapLost + n }).bump R.REC_DISCARD_COUNT 0 n

/-- An item arrives: captured while recording, discarded and counted in a gap; an item that does not fit begins a gap
(R564, R582). -/
def State.capture (kind unit flags len : Nat) (words : List Nat) (s : State) : State :=
  if s.rec_.frozen then s
  else match s.rec_.st with
  | .recording | .sections =>
    if s.rec_.used + len ≤ recBufBytes then
      (s.onRec fun r =>
        let r := r.cut s.pit.tick ⟨kind, unit, flags, s.cclkInTick, words, len⟩
        { r with used := r.used + len, high := max r.high (r.used + len) }).bump R.REC_ITEMS_COUNT 0 1
    else s.beginGap len
  | .gap => s.beginGap len
  | _ => s

/-- A table or setup change that took effect: CFG item (R564, R668). -/
def State.captureCfg (table index : Nat) (words : List Nat) (s : State) : State :=
  s.capture 0x0A (table % 256) 0 48 ((table % 256 + index % 2 ^ 32 * 256) :: words)

/-- A link or sideband event: SIDE item (R564). -/
def State.captureSide (unit kind value : Nat) (s : State) : State :=
  if s.recPort unit then s.capture 0x07 unit 0 16 [(Config.sideCode kind).toNat + value % 2 ^ 24 * 256] else s

/-- A scoped endpoint digests a decision, or part of one, in a recording or a replay: `n` decisions are counted (R569, R587). -/
def State.digest (ep : Nat) (n bytes : Nat) (vs : List Nat) (s : State) : State :=
  if (s.rec_.st.takes || s.rec_.st = .replay) && !s.rec_.frozen && s.recEndpoint ep then
    s.onRec fun r =>
      let d := Tab.get digestAt r.digests ep
      let c := vs.foldl (fun c w => crcNat bytes w c) (BitVec.ofNat 32 d.crc)
      { r with digests := Tab.set digestAt r.digests ep ⟨c.toNat, d.count + n⟩ }
  else s

/-! ### Bellows counts (R444) -/

/-- Add to the event counts of the current Bellows interval. -/
def State.energy (f : Bel → Bel) (s : State) : State := s.onBel f

end Sys2Proof.Machine
end

