-- ==== Sys2Proof/Machine/SafeState.lean ====
section
/-! DEFINITION. Faults of class FC4 and the safe state (R551 to R556); the same actions at a fall of PWR_OK (R623, R630). -/

namespace Sys2Proof.Machine

/-- Columns freed: no message is in the core (R552). Fences, pointers and sequence numbers stay as they are. -/
def Fab.freeAll (f : Fab) : Fab :=
  { f with
      msgs := [], ledger := [], sc0 := [], splits := [], inbox := [], writes := []
      columns := f.columns.map fun c => { c with free := 8192, rsv := 0, np := 0 }
      arbs := f.arbs.map fun a => { a with busy := none } }

/-- Instruction issue stops; a running work item ends, and no completion is written (R552). -/
def Engine.halt (e : Engine) : Engine :=
  if e.st = .running then { e with st := .idle, item := none } else e

/-- The power fall of R467: in this CCLK the ballast takes the place of the dynamic core power of the interval before; from the next
interval on R464 lowers it, with D_pred equal to the leakage. -/
def Bel.beginFall (b : Bel) : Bel := { b with safeFall := true, pBal := b.prevDyn }

/-- The buffer is frozen with its items as they stand (R552, R583). -/
def Rec.freeze (r : Rec) : Rec := { r with frozen := true, buf := r.buf ++ r.chunk.flatMap RecItem.bytes, chunk := [] }

/-- What stands in egress when forwarding stops: a TLP ends nullified, a CXL message finishes (R552). -/
def State.endEgress (s : State) : State :=
  s.forAll (s.fab.msgs.filter fun m => m.started && m.port < 64) fun m t => t.emit (.egress m m.kind.vdm m.kind.isIo)

/-- The actions of R552 on every part but the collector and the pins FAULT_N, PWREN, PERST_N and DISCH: arbiters, engines,
Pitch pipe, Bellows, tool-change pins, host interface and recorder. -/
def State.stopParts (s : State) : State :=
  let s := s.endEgress.onFab Fab.freeAll
  let s := s.onEng fun g => { g with engs := g.engs.map Engine.halt }
  let s := s.onSys fun y => { y with tickOut := 0, tcok := 0 }
  let s := s.onBel Bel.beginFall
  let s := s.wr R.GLB_MRING_STATUS_READY 0 0
  s.onRec Rec.freeze

/-- Enter the safe state (R551, R552): SAFE is set and FLT_LAST takes cause and stamp of the first FC4 fault. -/
def State.enterSafe (cause : Nat) (s : State) : State :=
  let s := s.wr R.FLT_LAST_CAUSE 0 cause
  let s := s.wr R.FLT_LAST_STAMP 0 s.stamp48
  let s := s.onFlt fun f => { f with safe := true, safeAt := s.fine }
  let s := s.stopParts
  -- ALERT_N stays low in the safe state when THERM_TRIP caused it, and is released otherwise (R655)
  let s := s.onSys fun y => { y with alertN := cause ≠ 0x402 }
  s.driveFaultN

/-- A fault of class FC4 (R551, R555): its mask bit; the entry when `table`; the first one enters the safe state. Of two in
the same CCLK, FLT_LAST takes the lower code. -/
def State.fc4 (cause unit addr : Nat) (table : Bool := true) (s : State) : State :=
  let s := s.wr R.FLT_FC4_MASK_MASK 0 (s.rd R.FLT_FC4_MASK_MASK ||| 2 ^ (cause - 0x400))
  let s := if table then s.collectAs cause unit false 0 addr else s
  if !s.flt.safe then s.enterSafe cause
  else if s.flt.safeAt = s.fine && cause < s.rd R.FLT_LAST_CAUSE then s.wr R.FLT_LAST_CAUSE 0 cause
  else s

/-- PWR_OK falls, or RST_N, GLB_RESET, a cold activation or a JTAG test instruction acts as such a fall (R623, R630, R643):
the actions of R552, PERST_N and PWREN low, DISCH high, and core power lowered. -/
def State.powerFall (s : State) : State :=
  let s := s.stopParts
  s.onSys fun y =>
    { y with perstN := 0, pwren := 0, disch := BitVec.allOnes 64, lowSince := true, corePower := false }

end Sys2Proof.Machine
end

