-- ==== Sys2Proof/Machine/Operands.lean ====
section
/-! DEFINITION. The forms in which commands carry their operands: bit fields of words, table entries (R197, R398, R425, R523),
tick plans (R63 to R68, R329) and engine instructions (R361). -/

namespace Sys2Proof.Machine

/-- Bits `lo` to `lo + w - 1` of a number. -/
def bits (v lo w : Nat) : Nat := v / 2 ^ lo % 2 ^ w

/-- Bit `i` of a number. -/
def flag (v i : Nat) : Bool := v / 2 ^ i % 2 = 1

/-- The low `n` bytes of a number, the least significant first (R5). -/
def lowBytes : Nat → Nat → List Nat
  | 0, _ => []
  | n + 1, v => v % 256 :: lowBytes n (v / 256)

/-- Signed value of the low `w` bits. -/
def signedBits (v w : Nat) : Int := if v % 2 ^ w < 2 ^ (w - 1) then (v % 2 ^ w : Nat) else (v % 2 ^ w : Nat) - 2 ^ w

/-- Word `k` of a 32-byte entry. -/
def entWord (e : Entry) (k : Nat) : Nat := e.toNat / 2 ^ (64 * k) % 2 ^ 64

/-- The first failing field: byte offset of the first check that fails. -/
def firstBad (l : List (Bool × Nat)) : Option Nat := (l.find? fun x => x.1).map Prod.snd

/-- 32-byte entry of four words. -/
def entryOf (w0 w1 w2 w3 : Nat) : Entry :=
  BitVec.ofNat 256 (w0 % 2 ^ 64 + w1 % 2 ^ 64 * 2 ^ 64 + w2 % 2 ^ 64 * 2 ^ 128 + w3 % 2 ^ 64 * 2 ^ 192)

/-! ### Decode windows (R197) -/

def winOf (e : Entry) : DWin :=
  let a := entWord e 0; let b := entWord e 1; let c := entWord e 2; let d := entWord e 3
  { kind := flag a 1, c := flag a 2, rt := flag a 3, u := flag a 4, w := flag a 5, sc0 := flag a 6, scope := bits a 8 7
    domain := bits a 16 12, writer := bits a 28 6, base := bits b 0 31, limit := bits b 31 31, faBase := bits c 0 31
    iw := bits c 31 4, ig := bits c 35 4, tlist := bits c 39 10, epoch := bits d 0 16 }

/-- The entry as TABLE_READ writes it. -/
def winEntry (w : DWin) : Entry :=
  let b (x : Bool) (i : Nat) : Nat := if x then 2 ^ i else 0
  entryOf (1 + b w.kind 1 + b w.c 2 + b w.rt 3 + b w.u 4 + b w.w 5 + b w.sc0 6 + w.scope * 2 ^ 8 + w.domain * 2 ^ 16
      + w.writer * 2 ^ 28)
    (w.base + w.limit * 2 ^ 31) (w.faBase + w.iw * 2 ^ 31 + w.ig * 2 ^ 35 + w.tlist * 2 ^ 39) w.epoch

/-- BAD_DESC of WINDOW_BIND for its entry (R10, R697): byte offset in the descriptor of the first failing field. -/
def winBad (e : Entry) : Option Nat :=
  let a := entWord e 0; let b := entWord e 1; let c := entWord e 2; let d := entWord e 3
  let w := winOf e
  firstBad
    [(!flag a 0, 0x20), (!w.kind && (w.c || w.rt || w.u || w.w), 0x20), (flag a 7, 0x20), (64 < w.scope, 0x21), (flag a 15, 0x21),
     (bits a 34 30 ≠ 0, 0x24), (w.limit ≤ w.base, 0x28), (bits b 62 2 ≠ 0, 0x2F), (4 < w.iw, 0x33), (6 < w.ig, 0x34),
     (bits c 49 15 ≠ 0, 0x36), (d ≠ 0, 0x38)]

/-! ### Region rules (R398) -/

def ruleValid (e : Entry) : Bool := flag (entWord e 2) 28

def ruleOf (e : Entry) : Rule :=
  let c := entWord e 2
  { base := bits (entWord e 0) 0 53, limit := bits (entWord e 1) 0 53, tag := bits c 32 32, lock := flag c 27, a := flag c 26
    w := flag c 25, r := flag c 24, port := bits c 16 6, space := bits c 12 2, dead := false }

def ruleEntry (d : Nat) (r : Rule) : Entry :=
  let b (x : Bool) (i : Nat) : Nat := if x then 2 ^ i else 0
  entryOf r.base r.limit
    (d + r.space * 2 ^ 12 + r.port * 2 ^ 16 + b r.r 24 + b r.w 25 + b r.a 26 + b r.lock 27 + 2 ^ 28 + r.tag * 2 ^ 32) 0

/-- BAD_DESC of RULE_WRITE for its entry (R10, R399), `upstream` telling which ports have role upstream. -/
def ruleBad (e : Entry) (upstream : Nat → Bool) : Option Nat :=
  let a := entWord e 0; let b := entWord e 1; let c := entWord e 2
  let r := ruleOf e
  let v := ruleValid e
  firstBad
    [(v && r.limit ≤ r.base, 0x20), (bits a 53 11 ≠ 0, 0x26), (v && r.space = 0 && 2 ^ 40 < r.limit, 0x28),
     (bits b 53 11 ≠ 0, 0x2E), (bits c 14 2 ≠ 0 || (v && 1 < r.space), 0x31), (bits c 22 2 ≠ 0, 0x32),
     (v && r.space = 1 && !upstream r.port, 0x32), (v && r.space = 0 && r.port ≠ 0, 0x32), (!v && r.lock, 0x33),
     (bits c 29 3 ≠ 0, 0x33), (entWord e 3 ≠ 0, 0x38)]

/-! ### Token buckets (R425) -/

def bucketValid (e : Entry) : Bool := flag (entWord e 1) 63

def bucketOf (e : Entry) : Bucket :=
  let a := entWord e 0; let b := entWord e 1
  { rate := bits a 0 24, burst := bits a 32 24, port := bits b 0 7, cls := BitVec.ofNat 8 (bits b 8 8), egress := bits b 16 2 = 1
    act := bits b 18 2, init := bits b 20 2, blw := flag b 22, gfreeze := flag b 23, report := flag b 24, ovh := bits b 32 8
    ovhIn := bits b 32 8, tag := bits (entWord e 2) 0 32, tokens := 0, since := 0, cleared := none, load := false, wasValid := false, past := [], repB := 0
    repNc := 0, repHeld := 0, repLow := 0 }

def bucketEntry (d : Nat) (k : Bucket) : Entry :=
  let b (x : Bool) (i : Nat) : Nat := if x then 2 ^ i else 0
  entryOf (k.rate + k.burst * 2 ^ 32)
    (k.port + k.cls.toNat * 2 ^ 8 + b k.egress 16 + k.act * 2 ^ 18 + k.init * 2 ^ 20 + b k.blw 22 + b k.gfreeze 23 + b k.report 24
      + k.ovh * 2 ^ 32 + d * 2 ^ 48 + (if k.cleared.isNone then 2 ^ 63 else 0)) k.tag 0

/-- BAD_DESC of BUCKET_WRITE for its entry: reserved bits in any entry (R10, R425), fields out of range in a valid one (R426). -/
def bucketBad (e : Entry) : Option Nat :=
  let a := entWord e 0; let b := entWord e 1
  let k := bucketOf e
  let v := bucketValid e
  firstBad
    [(v && k.rate = 0, 0x20), (bits a 24 8 ≠ 0, 0x23), (v && k.burst < 1024, 0x24), (bits a 56 8 ≠ 0, 0x27), (v && 63 < k.port, 0x28),
     (flag b 7, 0x28), (v && (k.cls = 0 || k.cls.getLsbD 0 || k.cls.getLsbD 1), 0x29), (v && 1 < bits b 16 2, 0x2A),
     (v && k.act = 3, 0x2A), (v && k.act = 1 && k.egress, 0x2A), (v && k.init = 3, 0x2A), (bits b 25 7 ≠ 0, 0x2B), (bits b 40 8 ≠ 0, 0x2D), (bits b 60 3 ≠ 0, 0x2F),
     (bits (entWord e 2) 32 32 ≠ 0, 0x34), (entWord e 3 ≠ 0, 0x38)]

/-! ### Counters (R523, R527) -/

def counterOf (e : Entry) : Counter :=
  let a := entWord e 0
  { value := bits (entWord e 1) 0 48, snap := 0, snapAt := none, sel := bits a 0 8, level := flag a 8, en := flag a 9, snapEn := flag a 10
    sample := flag a 11, fany := flag a 13, fdom := bits a 32 12, cls := bits a 24 8, unit := bits a 16 8, snapDiv := bits a 48 8
    reload := bits (entWord e 2) 0 48 }

/-- LOAD of a counter entry. -/
def counterLoad (e : Entry) : Bool := flag (entWord e 0) 12

/-- Units of a selection; 0 for a selection that R524 does not list. -/
def selUnits (sel : Nat) : Nat :=
  if 1 ≤ sel ∧ sel ≤ 7 then 64 else if 0x10 ≤ sel ∧ sel ≤ 0x12 then 88 else if 0x20 ≤ sel ∧ sel ≤ 0x24 then 16
  else if 0x30 ≤ sel ∧ sel ≤ 0x32 then 64 else if sel = 0x40 ∨ sel = 0x41 then 130 else 0

/-- Selections without a level quantity (R524). -/
def selNoLevel (sel : Nat) : Bool := [0x02, 0x04, 0x06, 0x11, 0x12, 0x40, 0x41].contains sel

/-- Level quantities marked "ANY only" (R524). -/
def selAnyOnly (sel : Nat) : Bool := sel = 0x22 || sel = 0x24

def counterBad (e : Entry) : Option Nat :=
  let a := entWord e 0; let b := entWord e 1; let c := entWord e 2
  let k := counterOf e
  firstBad
    [(selUnits k.sel = 0, 0x20), (k.level && selNoLevel k.sel, 0x21), (bits a 14 2 ≠ 0, 0x21), (selUnits k.sel ≤ k.unit, 0x22),
     (bits a 44 4 ≠ 0, 0x25), (k.snapEn && k.snapDiv = 0, 0x26), (bits a 56 8 ≠ 0, 0x27), (bits b 48 16 ≠ 0, 0x2E),
     (bits c 48 16 ≠ 0, 0x36), (entWord e 3 ≠ 0, 0x38)]

/-! ### Requester-ID entries (R396) -/

def ridOf (w : Word) : RidEnt :=
  ⟨BitVec.ofNat 16 (bits w.toNat 0 16), BitVec.ofNat 16 (bits w.toNat 16 16), bits w.toNat 32 12, flag w.toNat 48⟩

/-- DOMAIN fills its two bytes, VALID bit 0 of byte 6. -/
def ridBad (w : Word) : Option Nat :=
  firstBad [(bits w.toNat 44 4 ≠ 0, 0x25), (bits w.toNat 49 15 ≠ 0, 0x26)]

def ridEntry (r : RidEnt) : Entry :=
  entryOf (r.base.toNat + r.mask.toNat * 2 ^ 16 + r.domain * 2 ^ 32 + (if r.valid then 2 ^ 48 else 0)) 0 0 0

/-! ### Tick plans (R63 to R68, R329) -/

def wordAt (p : List Word) (k : Nat) : Nat := (p.getD k 0).toNat

def planWcnt (p : List Word) : Nat := bits (wordAt p 0) 8 8
def planDcnt (p : List Word) : Nat := bits (wordAt p 0) 16 16

def windowAt (p : List Word) (i : Nat) : Window :=
  let a := wordAt p (8 + 2 * i); let b := wordAt p (9 + 2 * i)
  { opn := bits a 0 22, close := bits a 32 22, guard := bits b 0 16, tail := bits b 16 16, k := bits b 32 5, rsv := bits b 48 8
    smax := bits b 41 7 }

def dispAt (p : List Word) (j : Nat) : Disp :=
  let a := wordAt p (200 + 4 * j); let b := wordAt p (201 + 4 * j); let c := wordAt p (202 + 4 * j)
  { offset := bits a 0 22, budget := bits a 24 24, win := bits a 48 5, bound := flag a 56, sc0 := flag a 57, idem := flag a 58
    fed := flag a 59, any := flag a 60, ceach := flag a 61, engine := bits b 0 6, prio := bits b 8 8, domain := bits b 16 12
    prog := bits b 32 12, slot := bits b 48 16, cring := bits c 0 16 }

def gateAt (p : List Word) (i : Nat) : Entry :=
  entryOf (wordAt p (72 + 4 * i)) (wordAt p (73 + 4 * i)) (wordAt p (74 + 4 * i)) (wordAt p (75 + 4 * i))

/-- The plan of a host object, its entries not yet placed. -/
def planOf (p : List Word) : Plan :=
  let b := wordAt p 1
  let m := bits b 8 8
  { period := bits (wordAt p 0) 32 32, spares := bits b 0 8, margin := 250 * (if m = 0 then 8 else m), tag := bits b 32 32
    windows := (List.range (planWcnt p)).map (windowAt p), gates := (List.range (planWcnt p)).map (gateAt p)
    disp := (List.range (planDcnt p)).map (dispAt p), place := [] }

/-- Reserved bits of the header, the window table, the gate maps and the dispatch entries, and the ranges of check 1 of R77
that need no state: byte offset of the first failing field. -/
def planBad (p : List Word) : Option Nat :=
  let a := wordAt p 0; let b := wordAt p 1
  let hdr := firstBad
    [(bits a 0 8 ≠ 1, 0), (32 < planWcnt p, 1), (256 < planDcnt p, 2), (bits a 32 32 < 15625 || 4000000 < bits a 32 32, 4),
     (8 < bits b 0 8, 8), (bits b 8 8 ≠ 0 && (bits b 8 8 < 4 || 64 < bits b 8 8), 9), (bits b 16 16 ≠ 0, 10)]
  let rest := firstBad ((List.range 6).map fun k => ((wordAt p (2 + k) ≠ 0 : Bool), 16 + 8 * k))
  let win := (List.range 32).findSome? fun i =>
    let x := wordAt p (8 + 2 * i); let y := wordAt p (9 + 2 * i)
    let used : Bool := i < planWcnt p
    firstBad
      [(bits x 22 10 ≠ 0, 64 + 16 * i + 2), (bits x 54 10 ≠ 0, 64 + 16 * i + 6),
       (used && (bits y 32 5 = 0 || 16 < bits y 32 5), 64 + 16 * i + 12), (bits y 37 3 ≠ 0, 64 + 16 * i + 12),
       (flag y 40 ≠ used, 64 + 16 * i + 13), (64 < bits y 41 7, 64 + 16 * i + 13), (bits y 56 8 ≠ 0, 64 + 16 * i + 15)]
  let gate := (List.range 32).findSome? fun i =>
    (List.range 64).findSome? fun n =>
      if gateBits3 (gateAt p i) n then some (576 + 32 * i + n / 2) else none
  let dsp := (List.range (min 256 (planDcnt p))).findSome? fun j =>
    let x := wordAt p (200 + 4 * j); let y := wordAt p (201 + 4 * j); let z := wordAt p (202 + 4 * j)
    let o := 1600 + 32 * j
    let d := dispAt p j
    firstBad
      [(bits x 22 2 ≠ 0, o + 2), (d.budget = 0 || 6400000 < d.budget, o + 3), (d.bound && planWcnt p ≤ d.win, o + 6),
       (bits x 53 3 ≠ 0, o + 6), (d.sc0 && !d.bound, o + 7), (bits x 62 2 ≠ 0, o + 7), (bits y 6 2 ≠ 0, o + 8), (bits y 28 4 ≠ 0, o + 11),
       (bits y 44 4 ≠ 0, o + 13), (bits z 16 48 ≠ 0, o + 18), (wordAt p (203 + 4 * j) ≠ 0, o + 24)]
  hdr <|> rest <|> win <|> gate <|> dsp
where
  /-- The reserved bit of a port's gate bits (R68). -/
  gateBits3 (e : Entry) (n : Nat) : Bool := flag e.toNat (4 * n + 3)

/-! ### Engine instructions (R361) -/

def opcOf (w : Word) : Nat := bits w.toNat 56 8

def fieldsOf (w : Word) : Fields :=
  { d := Fin.ofNat 32 (bits w.toNat 51 5), a := Fin.ofNat 32 (bits w.toNat 46 5), b := Fin.ofNat 32 (bits w.toNat 41 5)
    c := Fin.ofNat 32 (bits w.toNat 36 5), f := BitVec.ofNat 4 (bits w.toNat 32 4), imm := BitVec.ofNat 32 (bits w.toNat 0 32) }

end Sys2Proof.Machine
end

