-- ==== Sys2Proof/Machine/Plan.lean ====
section
/-! DEFINITION. The SC0 latency bound (R75, R186) and the admission of a tick plan (R77 to R84). Times of the bound are in
1/320 ns, in which every term of R75 is whole; budgets are in 1/8 ns (5 per cycle); powers in mW and energies in pJ. -/

namespace Sys2Proof.Machine

/-! ### Timing terms of a port (R186, R187) -/

/-- Lane rate of a rate code in 1/10 GT/s (PRT_CFG.MAX_RATE). -/
def rate10 (code : Nat) : Nat := [0, 25, 50, 80, 160, 320, 640].getD code 0

/-- Effective lane rate as numerator and denominator in Gbit/s; mode 0 non-flit, 1 68-byte, 2 and 3 flit (R186). -/
def laneRate (mode code : Nat) : Nat × Nat :=
  if 2 ≤ mode then (rate10 code, 10)
  else if mode = 0 && code ≤ 2 then (rate10 code * 8, 100)
  else (rate10 code * 128, 1300)

def ceilDiv (a b : Nat) : Nat := (a + b - 1) / b

/-- t_unit of R186 in ns for `bytes`. -/
def tUnit (bytes lanes mode code : Nat) : Nat :=
  let r := laneRate mode code
  if lanes * r.1 = 0 then 0 else ceilDiv (bytes * 8 * r.2) (lanes * r.1)

/-- Terms of a source port: T_ing, T_egr, t_rep in ns, d_out in 1/320 ns. -/
structure Terms where
  ing  : Nat
  egr  : Nat
  rep  : Nat
  dout : Nat
  deriving DecidableEq, Repr

/-- R186 and R187 for a port of `lanes` lanes at a mode and rate. -/
def termsOf (lanes mode code wire : Nat) (ide : Bool) : Terms :=
  let b := if mode = 1 then 68 else if mode = 0 then 536 else 256
  let bIng := if mode = 3 then 128 else b
  let aIng := if mode = 1 then 60 else if mode = 0 then 70 else 82
  let aEgr := if mode = 1 then 50 else if mode = 0 then 56 else 62
  let aRep := if mode = 1 then 130 else if mode = 0 then 160 else 114
  let u := tUnit b lanes mode code
  let i := if ide then 12 else 0
  let r := laneRate mode code
  { ing := aIng + tUnit bIng lanes mode code + i, egr := aEgr + u + i, rep := aRep + 2 * wire + 2 * u + 2 * i
    dout := max 200 (if lanes * r.1 = 0 then 0 else 512 * r.2 * 320 / (lanes * r.1)) }

/-- Terms of the port named by slice `n` (R79, R186): at the trained width, which L0p leaves, when ACTIVE; at the configured one and MAX_RATE in
256-byte flit mode else. -/
def State.portTerms (s : State) (n : Nat) : Terms :=
  let p := s.portN n
  let wire := s.rd R.TIK_PORT_WIRE_WIRE n
  let ide := p.secure ≠ 0
  if p.state = .active then termsOf (lanesOf p.trained) p.mode p.rate wire ide
  else termsOf (s.cfgLanes n) 2 (s.rd R.PRT_CFG_MAX_RATE n) wire ide

/-- Terms of an engine (R79). -/
def engineTerms : Terms := ⟨20, 0, 0, 200⟩

/-- T_resp of a port (R114). -/
def State.tResp (s : State) (n : Nat) : Nat :=
  if (s.portN n).respNs ≠ 0 then (s.portN n).respNs else s.rd R.TIK_PORT_WIRE_RESP n

/-- What L_snp may take of a port that is snooped, as it stands now (R75). -/
def State.snoopTerm (s : State) (n : Nat) : SnpTerm :=
  ⟨(s.portTerms n).ing, (s.portTerms n).egr, s.rd R.TIK_PORT_WIRE_WIRE n, s.tResp n⟩

/-- Largest T_ing, T_egr, T_wire and T_resp of ports snooped (R75). -/
def SnpTerm.worst (l : List SnpTerm) : SnpTerm :=
  l.foldl (fun a x => ⟨max a.ing x.ing, max a.egr x.egr, max a.wire x.wire, max a.resp x.resp⟩) ⟨0, 0, 0, 0⟩

/-- Names of the ports with role upstream. -/
def State.upstreamPorts (s : State) : List Nat := (List.range 64).filter s.isUpstream

/-- What L_snp takes of the ports with role upstream in check 4 (R79). -/
def State.planTerm (s : State) : SnpTerm :=
  match s.upstreamPorts with
  | [] => ⟨90, 70, 10, 400⟩
  | l => SnpTerm.worst (l.map s.snoopTerm)

/-- L_snp of R75 for S ≥ 1 sharers, in 1/320 ns. -/
def SnpTerm.snp (x : SnpTerm) (sharers : Nat) : Nat := (sharers - 1) * 200 + 320 * (2 * 50 + x.egr + 2 * x.wire + x.resp + x.ing)

/-- L_SC0 of R75 in 1/320 ns. -/
def boundSc0 (nSrc k sharers : Nat) (t : Terms) (x : SnpTerm) : Nat :=
  let lsnp := if sharers = 0 then 0 else x.snp sharers
  320 * (t.ing + 50) + (nSrc * k - 1) * 200 + 320 * (20 + 40) + lsnp + 320 * 50 + nSrc * k * t.dout + 320 * (t.egr + t.rep)

/-! ### Sources and endpoints of a window -/

/-- Ports that have a gate bit of the window (R68): a bit stands for the port that owns the slice. -/
def State.gatePorts (s : State) (p : Plan) (w bit : Nat) : List Nat :=
  (List.range 64).filter fun n => s.isLowest n && flag (gateBits (p.gates.getD w 0) n) bit

/-- Engines with SC0 entries bound to the window, by the placement. -/
def Plan.sc0Engines (p : Plan) (w : Nat) : List Nat :=
  ((List.zip p.disp p.place).filterMap fun x => if x.1.sc0 && x.1.win = w then some x.2 else none).eraseDups

/-- Engines with entries bound to the window. -/
def Plan.boundEngines (p : Plan) (w : Nat) : List Nat :=
  ((List.zip p.disp p.place).filterMap fun x => if x.1.bound && x.1.win = w then some x.2 else none).eraseDups

/-- N_src of a window (R75). -/
def State.nSrc (s : State) (p : Plan) (w : Nat) : Nat := (s.gatePorts p w 0).length + (p.sc0Engines w).length

/-- n_xe of a window (R83): endpoints with SRC or SNK once each, with the cluster endpoints of bound engines. -/
def State.nXe (s : State) (p : Plan) (w : Nat) : Nat :=
  ((List.range 64).filter fun n => gateBits (p.gates.getD w 0) (s.lowest n) % 4 ≠ 0).length
    + ((p.boundEngines w).map (· / 8)).eraseDups.length

/-- S of R79. -/
def State.planSharers (s : State) (x : Window) : Nat :=
  if x.smax = 0 then min 63 ((s.upstreamPorts.filter fun n => !(s.portN n).partnerSwitch).length) else x.smax - 1

/-! ### The checks of R77 -/

/-- The window a plan entry limits to, or the fence (R80), in ns from the boundary. -/
def Plan.limit (p : Plan) (d : Disp) : Nat :=
  if d.bound then
    match p.windows[d.win]? with
    | some w => w.close - w.tail
    | none => 0
  else p.period - p.margin

/-- Check 2. -/
def Plan.check2 (p : Plan) : Bool :=
  p.windows.all fun w => w.opn < w.close && w.close ≤ p.period && w.guard + w.tail < w.close - w.opn

/-- Check 3 (R71); the bits of a slice that names no port say nothing. -/
def State.check3 (s : State) (p : Plan) : Bool :=
  (List.range p.windows.length).all fun i => (List.range p.windows.length).all fun j =>
    i = j || match p.windows[i]?, p.windows[j]? with
      | some a, some b =>
        min a.close b.close ≤ max a.opn b.opn
          || (List.range 64).all fun n => !s.isLowest n || gateBits (p.gates.getD i 0) n = 0 || gateBits (p.gates.getD j 0) n = 0
      | _, _ => true

/-- Check 4 for a window (R79). -/
def State.check4 (s : State) (p : Plan) : Bool :=
  let snp := s.planTerm
  (List.range p.windows.length).all fun i =>
    match p.windows[i]? with
    | none => true
    | some w =>
      let n := s.nSrc p i
      let terms := (s.gatePorts p i 0).map s.portTerms ++ (p.sc0Engines i).map fun _ => engineTerms
      terms.all fun t => boundSc0 n w.k (s.planSharers w) t snp ≤ 320 * w.tail

/-- R149: SRC or SNK for a port whose partner is a switch. -/
def State.gatesSwitch (s : State) (p : Plan) : Bool :=
  (List.range p.windows.length).any fun i =>
    (s.gatePorts p i 0 ++ s.gatePorts p i 1).any fun n => (s.portN n).partnerSwitch

/-- Entries in order of OFFSET, ties in plan order (R332). -/
def insertDisp (d : Disp) : List Disp → List Disp
  | [] => [d]
  | x :: t => if d.offset < x.offset then d :: x :: t else x :: insertDisp d t

def sortDisp (l : List Disp) : List Disp := l.foldl (fun a d => insertDisp d a) []

/-- R332 over the entries of one engine, ends in 1/8 ns. -/
def Plan.fits (p : Plan) (l : List Disp) : Bool :=
  ((sortDisp l).foldl (fun (a : Bool × Nat) d =>
    let e := max (8 * d.offset) a.2 + 5 * d.budget
    (a.1 && e ≤ 8 * p.limit d, e)) (true, 0)).1

/-- Budgets of one engine summed (R81). -/
def Plan.budgetsFit (p : Plan) (l : List Disp) : Bool := 5 * (l.map Disp.budget).foldl (· + ·) 0 ≤ 8 * (p.period - p.margin)

/-- An engine that may take work: neither failed nor retired. -/
def Engine.healthy (e : Engine) : Bool := e.st ≠ .failed && e.st ≠ .retired

/-- Healthy engines by number. -/
def State.healthyEngines (s : State) : List Nat := (List.range 64).filter fun e => (s.eng.engs.toList.getD e Engine.init).healthy

/-- The `n` highest-numbered healthy engines (R331). -/
def State.sparesFor (s : State) (n : Nat) : List Nat := (s.healthyEngines.reverse.take n)

/-- Engines that R81 may place work on. -/
def State.workEngines (s : State) (p : Plan) : List Nat := s.healthyEngines.filter fun e => !(s.sparesFor p.spares).contains e

/-- The engine lies in the ENG_MASK of a domain. -/
def State.inMask (s : State) (d e : Nat) : Bool := (s.domain d).mask.getLsbD e

/-- Entries that a placement puts on engine `e`, in plan order. -/
def onEngineOf (disp : List Disp) (place : List (Option Nat)) (e : Nat) : List Disp :=
  (List.zip disp place).filterMap fun x => if x.2 = some e then some x.1 else none

/-- R81: entries that name an engine stand there; the others are placed in plan order, each on the lowest-numbered engine
that still fits. None when an entry fits nowhere. -/
def State.placePlan (s : State) (p : Plan) : Option (List Nat) :=
  let engines := s.workEngines p
  let named : List (Option Nat) := p.disp.map fun d => if d.any then none else some d.engine
  let okNamed := (List.zip p.disp named).all fun x => match x.2 with
    | some e => engines.contains e && p.fits (onEngineOf p.disp named e) && p.budgetsFit (onEngineOf p.disp named e)
    | none => true
  if !okNamed then none
  else
    let placed := (List.range p.disp.length).foldl (fun (a : Option (List (Option Nat))) j =>
      match a with
      | none => none
      | some pl =>
        match pl.getD j none, p.disp[j]? with
        | none, some d =>
          match engines.find? (fun e => s.inMask d.domain e
              && p.fits (onEngineOf p.disp (pl.set j (some e)) e) && p.budgetsFit (onEngineOf p.disp (pl.set j (some e)) e)) with
          | some e => some (pl.set j (some e))
          | none => none
        | _, _ => some pl) (some named)
    placed.map fun pl => pl.filterMap id

/-! ### Energy (R82 to R84) -/

/-- Entry of the coefficient table in force. -/
def State.coef (s : State) (i : Nat) : Nat := s.bel.coef.getD i 0

/-- P_static,105 in mW by a coefficient table (R447). -/
def State.pStatic (s : State) (coef : List Nat) : Nat :=
  coef.getD 5 0 + ((List.range 64).map fun n =>
    if s.cfgRole n ≠ 0 then s.cfgLanes n * coef.getD (5 + s.rd R.PRT_CFG_MAX_RATE n) 0 else 0).foldl (· + ·) 0

/-- Values that check 6 depends on: cap in W, share in %, D105 in %, coefficients (R84). -/
structure EnergyIn where
  cap   : Nat
  share : Nat
  d105  : Nat
  coef  : List Nat
  deriving DecidableEq, Repr

def State.energyIn (s : State) : EnergyIn :=
  ⟨s.rd R.BLW_CAP_CAP_W, s.rd R.BLW_RT_SHARE_PCT, s.rd R.BLW_THERM_D105_PCT, s.bel.coef⟩

/-- E_plan in pJ (R83). -/
def State.ePlan (s : State) (p : Plan) (coef : List Nat) : Nat :=
  ((List.range p.windows.length).map fun i => match p.windows[i]? with
    | some w => (w.close - w.opn) * (s.nXe p i * coef.getD 21 0 + 16 * coef.getD 22 0)
    | none => 0).foldl (· + ·) 0
  + (p.disp.map fun d => d.budget * coef.getD 18 0).foldl (· + ·) 0

/-- 100 × E_floor in pJ (R82), negative when the static power exceeds the scaled cap. -/
def State.eFloor100 (s : State) (p : Plan) (x : EnergyIn) : Int :=
  (x.share : Int) * ((x.cap * 10 * x.d105 : Nat) - (s.pStatic x.coef : Nat) : Int) * (p.period : Nat)

/-- 100 × shortfall E_plan − E_floor. -/
def State.shortfall (s : State) (p : Plan) (x : EnergyIn) : Int := 100 * (s.ePlan p x.coef : Int) - s.eFloor100 p x

/-- Check 6. -/
def State.check6 (s : State) (p : Plan) (x : EnergyIn) : Bool := decide (s.shortfall p x ≤ 0)

/-- Current plan, and the pending plan with every plan committed to a switch not yet made (R84, R86). -/
def State.livePlans (s : State) : List Plan :=
  s.pit.current :: (s.pit.pendingPlan.toList ++ s.pit.fixed.filterMap FixedB.plan)

/-- R84 lets a change of cap, share, D105 or coefficients pass. -/
def State.energyChangeOk (s : State) (x : EnergyIn) : Bool :=
  s.livePlans.all fun p =>
    s.check6 p x || (!s.check6 p s.energyIn && decide (s.shortfall p x ≤ s.shortfall p s.energyIn))

/-! ### Check 1 (R77, R330) -/

def progKey (d h : Nat) : Nat := d * 4096 + h

/-- State-dependent part of check 1 for one dispatch entry: byte offset in the plan of the failing field. -/
def State.dispBad (s : State) (p : Plan) (j : Nat) (d : Disp) : Option Nat :=
  let o := 1600 + 32 * j
  firstBad
    [(!d.any && (!s.inMask d.domain d.engine || (s.sparesFor p.spares).contains d.engine), o + 8),
     ((Tab.get noneAt s.eng.progs (progKey d.domain d.prog)).isNone, o + 12),
     ((p.disp.filter fun x => x.slot = d.slot).length ≠ 1, o + 14),
     (!d.fed && (match s.ring d.cring with
        | some r => r.kind ≠ .cq || r.domain ≠ d.domain
        | none => true), o + 16)]

/-- Outcome of admission. -/
inductive Admission where
  | bad (offset : Nat)
  | refused (code : Nat)
  | admitted (p : Plan)
  deriving DecidableEq, Repr

/-- The checks of R77 in order over a plan object. DESIGN CHOICE (log 62): check 4 precedes the placement of check 5, and where no placement
exists R79 does not say on which engines the SC0 entries with ANY stand as sources; all of a window count as one engine there. -/
def State.admitPlan (s : State) (w : List Word) : Admission :=
  match planBad w with
  | some o => .bad o
  | none =>
    let p := planOf w
    match (List.range p.disp.length).findSome? (fun j => match p.disp[j]? with
        | some d => s.dispBad p j d
        | none => none) with
    | some o => .bad o
    | none =>
      if p.disp.any (fun d => (s.domain d.domain).debug) then .refused 0       -- R393
      else if !p.check2 then .refused 2
      else if !s.check3 p then .refused 3
      else
        match s.placePlan p with
        | some pl =>
          let p := { p with place := pl }
          if s.gatesSwitch p || !s.check4 p then .refused 4
          else if !s.check6 p s.energyIn then .refused 6
          else .admitted p
        | none =>
          let p := { p with place := p.disp.map fun d => if d.any then 64 else d.engine }
          if s.gatesSwitch p || !s.check4 p then .refused 4 else .refused 5

end Sys2Proof.Machine
end

