-- ==== Sys2Proof/Machine/Bellows.lean ====
section
/-! DEFINITION. Bellows: estimator, account, throttling, load step, thermal curve and calibration (spec 12). Powers in mW,
energies in pJ (1 mW over 1 ns), temperatures in quarter degrees. Divisions round down (log 20). -/

namespace Sys2Proof.Machine

/-! ### Estimator (R445 to R448) -/

/-- Dynamic energy of the interval's events. -/
def Bel.dynamic (b : Bel) : Nat :=
  b.evCwr * b.coef.getD 13 0 + b.evCrd * b.coef.getD 14 0 + b.evDir * b.coef.getD 15 0 + b.evOlcR * b.coef.getD 16 0
    + b.evOlcW * b.coef.getD 17 0 + b.evCyc * b.coef.getD 18 0 + b.evChk * b.coef.getD 19 0

/-- Linear interpolation from (x0, y0) to (x0 + 80, y1), quarter degrees. -/
def lerp (x0 : Int) (y0 y1 : Nat) (x : Int) : Nat := ((y0 : Int) + ((y1 : Int) - y0) * (x - x0) / 80).toNat

/-- P_leak(T) in mW (R448). -/
def Bel.leak (b : Bel) : Nat :=
  let l (i : Nat) : Nat := b.coef.getD i 0
  if b.temp < 100 then l 1
  else if b.temp < 180 then lerp 100 (l 1) (l 2) b.temp
  else if b.temp < 260 then lerp 180 (l 2) (l 3) b.temp
  else if b.temp < 340 then lerp 260 (l 3) (l 4) b.temp
  else lerp 340 (l 4) (l 5) b.temp

/-- Power of the lanes of every port that is not OFF (R445). -/
def State.lanePower (s : State) : Nat :=
  ((List.range 64).map fun n =>
    let p := s.portN n
    if p.state = .off || !s.isLowest n then 0
    else
      let lane := s.coef (5 + p.rate)
      let idle := lanesOf p.trained - lanesOf p.width
      if p.rate = 0 then 0 else lane * lanesOf p.width + idle * (lane * s.coef 12 / 256)).foldl (· + ·) 0

/-- d(T) × P_cap in mW (R452, R468). -/
def State.pAllow (s : State) : Nat :=
  let cap := s.blw R.BLW_CAP_CAP_W * 1000
  let knee : Int := 4 * (s.blw R.BLW_THERM_KNEE : Int)
  let d105 := s.blw R.BLW_THERM_D105_PCT
  if s.bel.temp ≤ knee then cap
  else if 420 < s.bel.temp then cap * d105 / 100
  else cap - (cap * (100 - d105) * (s.bel.temp - knee).toNat) / (100 * (420 - knee).toNat)

/-- Reserved power of one window of a plan (R83, R452). -/
def State.windowPower (s : State) (p : Plan) (w : Nat) : Nat := s.nXe p w * s.coef 21 + 16 * s.coef 22

/-- Cycle power of one running engine: e_cyc × 1.6 GHz in mW. -/
def State.cyclePower (s : State) : Nat := s.coef 18 * 16 / 10

/-- Windows of the current plan, by index, that satisfy a condition on their bounds. -/
def State.windowsWith (s : State) (f : Window → Bool) : List Nat :=
  (List.range s.pit.current.windows.length).filter fun i => (s.pit.current.windows[i]?).any f

/-- Reserved power of the interval that starts at offset `off`: that of the windows open then and of the engines that run SC0 work
items (R452). -/
def State.pRsv (off : Nat) (s : State) : Nat :=
  (((s.windowsWith fun x => x.opn ≤ off && off < x.close).filter fun w =>
      flag s.pit.openWin.toNat w || (s.serving && (s.pit.current.windows[w]?).any fun x => x.opn = off)).map fun w =>
    s.windowPower s.pit.current w).foldl (· + ·) 0
    + (s.eng.engs.toList.filter fun e => match e.item with
        | some i => i.disp.sc0
        | none => false).length * s.cyclePower

/-- Reserved power of the windows whose CLOSE lies in [a, b) of the tick. -/
def State.closingPower (s : State) (a b : Nat) : Nat :=
  ((s.windowsWith fun x => a ≤ x.close && x.close < b).map fun w => s.windowPower s.pit.current w).foldl (· + ·) 0

/-- Load-step limit as power per interval: LSTEP × 0.75 V (R463). -/
def State.deltaP (s : State) : Nat := s.blw R.BLW_LSTEP_A_US * 750

/-- Offset of FTIME in the tick. -/
def State.offset (s : State) : Nat := s.now - s.pit.bk

/-- The plan that will be current at the next boundary, as far as it is fixed (R86, R465). -/
def State.nextPlan (s : State) : Plan :=
  match s.pit.fixed with
  | f :: _ => f.plan.getD s.pit.current
  | [] => s.pit.current

/-- OPEN and plan of every window, those of the next tick at the offset they have in this one. -/
def State.opens (s : State) : List (Nat × Plan × Nat) :=
  ((List.range s.pit.current.windows.length).filterMap fun i =>
    (s.pit.current.windows[i]?).map fun w => (w.opn, s.pit.current, i))
  ++ ((List.range s.nextPlan.windows.length).filterMap fun i =>
    (s.nextPlan.windows[i]?).map fun w => (w.opn + s.pit.period, s.nextPlan, i))

/-- A port is in a protected period (R74, R119): non-zero gate state, or the 2 µs before OPEN of a window that gives it one. -/
def State.protectedPort (s : State) (n : Nat) : Bool :=
  s.gate n ≠ 0
  || s.opens.any fun x => s.offset < x.1 && x.1 ≤ s.offset + 2000 && gateBits (x.2.1.gates.getD x.2.2 0) n ≠ 0

/-! ### The interval (R453 to R467) -/

/-- B_pre of the interval [off, off + d) (R465). -/
def State.bPre (s : State) (off d : Nat) : Nat :=
  s.opens.foldl (fun b x =>
    if x.1 ≤ off then b
    else
      -- the j for which OPEN − j µs lies in the interval
      let j := ceilDiv (x.1 - (off + d) + 1) 1000
      let j := max 1 j
      if off ≤ x.1 - 1000 * j && x.1 - 1000 * j < off + d && 1000 * j ≤ x.1 then
        let pw := ((s.opens.filter fun y => y.1 = x.1).map fun y => s.windowPower y.2.1 y.2.2).foldl (· + ·) 0
        max b (pw - j * s.deltaP)
      else b) 0

/-- Close the interval in progress at length `d`: estimate, account and CAP_EXCEED (R445, R453, R457). -/
def State.closeInterval (d : Nat) (s : State) : State :=
  if d = 0 then s
  else
    let b := s.bel
    let dyn := b.dynamic
    let bare := b.kappa * (b.leak * d + dyn) / 4096
    let core := b.kappa * (b.leak * d + dyn + b.pBal * d) / 4096
    let lanes := s.lanePower
    let e := core + lanes * d
    let allow := s.pAllow
    let exceeded : Bool := b.g = s.blw R.BLW_GOV_G_MIN && allow * d < e
    let s := s.onBel fun b =>
      { b with
          u := b.u + (allow * d : Nat) - (e : Nat), energy := e, prevBe := dyn - b.rtPj, prevDyn := dyn / d, prevCore := core / d
          prevBare := bare / d, prevI2 := b.prevI, prevI := core / d * 4 / 3, prevLane := lanes, sumRt := b.sumRt + b.rtPj
          sumEst := b.sumEst + e, slackN := b.slackN + (if b.slack then 1 else 0), ballast := b.ballast + b.pBal * d
          ending := s.closingPower s.pit.period (s.pit.period + 1), calSum := b.calSum + core, calSpan := b.calSpan + d, gMin := min b.gMin b.g, capTold := b.capTold || exceeded
          evCwr := 0, evCrd := 0, evDir := 0, evOlcR := 0, evOlcW := 0, evCyc := 0, evChk := 0, rtPj := 0 }
    if exceeded then
      let s := s.bump R.BLW_CAPX_COUNT 0 1
      if b.capTold then s
      else (s.fault 0x10A 0).raise 0 0x16 0x0161 1 0 b.idx (e / 1000)
    else s

/-- Capacity of `lanes` lanes of a port in bytes per microsecond. -/
def portCapacity (p : Port) (lanes : Nat) : Nat :=
  let r := laneRate p.mode p.rate
  if r.2 = 0 then 0 else lanes * r.1 * 125 / r.2

/-- The width Bellows asks a port for, if any (R119, R462). -/
def State.l0pWish (s : State) (n : Nat) : Option Nat :=
  let p := s.portN n
  if p.state ≠ .active || !s.bit R.PRT_L0P_BLW_EN n || s.protectedPort n || p.l0pAsk.isSome || p.retrain then none
  else
    let t := Tab.get trafficAt s.bel.traffic n
    let idle := s.blw R.BLW_L0P_IDLE_US
    let cur := lanesOf p.width
    let big := (t.head?.map fun x => max x.1 x.2).getD 0
    if 100 * big > 75 * portCapacity p cur && p.width < p.trained then some p.trained
    else
      let rx := (t.take idle).foldl (fun a x => a + x.1) 0
      let tx := (t.take idle).foldl (fun a x => a + x.2) 0
      let least := s.rd R.PRT_L0P_MIN_W n + 1
      if t.length < idle then none
      else (List.range p.width).find? fun w =>
        1 ≤ w && least ≤ w && 100 * max rx tx ≤ 40 * idle * portCapacity p (lanesOf w)

/-- Ask the partner of every port that Bellows would narrow or widen. -/
def State.l0pRequests (s : State) : State :=
  s.forAll allPorts fun p t =>
    match s.l0pWish p.val with
    | some w => (t.onPort p fun q => { q with l0pAsk := some w }).emit (.port p.val (.l0pRequest w))
    | none => t

/-- The BLW registers at offsets 0x000 to 0x038 as they stand, in force from the next interval on (R475). -/
def State.blwNow (s : State) (t : Tab Word) : Tab Word :=
  (List.range 8).foldl (fun t i => Tab.set regDefault t (R.BLW_CAP_CAP_W.base + 8 * i) (s.reg (R.BLW_CAP_CAP_W.base + 8 * i))) t

/-- Open the next interval, `off` ns into the tick: target, grant factor, slack, ballast (R454 to R456, R464 to R467), and whether a
regulator reading falls due with it (R449). -/
def State.openInterval (off : Nat) (s : State) : State :=
  let s := s.onBel fun b => { b with regs := s.blwNow b.regs }
  let b := s.bel
  let left := s.pit.period - off
  let d := if s.pit.period ≤ off then 1000 else min 1000 left
  let nRem : Nat := max 1 (ceilDiv left 1000)
  let gMin := s.blw R.BLW_GOV_G_MIN
  let fixed := b.kappa * b.leak / 4096 + b.prevLane
  let q : Int := ((s.pAllow : Int) - fixed - s.pRsv off) * d + b.u / nRem
  let raised := min 16 (b.g + s.blw R.BLW_GOV_G_UP)
  let lstep := s.blw R.BLW_LSTEP_A_US * 1000
  let g0 := if q ≤ 0 then gMin
    else if (b.prevBe : Int) ≤ q then raised
    else max gMin ((b.g : Int) * q / b.prevBe).toNat
  let g1 := if b.prevI2 + lstep < b.prevI then min g0 b.g else g0
  let g := if b.hot then gMin else g1
  let slack : Bool := g = 16 && (s.blw R.BLW_GOV_SLACK_W * 1000 * d : Nat) ≤ q - b.prevBe
  let opening := ((s.opens.filter fun x => off ≤ x.1 && x.1 < off + d).map fun x => s.windowPower x.2.1 x.2.2).foldl (· + ·) 0
  let closing := s.closingPower off (off + d) + if off = 0 then b.ending else 0
  let dPred := if b.safeFall then b.leak else b.prevBare + opening - closing
  let need := max (b.prevCore - s.deltaP - dPred) (if b.safeFall then 0 else s.bPre off d)
  let limit := s.coef 20
  let en := s.blw R.BLW_LSTEP_BALLAST_EN = 1
  let pBal := if en then min limit need else 0
  let changed : Bool := g ≠ b.g || slack ≠ b.slack
  let s := s.onBel fun b =>
    { b with
        g := g, slack := slack, pBal := pBal, idx := if off = 0 then 0 else b.idx + 1, start := s.now
        calDue := b.calDue || (if off = 0 then 1000000 ≤ s.now - b.calAt else (b.idx + 1) % 1000 = 0)
        traffic := Tab.mapAll trafficAt b.traffic fun _ l => (0, 0) :: l.take 255 }
  let s := s.when changed fun s => s.capture 0x05 0 0 16 [g + (if slack then 256 else 0)]
  if en && limit < need then
    (s.bump R.BLW_LSTEP_MISS_COUNT 0 1).raise 0 0x16 0x0164 0 0 s.bel.idx (need - limit)
  else s

/-- An interval of self-test and SRAM clearing (R624): the activity that the device raises is its own choice, a free value, but the
estimated core power rises by no more than 15 W. -/
def State.rampInterval (s : State) : State :=
  let s := s.reach (s.bel.start + 1000)
  let p := min (Config.freeNat s.free) (s.bel.prevCore + 15000)
  s.nextFree.onBel fun b =>
    { b with prevCore := p, prevBare := p, prevI2 := b.prevI, prevI := p * 4 / 3, energy := p * 1000, start := s.now }

/-- BELLOWS_INTERVAL (R455): the interval ends 1 µs after its start; the next one opens. The last interval of a tick ends at the boundary,
and waits for it when none is generated (R24, R59, R694). Before that, in step 5 of the start-up, the intervals of R624 run. -/
def execBellowsInterval (s : State) : Host.Outcome State Fault Refusal :=
  .next (if s.sys.corePower && s.rd R.GLB_START_PHASE_STEP = 5 then s.rampInterval
  else if s.sys.corePower && 8 < s.rd R.GLB_START_PHASE_STEP && s.bel.start + 1000 < s.pit.bk + s.pit.period then
    let s := s.reach (s.bel.start + 1000)
    let s := s.closeInterval (s.now - s.bel.start)
    let s := s.l0pRequests
    s.openInterval s.offset
  else s)

/-! ### Temperature and calibration -/

/-- The next FTIME that is a multiple of `m`. -/
def nextMultiple (m t : Nat) : Nat := (t + m - 1) / m * m

/-- TEMP_SAMPLE (R448, R469): T is the highest of the twenty readings. Each crossing raises once; a threshold re-arms 2 °C
below it. -/
def execTempSample (quarters : List Int) (s : State) : Host.Outcome State Fault Refusal :=
  .next (if quarters = [] || !s.sys.corePower then s
  else
    let at_ := s.multipleDue s.bel.tempAt 10000
    let s := (s.reach at_).onBel fun b => { b with tempAt := at_ }
    let s := s.forAll (List.zip (List.range 20) quarters) fun x t => t.capture 0x06 x.1 0 16 [intBits 64 x.2]
    let temp := quarters.foldl (fun a q => if a < q then q else a) (quarters.headD 0)
    let warnAt : Int := 4 * (s.blw R.BLW_THERM_WARN : Int)
    let tripAt : Int := 4 * (s.blw R.BLW_THERM_TRIP : Int)
    let old := s.bel
    let warn : Bool := if warnAt ≤ temp then true else old.warn && decide (warnAt - 8 < temp)
    let hot : Bool := 420 < temp
    let s := s.onBel fun b =>
      { b with temp := temp, warn := warn, hot := hot, tMax := if b.tMax < temp then temp else b.tMax
               g := if hot then s.blw R.BLW_GOV_G_MIN else b.g }
    let s := s.onLife fun x => { x with temps := Tab.upd natAt x.temps (temp + 1000).toNat (· + 1) }
    let s := s.when (!s.flt.safe) fun s => s.onSys fun y => { y with alertN := !warn }
    let s := s.when (warn && !old.warn) fun s => s.fc0 0x16 0x0163 0 (intBits 64 temp) 0
    let s := if hot then s.condition 0x10B 0 else if temp ≤ 412 then s.conditionEnd 0x10B 0 else s
    let tripped := s.flt.onset.contains (0x402, 0)
    if tripAt ≤ temp then
      if tripped then s
      else (s.onFlt fun f => { f with onset := (0x402, 0) :: f.onset }).fc4 0x402 0 0
    else if temp ≤ tripAt - 8 then s.conditionEnd 0x402 0
    else s)

/-- κ after a reading (R450), in 1/4,096, limited to [0.75, 1.50]. -/
def kappaNext (kappa pMeas pEst : Nat) : Nat :=
  let k : Int := (kappa : Int) + ((pMeas : Int) * 4096 / pEst - kappa) / 8
  min 6144 (max 3072 k.toNat)

/-- κ lies outside [0.90, 1.10]. -/
def kappaOut (k : Nat) : Bool := 10 * k < 9 * 4096 || 11 * 4096 < 10 * k

/-- REGULATOR_READING (R449 to R451), once it is due: the two telemetry values in mV and mA, none for a failed reading. -/
def execRegulatorReading (mv ma : Option Nat) (s : State) : Host.Outcome State Fault Refusal :=
  .next (if !s.started || s.flt.safe || !s.blw R.BLW_CAL_EN = 1 || !s.bel.calDue then s
  else
    let s := s.onBel fun b => { b with calDue := false, calAt := s.now }
    let addr := s.blw R.BLW_CAL_ADDR; let page := s.blw R.BLW_CAL_PAGE
    let s := (s.emit (.pmbus addr page 0x8B mv)).emit (.pmbus addr page 0x8C ma)
    match mv, ma with
    | some v, some i =>
      let s := s.capture 0x06 0xFF 0 16 [v % 2 ^ 32 + i % 2 ^ 32 * 2 ^ 32]   -- the places of the two values are a choice (log 86)
      let s := s.onLife fun x =>
        { x with volts := match x.volts with
            | some (lo, hi) => some (min lo v, max hi v)
            | none => some (v, v) }
      let pMeas := v * i / 1000
      let b := s.bel
      let pEst := if b.calSpan = 0 then 0 else b.calSum / b.calSpan
      let k := if pEst = 0 then b.kappa else kappaNext b.kappa pMeas pEst
      let out := kappaOut k
      let s := s.onBel fun b =>
        { b with kappa := k, drift := out, calFails := 0, calHeld := false, calSum := 0, calSpan := 0 }
      s.when (out && !b.drift) fun s => (s.fault 0x108 0).raise 0 0x16 0x0160 1 0 k 0
    | _, _ =>
      let n := s.bel.calFails + 1
      let s := (s.onBel fun b => { b with calFails := n, calHeld := b.calHeld || 3 ≤ n }).bump R.BLW_CAL_FAIL_COUNT 0 1
      s.when (n = 3) fun s => s.condition 0x109 0)

/-! ### The tick account (R453, R458, R474) -/

/-- The record of the account of tick `k - 1` (R474). -/
def Bel.account (b : Bel) (k : Nat) (defers : Nat) : List Nat :=
  [1 + 0x0040 * 2 ^ 16, k % 2 ^ 48 + b.gMin * 2 ^ 48 + intBits 8 (b.tMax / 4) * 2 ^ 56,
   b.sumEst / 1000000 % 2 ^ 32 + b.sumRt / 1000000 % 2 ^ 32 * 2 ^ 32,
   b.ballast / 1000000 % 2 ^ 32 + defers % 2 ^ 16 * 2 ^ 32 + b.slackN % 2 ^ 16 * 2 ^ 48]

/-- Close the account at a boundary and open the next one: U = 0, the interval restarts (R453, R57 step 4). -/
def State.closeAccount (s : State) : State :=
  let s := s.bump R.BLW_BALLAST_UJ_COUNT 0 (s.bel.ballast / 1000000)
  s.onBel fun b =>
    { b with u := 0, sumRt := 0, sumEst := 0, slackN := 0, defers := 0, ballast := 0, capTold := false, tMax := b.temp, gMin := b.g }

/-- RT_OVER at CLOSE of a window (R458). -/
def State.rtOver (w : Nat) (s : State) : State :=
  match s.pit.current.windows[w]? with
  | none => s
  | some x =>
    let used := Tab.get natAt s.bel.winPj w
    let rsv := (x.close - x.opn) * s.windowPower s.pit.current w
    let s := s.onBel fun b => { b with winPj := Tab.set natAt b.winPj w 0 }
    if rsv < used then (s.bump R.BLW_RT_OVER_COUNT 0 1).raise 0 0x16 0x0162 0 w (used / 1000) (rsv / 1000) else s

end Sys2Proof.Machine
end

