-- ==== Sys2Proof/Machine/Pafogen.lean ====
section
/-! DEFINITION. The bytes of a Pafogen image: header, section directory, sections and their records, and the integrity checks over
them (R5, R596 to R599, R608). An image is the list of its 64-bit words, little-endian; a byte beyond the list reads 0. -/

namespace Sys2Proof.Machine

/-- `n` bits at a byte offset of a list of words; the field lies in one word. -/
def field (w : List Word) (off n : Nat) : Nat := bits (wordAt w (off / 8)) (8 * (off % 8)) n

/-- CRC-32C over the first `n` bytes of a list of words. -/
def crcBytes (n : Nat) (w : List Word) : Nat :=
  let c := (w.take (n / 8)).foldl (fun c x => crcNat 8 x.toNat c) (BitVec.allOnes 32)
  (~~~ (crcNat (n % 8) (wordAt w (n / 8)) c)).toNat

/-! ### The section directory (R596, R597) -/

/-- A directory entry. -/
structure Section where
  type     : Nat
  fmt      : Nat
  optional : Bool
  offset   : Nat
  length   : Nat
  crc      : Nat
  deriving DecidableEq, Repr

/-- Entry j of the directory. -/
def sectionAt (w : List Word) (j : Nat) : Section :=
  let o := 0x100 + 16 * j
  { type := field w o 8, fmt := field w (o + 1) 8, optional := field w (o + 2) 16 % 2 = 1, offset := field w (o + 4) 32
    length := field w (o + 8) 32, crc := field w (o + 12) 32 }

def nsect (w : List Word) : Nat := field w 0x11 8

def imageFmt (w : List Word) : Nat := field w 6 8

/-- The directory. -/
def sections (w : List Word) : List Section := (List.range (nsect w)).map (sectionAt w)

/-- A section that the device knows: TYPE is listed for the image's format (the types of format 2 are reserved in format 1, DEDUCED from
the FMT column of R597, log 8), SFMT is 1. -/
def Section.known (imgFmt : Nat) (x : Section) : Bool :=
  ((1 ≤ x.type && x.type ≤ 5) || (imgFmt = 2 && (x.type = 6 || x.type = 0x0F))) && x.fmt = 1

/-- Bytes of a section. -/
def sectionWords (w : List Word) (x : Section) : List Word := (w.drop (x.offset / 8)).take ((x.length + 7) / 8)

/-- The length that the content of a section has: whole records, or the one object (R597). -/
def Section.sized (w : List Word) (x : Section) : Bool :=
  match x.type with
  | 1 => x.length % 16 = 0
  | 2 => x.length = 256
  | 3 => x.length % 64 = 0
  | 4 => x.length % 48 = 0
  | 5 => x.length = 1600 + 32 * bits (wordAt (sectionWords w x) 0) 16 16
  | 6 => x.length = 32
  | _ => x.length = 256

/-- Two sections share a byte. -/
def Section.overlaps (a b : Section) : Bool := a.offset < b.offset + b.length && b.offset < a.offset + a.length

/-- Byte offset of the first failing field of directory entry j: an unknown section that is not OPTIONAL (R598), a place outside the
image or over an earlier section, a second section of a type that occurs once, a SIGNATURE that is not last, a length that its
content does not have, a CRC that differs. A skipped section's content is not looked at. -/
def sectionBad (w : List Word) (j : Nat) : Option Nat :=
  let all := sections w
  let x := sectionAt w j
  let f := imageFmt w
  let o := 0x100 + 16 * j
  let known := x.known f
  let earlier := all.take j
  firstBad
    [(!known && !x.optional, if x.fmt = 1 then o else o + 1),
     (known && x.type ≠ 4 && earlier.any fun y => y.known f && y.type = x.type, o),
     (x.offset % 64 ≠ 0 || x.offset < 4096 || imageLength w < x.offset || earlier.any x.overlaps, o + 4),
     (known && x.type = 0x0F && all.any fun y => x.offset < y.offset, o + 4),
     (imageLength w < x.offset + x.length || (known && !x.sized w), o + 8),
     (crcBytes x.length (w.drop (x.offset / 8)) ≠ x.crc, o + 12)]

/-! ### The integrity checks over the bytes (R599, R601) -/

/-- CRC of the image: over LENGTH bytes with the CRC field taken as 0. -/
def imageCrc (w : List Word) : Nat := crcBytes (imageLength w) (w.set 3 (BitVec.ofNat 64 (wordAt w 3 / 2 ^ 32 * 2 ^ 32)))

/-- Byte offset of the first failing field, header before directory; none: format, length, directory and CRCs hold. The order among
several failures is a choice (log 8). -/
def imageBad (w : List Word) : Option Nat :=
  firstBad
    [(field w 0 32 ≠ 0x4E454750, 0), (field w 4 16 ≠ 0x6480, 4), (!(imageFmt w = 1 || imageFmt w = 2), 6),
     (imageSpan w ≠ imageLength w || imageLength w % 64 ≠ 0 || 8 * w.length < imageLength w, 8), (nsect w = 0 || 64 < nsect w, 0x11),
     (0xB1 < field w 0x12 8, 0x12), (imageCrc w ≠ field w 0x18 32, 0x18)]
  <|> (List.range (nsect w)).findSome? (sectionBad w)

/-- The SIGNATURE section that the image carries, if any. -/
def signatureAt (w : List Word) : Option Section := (sections w).find? fun x => x.known (imageFmt w) && x.type = 0x0F

/-- A SIGNATURE section verifies with the fused key hash: its public key has that hash, and its r and s verify the bytes before it (R599).
SHA-384 and FIPS 186-5 are named by the spec and not given there: a free function of the bytes and the hash (log 8). -/
def signatureOk (w hash : List Word) : Bool :=
  match signatureAt w with
  | some x => Config.signatureVerifies (w.take (x.offset / 8)) (sectionWords w x) hash
  | none => false

/-! ### Sections and records (R597, R608) -/

/-- Pieces of `n` words. -/
def pieces (n : Nat) (w : List Word) : List (List Word) := (List.range (w.length / n)).map fun i => (w.drop (n * i)).take n

/-- The words of every known section of a type, in the order of the directory. -/
def contentOf (w : List Word) (type : Nat) : List Word :=
  ((sections w).filter fun x => x.known (imageFmt w) && x.type = type).flatMap (sectionWords w)

/-- The words of the one section of a type. -/
def contentAt (w : List Word) (type : Nat) : Option (List Word) :=
  if contentOf w type = [] then none else some (contentOf w type)

/-- A record of SETUP. -/
def setupRec (r : List Word) : BitVec 24 × Word := (BitVec.ofNat 24 (wordAt r 0), r.getD 1 0)

/-- A record of TABLES. -/
def tableRec (r : List Word) : TabRec :=
  let a := wordAt r 0
  { table := BitVec.ofNat 8 a, part := flag a 8, domain := BitVec.ofNat 12 (bits a 16 12), index := BitVec.ofNat 32 (bits a 32 32)
    aux := BitVec.ofNat 32 (wordAt r 1), entry := entryOf (wordAt r 2) (wordAt r 3) (wordAt r 4) (wordAt r 5) }

/-- A record of DOMAINS: a DOMAIN_CREATE descriptor, with the domain that it names (R485). -/
def domainRec (r : List Word) : BitVec 16 × List Word := (BitVec.ofNat 16 (wordAt r 1), r)

/-- Two 32-bit entries of a word, the lower first. -/
def halves (x : Word) : List Word32 := [x.extractLsb' 0 32, x.extractLsb' 32 32]

/-- The HEALTH section (R608). -/
def healthRec (r : List Word) : Health :=
  let a := wordAt r 0
  { windowS := bits a 0 16, self := flag a 16, tickLock := flag a 17, noFc3 := flag a 18, mgr := flag a 19, maxMiss := bits a 32 16
    maxCapx := bits a 48 16, ports := r.getD 1 0 }

/-- What the loader takes from the bytes of an image. -/
def readImage (w : List Word) : Image :=
  { version := BitVec.ofNat 32 (field w 12 32), fmt := imageFmt w, svn := field w 0x10 8, svnCommit := field w 7 8 % 2 = 1
    length := imageSpan w, setup := (pieces 2 (contentOf w 1)).map setupRec
    coef := (contentAt w 2).map fun l => l.flatMap halves, domains := (pieces 8 (contentOf w 3)).map domainRec
    tables := (pieces 6 (contentOf w 4)).map tableRec, plan := contentAt w 5, health := (contentAt w 6).map healthRec }

end Sys2Proof.Machine
end

