-- ==== Sys2Proof/Machine/Flags.lean ====
section
/-! DEFINITION. What a read of the setup space returns (R7, R9, R665, R669): status fields are computed from the parts of the
state that hold them; the other fields stand in `State.regs`. -/

namespace Sys2Proof.Machine

/-- Place `v` in a field of a word. -/
def FRef.put (f : FRef) (v : Nat) (w : Word) : Word := setBits w f.lo f.width v

def boolNat (b : Bool) : Nat := if b then 1 else 0

/-! ### Code values of status fields -/

def PState.code : PState → Nat
  | .off => 0 | .powerUp => 1 | .training => 2 | .up => 3 | .active => 4 | .quiesce => 5 | .flush => 6 | .flushWait => 7
  | .released => 8

def TState.code : TState → Nat
  | .free => 0 | .acquire => 1 | .locked => 2 | .holdover => 3 | .lost => 4

def EState.code : EState → Nat
  | .idle => 0 | .running => 1 | .loading => 2 | .failed => 3 | .retired => 4

def RecSt.code : RecSt → Nat
  | .idle => 0 | .quiesce => 1 | .sections => 2 | .recording => 3 | .gap => 4 | .replay => 5 | .replayEnded => 6

def Phase.code : Phase → Nat
  | .idle => 0 | .staging => 1 | .verify => 2 | .drain => 3 | .pause => 4 | .trial => 5 | .fallback => 6 | .refresh => 7

/-! ### Parts counted for status fields -/

/-- The states of R291 that are stable. -/
def LSt.stable : LSt → Bool
  | .s | .e | .m | .oOlc | .oq => true
  | _ => false

/-- An entry is pinned (R293). -/
def DirEnt.pinned (d : DirEnt) : Bool := !d.st.stable || d.watch || d.rt

/-- Listed entries of a table that belong to group `n` of `size` keys and satisfy `f`. -/
def countIn {α : Type} (t : Tab (Option α)) (size n : Nat) (f : α → Bool) : Nat :=
  (t.filter fun e => match e.2 with
    | some x => e.1 / size = n && f x
    | none => false).length

/-- Home slice of a line address. -/
def homeOfLa (la : Nat) : Nat := homeOf (64 * la)

def State.openTrackers (s : State) (h : Nat) : Nat :=
  (s.home.trk.filter fun e => match e.2 with
    | some t => homeOfLa t.la = h
    | none => false).length

def State.sliceN (s : State) (h : Nat) : Slice := s.home.slices.toList.getD h Slice.init

/-- A lost-port walk runs in slice `h` (R267). -/
def State.walking (s : State) (h : Nat) : Bool := s.ports.toList.any fun p => p.walks.getLsbD h

/-- Domains that are not FREE. -/
def State.liveDomains (s : State) : List Nat :=
  (s.dom.doms.filter fun e => e.2.st ≠ .free).map Prod.fst

/-- Sum of a reserved resource over the live domains (R389). -/
def State.reserved (s : State) (f : Domain → Nat) : Nat := ((s.liveDomains.map fun d => f (s.domain d)).foldl (· + ·) 0)

/-- Epoch age: how far epoch `e` lies behind the current one. -/
def epochAge (cur e : Nat) : Nat := (cur + 65536 - e) % 65536

/-- Epochs that have live messages. -/
def State.liveEpochs (s : State) : List Nat := (s.fab.ledger.filter fun e => e.2 ≠ 0).map Prod.fst

/-- The oldest of them, the current epoch when there is none (R205). -/
def State.oldestEpoch (s : State) : Nat :=
  s.liveEpochs.foldl (fun o e => if epochAge s.fab.epoch o < epochAge s.fab.epoch e then e else o) s.fab.epoch

/-- Security version of an image: 0 in format 1 (R614). -/
def svnOf (i : Image) : Nat := if i.fmt = 1 then 0 else i.svn

/-- Sequence number `b` is later than `a`, modulo 2^32 (R595). -/
def laterSeq (a b : Nat) : Bool := 1 ≤ (b + 2 ^ 32 - a % 2 ^ 32) % 2 ^ 32 && (b + 2 ^ 32 - a % 2 ^ 32) % 2 ^ 32 < 2 ^ 31

/-- The selector copy in force, 0 or 1: the valid one of later sequence number (R595). -/
def Img.selCopy (g : Img) : Option Nat :=
  match g.sels.getD 0 none, g.sels.getD 1 none with
  | some a, some b => some (if laterSeq a.seq b.seq then 1 else 0)
  | some _, none => some 0
  | none, some _ => some 1
  | none, none => none

/-- The record in force. -/
def Img.sel (g : Img) : Option Selector := g.selCopy.bind fun i => g.sels.getD i none

/-- The words of a slot: 0 slot A, 1 slot B. -/
def Img.bytesOf (g : Img) (i : Nat) : Option (List Word) := if i = 0 then g.slotA else if i = 1 then g.slotB else none

/-- The image of a slot. -/
def Img.slotOf (g : Img) (i : Nat) : Option Image := (g.bytesOf i).map readImage

/-- The other slot of the running one (R598): slot B beside A, slot A otherwise. -/
def Img.otherSlot (g : Img) : Nat := if g.src = 1 then 1 else 0

/-- Valid fault entries. -/
def State.validFlt (s : State) : List FltEntry := s.flt.entries.filterMap Prod.snd

/-! ### Status words by register -/

def State.tikWord (s : State) (base : Nat) (w : Word) : Word :=
  if base = R.TIK_STATUS_STATE.base then
    R.TIK_STATUS_PHASE_ERR.put (BitVec.ofInt 16 (max (-32768) (min 32767 s.pit.phaseErr))).toNat
      (R.TIK_STATUS_STATE.put s.pit.tstate.code w)
  else if base = R.TIK_FTIME_FTIME.base then R.TIK_FTIME_FTIME.put s.pit.ftime w
  else if base = R.TIK_COUNT_COUNT.base then R.TIK_COUNT_COUNT.put s.pit.tick w
  else if base = R.TIK_PERIOD_PERIOD.base then R.TIK_PERIOD_PERIOD.put s.pit.period w
  else w

def State.imgWord (s : State) (base : Nat) (w : Word) : Word :=
  let g := s.img
  if base = R.IMG_STATUS_SRC.base then
    let valid := match g.sel with
      | some x => boolNat x.validA + 2 * boolNat x.validB
      | none => 0
    let left := match g.act with
      | some a => if g.phase = .trial then (a.trialAt + a.windowS * 1000000000 - s.now) / 1000000000 else 0
      | none => 0
    R.IMG_STATUS_CODE.put g.code (R.IMG_STATUS_LEFT_S.put left (R.IMG_STATUS_REFRESH_DUE.put (boolNat g.refreshDue)
      (R.IMG_STATUS_RET_ERR.put (boolNat g.retErr) (R.IMG_STATUS_VALID.put valid (R.IMG_STATUS_PHASE.put g.phase.code
        (R.IMG_STATUS_ALT.put (boolNat g.alt) (R.IMG_STATUS_SRC.put g.src w)))))))
  else if base = R.IMG_VERSION_RUN.base then
    R.IMG_VERSION_OTHER.put ((g.slotOf g.otherSlot).map (fun i => i.version.toNat)|>.getD 0)
      (R.IMG_VERSION_RUN.put (g.running.map (fun i => i.version.toNat)|>.getD 0) w)
  else if base = R.IMG_SVN_FUSED.base then
    R.IMG_SVN_KEYSET.put (boolNat g.keyset) (R.IMG_SVN_RUN.put (g.running.map svnOf|>.getD 0)
      (R.IMG_SVN_FUSED.put g.fused w))
  else if base = R.IMG_HOURS_HOURS.base then R.IMG_HOURS_HOURS.put (g.sel.map (fun x => x.hours)|>.getD 0) w
  else if base = R.IMG_PAUSE_PAUSE_US.base then
    R.IMG_PAUSE_DRAIN_US.put (min 65535 g.drainUs) (R.IMG_PAUSE_PAUSE_US.put (min 65535 g.pauseUs) w)
  else if base = R.IMG_FUSE_CMD_GO.base then R.IMG_FUSE_CMD_RESULT.put g.fuseRes w
  else w

def State.prtWord (s : State) (base n : Nat) (w : Word) : Word :=
  let p := s.portN n
  if base = R.PRT_STATUS_STATE.base then
    R.PRT_STATUS_LTSSM.put p.ltssm (R.PRT_STATUS_GEN.put p.gen.toNat (R.PRT_STATUS_MODE.put p.mode
      (R.PRT_STATUS_RATE.put p.rate (R.PRT_STATUS_WIDTH.put p.width (R.PRT_STATUS_STATE.put p.state.code w)))))
  else if base = R.PRT_IDE_SECURE.base then R.PRT_IDE_SECURE.put p.secure.toNat w
  else if base = R.PRT_MERAD_NEG_VER.base then R.PRT_MERAD_NEG_VER.put p.negVer w
  else w

def State.xbrWord (s : State) (base n : Nat) (w : Word) : Word :=
  if base = R.XBR_EPOCH_CUR.base then
    R.XBR_EPOCH_LIVE.put s.liveEpochs.length (R.XBR_EPOCH_OLDEST.put s.oldestEpoch (R.XBR_EPOCH_CUR.put s.fab.epoch w))
  else if base = R.XBR_COL_FREE_FREE.base then
    let c := s.fab.columns.toList.getD n Column.init
    R.XBR_COL_FREE_RSV.put c.rsv (R.XBR_COL_FREE_NP.put c.np (R.XBR_COL_FREE_FREE.put c.free w))
  else w

def State.homWord (s : State) (base n : Nat) (w : Word) : Word :=
  let h := s.sliceN n
  if base = R.HOM_STATUS_WALK.base then
    R.HOM_STATUS_RETRY.put h.retry.length (R.HOM_STATUS_GUARD.put (h.retry.filter fun r => r.guard.isSome).length
      (R.HOM_STATUS_OPEN.put (s.openTrackers n) (R.HOM_STATUS_WALK.put (boolNat (s.walking n)) w)))
  else if base = R.HOM_HEALTH_FAILED.base then R.HOM_HEALTH_CAUSE.put h.cause (R.HOM_HEALTH_FAILED.put (boolNat h.failed) w)
  else if base = R.HOM_OCC_LIVE.base then
    R.HOM_OCC_RES.put (countIn s.home.olc 32768 n OlcEnt.rt) (R.HOM_OCC_DIRTY.put (countIn s.home.olc 32768 n OlcEnt.dirty)
      (R.HOM_OCC_PINNED.put (countIn s.home.dir 32768 n DirEnt.pinned) (R.HOM_OCC_LIVE.put (countIn s.home.dir 32768 n fun _ => true) w)))
  else w

def State.engWord (s : State) (base n : Nat) (w : Word) : Word :=
  let e := s.eng.engs.toList.getD n Engine.init
  if base = R.ENG_STATUS_STATE.base then
    R.ENG_STATUS_SLOT.put ((e.item.map fun i => i.disp.slot).getD 0) (R.ENG_STATUS_DOMAIN.put ((e.item.map fun i => i.disp.domain).getD 0) (R.ENG_STATUS_CAUSE.put e.cause
      (R.ENG_STATUS_SPARE.put (boolNat e.spare) (R.ENG_STATUS_STATE.put e.st.code w))))
  else if base = R.ENG_CYCLES_USED.base then R.ENG_CYCLES_USED.put e.used w
  else w

def State.domWord (s : State) (base : Nat) (w : Word) : Word :=
  if base = R.DOM_FREE0_RULES.base then
    R.DOM_FREE0_BUCKETS.put (16384 - s.reserved Domain.buckets) (R.DOM_FREE0_RULES.put (65536 - s.reserved Domain.rules) w)
  else if base = R.DOM_FREE1_COUNTERS.base then
    R.DOM_FREE1_EVQ.put (8192 - s.reserved Domain.evqs) (R.DOM_FREE1_COUNTERS.put (8192 - s.reserved Domain.counters) w)
  else if base = R.DOM_FREE2_DOMAINS.base then R.DOM_FREE2_DOMAINS.put (4096 - s.liveDomains.length) w
  else if base = R.DOM_RESET_STATUS_BUSY.base then
    match s.dom.reset with
    | some r => R.DOM_RESET_STATUS_DOMAIN.put r.domain (R.DOM_RESET_STATUS_STEP.put r.step (R.DOM_RESET_STATUS_BUSY.put 1 w))
    | none => R.DOM_RESET_STATUS_DOMAIN.put 0 (R.DOM_RESET_STATUS_STEP.put 0 (R.DOM_RESET_STATUS_BUSY.put 0 w))
  else w

def State.shpWord (s : State) (base : Nat) (w : Word) : Word :=
  if base = R.SHP_STATUS_ACTIVE.base then
    let n (f : Bucket → Bool) : Nat := (s.tabs.buckets.filter fun e => match e.2 with
      | some b => f b
      | none => false).length
    R.SHP_STATUS_DRAIN.put (n fun b => b.cleared.isSome) (R.SHP_STATUS_ACTIVE.put (n fun b => b.cleared.isNone) w)
  else w

def State.blwWord (s : State) (base n : Nat) (w : Word) : Word :=
  let b := s.bel
  if base = R.BLW_STATUS_G.base then
    R.BLW_STATUS_KAPPA.put b.kappa (R.BLW_STATUS_TEMP.put (BitVec.ofInt 11 b.temp).toNat
      (R.BLW_STATUS_CAL_HELD.put (boolNat b.calHeld) (R.BLW_STATUS_HOT.put (boolNat b.hot)
        (R.BLW_STATUS_SLACK.put (boolNat b.slack) (R.BLW_STATUS_G.put b.g w)))))
  else if base = R.BLW_POWER_P_EST.base then
    R.BLW_POWER_I_CORE.put (b.prevI * 16 / 1000) (R.BLW_POWER_P_BAL.put (b.pBal * 16 / 1000)
      (R.BLW_POWER_P_EST.put ((b.prevCore + b.prevLane) * 16 / 1000) w))
  else if base = R.BLW_PORT_PROOF_E_NJ.base then
    let p := s.portN n
    let e := match p.samples with
      | x :: _ => min (2 ^ 32 - 1) (x.2.1 / 2000000000)
      | [] => 0
    R.BLW_PORT_PROOF_FAILED.put (boolNat p.proofFail) (R.BLW_PORT_PROOF_PASSED.put (boolNat p.proofPass)
      (R.BLW_PORT_PROOF_E_NJ.put e w))
  else w

def State.rngWord (s : State) (base : Nat) (w : Word) : Word :=
  if base = R.RNG_STATUS_ACTIVE.base then
    let n (f : Ring → Bool) : Nat := (s.host.rings.filter fun e => match e.2 with
      | some r => f r
      | none => false).length
    R.RNG_STATUS_ERROR.put (n fun r => r.state = .error) (R.RNG_STATUS_ACTIVE.put (n fun _ => true) w)
  else w

def State.fltWord (s : State) (base n : Nat) (w : Word) : Word :=
  if base = R.FLT_STATUS_SAFE.base then
    let v := s.validFlt
    R.FLT_STATUS_HIGH.put ((v.map fun e => causeClass e.cause).foldl max 0) (R.FLT_STATUS_OPEN.put v.length
      (R.FLT_STATUS_INJ.put (boolNat (v.any FltEntry.inj)) (R.FLT_STATUS_OVF.put (boolNat s.flt.ovf)
        (R.FLT_STATUS_FAULTN.put (boolNat s.flt.faultN) (R.FLT_STATUS_SAFE.put (boolNat s.flt.safe) w)))))
  else if base = R.FLT_ENTRY0_CAUSE.base then
    match s.fltEntry n with
    | some e =>
      R.FLT_ENTRY0_VALID.put 1 (R.FLT_ENTRY0_COUNT.put e.count (R.FLT_ENTRY0_UNIT.put e.unit (R.FLT_ENTRY0_INJ.put (boolNat e.inj)
        (R.FLT_ENTRY0_CLASS.put (causeClass e.cause) (R.FLT_ENTRY0_CAUSE.put e.cause w)))))
    | none => w
  else if base = R.FLT_ENTRY1_STAMP.base then
    match s.fltEntry n with
    | some e => R.FLT_ENTRY1_STAMP.put e.stamp w
    | none => w
  else w

def State.recWord (s : State) (base : Nat) (w : Word) : Word :=
  if base = R.REC_STATUS_STATE.base then
    R.REC_STATUS_ID.put s.rec_.id (R.REC_STATUS_GAP.put (boolNat s.rec_.gap) (R.REC_STATUS_STATE.put s.rec_.st.code w))
  else if base = R.REC_BUF_USED.base then R.REC_BUF_HIGH.put s.rec_.high (R.REC_BUF_USED.put s.rec_.used w)
  else if base = R.REC_SINK_WRITTEN.base then R.REC_SINK_WRITTEN.put s.rec_.written w
  else w

/-- Registers of the remaining blocks. -/
def State.otherWord (s : State) (base : Nat) (w : Word) : Word :=
  if base = R.GLB_ID_GRADE.base then R.GLB_ID_GRADE.put Config.gradeFuse.toNat w
  else if base = R.GLB_DIEID_DIEID.base then R.GLB_DIEID_DIEID.put Config.dieId.toNat w
  else if base = R.GLB_MRING_STATUS_CONS.base then
    R.GLB_MRING_STATUS_CONS.put ((s.ring 0).map (fun r => r.cons)|>.getD 0) w
  else if base = R.EVQ_STATUS_ACTIVE.base then
    R.EVQ_STATUS_ACTIVE.put (s.host.evqs.filter fun e => e.2.isSome).length w
  else if base = R.PMC_STATUS_ENABLED.base then R.PMC_STATUS_ENABLED.put s.enabledCounters.length w
  else if base = R.DBG_STATUS_SESSION.base then
    R.DBG_STATUS_FENCED.put (s.rd R.DOM_CU_STATUS_FENCED 128) w
  else w

/-- Status fields of a register of a block. -/
def State.statusWord (s : State) (off base n : Nat) (w : Word) : Word :=
  match blockOf off with
  | 1 => s.imgWord base w
  | 2 => s.tikWord base w
  | 3 => s.prtWord base n w
  | 4 => s.xbrWord base n w
  | 5 => s.homWord base n w
  | 6 => s.engWord base n w
  | 7 => s.domWord base w
  | 8 => s.shpWord base w
  | 9 => s.blwWord base n w
  | 10 => s.rngWord base w
  | 13 => s.fltWord base n w
  | 14 => s.recWord base w
  | _ => s.otherWord base w

/-- A field that reads as 0: write-only, or absent in its instance (R7, R669). -/
def Field.readsZero (f : Field) (lowest : Bool) (n : Nat) : Bool := f.acc = .wo || !f.inInstance lowest n

/-- The value that an 8-byte read of an offset returns (R7, R666, R669). -/
def State.readReg (s : State) (off : Nat) : Word :=
  match findReg off with
  | none => 0
  | some (r, n) =>
    let w := s.statusWord off r.base n (s.reg off)
    r.fields.foldl (fun w f => if f.readsZero (s.isLowest n) n then setBits w f.lo f.width 0 else w) w

end Sys2Proof.Machine
end

