-- ==== Sys2Proof/Machine/Cmd.lean ====
section
/-! DEFINITION. What every manager or tenant command goes through before its own checks (R486, R13, R475), and table changes at
epochs (R203 to R207). -/

namespace Sys2Proof.Machine

/-- Domain of a ring. -/
def State.ringDomain (s : State) (n : Nat) : Nat := (s.ring n).map (fun r => r.domain)|>.getD 0

/-- Some named domain is RESETTING (check 5 of R486). -/
def State.anyResetting (s : State) (ds : List Nat) : Bool := ds.any fun d => (s.domain d).st = .resetting

/-- Checks 1 and 3 to 5 of R486 around a command whose opcode is known: `bad` is the byte offset of the first body field out of range,
`ds` the domains it names beside its header's, `any` marks a command of any ring, `free` one that check 5 leaves out. -/
def State.command (h : Hdr) (any free : Bool) (ds : List Nat) (bad : Option Nat) (f : State → State) (s : State) : State :=
  if !s.serving then s
  else if h.fmt ≠ 1 && h.fmt ≠ 2 then s.done h .unsupported
  else
    match (if h.fmt = 1 && h.nocpl then some 3 else if 4095 < h.domain.toNat then some 8 else bad) with
    | some o => s.bad h o
    | none =>
      if h.ring.val ≠ 0 && (!any || h.domain.toNat ≠ s.ringDomain h.ring.val) then s.denied h 0
      else if !free && s.anyResetting (h.domain.toNat :: ds) then s.done h .busy
      else f s

/-- A command of the manager ring. -/
def State.manager (h : Hdr) (ds : List Nat) (bad : Option Nat) (f : State → State) (s : State) : State :=
  s.command h false false ds bad f

/-! ### Table changes -/

/-- The epoch a change opens would reuse a ledger slot that still counts live messages (R206). -/
def State.slotBusy (s : State) : Bool :=
  s.fab.used && Tab.get natAt s.fab.ledger ((s.fab.epoch + 1 + 65536 - 256) % 65536) ≠ 0

/-- Open a new epoch when a message carries the current one (R204). -/
def State.openEpoch (s : State) : State :=
  if s.fab.used then s.onFab fun f => { f with epoch := (f.epoch + 1) % 65536, used := false } else s

/-- Make a table change at an epoch of its own, or leave the command waiting for its ledger slot (R206). `c` is the command,
to be run again when the slot is empty. -/
def State.tableChange (c : Instr) (f : State → State) (s : State) : State :=
  if s.slotBusy then s.onFab fun g => { g with wait := g.wait ++ [c] } else f s.openEpoch

end Sys2Proof.Machine
end

