-- ==== Sys2Proof/Machine/Access.lean ====
section
/-! DEFINITION. What a check unit does around its decisions: counts, REFUSED records and FC2 events (R404 to R407, R415). -/

namespace Sys2Proof.Machine

/-- The check unit of a master; home slices have none (R395, R415). -/
def State.cuOf (s : State) : Src → Nat
  | .port p => s.lowest p.val
  | .svc p => s.lowest p.val
  | .engine e => 64 + e.val
  | .mar => 128
  | .recorder => 129
  | .home _ => 130

/-- Refused parts among the decisions, with addresses. -/
def refusedParts (ds : List (Nat × Decision)) : List (Nat × Decision) := ds.filter fun x => x.2 ≠ .allowed

/-- The decisions of a check unit on the parts of an access, each at its address (R400). -/
def State.decide (s : State) (d space port : Nat) (need : Need) (addrs : List Nat) : List (Nat × Decision) :=
  addrs.map fun a => (a, decidePart s d space port a need)

/-- Count the decided parts: energy (R444), selections 0x40 and 0x41 (R524), DOM_CU_REFUSE and DOM_CU_LOCKED. `rt` is the window
of real-time work, `src` and `dst` complete the sample (R532). -/
def State.countParts (u d : Nat) (rt : Option Nat) (word : Nat) (ds : List (Nat × Decision)) (s : State) : State :=
  let bad := refusedParts ds
  let locked := (bad.filter fun x => x.2.isLock).length
  let at0 (l : List (Nat × Decision)) : Nat := (l.head?.map fun x => x.1 / 64 * 64)|>.getD 0
  let s := s.spend 19 ds.length rt
  let s := s.count 0x40 u ds.length ⟨some d, 0, at0 ds, word⟩
  let s := if bad = [] then s else s.count 0x41 u bad.length ⟨some d, 0, at0 bad, word⟩
  (s.bump R.DOM_CU_REFUSE_COUNT u (bad.length - locked)).bump R.DOM_CU_LOCKED_COUNT u locked

/-- Add the refused parts of some decisions to an access's account. -/
def RefAcc.join (a : Option RefAcc) (acc kind : Nat) (ds : List (Nat × Decision)) : Option RefAcc :=
  match refusedParts ds with
  | [] => a
  | x :: t =>
    match a with
    | some a => some { a with parts := a.parts + t.length + 1 }
    | none => some ⟨acc, kind, t.length + 1, x.1, x.2.isLock, x.2.lockTag⟩

/-- Report when something was refused. -/
def State.reportAcc (u d : Nat) (a : Option RefAcc) (s : State) : State :=
  match a with
  | some a => s.reportRefused u d a
  | none => s

/-- Status of an access that the device completes itself (R405): parts decided, with addresses. -/
def accessStatus (ds : List (Nat × Decision)) : Status :=
  match refusedParts ds with
  | [] => .ok
  | x :: t => if t.length + 1 < ds.length then .partial_ else if x.2.isLock then .locked else .denied

/-- First refused address of an access. -/
def firstRefused (ds : List (Nat × Decision)) : Nat := ((refusedParts ds).head?.map Prod.fst)|>.getD 0

/-- 64-byte parts of an access (R400). -/
def partsOf (addr len : Nat) : List Nat :=
  (List.range ((addr + max 1 len - 1) / 64 - addr / 64 + 1)).map fun i => if i = 0 then addr else (addr / 64 + i) * 64

/-- The device reads `len` bytes of host memory again for domain `d`, checked by unit `u` (R325, R477). -/
def State.readHost (u d : Nat) (o : HRef) (len : Nat) (s : State) : State :=
  let ds := s.decide d o.space.toNat o.port.val needR (partsOf o.addr.toNat len)
  let s := s.countParts u d none (72 + homeOf o.addr.toNat + 7 * 2 ^ 14 + d * 2 ^ 20) ds
  if refusedParts ds ≠ [] then s.reportAcc u d (RefAcc.join none 0 needR.kind ds)
  else s.emit (.hostRead o.space.toNat o.port.val o.addr.toNat len)

end Sys2Proof.Machine
end

