-- ==== Sys2Proof/Machine/EngineOps.lean ====
section
/-! DEFINITION. Shared operations on tick engines: registers, requests, the end of a work item, failure and takeover (spec 08). -/

namespace Sys2Proof.Machine

/-! ### Registers (R359, R360) -/

/-- S[d]; S0 reads as 0. -/
def Engine.getS (e : Engine) (d : Fin 32) : Word := if d.val = 0 then 0 else e.sregs[d.val]

/-- Write S[d]; a write to S0 is discarded. -/
def Engine.setS (e : Engine) (d : Fin 32) (v : Word) : Engine :=
  if d.val = 0 then e else { e with sregs := e.sregs.set d.val v }

/-- L[l] with its POISON bit. -/
def Engine.getL (e : Engine) (l : Fin 8) : Line × Bool := e.lregs[l.val]

def Engine.setL (e : Engine) (l : Fin 8) (v : Line × Bool) : Engine := { e with lregs := e.lregs.set l.val v }

/-- A field that names a line register (R361: its bits 4:3 are 0). -/
def lineReg (d : Fin 32) : Fin 8 := Fin.ofNat 8 d.val

def State.item (s : State) (e : EngineId) : Option Item := (s.engine e).item

def State.onItem (e : EngineId) (f : Item → Item) (s : State) : State :=
  s.onEngine e fun g => { g with item := g.item.map f }

/-- Key of a scratch byte of a domain on an engine. -/
def scratchKey (e : EngineId) (domain addr : Nat) : Nat := (e.val * 4096 + domain) * 2 ^ 18 + addr

/-- Scratch bytes a domain sees on an engine (R327, R372). -/
def State.scratchSize (s : State) (domain : Nat) : Nat := (s.domain domain).scr * 4096

/-- Zero a domain's scratch on an engine. -/
def State.zeroScratch (e : EngineId) (domain : Nat) (s : State) : State :=
  s.onEng fun g => { g with scratch := g.scratch.filter fun c => c.1 / 2 ^ 18 ≠ e.val * 4096 + domain }

/-! ### Loops and the program counter (R368, R369) -/

/-- Where control goes after the last executed index `pc`, whose successor is `next`: the end of a body returns to its first
instruction while iterations remain, and the index register takes the iteration's number. -/
def Engine.loopBack (e : Engine) (pc next : Nat) : List LoopSt → List LoopSt × Nat × Engine
  | [] => ([], next, e)
  | l :: t =>
    if pc = l.last then
      if l.j + 1 < l.n then
        ({ l with j := l.j + 1 } :: t, l.first, e.setS l.index (BitVec.ofNat 64 (l.j + 1)))
      else e.loopBack pc next t
    else (l :: t, next, e)

/-- Go to `next`, the index `from_` being the last one executed or passed over. -/
def Engine.advanceFrom (e : Engine) (from_ next : Nat) : Engine :=
  match e.item with
  | none => e
  | some i =>
    let r := e.loopBack from_ next i.loops
    { r.2.2 with item := some { i with pc := r.2.1, loops := r.1, stalled := false, multi := false } }

/-- Move past the instruction at pc. -/
def Engine.advance (e : Engine) (next : Nat) : Engine :=
  match e.item with
  | none => e
  | some i => e.advanceFrom i.pc next

/-! ### The end of a work item (R338, R341, R355, R371) -/

/-- RESULT of a work item's record. -/
def workResult (slot used : Nat) : Nat := used % 2 ^ 24 + slot % 65536 * 2 ^ 48

/-- Write the record of a run that ends with `c`. -/
def State.workRecord (i : Item) (c : Cpl) (s : State) : State :=
  if i.muted then s
  else match i.hdr with
  | some h =>
    if i.redisp then
      s.unreserved (s.cqOf h.ring.val) ({ c with redispatch := true }.record h.ring.val h.tag.toNat false)
    else s.complete h c
  | none =>
    if i.redisp || i.disp.ceach || c.status ≠ .ok then
      s.unreserved i.disp.cring ({ c with redispatch := i.redisp }.record 0 i.tick true)
    else s

/-- What a sample of an engine's counter describes (R532). -/
def State.engineCounted (s : State) (e : EngineId) (i : Item) : Counted :=
  ⟨some i.disp.domain, 0, i.disp.slot % 2 ^ 16 + i.pc % 2 ^ 13 * 2 ^ 16, (s.engine e).lastFa % 2 ^ 52⟩

/-- The engine's work item ends: refused parts not yet reported, record, counters, digest of the cluster's endpoint (R569); the
engine is free. Without an address of its own the record carries the first refused one (R405, R487). -/
def State.endItemAt (e : EngineId) (c : Cpl) (addr : Option Nat) (s : State) : State :=
  match s.item e with
  | none => s
  | some i =>
    let a := if c.status = .ok then 0 else (addr.orElse fun _ => i.refused).getD 0
    let c := { c with result := workResult i.disp.slot (s.engine e).used, addr := a }
    let s := s.forAll i.accs fun a t => t.reportRefused (64 + e.val) i.disp.domain a
    let s := s.count 0x32 e.val 1 (s.engineCounted e i)
    let s := s.onEngine e fun g => { g with item := none, st := if g.st = .running then .idle else g.st }
    let s := s.digest (64 + e.val / 8) 1 4 [e.val, c.status.code, i.instrs]
    s.workRecord i c

def State.endItem (e : EngineId) (c : Cpl) (s : State) : State := s.endItemAt e c none

/-- A stop, a fence, a failure or a reset ends the work item: its requests that the check unit has not passed do not go on (R344). -/
def State.stopItem (e : EngineId) (st : Status) (s : State) : State :=
  let held (m : CoreMsg) : Bool := m.src = .engine e && (s.item e).any fun i => i.reqs.any fun r => r.tag = m.tag && !r.checked
  (s.onFab fun f => { f with inbox := f.inbox.filter fun m => !held m }).endItem e { status := st }

/-- The work item is stopped with OVERRUN (R343). -/
def State.stopOverrun (e : EngineId) (s : State) : State := (s.stopItem e .overrun).bump R.ENG_OVERRUN_COUNT e.val 1

/-- A program fault (R383) of the instruction at `index`. -/
def State.progFault (e : EngineId) (st : Status) (index : Nat) (addr : Option Nat) (s : State) : State :=
  s.endItemAt e { status := st, index := index } addr

/-- A work item that ended by END (R371, R405). -/
def Item.endCpl (i : Item) (code : Nat) : Cpl :=
  { status := if i.refused.isSome then .partial_ else .ok, code := code }

/-! ### Requests (R321, R322, R363, R364) -/

/-- A request holds this scalar or line register pending. -/
def Item.pendS (i : Item) (d : Fin 32) : Bool := i.reqs.any fun r => match r.dest with
  | .scalar x _ => x = d
  | _ => false

def Item.pendL (i : Item) (l : Fin 8) : Bool :=
  (i.reqs.any fun r => match r.dest with
    | .line x => x = l
    | _ => false) || (match i.red with
    | some r => r.dest = l
    | none => false)

/-- The admission interval of window `w` has not opened in this tick. -/
def State.beforeAdmission (s : State) (w : Nat) : Bool :=
  match s.pit.current.windows[w]? with
  | some x => s.offset < x.opn + x.guard
  | none => false

/-- The admission interval of window `w` lasts (R66). -/
def State.admits (s : State) (w : Nat) : Bool :=
  s.pit.admitWin.getLsbD w && match s.pit.current.windows[w]? with
    | some x => s.offset < x.close - x.tail
    | none => false

/-- The work item's requests travel in SC0 now (R322). -/
def State.itemSc0 (s : State) (i : Item) : Bool := i.disp.sc0 && !i.overran && s.admits i.disp.win

/-- The work item's requests are held until its admission interval opens (R322). -/
def State.itemHeld (s : State) (i : Item) : Bool := i.disp.sc0 && !i.overran && s.beforeAdmission i.disp.win

/-- K of a window of the current plan. -/
def State.windowK (s : State) (w : Nat) : Nat := match s.pit.current.windows[w]? with
  | some x => x.k
  | none => 0

/-- The engine may issue one more request to a line (R321, R322, R364, R572). -/
def State.mayIssue (s : State) (i : Item) (line : Nat) : Bool :=
  let sc0 := s.itemSc0 i
  i.reqs.length < s.rd R.ENG_CTRL_OUTST && !s.itemHeld i
    && (!sc0 || (i.reqs.filter EReq.sc0).length < s.windowK i.disp.win)
    && !(i.reqs.any fun r => r.line = line && r.sc0 ≠ sc0) && !s.rec_.hold && !s.imagePaused

/-- Endpoint a fabric-scope address goes to: its home slice, or the port of its target. -/
def State.faEndpoint (s : State) (fa : Nat) : Option Endpoint :=
  match s.window 64 fa with
  | none => none
  | some (_, w) =>
    if w.kind then some (Fin.ofNat 88 (72 + homeOf fa))
    else (s.targetPort w (fa - w.base * mib2)).map fun p => Fin.ofNat 88 p

/-- Protocol kind of a request. -/
def EOp.kind : EOp → MKind
  | .read => .memRdU
  | .write .. => .memWr
  | .atom .. => .ioAtomic

/-- Hand one request to the check unit; MESSAGE_INGRESS is its entry to the core. -/
def State.issueReq (e : EngineId) (t : ETodo) (s : State) : State :=
  match s.item e with
  | none => s
  | some i =>
    let sc0 := s.itemSc0 i
    let m : CoreMsg :=
      { src := .engine e, dst := (s.faEndpoint t.addr).getD 0, kind := t.op.kind, cls := if sc0 then 0 else 2, fa := t.addr
        tag := (s.engine e).nextTag
        epoch := none
        data := match t.op with
          | .write d _ _ => d
          | _ => 0
        poison := match t.op with
          | .write _ _ p => p
          | _ => false
        status := .ok
        code := 0
        be := match t.op with
          | .write _ b _ => b
          | _ => 0
        atom := match t.op with
          | .atom o w x y => some (o, w, x, y)
          | _ => none }
    let n := (s.engine e).nextTag
    let s := s.onItem e fun i => { i with reqs := i.reqs ++ [⟨n, t.addr / 64, sc0, t.dest, i.pc, t.acc, false⟩] }
    let s := s.onEngine e fun g => { g with nextTag := n + 1, lastFa := t.addr }
    (s.sendCore m).count 0x31 e.val 1 (s.engineCounted e i)

/-- Report the accesses of a work item all of whose parts are decided (R406). -/
def State.settleAccs (e : EngineId) (s : State) : State :=
  match s.item e with
  | none => s
  | some i =>
    let busy (a : RefAcc) : Bool := (i.multi && i.accNow = a.acc) || i.reqs.any fun r => r.acc = a.acc && !r.checked
    let s := s.onItem e fun i => { i with accs := i.accs.filter busy }
    s.forAll (i.accs.filter fun a => !busy a) fun a t => t.reportRefused (64 + e.val) i.disp.domain a

/-- The next request of the instruction in progress: a write when no earlier line of a copy is still to arrive, else the first
read (R377: ascending order; R378: table order). -/
def Item.nextTodo (i : Item) : Option ETodo :=
  let ready (t : ETodo) : Bool := !(i.reqs.any fun r => match r.dest with
    | .copyFabric d => d < t.addr
    | _ => false)
  let isWrite (t : ETodo) : Bool := t.dest = .write
  let writes := i.todo.filter isWrite
  let low := writes.foldl (fun (b : Option ETodo) t => match b with
    | some x => if t.addr < x.addr then some t else some x
    | none => some t) none
  let w := if i.todo.any (fun t => !isWrite t) || i.reqs.any (fun r => match r.dest with
      | .copyFabric _ => true
      | _ => false) then low else writes.head?
  match w with
  | some t => if ready t then some t else i.todo.find? fun t => !isWrite t
  | none => i.todo.find? fun t => !isWrite t

/-- Issue requests of the instruction in progress while the limits allow. -/
def State.pump (e : EngineId) : Nat → State → State
  | 0, s => s
  | n + 1, s =>
    match s.item e with
    | none => s
    | some i =>
      match i.nextTodo with
      | none => s
      | some t =>
        if s.mayIssue i (t.addr / 64) then
          ((s.onItem e fun i => { i with todo := i.todo.erase t }).issueReq e t).pump e n
        else s

/-- Requests of the instruction in progress that its cycles still wait for. -/
def Item.copying (i : Item) : Bool := i.reqs.any fun r => match r.dest with
  | .copyScratch _ => true
  | .copyFabric _ => true
  | .reduce _ => true
  | _ => false

/-! ### Programs (R324, R354) -/

/-- Bytes of the programs of a domain. -/
def State.progBytes (s : State) (d : Nat) : Nat :=
  (s.eng.progs.map fun p => match p.2 with
    | some x => if p.1 / 4096 = d then 8 * x.code.length else 0
    | none => 0).foldl (· + ·) 0

/-- Pages of a program. -/
def Prog.pages (p : Prog) : Nat := ceilDiv (8 * p.code.length) 1024

/-! ### Slots, placement and SHED records (R335, R336, R356, R357, R701) -/

def State.slot (s : State) (n : Nat) : Slot := Tab.get slotAt s.eng.slots n

def State.setSlot (n : Nat) (x : Slot) (s : State) : State :=
  s.onEng fun g => { g with slots := Tab.set slotAt g.slots n x }

/-- Entry `j` of the current plan. -/
def State.entry (s : State) (j : Nat) : Option Disp := s.pit.current.disp[j]?

/-- Engine an entry stands on; none once shed. -/
def State.placeOf (s : State) (j : Nat) : Option Nat := (s.eng.place[j]?).join

/-- Position in its queue of the descriptor that a dispatch in tick `k` runs (R335). -/
def Slot.nextWork (x : Slot) (k : Nat) : Option Nat :=
  (List.range x.queue.length).find? fun i => match x.queue[i]? with
    | some w => w.tick ≤ k
    | _ => false

/-- A record for an entry that does not run in this tick, beside its descriptor's own (R347, R497, R701). -/
def State.notRun (j : Nat) (st : Status) (s : State) : State :=
  match s.entry j with
  | none => s
  | some d =>
    if d.fed then
      match (s.slot d.slot).nextWork s.pit.tick with
      | none => s
      | some i => match (s.slot d.slot).queue[i]? with
        | some w => s.unreserved (s.cqOf w.hdr.ring.val)
            ({ status := st, result := workResult d.slot 0 : Cpl }.record w.hdr.ring.val w.hdr.tag.toNat false)
        | none => s
    else s.unreserved d.cring ({ status := st, result := workResult d.slot 0 : Cpl }.record 0 s.pit.tick true)

/-- An entry of the current plan is shed (R357), counted for the failed engine. -/
def State.shedEntry (j eng : Nat) (s : State) : State :=
  match s.entry j with
  | none => s
  | some d =>
    let s := s.onEng fun g => { g with place := g.place.set j none }
    let s :=
      if d.fed then
        let q := (s.slot d.slot).queue
        let s := s.setSlot d.slot { s.slot d.slot with queue := [] }
        s.forAll q fun w t => t.complete w.hdr { status := .shed, result := workResult d.slot 0 }
      else s.unreserved d.cring ({ status := .shed, result := workResult d.slot 0 : Cpl }.record 0 s.pit.tick true)
    let s := s.fc0 0x12 0x0122 eng d.slot d.prio
    s.bump R.ENG_SHED_COUNT eng 1

/-- The placement of R356 for one lost entry: the lowest-numbered healthy engine, not a spare, that fits it (R332). -/
def State.refit (s : State) (j : Nat) (d : Disp) : Option Nat :=
  s.healthyEngines.find? fun e =>
    !(s.eng.engs.toList.getD e Engine.init).spare && s.inMask d.domain e
      && s.pit.current.fits (onEngineOf s.pit.current.disp (s.eng.place.set j (some e)) e)

/-- Insert by PRIO, highest first, ties in plan order. -/
def insertPrio (x : Nat × Disp) : List (Nat × Disp) → List (Nat × Disp)
  | [] => [x]
  | y :: t => if y.2.prio < x.2.prio then x :: y :: t else y :: insertPrio x t

/-- From B_k+1, the entries of engines lost in the tick are reassigned or shed (R356). -/
def State.reassignLost (s : State) : State :=
  let lost := s.eng.lost.filterMap fun j => (s.entry j).map fun d => (j, d)
  let order := lost.foldl (fun l x => insertPrio x l) []
  let s := s.onEng fun g => { g with lost := [] }
  s.forAll order fun x t =>
    match t.refit x.1 x.2 with
    | some e => t.onEng fun g => { g with place := g.place.set x.1 (some e) }
    | none => t.shedEntry x.1 ((t.placeOf x.1).getD 0)

/-! ### Failure (R350 to R355) -/

/-- Spares of the current plan that are healthy and idle, by number. -/
def State.spares (s : State) : List Nat := (List.range 64).filter fun e =>
  let g := s.eng.engs.toList.getD e Engine.init
  g.spare && g.healthy

/-- The programs of a domain are read again from their host images (R325, R354). Software leaves an image unchanged; what the device makes
of one that it cannot read or that has changed is not said, and the spare holds the programs as loaded (log 83). -/
def State.rereadProgs (d : Nat) (s : State) : State :=
  s.forAll s.eng.progs fun p t => match p.2 with
    | some x => if p.1 / 4096 = d then t.readHost x.unit d x.from_ x.bytes else t
    | none => t

/-- One spare takes over every entry among `left` that its masks allow (R354); answers what is left. -/
def State.takeover (left : List Nat) (again : Option Item) (s : State) : List Nat × State :=
  let fit (e : Nat) (j : Nat) : Bool := match s.entry j with
    | some d => s.inMask d.domain e
    | none => false
  match s.spares.find? fun e => left.any (fit e) with
  | none => (left, s)
  | some e =>
    let mine := left.filter (fit e)
    let doms := (mine.filterMap fun j => (s.entry j).map fun d => d.domain).eraseDups
    let span := (doms.map fun d => 1000 + ceilDiv (s.progBytes d) 16).foldl (· + ·) 0
    let item := again.bind fun i => if mine.any (fun j => (s.entry j).map Disp.slot = some i.disp.slot) then some i else none
    let eid : EngineId := Fin.ofNat 64 e
    let s := s.onEng fun g => { g with place := mine.foldl (fun p j => p.set j (some e)) g.place }
    let s := s.forAll doms fun d t => (t.zeroScratch eid d).rereadProgs d
    let s := s.onEngine eid fun g =>
      { g with st := .loading, spare := false, load := some ⟨s.now + 100 + span, doms, item⟩ }
    (left.filter fun j => !fit e j, s)

/-- Repeat the choice of a spare while one admits entries. -/
def State.takeovers (left : List Nat) (again : Option Item) : Nat → State → State
  | 0, s => s.onEng fun g => { g with lost := g.lost ++ left }
  | n + 1, s =>
    let r := s.takeover left again
    if r.1.length = left.length then r.2.onEng fun g => { g with lost := g.lost ++ left }
    else r.2.takeovers r.1 again n

/-- An engine is fenced, by failure with a cause or by retirement (R350, R352 to R354). -/
def State.loseEngine (e : EngineId) (cause : Nat) (retired : Bool) (s : State) : State :=
  let g := s.engine e
  if !g.healthy then s
  else
    let again := g.item.bind fun i => if i.redisp then none else some i
    let s := s.stopItem e .engineFault
    let s := s.onEngine e fun g =>
      { g with st := if retired then .retired else .failed, cause := if retired then g.cause else cause, spare := false, load := none }
    let s :=
      if retired then s.fc0 0x12 0x0121 e.val 0 0
      else
        let s := s.fault 0x30C e.val
        if s.flt.safe then s
        else s.raise 0 0x12 0x0120 3 e.val ((g.item.map fun i => i.disp.slot).getD 0 + cause * 65536) s.stamp48
    let mine := (List.range s.eng.place.length).filter fun j => s.placeOf j = some e.val
    s.takeovers mine again 64

/-- An engine fails (R350). -/
def State.failEngine (e : EngineId) (cause : Nat) (s : State) : State := s.loseEngine e cause false

/-- Every engine of a cluster fails (R243, R350 cause 5). -/
def State.failCluster (c : Nat) (s : State) : State :=
  s.forAll (List.range 8) fun i t => t.failEngine (Fin.ofNat 64 (8 * c + i)) 5

/-! ### Dispatch (R337, R339) -/

/-- A work item begins on an engine. -/
def State.startItem (e : EngineId) (d : Disp) (hdr : Option Hdr) (a : Args) (redisp : Bool) (s : State) : State :=
  let i : Item :=
    { disp := d, hdr := hdr, args := a, tick := s.pit.tick, bk := s.pit.bk, firstAt := s.now + 5, pc := 0, loops := [], reqs := [], red := none
      accs := [], accNow := 0, refused := none, instrs := 0, todo := [], multi := false, ending := none, waitUntil := none, overran := false
      redisp := redisp, muted := false, stalled := false }
  let s := s.onEngine e fun g =>
    let g := { g with
      st := .running, item := some i, used := 0, lastDomain := d.domain
      sregs := Vector.replicate 32 0, lregs := Vector.replicate 8 (0, false) }
    ((((((g.setS 1 a.a0).setS 2 a.a1).setS 3 a.a2).setS 4 a.a3).setS 5 (BitVec.ofNat 64 s.pit.tick)).setS 6
      (BitVec.ofNat 64 s.pit.bk))
  s.bump R.ENG_RUN_COUNT e.val 1

end Sys2Proof.Machine
end

