-- ==== Sys2Proof/Machine/Engines.lean ====
section
/-! DEFINITION. Dispatch, budgets, responses and failure of tick engines (spec 08). -/

namespace Sys2Proof.Machine

/-- FTIME of the engine fence of tick k (R343). -/
def State.fenceAt (s : State) : Nat := s.pit.bk + s.pit.period - s.pit.current.margin

/-- The domain runs no dispatch because its reset is under way (R420 step 3). -/
def State.domainHalted (s : State) (d : Nat) : Bool := (s.domain d).st = .resetting

/-- The cluster of engine `e` is in a protected period of R346. -/
def State.clusterProtected (s : State) (e : Nat) : Bool :=
  let bound (p : Plan) (place : List (Option Nat)) (w : Nat) : Bool :=
    (List.zip p.disp place).any fun x => x.1.sc0 && x.1.win = w && (match x.2 with
      | some n => n / 8 = e / 8
      | none => false)
  ((bitsOf s.pit.openWin).any fun w => bound s.pit.current s.eng.place w)
    || s.opens.any fun x => s.offset < x.1 && x.1 ≤ s.offset + 2000
        && bound x.2.1 (if x.1 < s.pit.period then s.eng.place else x.2.1.place.map some) x.2.2

/-- Bellows defers the entry (R345, R346, R461). -/
def State.defers (s : State) (d : Disp) (e : Nat) : Bool :=
  let lim := s.blw R.BLW_GOV_DEFER_G
  !d.sc0 && lim ≠ 0 && s.bel.g ≤ lim && !s.clusterProtected e

def State.markRan (j : Nat) (s : State) : State :=
  s.onEng fun g => { g with ran := g.ran ||| (1#256 <<< j) }

/-- Dispatch an entry on a free engine (R335 to R337). -/
def State.dispatch (j : Nat) (d : Disp) (e : EngineId) (s : State) : State :=
  let x := s.slot d.slot
  if d.fed then
    match x.nextWork s.pit.tick with
    | none => s.markRan j
    | some i => match x.queue[i]? with
      | none => s
      | some w =>
        let s := s.setSlot d.slot { x with queue := x.queue.eraseIdx i }
        (s.startItem e d (some w.hdr) w.args false).markRan j
  else
    let a := match x.wait with
      | some (t, a) => if t ≤ s.pit.tick then a else x.args
      | none => x.args
    let x' := match x.wait with
      | some (t, a) => if t ≤ s.pit.tick then { x with args := a, wait := none } else x
      | none => x
    ((s.setSlot d.slot x').startItem e d none a false).markRan j

/-- Defer an entry to the next tick (R347, R461). -/
def State.deferEntry (j : Nat) (e : Nat) (s : State) : State :=
  let s := ((s.bump R.BLW_DEFER_COUNT 0 1).bump R.ENG_DEFER_COUNT e 1).onBel fun b => { b with defers := b.defers + 1 }
  (s.notRun j .deferred).markRan j

/-- A fed entry with no descriptor ready does not run (R335). -/
def State.nothingQueued (s : State) (d : Disp) : Bool := d.fed && ((s.slot d.slot).nextWork s.pit.tick).isNone

/-- A work item whose budget is spent is stopped at the dispatch time of the engine's next entry, whatever becomes of that (R343). -/
def State.stopSpent (e : EngineId) (s : State) : State := if (s.item e).any Item.overran then s.stopOverrun e else s

/-- Entry `index` of the current plan falls due. An engine that is busy within its budget, loading, or
held by a quiesce keeps the entry due; one that falls due in the drain or pause of an image does not run (R607). -/
def State.dispatchDue (index : Nat) (s : State) : State :=
  match s.entry index, s.placeOf index with
  | some d, some n =>
    if !s.serving || !s.pit.running || s.eng.ran.getLsbD index || s.rec_.hold then s
    else
      let e : EngineId := Fin.ofNat 64 n
      let s := (s.reach (s.pit.bk + d.offset)).stopSpent e
      if s.img.hold then (if d.fed then s else s.notRun index .busy).markRan index
      else if s.domainHalted d.domain then
        (if d.fed then s else s.notRun index .domainReset).markRan index
      else if s.nothingQueued d then s.markRan index
      else if !(s.engine e).healthy || s.fenceAt ≤ s.now then (s.notRun index .shed).markRan index
      else if s.defers d n then s.deferEntry index n
      else
        match (s.engine e).st, s.item e with
        | .idle, none => s.dispatch index d e
        | _, _ => s
  | _, _ => s

/-- Another entry of the same engine is to be dispatched before entry `index`: one that falls due earlier, or at the same CCLK and stands
before it in the plan (R339). -/
def State.waitsTurn (s : State) (index : Nat) : Bool :=
  (List.range s.pit.current.disp.length).any fun j => match s.entry j, s.entry index with
    | some x, some d => (s.placeOf j).isSome && s.placeOf j = s.placeOf index && !s.eng.ran.getLsbD j
        && (x.offset < d.offset || x.offset = d.offset && j < index)
    | _, _ => false

/-- DISPATCH_DUE (R339). -/
def execDispatchDue (index : Nat) (s : State) : Host.Outcome State Fault Refusal := .next (if s.waitsTurn index then s else s.dispatchDue index)

/-- Every entry of the current plan whose offset has come and that has not been dispatched, in plan order (R572 step 6). -/
def State.dispatchAllDue (s : State) : State :=
  s.forAll (List.range s.pit.current.disp.length) fun j t =>
    match t.entry j with
    | some d => if d.offset ≤ t.offset then t.dispatchDue j else t
    | none => t

/-- BUDGET_SPENT (R340, R342): the cycles that the budget still holds pass first. -/
def execBudgetSpent (e : EngineId) (s : State) : Host.Outcome State Fault Refusal :=
  .next (match s.item e with
  | some i =>
    if i.overran then s
    else
      let s := s.reach (s.now + ceilDiv (5 * (i.disp.budget - (s.engine e).used)) 8)
      let s := s.onEngine e fun g => { g with used := max g.used i.disp.budget }
      let s := (s.onItem e fun i => { i with overran := true }).bump R.ENG_OVERBUDGET_COUNT e.val 1
      s.fc0 0x12 0x0123 e.val i.disp.slot i.tick
  | none => s)

/-- ENGINE_FENCE (R343, R701): at B_k+1 less the margin the running item stops with OVERRUN, and the engine's entries that could
not start do not run. -/
def execEngineFence (e : EngineId) (s : State) : Host.Outcome State Fault Refusal :=
  .next (if !s.serving || !s.pit.running then s
  else
    let s := s.reach s.fenceAt
    let s := match s.item e with
      | some _ => s.stopOverrun e
      | none => s
    s.forAll (List.range s.pit.current.disp.length) fun j t =>
      match t.entry j with
      | some d => if t.placeOf j = some e.val && !t.eng.ran.getLsbD j && !t.domainHalted d.domain then (t.notRun j .shed).markRan j else t
      | none => t)

/-! ### Responses (R363, R375, R376, R384) -/

/-- All ones with POISON: what a refused line read leaves (R375). -/
def refusedLine : Line × Bool := (BitVec.allOnes 512, true)

/-- Element-wise operation of R373 on one element of `w` bits. -/
def elemOp (op w : Nat) (sgn : Bool) (a b : Nat) : Nat :=
  let m := 2 ^ w
  let sa := signedBits a w; let sb := signedBits b w
  match op with
  | 0 => (a + b) % m
  | 1 =>
    if sgn then
      let x := sa + sb
      let lo : Int := -(2 ^ (w - 1) : Nat); let hi : Int := (2 ^ (w - 1) : Nat) - 1
      (BitVec.ofInt w (if x < lo then lo else if hi < x then hi else x)).toNat
    else min (m - 1) (a + b)
  | 2 => (a + m - b) % m
  | 3 => if sgn then (if sa ≤ sb then a else b) else min a b
  | 4 => if sgn then (if sa ≤ sb then b else a) else max a b
  | 5 => a &&& b
  | 6 => a ||| b
  | 7 => a ^^^ b
  | _ => b

/-- Operation byte of R373 over two lines; POISON of either is kept (R376). -/
def lineOp (byte : Nat) (x y : Line × Bool) : Line × Bool :=
  let w := 8 * 2 ^ bits byte 4 2
  let n := 512 / w
  let v := (List.range n).foldl (fun acc i =>
    acc + elemOp (bits byte 0 4) w (flag byte 6) (bits x.1.toNat (i * w) w) (bits y.1.toNat (i * w) w) * 2 ^ (i * w)) 0
  (BitVec.ofNat 512 v, x.2 || y.2)

/-- Combine the parts of a reduction in table order once all have arrived (R379). -/
def RedSt.result (r : RedSt) : Option (Line × Bool) :=
  if r.parts.all Option.isSome then
    match r.parts.filterMap id with
    | [] => none
    | x :: t => some (t.foldl (lineOp r.op) x)
  else none

/-- Data of a request reaches its destination. A poisoned line for a scratch copy is a program fault (R376). -/
def State.deliver (e : EngineId) (r : EReq) (v : Line × Bool) (s : State) : State :=
  match r.dest with
  | .line l => s.onEngine e fun g => g.setL l v
  | .scalar d wide => s.onEngine e fun g => g.setS d (BitVec.ofNat 64 (if wide then v.1.toNat % 2 ^ 64 else v.1.toNat % 2 ^ 32))
  | .write => s
  | .copyScratch a =>
    if v.2 then s.progFault e .poison r.pc (some (64 * r.line))
    else match s.item e with
      | some i => s.onEng fun g => { g with scratch := Memory.write g.scratch (scratchKey e i.disp.domain a) v.1.toNat 64 }
      | none => s
  | .copyFabric dst =>
    s.onItem e fun i => { i with todo := i.todo ++ [⟨dst, .write v.1 (BitVec.allOnes 64) v.2, .write, r.acc⟩] }
  | .reduce part => s.onItem e fun i => { i with red := i.red.map fun x => { x with parts := x.parts.set part (some v) } }

/-- A request was refused (R375): the item keeps the first refused address, a read takes all ones. -/
def State.refusedReq (e : EngineId) (r : EReq) (addr : Nat) (s : State) : State :=
  let s := s.onItem e fun i => { i with refused := i.refused.orElse fun _ => some addr }
  match r.dest with
  | .scalar d _ => s.onEngine e fun g => g.setS d (BitVec.allOnes 64)
  | .write => s
  | _ => s.deliver e r refusedLine

/-- A multi-line instruction is complete: its last write is issued, its last line has arrived (R377 to R379). -/
def Item.multiDone (i : Item) : Bool := i.multi && i.todo.isEmpty && !i.copying

/-- After a response: issue what waits, finish the multi-line instruction, or end the item that waits in END. -/
def State.settleEngine (e : EngineId) (s : State) : State :=
  let s := s.pump e 64
  match s.item e with
  | none => s
  | some i =>
    if i.multiDone then
      let s := match i.red with
        | some r => match r.result with
          | some v => (s.onEngine e fun g => g.setL r.dest v).onItem e fun i => { i with red := none }
          | none => s.onItem e fun i => { i with red := none }
        | none => s
      (s.onEngine e fun g => g.advance (i.pc + 1)).settleAccs e
    else match i.ending with
      | some code => if i.reqs.isEmpty then s.endItem e (i.endCpl code) else s
      | none => s

/-- L_SC0 of a request, with the largest of its parts' L_snp (R286); 0 once voided. -/
def Sc0Live.limit (x : Sc0Live) : Nat := if x.bound = 0 then 0 else x.bound + x.snps.foldl (fun m y => max m y.2) 0

/-- The SC0 request of a source under a tag has completed; beyond its bound it is a miss (R76). `extra` is what the return path
still takes. -/
def State.sc0Done (src tag extra : Nat) (s : State) : State :=
  match s.fab.sc0.find? fun x => x.src = src && x.tag = tag with
  | none => s
  | some x =>
    let s := s.onFab fun f => { f with sc0 := f.sc0.filter fun y => !(y.src = src && y.tag = tag) }
    if x.limit < 320 * ((s.now + 2 ^ 32 - x.stamp) % 2 ^ 32 + extra) then
      (s.inTrial fun a => { a with miss := a.miss + 1 }).fc0 0x15 0x0150 src x.win x.stamp
    else s

/-- Take a request out of the outstanding ones. -/
def State.popReq (e : EngineId) (tag : Nat) (s : State) : State :=
  s.onItem e fun i => { i with reqs := i.reqs.filter fun r => r.tag ≠ tag }

/-- ENGINE_RESPONSE: a response reaches an engine. One for a work item that has ended is stale (R344). -/
def execEngineResponse (e : EngineId) (tag : Nat) (status : RspStatus) (data : Line) (s : State) :
    Host.Outcome State Fault Refusal :=
  let s := s.sc0Done (64 + e.val) tag 0
  .next (match s.item e with
  | none => s.bump R.ENG_STALE_RSP_COUNT e.val 1
  | some i =>
    match i.reqs.find? fun r => r.tag = tag with
    | none => s.bump R.ENG_STALE_RSP_COUNT e.val 1
    | some r =>
      let s := s.popReq e tag
      match status with
      | .ok => (s.deliver e r (data, false)).settleEngine e
      | .poisonData => (s.deliver e r (data, true)).settleEngine e
      | .refused _ => (s.refusedReq e r (64 * r.line)).settleEngine e
      | .poison => s.progFault e .poison r.pc (some (64 * r.line))
      | .portDown => s.progFault e .portDown r.pc (some (64 * r.line))
      | .timeout => s.progFault e .timeout r.pc (some (64 * r.line))
      | .retryExhausted => s.progFault e .retryExhausted r.pc (some (64 * r.line)))

/-! ### Failure and takeover -/

/-- ENGINE_FAILURE (R350): a cause 1 to 6; the uncorrectable errors of causes 1 to 3 are counted. -/
def execEngineFailure (e : EngineId) (cause : Fin 8) (s : State) : Host.Outcome State Fault Refusal :=
  .next (if !s.started || cause.val = 0 || cause.val = 7 || !(s.engine e).healthy then s
  else
    let s := if cause.val ≤ 3 then s.bump R.ENG_ECC_UNC_COUNT e.val 1 else s
    if cause.val = 5 then s.failCluster (e.val / 8) else s.failEngine e cause.val)

/-- Start of the next entry assigned to an engine in this tick after `t` (R355), in ns from the boundary. -/
def State.nextDue (s : State) (e slot : Nat) : Nat :=
  let l := ((List.range s.pit.current.disp.length).filterMap fun j => match s.entry j with
    | some d => if s.placeOf j = some e && d.slot ≠ slot && !s.eng.ran.getLsbD j then some d.offset else none
    | none => none)
  l.foldl min s.pit.period

/-- R355 allows the re-dispatch on engine `e` now. -/
def State.redispatchOk (s : State) (e : Nat) (i : Item) : Bool :=
  let endAt := 8 * (s.offset + 5) + 5 * i.disp.budget
  s.bit R.ENG_CTRL_REDISP_EN && i.disp.idem && i.tick = s.pit.tick
    && endAt ≤ 8 * s.pit.current.limit i.disp && endAt ≤ 8 * s.nextDue e i.disp.slot

/-- SPARE_LOAD_END (R354, R355): the load ends, and the failed item is dispatched again where it may be. -/
def execSpareLoadEnd (e : EngineId) (s : State) : Host.Outcome State Fault Refusal :=
  .next (match (s.engine e).st, (s.engine e).load with
  | .loading, some l =>
    if s.flt.safe then s
    else
      let s := (s.reach l.doneAt).onEngine e fun g => { g with st := .idle, load := none }
      match l.again with
      | some i =>
        if s.redispatchOk e.val i then (s.startItem e i.disp i.hdr i.args true).bump R.ENG_REDISP_COUNT e.val 1 else s
      | none => s
  | _, _ => s)

/-- ENGINE_RETIRE (R352). -/
def execEngineRetire (h : Hdr) (index : Word32) (s : State) : Host.Outcome State Fault Refusal :=
  .next (s.manager h [] (if 63 < index.toNat then some 0x10 else none) fun s =>
    (s.loseEngine (Fin.ofNat 64 index.toNat) 0 true).done h .ok)

/-! ### Work submission (R333 to R336, R357) -/

/-- Where a plan holds a slot. -/
def Plan.slotEntry (p : Plan) (slot : Nat) : Option (Nat × Disp) :=
  (List.range p.disp.length).findSome? fun j => match p.disp[j]? with
    | some d => if d.slot = slot then some (j, d) else none
    | none => none

/-- Store or queue work for an entry (R335, R336). -/
def State.submit (h : Hdr) (d : Disp) (slot tick : Nat) (a : Args) (s : State) : State :=
  let x := s.slot slot
  if d.fed then
    if 16 ≤ x.queue.length then s.done h .busy
    else s.setSlot slot { x with queue := x.queue ++ [⟨h, tick, a⟩] }
  else (s.setSlot slot { x with wait := some (tick, a) }).done h .ok

/-- WORK_SUBMIT: `w10` and `w18` are the words of its body at 0x10 and 0x18, `args` those at 0x20 to 0x38 (R333). The slot's domain is that
of the descriptor and of its ring (R334). -/
def execWorkSubmit (h : Hdr) (w10 w18 : Word) (args : Args) (s : State) : Host.Outcome State Fault Refusal :=
  .next (s.command h true false [] (firstBad [(bits w10.toNat 16 48 ≠ 0, 0x12), (bits w18.toNat 48 16 ≠ 0, 0x1E)]) fun s =>
    let n := bits w10.toNat 0 16
    let tick := bits w18.toNat 0 48
    let dom := s.ringDomain h.ring.val
    match s.pit.current.slotEntry n, (s.livePlans.drop 1).findSome? fun p => p.slotEntry n with
    | some (j, d), _ =>
      if d.domain ≠ dom || d.domain ≠ h.domain.toNat then s.denied h 0
      else if d.fed && (s.placeOf j).isNone then s.complete h { status := .shed, result := workResult n 0 }
      else s.submit h d n tick args
    | none, some (_, d) =>
      if d.domain ≠ dom || d.domain ≠ h.domain.toNat then s.denied h 0 else s.submit h d n tick args
    | none, none => s.denied h 0)

end Sys2Proof.Machine
end

