-- ==== Sys2Proof/Machine/EngineIsa.lean ====
section
/-! DEFINITION. The instructions of tick engines (spec 09). A row runs the instruction that stands at the engine's program
counter, when it is that row's and has those fields (log 12). -/

namespace Sys2Proof

/-- IMM sign-extended to 64 bits. -/
def Fields.simm (x : Fields) : Word := x.imm.signExtend 64

/-- IMM zero-extended to 64 bits. -/
def Fields.zimm (x : Fields) : Word := x.imm.setWidth 64

/-- F bits. -/
def Fields.fbit (x : Fields) (i : Nat) : Bool := x.f.getLsbD i

/-- Scalar registers that an ALU instruction reads and writes. -/
def Fields.aluRegs (x : Fields) : List (Fin 32) := if x.fbit 0 then [x.d, x.a] else [x.d, x.a, x.b]

/-- Size of F[1:0] in bytes. -/
def Fields.size (x : Fields) : Nat := 2 ^ (x.f.toNat % 4)

end Sys2Proof

namespace Sys2Proof.Machine

/-- The word at the program counter of a work item. -/
def State.instrAt (s : State) (i : Item) : Option Word :=
  (Tab.get noneAt s.eng.progs (progKey i.disp.domain i.disp.prog)).bind fun p => p.code[i.pc]?

/-- The running item whose next instruction has this opcode and these fields (R362). -/
def State.runs (s : State) (e : EngineId) (op : Nat) (x : Fields) : Option Item :=
  match s.item e with
  | some i =>
    match s.instrAt i with
    | some w =>
      if (s.engine e).st = .running && !s.flt.safe && !i.multi && i.ending.isNone && i.waitUntil.isNone
          && opcOf w = op && fieldsOf w = x then some i else none
    | none => none
  | none => none

/-- Cycles of an instruction that executes (R340, R362, R365), counted with the instruction. -/
def State.charge (e : EngineId) (n : Nat) (s : State) : State :=
  match s.item e with
  | none => s
  | some i =>
    let s := (s.count 0x30 e.val 1 (s.engineCounted e i)).spendCycles i n
    (s.onEngine e fun g => { g with used := min (2 ^ 24 - 1) (g.used + n) }).onItem e fun i => { i with instrs := i.instrs + 1 }

/-- The instruction stalls (R363). -/
def State.stall (e : EngineId) (s : State) : State := s.onItem e fun i => { i with stalled := true }

/-- Issue an instruction, the first of an item 8 CCLK after its dispatch (R339): it stalls while a scalar register of `ss` or a line register of `ls` is pending (R363). -/
def State.issue (e : EngineId) (op : Nat) (x : Fields) (ss : List (Fin 32)) (ls : List (Fin 8)) (f : Item → State → State)
    (s : State) : State :=
  match s.runs e op x with
  | none => s
  | some i =>
    let s := s.reach i.firstAt
    if ss.any i.pendS || ls.any i.pendL then s.stall e else f i s

/-- Finish an instruction of `n` cycles: apply its register change and go to the next. -/
def State.finish (e : EngineId) (n : Nat) (g : Engine → Engine) (s : State) : State :=
  let s := (s.charge e n).onEngine e g
  match s.item e with
  | none => s
  | some i => s.onEngine e fun h => h.advance (i.pc + 1)

/-- Second operand of an ALU instruction (R366). -/
def Engine.operand (g : Engine) (x : Fields) : Word :=
  if x.fbit 0 then (if x.fbit 2 then x.zimm else x.simm) else g.getS x.b

/-- An ALU instruction (R366). -/
def State.alu (e : EngineId) (op : Nat) (x : Fields) (cyc : Nat) (f : Word → Word → Word) (s : State) : State :=
  s.issue e op x x.aluRegs [] fun _ s => s.finish e cyc fun g => g.setS x.d (f (g.getS x.a) (g.operand x))

/-- Shift amount of R365. -/
def shiftOf (w : Word) : Nat := w.toNat % 64

/-- ADD. -/
def execAdd (e : EngineId) (x : Fields) (s : State) : Host.Outcome State Fault Refusal := .next (s.alu e 0x01 x 1 (· + ·))

/-- SUB. -/
def execSub (e : EngineId) (x : Fields) (s : State) : Host.Outcome State Fault Refusal := .next (s.alu e 0x02 x 1 (· - ·))

/-- AND. -/
def execAnd (e : EngineId) (x : Fields) (s : State) : Host.Outcome State Fault Refusal := .next (s.alu e 0x03 x 1 (· &&& ·))

/-- OR. -/
def execOr (e : EngineId) (x : Fields) (s : State) : Host.Outcome State Fault Refusal := .next (s.alu e 0x04 x 1 (· ||| ·))

/-- XOR. -/
def execXor (e : EngineId) (x : Fields) (s : State) : Host.Outcome State Fault Refusal := .next (s.alu e 0x05 x 1 (· ^^^ ·))

/-- SHL. -/
def execShl (e : EngineId) (x : Fields) (s : State) : Host.Outcome State Fault Refusal :=
  .next (s.alu e 0x06 x 1 fun a b => a <<< shiftOf b)

/-- SHR. -/
def execShr (e : EngineId) (x : Fields) (s : State) : Host.Outcome State Fault Refusal :=
  .next (s.alu e 0x07 x 1 fun a b => a >>> shiftOf b)

/-- SAR. -/
def execSar (e : EngineId) (x : Fields) (s : State) : Host.Outcome State Fault Refusal :=
  .next (s.alu e 0x08 x 1 fun a b => a.sshiftRight (shiftOf b))

/-- MUL: low 64 bits of the product. -/
def execMul (e : EngineId) (x : Fields) (s : State) : Host.Outcome State Fault Refusal := .next (s.alu e 0x09 x 3 (· * ·))

/-- `a` is below `b`, signed or unsigned. -/
def wordLt (sgn : Bool) (a b : Word) : Bool := if sgn then a.slt b else a.ult b

/-- MIN. -/
def execMin (e : EngineId) (x : Fields) (s : State) : Host.Outcome State Fault Refusal :=
  .next (s.alu e 0x0A x 1 fun a b => if wordLt (x.fbit 1) b a then b else a)

/-- MAX. -/
def execMax (e : EngineId) (x : Fields) (s : State) : Host.Outcome State Fault Refusal :=
  .next (s.alu e 0x0B x 1 fun a b => if wordLt (x.fbit 1) a b then b else a)

/-- Value of MOVI. -/
def moviValue (x : Fields) (old : Word) : Word :=
  if x.fbit 3 then x.imm ++ old.extractLsb' 0 32 else if x.fbit 2 then x.zimm else x.simm

/-- MOVI. -/
def execMovi (e : EngineId) (x : Fields) (s : State) : Host.Outcome State Fault Refusal :=
  .next (s.issue e 0x0C x [x.d] [] fun _ s => s.finish e 1 fun g => g.setS x.d (moviValue x (g.getS x.d)))

/-- The value RDT selects (R367). -/
def State.rdtValue (s : State) (e : EngineId) (i : Item) (sel : Nat) : Nat :=
  match sel with
  | 0 => s.now
  | 1 => i.tick
  | 2 => i.bk
  | 3 => (s.engine e).used
  | 4 => i.disp.budget - (s.engine e).used
  | 5 => e.val
  | 6 => i.disp.slot
  | 7 => i.reqs.length
  | _ => 0

/-- RDT. -/
def execRdt (e : EngineId) (x : Fields) (s : State) : Host.Outcome State Fault Refusal :=
  .next (s.issue e 0x0D x [x.d] [] fun i s =>
    s.finish e 2 fun g => g.setS x.d (BitVec.ofNat 64 (s.rdtValue e i (x.imm.toNat % 16))))

/-- The condition of BR holds (R368). -/
def brTaken (f : Nat) (a b : Word) : Bool :=
  match f with
  | 0 => a = b
  | 1 => a ≠ b
  | 2 => a.ult b
  | 3 => !a.ult b
  | 4 => a.slt b
  | 5 => !a.slt b
  | 6 => true
  | _ => false

/-- BR. -/
def execBr (e : EngineId) (x : Fields) (s : State) : Host.Outcome State Fault Refusal :=
  .next (s.issue e 0x10 x [x.a, x.b] [] fun i s =>
    let taken := brTaken x.f.toNat ((s.engine e).getS x.a) ((s.engine e).getS x.b)
    (s.charge e (if taken then 2 else 1)).onEngine e fun g => g.advance (i.pc + 1 + (if taken then x.imm.toNat else 0)))

/-- LOOP (R369). -/
def execLoop (e : EngineId) (x : Fields) (s : State) : Host.Outcome State Fault Refusal :=
  .next (s.issue e 0x11 x [x.d, x.a] [] fun i s =>
    let len := bits x.imm.toNat 0 16
    let n := min ((s.engine e).getS x.a).toNat (bits x.imm.toNat 16 16)
    let s := s.charge e 2
    if n = 0 then s.onEngine e fun g => g.advanceFrom (i.pc + len) (i.pc + len + 1)
    else
      (s.onEngine e fun g => g.setS x.d 0).onItem e fun i =>
        { i with pc := i.pc + 1, loops := ⟨i.pc + 1, i.pc + len, x.d, 0, n⟩ :: i.loops, stalled := false })

/-- FTIME a WAITO waits for (R370). -/
def waitoTarget (i : Item) (a imm : Word) : Nat := i.bk + a.toNat + imm.toNat

/-- WAITO (R370). -/
def execWaito (e : EngineId) (x : Fields) (s : State) : Host.Outcome State Fault Refusal :=
  .next (s.issue e 0x12 x [x.a] [] fun i s =>
    let t := waitoTarget i ((s.engine e).getS x.a) x.zimm
    if t ≤ s.now then s.finish e 1 id
    else (s.charge e 1).onItem e fun i => { i with waitUntil := some t, stalled := false })

/-- WAITO_EXPIRE: FTIME reaches the instant the engine waits for. A wait that reaches the engine fence ends there by R343. -/
def execWaitoExpire (e : EngineId) (s : State) : Host.Outcome State Fault Refusal :=
  .next (match s.item e with
  | some i =>
    match i.waitUntil with
    | some t =>
      if s.flt.safe || s.fenceAt ≤ t then s
      else
        let s := (s.reach t).onItem e fun i => { i with waitUntil := none }
        s.onEngine e fun g => g.advance (i.pc + 1)
    | none => s
  | none => s)

/-- FENCE: at most IMM[5:0] requests outstanding. -/
def execFence (e : EngineId) (x : Fields) (s : State) : Host.Outcome State Fault Refusal :=
  .next (s.issue e 0x13 x [] [] fun i s =>
    if i.reqs.length ≤ x.imm.toNat % 64 then s.finish e 1 id else s.stall e)

/-- END (R371). -/
def execEnd (e : EngineId) (x : Fields) (s : State) : Host.Outcome State Fault Refusal :=
  .next (s.issue e 0x1F x [] [] fun i s =>
    let s := s.charge e 1
    let code := x.imm.toNat % 2 ^ 16
    if i.reqs.isEmpty then s.endItem e (i.endCpl code) else s.onItem e fun i => { i with ending := some code, stalled := false })

/-! ### Scratch and line registers -/

/-- The scratch access of `n` bytes is in range and aligned (R372). -/
def State.scratchOk (s : State) (i : Item) (addr n : Nat) : Bool := addr + n ≤ s.scratchSize i.disp.domain && addr % n = 0

/-- Read scratch bytes, little-endian. -/
def State.scratchRead (s : State) (e : EngineId) (i : Item) (addr n : Nat) : Nat :=
  Memory.read s.eng.scratch (scratchKey e i.disp.domain addr) n

def State.scratchWrite (e : EngineId) (i : Item) (addr v n : Nat) (s : State) : State :=
  s.onEng fun g => { g with scratch := Memory.write g.scratch (scratchKey e i.disp.domain addr) v n }

/-- Addr of R365: S[A] + IMM with IMM sign-extended. -/
def Engine.addr (g : Engine) (x : Fields) : Nat := (g.getS x.a + x.simm).toNat

/-- LDS. -/
def execLds (e : EngineId) (x : Fields) (s : State) : Host.Outcome State Fault Refusal :=
  .next (s.issue e 0x20 x [x.d, x.a] [] fun i s =>
    let a := (s.engine e).addr x
    if s.scratchOk i a x.size then s.finish e 2 fun g => g.setS x.d (BitVec.ofNat 64 (s.scratchRead e i a x.size))
    else s.progFault e .denied i.pc (some a))

/-- STS. -/
def execSts (e : EngineId) (x : Fields) (s : State) : Host.Outcome State Fault Refusal :=
  .next (s.issue e 0x21 x [x.a, x.b] [] fun i s =>
    let a := (s.engine e).addr x
    if s.scratchOk i a x.size then (s.scratchWrite e i a ((s.engine e).getS x.b).toNat x.size).finish e 2 id
    else s.progFault e .denied i.pc (some a))

/-- LLS: scratch holds no POISON bit (R377). -/
def execLls (e : EngineId) (x : Fields) (s : State) : Host.Outcome State Fault Refusal :=
  .next (s.issue e 0x22 x [x.a] [lineReg x.d] fun i s =>
    let a := (s.engine e).addr x
    if s.scratchOk i a 64 then s.finish e 4 fun g => g.setL (lineReg x.d) (BitVec.ofNat 512 (s.scratchRead e i a 64), false)
    else s.progFault e .denied i.pc (some a))

/-- SLS. -/
def execSls (e : EngineId) (x : Fields) (s : State) : Host.Outcome State Fault Refusal :=
  .next (s.issue e 0x23 x [x.a] [lineReg x.d] fun i s =>
    let a := (s.engine e).addr x
    let l := (s.engine e).getL (lineReg x.d)
    if !s.scratchOk i a 64 then s.progFault e .denied i.pc (some a)
    else if l.2 then s.progFault e .poison i.pc (some a)
    else (s.scratchWrite e i a l.1.toNat 64).finish e 4 id)

/-- LEXT. -/
def execLext (e : EngineId) (x : Fields) (s : State) : Host.Outcome State Fault Refusal :=
  .next (s.issue e 0x28 x [x.d] [lineReg x.a] fun i s =>
    let p := x.imm.toNat % 64
    let l := (s.engine e).getL (lineReg x.a)
    if 64 < p + x.size then s.progFault e .unsupported i.pc none
    else if l.2 then s.progFault e .poison i.pc none
    else s.finish e 1 fun g => g.setS x.d (BitVec.ofNat 64 (bits l.1.toNat (8 * p) (8 * x.size))))

/-- A line with the element at byte `p` replaced. -/
def lineInsert (l : Line) (p n : Nat) (v : Word) : Line :=
  let m : Line := BitVec.ofNat 512 ((2 ^ (8 * n) - 1) * 2 ^ (8 * p))
  (l &&& ~~~m) ||| BitVec.ofNat 512 (v.toNat % 2 ^ (8 * n) * 2 ^ (8 * p))

/-- LINS: POISON is kept (R376). -/
def execLins (e : EngineId) (x : Fields) (s : State) : Host.Outcome State Fault Refusal :=
  .next (s.issue e 0x29 x [x.b] [lineReg x.d] fun i s =>
    let p := x.imm.toNat % 64
    if 64 < p + x.size then s.progFault e .unsupported i.pc none
    else s.finish e 1 fun g =>
      g.setL (lineReg x.d) (lineInsert (g.getL (lineReg x.d)).1 p x.size (g.getS x.b), (g.getL (lineReg x.d)).2))

/-- LOP. -/
def execLop (e : EngineId) (x : Fields) (s : State) : Host.Outcome State Fault Refusal :=
  .next (s.issue e 0x2A x [] [lineReg x.d, lineReg x.a, lineReg x.b] fun _ s =>
    s.finish e 2 fun g => g.setL (lineReg x.d) (lineOp (x.imm.toNat % 256) (g.getL (lineReg x.a)) (g.getL (lineReg x.b))))

/-- LZERO. -/
def execLzero (e : EngineId) (x : Fields) (s : State) : Host.Outcome State Fault Refusal :=
  .next (s.issue e 0x2B x [] [lineReg x.d] fun _ s => s.finish e 1 fun g => g.setL (lineReg x.d) (0, false))

/-! ### Fabric access -/

/-- Fault of a fabric address at issue (R374): aligned to `n`, within 52 bits, in a window; `sh` asks for an SH window (R381). -/
def State.faFault (s : State) (addr n : Nat) (sh : Bool) : Option Status :=
  if addr % n ≠ 0 || 2 ^ 52 ≤ addr then some .unsupported
  else match s.window 64 addr with
    | none => some .denied
    | some (_, w) => if sh && !w.kind then some .unsupported else none

/-- The first faulting address among several. -/
def State.faFaults (s : State) (addrs : List Nat) : Option (Status × Nat) :=
  addrs.findSome? fun a => (s.faFault a 64 false).map fun st => (st, a)

/-- A fault of a fabric address: an address in no window counts as a miss of the engine's check unit (R201). -/
def State.addrFault (e : EngineId) (st : Status) (index addr : Nat) (s : State) : State :=
  (if st = .denied then s.countMiss (64 + e.val) else s).progFault e st index (some addr)

/-- Issue one request of `n` cycles, or stall (R321, R322, R364). -/
def State.fabric (e : EngineId) (i : Item) (addr n : Nat) (op : EOp) (dest : EDest) (s : State) : State :=
  if s.mayIssue i (addr / 64) then ((s.charge e n).issueReq e ⟨addr, op, dest, (s.engine e).nextTag⟩).onEngine e fun g => g.advance (i.pc + 1)
  else s.stall e

/-- LDL. -/
def execLdl (e : EngineId) (x : Fields) (s : State) : Host.Outcome State Fault Refusal :=
  .next (s.issue e 0x30 x [x.a] [lineReg x.d] fun i s =>
    let a := (s.engine e).addr x
    match s.faFault a 64 false with
    | some st => s.addrFault e st i.pc a
    | none => s.fabric e i a 1 .read (.line (lineReg x.d)))

/-- STL. -/
def execStl (e : EngineId) (x : Fields) (s : State) : Host.Outcome State Fault Refusal :=
  .next (s.issue e 0x31 x [x.a] [lineReg x.d] fun i s =>
    let a := (s.engine e).addr x
    let l := (s.engine e).getL (lineReg x.d)
    match s.faFault a 64 false with
    | some st => s.addrFault e st i.pc a
    | none => s.fabric e i a 2 (.write l.1 (BitVec.allOnes 64) l.2) .write)

/-- STLM: bytes whose bit in S[C] is set. -/
def execStlm (e : EngineId) (x : Fields) (s : State) : Host.Outcome State Fault Refusal :=
  .next (s.issue e 0x32 x [x.a, x.c] [lineReg x.d] fun i s =>
    let a := (s.engine e).addr x
    let l := (s.engine e).getL (lineReg x.d)
    match s.faFault a 64 false with
    | some st => s.addrFault e st i.pc a
    | none => s.fabric e i a 2 (.write l.1 ((s.engine e).getS x.c) l.2) .write)

/-- Begin a multi-line instruction: its requests wait to be issued as R321 allows. -/
def State.multi (e : EngineId) (n : Nat) (todo : List ETodo) (red : Option RedSt) (s : State) : State :=
  let acc := (s.engine e).nextTag
  let s := (s.charge e n).onItem e fun i =>
    { i with todo := todo.map fun t => { t with acc := acc }, red := red, multi := true, stalled := false, accNow := acc }
  s.settleEngine e

/-- Line addresses of `n` lines from `a`. -/
def linesFrom (a n : Nat) : List Nat := (List.range n).map fun k => a + 64 * k

/-- Ranges of `n` lines overlap. -/
def overlap (a b n : Nat) : Bool := a < b + 64 * n && b < a + 64 * n

/-- A scratch line range of R372: its first bad address. -/
def State.scratchBad (s : State) (i : Item) (l : List Nat) : Option Nat := l.find? fun a => !s.scratchOk i a 64

/-- CPY (R377). -/
def execCpy (e : EngineId) (x : Fields) (s : State) : Host.Outcome State Fault Refusal :=
  .next (s.issue e 0x33 x [x.d, x.a, x.c] [] fun i s =>
    let src := ((s.engine e).getS x.a).toNat; let dst := ((s.engine e).getS x.d).toNat
    let n := ((s.engine e).getS x.c).toNat
    let fs := x.fbit 0; let fd := x.fbit 1
    if (fs && fd) || n = 0 || 4096 < n then s.progFault e .unsupported i.pc none
    else if !fs && !fd && overlap src dst n then s.progFault e .unsupported i.pc none
    else
      let from_ := linesFrom src n; let to_ := linesFrom dst n
      match s.faFaults ((if fs then [] else from_) ++ (if fd then [] else to_)),
          s.scratchBad i ((if fs then from_ else []) ++ (if fd then to_ else [])) with
      | some (st, a), _ => s.addrFault e st i.pc a
      | none, some a => s.progFault e .denied i.pc (some a)
      | none, none =>
        let todo : List ETodo := (List.zip from_ to_).map fun p =>
          if fs then ⟨p.2, .write (BitVec.ofNat 512 (s.scratchRead e i p.1 64)) (BitVec.allOnes 64) false, .write, 0⟩
          else ⟨p.1, .read, if fd then .copyScratch p.2 else .copyFabric p.2, 0⟩
        s.multi e ((if fs || fd then 4 else 3) * n) todo none)

/-- The table addresses of PUB and RED (R378): the first fault, or the addresses. -/
def State.tableAddrs (s : State) (e : EngineId) (i : Item) (base n : Nat) (off : Word) : Sum (Status × Nat) (List Nat) :=
  let entries := (List.range n).map fun k => base + 8 * k
  match entries.find? fun a => !s.scratchOk i a 8 with
  | some a => .inl (.denied, a)
  | none => .inr (entries.map fun a => (BitVec.ofNat 64 (s.scratchRead e i a 8) + off).toNat)

/-- PUB (R378). -/
def execPub (e : EngineId) (x : Fields) (s : State) : Host.Outcome State Fault Refusal :=
  .next (s.issue e 0x34 x [x.a, x.b, x.c] [lineReg x.d] fun i s =>
    let n := ((s.engine e).getS x.c).toNat
    let l := (s.engine e).getL (lineReg x.d)
    if n = 0 || 256 < n then s.progFault e .unsupported i.pc none
    else match s.tableAddrs e i ((s.engine e).getS x.a).toNat n ((s.engine e).getS x.b) with
      | .inl f => s.progFault e f.1 i.pc (some f.2)
      | .inr as =>
        match s.faFaults as with
        | some (st, a) => s.addrFault e st i.pc a
        | none => s.multi e (2 * n) (as.map fun a => ⟨a, .write l.1 (BitVec.allOnes 64) l.2, .write, 0⟩) none)

/-- RED may take the operation byte (R379). -/
def redOp (byte : Nat) : Bool := byte % 16 ≤ 7 && byte % 16 ≠ 2

/-- RED (R379). -/
def execRed (e : EngineId) (x : Fields) (s : State) : Host.Outcome State Fault Refusal :=
  .next (s.issue e 0x35 x [x.a, x.b, x.c] [lineReg x.d] fun i s =>
    let n := ((s.engine e).getS x.c).toNat
    let byte := x.imm.toNat % 256
    if n = 0 || 64 < n || !redOp byte then s.progFault e .unsupported i.pc none
    else match s.tableAddrs e i ((s.engine e).getS x.a).toNat n ((s.engine e).getS x.b) with
      | .inl f => s.progFault e f.1 i.pc (some f.2)
      | .inr as =>
        match s.faFaults as with
        | some (st, a) => s.addrFault e st i.pc a
        | none =>
          s.multi e (n + 1) ((List.zip (List.range n) as).map fun p => ⟨p.2, .read, .reduce p.1, 0⟩)
            (some ⟨lineReg x.d, byte, List.replicate n none⟩))

/-- Ports that a publish hint goes to (R380). -/
def State.hintPorts (s : State) (d : Nat) (mask : Word) : List Nat :=
  (List.range 63).filter fun n => mask.getLsbD n && s.isLowest n && (s.portN n).negVer = 3
    && s.tabs.wins.any fun w => match w.2 with
      | some w => w.scope = n && w.domain = d
      | none => false

/-- The content of a publish hint: FA[51:6] in six bytes, the tag and the tick in two each (R380). -/
def hintBytes (fa tag tick : Nat) : List Nat := lowBytes 6 (fa / 64 % 2 ^ 46) ++ lowBytes 2 tag ++ lowBytes 2 tick

/-- PUBH (R380): its target needs R (R402); a refused target sends no hint and counts as a refused part (R375). -/
def execPubh (e : EngineId) (x : Fields) (s : State) : Host.Outcome State Fault Refusal :=
  .next (s.issue e 0x36 x [x.a, x.b] [] fun i s =>
    let mask := (s.engine e).getS x.a
    let fa := bits ((s.engine e).getS x.b).toNat 6 46 * 64
    let d := i.disp.domain
    if mask.getLsbD 63 then s.progFault e .unsupported i.pc none
    else if s.itemHeld i then s.stall e
    else
      let sc0 := s.itemSc0 i
      let ds := s.decide d 0 0 needR [fa]
      let s := s.countParts (64 + e.val) d (if sc0 then some i.disp.win else none) ((64 + e.val / 8) + d * 2 ^ 20) ds
      match RefAcc.join none 0 1 ds with
      | some a =>
        ((s.reportRefused (64 + e.val) d a).onItem e fun i => { i with refused := i.refused.orElse fun _ => some fa }).finish e 1 id
      | none =>
        let ports := s.hintPorts d mask
        let s := s.forAll ports fun n t => t.emit (.port n (.vdm 0x1F6B 1 0x38 (hintBytes fa x.imm.toNat i.tick) sc0))
        s.finish e (1 + ports.length) id)

/-- The atomic operation of a code (R381). -/
def atomOp (f : Nat) : Option AtomOp := [AtomOp.add, .and, .or, .xor, .swap, .cas, .umin, .umax, .smin, .smax][f]?

/-- An atomic of `n` bytes (R381). -/
def State.atom (e : EngineId) (op : Nat) (x : Fields) (n : Nat) (s : State) : State :=
  s.issue e op x (if x.f = 5 then [x.d, x.a, x.b, x.c] else [x.d, x.a, x.b]) [] fun i s =>
    let a := (s.engine e).addr x
    match atomOp x.f.toNat, s.faFault a n true with
    | none, _ => s.progFault e .unsupported i.pc none
    | _, some st => s.addrFault e st i.pc a
    | some o, none =>
      s.fabric e i a 2 (.atom o (n = 8) ((s.engine e).getS x.b) ((s.engine e).getS x.c)) (.scalar x.d (n = 8))

/-- ATOM32. -/
def execAtom32 (e : EngineId) (x : Fields) (s : State) : Host.Outcome State Fault Refusal := .next (s.atom e 0x38 x 4)

/-- ATOM64. -/
def execAtom64 (e : EngineId) (x : Fields) (s : State) : Host.Outcome State Fault Refusal := .next (s.atom e 0x39 x 8)

/-! ### CRC (R382) -/

/-- CRC state over the low `n` bytes of a number. -/
def crcStep (c : Word) (v n : Nat) : Word := (crcNat n v (c.setWidth 32)).setWidth 64

/-- CRCL. -/
def execCrcl (e : EngineId) (x : Fields) (s : State) : Host.Outcome State Fault Refusal :=
  .next (s.issue e 0x3C x [x.d] [lineReg x.a] fun i s =>
    let n := x.imm.toNat % 128
    let l := (s.engine e).getL (lineReg x.a)
    if n = 0 || 64 < n then s.progFault e .unsupported i.pc none
    else if l.2 then s.progFault e .poison i.pc none
    else s.finish e 4 fun g => g.setS x.d (crcStep (g.getS x.d) l.1.toNat n))

/-- CRCS. -/
def execCrcs (e : EngineId) (x : Fields) (s : State) : Host.Outcome State Fault Refusal :=
  .next (s.issue e 0x3D x [x.d, x.a, x.b] [] fun i s =>
    let n := ((s.engine e).getS x.b).toNat
    let a := ((s.engine e).getS x.a).toNat
    if n = 0 || 4096 < n then s.progFault e .unsupported i.pc none
    else if s.scratchSize i.disp.domain < a + n then s.progFault e .denied i.pc (some a)
    else s.finish e (2 + ceilDiv n 16) fun g => g.setS x.d (crcStep (g.getS x.d) (s.scratchRead e i a n) n))

end Sys2Proof.Machine
end

