-- ==== Sys2Proof/Machine/FabricOps.lean ====
section
/-! DEFINITION. Operations on messages in the core: classes, replies, columns, order and arbitration (spec 05, R243 apart). -/

namespace Sys2Proof

/-- What a message is for the flush of R233: a non-posted request, a posted message, a response, or a snoop. -/
inductive MSort where
  | np | posted | resp | snoop
  deriving DecidableEq, Repr

/-- NP of R190 and the rows of R233. -/
def MKind.sort : MKind → MSort
  | .memRdS | .memRdX | .memUpg | .memRdU | .memWr | .memCev | .memConflict | .cacheRd _ | .cacheWr | .ioRd | .ioAtomic | .ioIdReq
  | .svcRd => .np
  | .ioWr | .ioIdPosted | .svcWr => .posted
  | .memDrs | .memNdr | .biRspI | .biRspS | .fwdData | .fwdNack | .cacheD2hData | .cacheD2hRsp | .cacheH2dRsp
  | .cacheH2dData | .ioCpl => .resp
  | .biSnp | .fwdReq | .cacheH2dReq => .snoop

/-- A CXL.mem request, as the rows of R201 and R404 tell it from others. -/
def MKind.isMemRead : MKind → Bool
  | .memRdS | .memRdX | .memRdU => true
  | _ => false

def MKind.isMemWrite : MKind → Bool
  | .memUpg | .memWr | .memCev | .memConflict => true
  | _ => false

/-- Kinds that carry data cells. -/
def MKind.hasData : MKind → Bool
  | .memWr | .memDrs | .fwdData | .cacheD2hData | .cacheH2dData | .ioWr | .ioAtomic | .ioCpl | .ioIdPosted | .svcWr => true
  | _ => false

/-- Service class of a message outside SC0 (00; R18, R322). -/
def baseClass (src : Src) (k : MKind) : Nat :=
  match src with
  | .svc _ | .mar | .recorder => 7
  | .engine _ => 2
  | _ =>
    match k with
    | .memRdS | .memRdX | .memUpg | .memRdU | .memWr | .memCev | .memConflict | .cacheRd _ | .cacheWr => 2
    | .memDrs | .memNdr | .fwdData | .fwdNack | .cacheD2hData | .cacheH2dRsp | .cacheH2dData => 3
    | .biSnp | .biRspI | .biRspS | .fwdReq | .cacheD2hRsp | .cacheH2dReq => 1
    | .ioWr | .ioIdPosted => 4
    | .ioRd | .ioAtomic | .ioIdReq => 5
    | .ioCpl => 6
    | .svcRd | .svcWr => 7

/-- PROTO of R190. -/
def protoOf (src : Src) (k : MKind) : Nat :=
  match src with
  | .svc _ | .mar | .recorder => 4
  | .engine _ | .home _ => 3
  | .port _ =>
    match k with
    | .memRdS | .memRdX | .memUpg | .memRdU | .memWr | .memCev | .memConflict | .memDrs | .memNdr | .biSnp | .biRspI | .biRspS => 1
    | .cacheRd _ | .cacheWr | .cacheD2hRsp | .cacheD2hData | .cacheH2dReq | .cacheH2dRsp | .cacheH2dData => 2
    | _ => 0

/-- P of R429: payload bytes of a message whose length field is `len`. -/
def payload (k : MKind) (len : Nat) : Nat :=
  if !k.hasData then 0 else if k.isIo || k = .svcWr then len else 64

/-- Kind of the completion that a non-posted request gets from the flush: S2M DRS or NDR, a CXL.cache answer, a CXL.io completion. -/
def MKind.flushKind (k : MKind) : MKind :=
  if k.isMemWrite then .memNdr
  else match k with
    | .cacheRd _ => .cacheH2dData
    | .cacheWr => .cacheH2dRsp
    | .ioRd | .ioAtomic | .ioIdReq => .ioCpl
    | _ => .memDrs

/-- The message needs its LAST cell before it starts at egress (R211): CXL.mem and CXL.cache content. -/
def MKind.wholeOnly (k : MKind) : Bool := !k.isIo

end Sys2Proof

namespace Sys2Proof.Machine

/-! ### Sources -/

/-- Inlet of the service blocks for an address: that of its home, or of the next home once its column has failed (R18, R317). -/
def State.inlet (s : State) (fa : Nat) : Nat :=
  let h := homeOf fa
  72 + if (s.fab.columns.toList.getD (72 + h) Column.init).down then (h + 1) % 16 else h

/-- SRC of R190: a service message stands at the inlet of its address (R18, R317). -/
def State.srcNo (s : State) (src : Src) (fa : Nat) : Nat :=
  match src with
  | .port p => s.lowest p.val
  | .engine e => 64 + e.val / 8
  | .home h => 72 + h.val
  | _ => s.inlet fa

/-- Source number under which SC0 requests are tracked (R76). -/
def State.sc0Src (s : State) : Src → Nat
  | .port p => s.lowest p.val
  | .engine e => 64 + e.val
  | _ => 88

/-- How a request ends without its target. -/
inductive Ending where
  | portDown | timeout | poison | refused (lock : Bool) | noDecision | domainReset
  deriving DecidableEq, Repr

def Ending.status : Ending → Status
  | .portDown => .portDown
  | .timeout => .timeout
  | .poison => .poison
  | .refused l => if l then .locked else .denied
  | .noDecision => .denied
  | .domainReset => .domainReset

/-- What a port sees of it: CXL.mem reads and cache reads get poisoned data, CXL.mem writes Cmp, CXL.io a completion (R201, R209,
R215, R233, R404). -/
def Ending.toPort (e : Ending) (k : MKind) (tag : Nat) : PMsg :=
  if k.isMemWrite then .cmp tag
  else if k.isMemRead then .poisonData tag
  else match k, e with
    | .cacheRd _, _ => .poisonData tag
    | .cacheWr, _ => .cmp tag
    | _, .noDecision => .unsupportedRequest tag
    | .ioRd, .refused _ => .poisonData tag
    | .ioRd, .poison => .poisonData tag
    | .ioRd, .domainReset => .poisonData tag
    | _, _ => .cplAbort tag

/-- A port carries messages now. -/
def State.carries (s : State) (n : Nat) : Bool :=
  (s.portN n).state = .active || (s.portN n).state = .quiesce

/-- One non-posted request of a port less outstanding. -/
def State.answered (n : Nat) (s : State) : State := s.onPortN n fun p => { p with outNp := p.outNp - 1 }

def State.split (s : State) (n tag : Nat) : Option Split := s.fab.splits.find? fun x => x.port = n && x.tag = tag

/-- One part of a split request of port `n` is done (R195): whether the request is done with it (a request that was not split
always is), and the completion it owes in place of its data. -/
def State.endPart (n tag : Nat) (bad : Option PMsg) (s : State) : Bool × Option PMsg × State :=
  match s.split n tag with
  | none => (true, bad, s)
  | some x =>
    let bad := x.bad.orElse fun _ => bad
    let rest := s.fab.splits.filter fun y => !(y.port = n && y.tag = tag)
    if x.left ≤ 1 then (true, bad, s.onFab fun f => { f with splits := rest })
    else (false, bad, s.onFab fun f => { f with splits := ⟨n, tag, x.left - 1, bad⟩ :: rest })

/-- Complete a non-posted request to its source without its target. -/
def State.reply (src : Src) (k : MKind) (tag addr : Nat) (e : Ending) (s : State) : State :=
  match src with
  | .port p =>
    let n := s.lowest p.val
    let x := s.endPart n tag (some (e.toPort k tag))
    if x.1 then
      let s := (x.2.2.sc0Done n tag 0).answered n
      match x.2.1 with
      | some m => if s.carries n then s.emit (.port n m) else s
      | none => s
    else x.2.2
  | _ =>
    let sc0 := s.fab.sc0.any fun r => r.src = s.sc0Src src && r.tag = tag
    let s := s.sc0Done (s.sc0Src src) tag 0
    s.emit (.core
      { src := src, dst := Fin.ofNat 88 (s.srcNo src addr), kind := k, cls := if sc0 then 0 else 3, fa := addr, tag := tag
        epoch := none, data := BitVec.allOnes 512, poison := true, status := e.status, code := 0, be := 0, atom := none })

/-- Record an error in a port's AER capability (R177, R201). -/
def State.aer (n : Nat) (x : AerErr) (s : State) : State := s.onPortN n fun p => { p with aer := x :: p.aer }

/-! ### Ledger, columns and order -/

/-- A message of epoch `e` becomes live (R205). -/
def State.ledgerAdd (e : Nat) (s : State) : State :=
  s.onFab fun f => { f with ledger := Tab.upd natAt f.ledger e (· + 1) }

/-- A message of epoch `e` is live no more. -/
def State.ledgerSub (e : Nat) (s : State) : State :=
  s.onFab fun f => { f with ledger := Tab.upd natAt f.ledger e (· - 1) }

def State.columnN (s : State) (m : Nat) : Column := s.fab.columns.toList.getD m Column.init

def State.onColumnN (m : Nat) (f : Column → Column) (s : State) : State :=
  if h : m < 88 then s.onColumn ⟨m, h⟩ f else s

/-- Cells of SC0 messages in a column. -/
def State.sc0Cells (s : State) (m : Nat) : Nat :=
  ((s.fab.msgs.filter fun x => x.queued && !x.skip && x.dst = m && x.cls = 0).map Msg.cells).foldl (· + ·) 0

/-- The reserve takes the free cells it lacks (R221, R222). -/
def State.settleRsv (m : Nat) (s : State) : State :=
  let held := s.sc0Cells m
  s.onColumnN m fun c => { c with rsv := min c.free (c.rsvWant - min c.rsvWant held) }

/-- Change one message. -/
def State.onMsg (id : Nat) (f : Msg → Msg) (s : State) : State :=
  s.onFab fun g => { g with msgs := g.msgs.map fun m => if m.id = id then f m else m }

def State.msg (s : State) (id : Nat) : Option Msg := s.fab.msgs.find? fun m => m.id = id

/-- Return a message's cells to its column. -/
def State.freeCells (m : Msg) (s : State) : State :=
  if m.queued && !m.skip then
    (s.onColumnN m.dst fun c => { c with free := c.free + m.cells, np := if m.np then c.np - 1 else c.np }).settleRsv m.dst
  else s

/-! ### Receive credits (R175, R177, R180 to R182) -/

def State.onCredit (n ch : Nat) (f : Credit → Credit) (s : State) : State :=
  s.onPortN n fun p => { p with link := { p.link with
    credits := if h : ch < 16 then p.link.credits.set ch (f p.link.credits[ch]) else p.link.credits } }

def State.credit (s : State) (n ch : Nat) : Credit := (s.portN n).link.credits.toList.getD ch Credit.zero

/-- CXL.cache and CXL.mem channels of a link at version 0 return credits by increments (R181). -/
def State.incremental (s : State) (n ch : Nat) : Bool := (s.portN n).negVer = 0 && 1 ≤ ch && ch ≤ 12

/-- Credits of a channel freed since the last report. -/
def Credit.owedH (c : Credit) : Nat := (c.rxHLim + 2 ^ 12 - c.rxHTold) % 2 ^ 12
def Credit.owedD (c : Credit) : Nat := (c.rxDLim + 2 ^ 16 - c.rxDTold) % 2 ^ 16

/-- The credits of the channels of R181 that no flit has returned yet. -/
def State.returnsDue (s : State) (n : Nat) : List (Nat × Nat × Nat) :=
  ((List.range 13).filter fun ch => s.incremental n ch && ((s.credit n ch).owedH ≠ 0 || (s.credit n ch).owedD ≠ 0)).map fun ch =>
    (ch, (s.credit n ch).owedH, (s.credit n ch).owedD)

/-- A channel's freed credits are reported now. -/
def State.creditsTold (n ch : Nat) (s : State) : State :=
  s.onCredit n ch fun c => { c with rxHTold := c.rxHLim, rxDTold := c.rxDLim, sentAt := s.now }

/-- A flit with transaction-layer content leaves for the first time: its number, its place in the Yo-yo, and the credit returns that it
takes along (R160, R181); the replay timer starts with the oldest (R163). -/
def State.sendFlit (n : Nat) (f : TxFlit) (s : State) : State :=
  let p := s.portN n
  let r := s.returnsDue n
  let s := s.forAll r fun x t => t.creditsTold n x.1
  let s := s.onPortN n fun p => { p with link :=
    { p.link with
        txSeq := (p.link.txSeq + 1) % seqSpace p.mode, yoyo := p.link.yoyo ++ [⟨p.link.txSeq, f, r⟩]
        replayFrom := if p.link.yoyo.isEmpty then s.now else p.link.replayFrom } }
  s.emit (.port n (.flit p.link.txSeq r))

/-- Report the credits of a channel: the Merad credit DLLPs (R183), the standard's UpdateFC, or a flit with the increments, which waits
for room in the Yo-yo. None is sent in Recovery (R116). -/
def State.sendCredit (n ch : Nat) (s : State) : State :=
  let c := s.credit n ch
  if (s.portN n).retrain || (ch = 0 && (s.portN n).negVer = 0) then s
  else if s.incremental n ch then
    let f : TxFlit := { uses := [], tl := true, sc0 := false, np := [], posted := 0 }
    if (c.owedH ≠ 0 || c.owedD ≠ 0) && s.yoyoRoom n f then s.sendFlit n f else s
  else if 13 ≤ ch then (s.emit (.port n (.updateFc ch c.rxHLim c.rxDLim))).creditsTold n ch
  else
    let dllp (sub v : Nat) : PMsg := .creditDllp [0x30, sub * 16 + ch, v / 256, v % 256]
    ((s.emit (.port n (dllp 1 c.rxHLim))).emit (.port n (dllp 2 c.rxDLim))).creditsTold n ch

/-- Credits of a channel that the partner has consumed and not been given back. -/
def Credit.rxUsedH (c : Credit) : Nat := (c.rxHCons + c.rxHAdv + 2 ^ 12 - c.rxHLim) % 2 ^ 12
def Credit.rxUsedD (c : Credit) : Nat := (c.rxDCons + c.rxDAdv + 2 ^ 16 - c.rxDLim) % 2 ^ 16

/-- Give credits back when cells leave the receive buffer (R175), and report them once an eighth of the advertisement is unreported
(R182). -/
def State.giveBack (n ch h d : Nat) (s : State) : State :=
  let told := (s.credit n ch).owedH = 0 && (s.credit n ch).owedD = 0
  let s := s.onCredit n ch fun c =>
    { c with rxHLim := (c.rxHLim + min h c.rxUsedH) % 2 ^ 12, rxDLim := (c.rxDLim + min d c.rxUsedD) % 2 ^ 16
             freeAt := if told then s.now else c.freeAt }
  let c := s.credit n ch
  if (c.owedH ≠ 0 && c.rxHAdv ≤ 8 * c.owedH) || (c.owedD ≠ 0 && c.rxDAdv ≤ 8 * c.owedD) then s.sendCredit n ch else s

/-- A message of a port leaves the receive buffer: its data, and its header once no part that shares it is left there (R195). -/
def State.leaveBuffer (m : Msg) (s : State) : State :=
  if m.input < 64 && !m.queued && !m.flush && s.carries m.src then
    let more := s.fab.msgs.any fun x => x.id ≠ m.id && !x.queued && !x.skip && x.group = m.group
    s.giveBack m.src m.ch (if more then 0 else 1) m.units
  else s

/-- A completion of R234 has left the down port's input (R236). -/
def State.owedLeaves (m : Msg) (s : State) : State :=
  if m.flush && !m.queued then s.onPortN m.src fun p => { p with flushOwed := p.flushOwed - 1 } else s

/-- Take a message out of the core. -/
def State.takeOff (m : Msg) (s : State) : State :=
  let s := ((s.leaveBuffer m).owedLeaves m).onFab fun f =>
    { f with
        msgs := f.msgs.filter fun x => x.id ≠ m.id
        arbs := f.arbs.map fun a => if a.busy = some m.id then { a with busy := none } else a }
  (s.freeCells m).ledgerSub m.epoch

/-- Consume skip tokens that stand next in a flow (R215, R229). -/
def State.consumeSkips (flow : Nat) : Nat → State → State
  | 0, s => s
  | n + 1, s =>
    match s.fab.msgs.find? fun m => m.skip && m.flow = flow && m.seq = Tab.get natAt s.fab.expect flow with
    | some m =>
      (s.onFab fun f =>
        { f with
            msgs := f.msgs.filter fun x => x.id ≠ m.id
            expect := Tab.set natAt f.expect flow ((m.seq + 1) % 65536) }).consumeSkips flow n
    | none => s

/-- The next expected SEQ of a flow advances by one (R229). -/
def State.advanceFlow (flow : Nat) (s : State) : State :=
  (s.onFab fun f => { f with expect := Tab.upd natAt f.expect flow fun q => (q + 1) % 65536 }).consumeSkips flow s.fab.msgs.length

/-- Replace a message by a skip token that holds no cell (R215). A message held at ingress has no SEQ yet and leaves none. -/
def State.discardMsg (m : Msg) (s : State) : State :=
  let s := s.count 0x12 m.dst 1 m.counted
  if m.held then s.takeOff m
  else
    let s := (((s.leaveBuffer m).owedLeaves m).freeCells m).ledgerSub m.epoch
    let s := s.onFab fun f => { f with arbs := f.arbs.map fun a => if a.busy = some m.id then { a with busy := none } else a }
    (s.onMsg m.id fun x => { x with skip := true, started := false }).consumeSkips m.flow s.fab.msgs.length

/-- L5 and L6: SEQ, GEN and DST (R202, R228). -/
def State.stampSeq (id : Nat) (s : State) : State :=
  match s.msg id with
  | none => s
  | some m =>
    let seq := Tab.get natAt s.fab.flowSeq m.flow
    let s := s.onFab fun f => { f with flowSeq := Tab.set natAt f.flowSeq m.flow ((seq + 1) % 65536) }
    s.onMsg id fun x =>
      { x with
          seq := seq, held := false, gen := if m.port < 64 then (s.portN m.port).gen.toNat else 0
          dst := if m.port < 64 then m.port + seq % s.nslices m.port else m.port }

/-- XBR_SAF of a port for a class (R216). -/
def State.saf (s : State) (n cls : Nat) : Bool := n < 64 && flag (s.rd R.XBR_SAF_SAF n) cls

/-- The completion with PORT_DOWN of a request toward a down port, at the input endpoint that the request's column belongs to
(R233, R234). It carries the request's epoch, and travels in SC0 for a request admitted as SC0 (R695). -/
def State.flushCpl (s : State) (m : Msg) : Msg :=
  let k := m.kind.flushKind
  let poison : Bool := k = .memDrs || k = .cacheH2dData
  let cls := if m.sc0a then 0 else if k = .ioCpl then 6 else 3
  { id := s.fab.nextId, src := m.port, dst := m.src, cls := cls, proto := m.proto
    ncell := if poison then 1 else 0, domain := m.domain, epoch := m.epoch, gen := 0, sf := s.saf m.src cls, sh := false, sc0a := m.sc0a
    addr := 0, seq := 0, np := false, stamp := s.now % 2 ^ 32, hs := 0, win := m.win, head := 0
    body := if poison then [⟨BitVec.allOnes 512, true⟩] else [], input := m.dst, port := m.src, ld := 0, pbr := none, kind := k
    tag := m.tag, status := .portDown
    owed := match m.from_ with
      | .port _ => some (Ending.portDown.toPort m.kind m.tag)
      | _ => none
    flush := true, last := true, bad := false, skip := false, held := false, queued := false, since := 0, started := false
    restarts := 0, safIn := false, from_ := if h : m.port < 64 then .port ⟨m.port, h⟩ else m.from_, bytes := if poison then 64 else 0
    final := true, waited := false, ch := 0, group := s.fab.nextId, units := 0 }

/-- The completion enters the core at the down port's input; one toward a port that is down too is dropped (R233). -/
def State.enterFlushCpl (m : Msg) (s : State) : State :=
  if m.src < 64 && !s.carries m.src then s.bump R.XBR_FLUSH_CPL_COUNT 0 1
  else
    let c := s.flushCpl m
    let s := s.onPortN m.port fun p => { p with flushOwed := p.flushOwed + 1 }
    let s := (s.onFab fun f => { f with msgs := f.msgs ++ [c], nextId := f.nextId + 1, used := f.used || c.epoch = f.epoch }).ledgerAdd c.epoch
    s.stampSeq c.id

/-- R233 for one message found toward a down port, apart from its place in the core. -/
def State.flushResult (m : Msg) (s : State) : State :=
  match m.kind.sort with
  | .np =>
    let s := s.bump R.XBR_FLUSH_NP_COUNT 0 1
    let s := if m.kind = .memWr then s.fc2 m.domain 0x207 m.addr else s
    s.enterFlushCpl m
  | .posted => s.bump R.XBR_FLUSH_POSTED_COUNT 0 1
  | .resp => s.bump R.XBR_FLUSH_CPL_COUNT 0 1
  | .snoop => s.bump R.XBR_FLUSH_CPL_COUNT 0 1

/-- Deal with a message found toward a down port (R233): a skip token is consumed. -/
def State.flushMsg (m : Msg) (s : State) : State :=
  if m.skip then s.onFab fun f => { f with msgs := f.msgs.filter fun x => x.id ≠ m.id } else (s.flushResult m).takeOff m

/-- The device frees every cell of the columns of port `n`, consumes the skip tokens of its flows, and completes the requests that its
partner has taken and not answered (R128, R136, R233). -/
def State.flushColumns (n : Nat) (s : State) : State :=
  let sent := (s.portN n).sent
  let s := s.onPortN n fun p => { p with sent := [] }
  let s := s.forAll (s.fab.msgs.filter fun m => m.port = n && (m.queued || m.skip)) fun m t => t.flushMsg m
  s.forAll sent fun m t => t.flushResult m

/-- Messages partly received from port `n` when it goes down (R214): discarded, or nullified when started. -/
def State.cutInputs (n : Nat) (s : State) : State :=
  s.forAll (s.fab.msgs.filter fun m => m.input < 64 && s.lowest m.input = n && !m.last && !m.skip) fun m t =>
    let t := t.bump R.XBR_COL_TAIL_BAD_COUNT m.dst 1
    if m.started then
      ((t.emit (.egress m m.kind.vdm true)).takeOff m).advanceFlow m.flow
    else t.discardMsg m

/-- Round-robin pointers, deficits and flow numbers of a port at its return to ACTIVE (R227, R228, R237), with the pointers of its
columns (R217); no skip token of its old flows is left (R233). -/
def State.freshPort (n : Nat) (s : State) : State :=
  let touches (k : Nat) : Bool := k / 1024 = n || k / 8 % 128 = n
  let s := s.forAll (s.portEndpoints n) fun ep t => t.onColumnN ep fun c => { c with rr := Column.init.rr }
  s.onFab fun f =>
    { f with
        msgs := f.msgs.filter fun m => !(m.skip && touches m.flow)
        flowSeq := f.flowSeq.filter fun e => !touches e.1
        expect := f.expect.filter fun e => !touches e.1
        arbs := if h : n < 88 then f.arbs.set n Arb.init else f.arbs }

/-! ### Arbitration -/

/-- Rate of a port (R210). -/
def State.portRate (s : State) (n : Nat) : Nat := lanesOf (s.portN n).trained * rate10 (s.portN n).rate

/-- The message may start at its egress (R210 to R213, R216). -/
def State.startable (s : State) (m : Msg) : Bool :=
  m.last || (m.port < 64 && m.restarts = 0 && !m.kind.wholeOnly && !m.sf && s.portRate m.port ≤ s.portRate m.src)

/-- The message next in its flow at an output, that it can start and its link can take (R174, R229). -/
def State.offers (s : State) (port cls : Nat) : List Msg :=
  s.fab.msgs.filter fun m =>
    m.port = port && m.cls = cls && s.inSequence m && !m.started && s.startable m && (64 ≤ port || s.linkTakes port m)

/-- Round robin of source from a pointer. -/
def rrPick (ptr : Nat) (l : List Msg) : Option Msg :=
  l.foldl (fun b m => match b with
    | none => some m
    | some x => if (m.src + 88 - ptr) % 88 < (x.src + 88 - ptr) % 88 then some m else some x) none

/-- A message of a class that SHAPE buckets do not let pass (R434). -/
def State.shaped (s : State) (m : Msg) : Bool :=
  m.port < 64 && !s.proceeds (s.bucketsOf true m.port m.domain m.cls m.epoch) m.bytes

/-- Bellows gates the message in this CCLK (R459). -/
def State.gated (s : State) (m : Msg) : Bool :=
  (m.cls = 2 || m.cls = 4 || m.cls = 5) && m.src < 64 && s.bel.g ≤ 15 && s.bel.g ≤ ((s.now - s.bel.start) * 8 / 5) % 16

/-- Quantum of a class (R225). -/
def State.quantum (s : State) (c : Nat) : Nat :=
  16 * [0, 0, s.rd R.XBR_DWRR_W2, s.rd R.XBR_DWRR_W3, s.rd R.XBR_DWRR_W4, s.rd R.XBR_DWRR_W5, s.rd R.XBR_DWRR_W6,
    s.rd R.XBR_DWRR_W7].getD c 0

/-- The next class of the round. -/
def Arb.next (a : Arb) : Arb := { a with turn := if 7 ≤ a.turn then 2 else a.turn + 1, given := false }

/-- Deficit-weighted round robin (R225, R226): `cand` is the choice of a class, if any. -/
def Arb.dwrr (cand : Nat → Option Msg) (quant : Nat → Nat) : Nat → Arb → Arb × Option Msg
  | 0, a => (a, none)
  | n + 1, a =>
    match cand a.turn with
    | none => Arb.dwrr cand quant n a.next
    | some m =>
      let d := a.deficit.getD a.turn 0 + (if a.given then 0 else quant a.turn)
      if m.cells ≤ d then ({ a with deficit := a.deficit.set a.turn (d - m.cells), given := true }, some m)
      else Arb.dwrr cand quant n { a with deficit := a.deficit.set a.turn d }.next

/-- The choice of an arbiter (R225): the message and the arbiter's new pointers. A class whose messages all stand out of sequence counts
as having no message present (log 68). -/
def State.choose (s : State) (port : Nat) (a : Arb) : Arb × Option Msg :=
  let pick (c : Nat) (l : List Msg) : Option Msg := rrPick (a.rrs.getD c 0) l
  match pick 0 (s.offers port 0), pick 1 (s.offers port 1) with
  | some m, _ => (a, some m)
  | none, some m => (a, some m)
  | none, none =>
    if port < 64 && s.gateQuiet port then (a, none)
    else
      let free (c : Nat) : List Msg := (s.offers port c).filter fun m => !s.shaped m && !s.gated m
      let none_ (c : Nat) : Bool := !(s.fab.msgs.any fun m => m.port = port && m.cls = c && s.inSequence m && !s.shaped m)
      let a := { a with deficit := (List.range 8).map fun c => if none_ c then 0 else a.deficit.getD c 0 }
      Arb.dwrr (fun c => pick c (free c)) s.quantum 13 a

/-- A choice of step 4 passed over a shaped message (SHP_SKIP). -/
def State.passedOver (s : State) (port : Nat) (chosen : Option Msg) : Bool :=
  (match chosen with
    | some m => 2 ≤ m.cls
    | none => true)
  && [2, 3, 4, 5, 6, 7].any fun c => (s.offers port c).any s.shaped

/-- Window whose real-time energy a message's cells belong to (R446). -/
def Msg.rt (m : Msg) : Option Nat := if m.sc0a then some m.win else none

/-- A message starts at its output: pointers, buckets, counters, energy, digest (R225, R427, R441, R444, R524, R569). -/
def State.startMsg (m : Msg) (a : Arb) (s : State) : State :=
  let a := { a with rrs := a.rrs.set m.cls ((m.src + 1) % 88), busy := some m.id }
  let s := if h : m.port < 88 then s.onArb ⟨m.port, h⟩ fun _ => a else s
  let s := s.onMsg m.id fun x => { x with started := true }
  let s := s.spend 14 m.cells m.rt
  let s := s.digest m.dst (if m.port < 72 then 1 else 0) 8 ([m.word0, m.word1, m.word2] ++ if m.port < 64 then
    (if s.recFull then m.bodyWords else []) else m.headWords)
  if m.port < 64 then
    let s := s.chargeBuckets (s.bucketsOf true m.port m.domain m.cls m.epoch) m.bytes
    let s := (s.count 0x03 m.port 1 m.counted).count 0x04 m.port m.bytes m.counted
    s.onBel fun b => { b with traffic := Tab.upd trafficAt b.traffic m.port fun l => match l with
      | x :: t => (x.1, x.2 + m.bytes) :: t
      | [] => [(0, m.bytes)] }
  else s

/-- Bytes of payload that a port accepts or sends count in its bandwidth window (R537). -/
def State.countRx (n bytes : Nat) (s : State) : State :=
  if (Tab.get bwAt s.host.bw n).ntick = 0 then s
  else s.onHost fun h => { h with bw := Tab.upd bwAt h.bw n fun b => { b with rxTick := b.rxTick + bytes } }

def State.countTx (n bytes : Nat) (s : State) : State :=
  if (Tab.get bwAt s.host.bw n).ntick = 0 then s
  else s.onHost fun h => { h with bw := Tab.upd bwAt h.bw n fun b => { b with txTick := b.txTick + bytes } }

/-- A message leaves whole (R229): it is taken off its column; a response to an SC0 request completes it (R76); requests stay
outstanding over a port until they are answered (R135); the completions of a split request leave as one (R195). -/
def State.leave (m : Msg) (s : State) : State :=
  let s := (s.takeOff m).advanceFlow m.flow
  let out := Out.egress m m.kind.vdm false
  if m.port < 64 && s.rec_.st = .replay then s   -- digested at its start, and discarded (R587)
  else if m.port < 64 then
    let s := s.countTx m.port m.bytes
    match m.kind.sort with
    | .np => (s.emit out).onPortN m.port fun p => { p with sent := p.sent ++ [m] }
    | .resp =>
      let x := if m.kind = .ioCpl then s.endPart m.port m.tag m.owed else (true, m.owed, s)
      if x.1 then
        let s := if m.sc0a && m.final then x.2.2.sc0Done m.port m.tag (s.portTerms m.port).egr else x.2.2
        let s := if m.final then s.answered m.port else s
        match x.2.1 with
        | some c => s.emit (.port m.port c)
        | none => s.emit out
      else x.2.2
    | _ => s.emit out
  else s.emit out

end Sys2Proof.Machine
end

