-- ==== Sys2Proof/Machine/HomeOps.lean ====
section
/-! DEFINITION. Operations of home slices: directory, OLC, trackers, snoops, retries, service of requests and completion of
transients (spec 06, 07). -/

namespace Sys2Proof

def HReq.la (r : HReq) : Nat := r.fa.toNat / 64

/-- All bytes of the line are written. -/
def HReq.full (r : HReq) : Bool := r.be = BitVec.allOnes 64

end Sys2Proof

namespace Sys2Proof.Machine

/-! ### Lines, ways and ages -/

/-- State code of R291. -/
def LSt.code : LSt → Nat
  | .s => 0x01 | .e => 0x02 | .m => 0x03 | .oOlc => 0x04 | .oq => 0x05 | .ieD => 0x08 | .imD => 0x09 | .ioD => 0x0A | .esA => 0x0B
  | .msA => 0x0C | .emA => 0x0D | .mmA => 0x0E | .eoA => 0x0F | .moA => 0x10 | .smA => 0x11 | .smDA => 0x12 | .soA => 0x13
  | .soDA => 0x14 | .omA => 0x15 | .ooA => 0x16 | .ooD => 0x17 | .moD => 0x18 | .siA => 0x19 | .eiA => 0x1A | .miA => 0x1B
  | .oiA => 0x1C

/-- The port holds copies: one bit per port of SHR, port 63 has none (R22, R292). -/
def shrBit (n : Nat) : BitVec 63 := BitVec.ofNat 63 (2 ^ n)
def portBit (n : Nat) : BitVec 64 := BitVec.ofNat 64 (2 ^ n)
def portsOf (s : BitVec 63) : BitVec 64 := s.setWidth 64

/-- OWNER for the OLC and in S (R290). -/
def noOwner : Nat := 63

/-- Home slice of a line as an index. -/
def sliceOf (la : Nat) : SliceId := Fin.ofNat 16 (homeOfLa la)

/-- Set of a line across the device: slice * 2048 + set. -/
def setNo (la : Nat) : Nat := homeOfLa la * 2048 + setOf la

/-- Keys of the ways of a line's set. -/
def waysOf (la : Nat) : List Nat := (List.range 16).map fun w => setNo la * 16 + w

/-- Bits 119:0 of a directory entry (R290). -/
def DirEnt.word (d : DirEnt) : BitVec 120 :=
  BitVec.ofNat 120 (d.shr.toNat + (if d.olcv then 2 ^ 63 else 0) + (d.la / 2 ^ 15 % 2 ^ 31) * 2 ^ 64 + d.st.code * 2 ^ 95
    + d.owner % 64 * 2 ^ 100 + d.trk % 4096 * 2 ^ 106 + (if d.watch then 2 ^ 118 else 0) + (if d.rt then 2 ^ 119 else 0))

/-- Bits 36:0 of a tag word of the OLC (R297). -/
def OlcEnt.word (o : OlcEnt) : BitVec 37 :=
  BitVec.ofNat 37 (o.la / 2 ^ 15 % 2 ^ 31 + 2 ^ 31 + (if o.dirty then 2 ^ 32 else 0) + (if o.poison then 2 ^ 33 else 0)
    + (if o.rt then 2 ^ 34 else 0) + (if o.wb then 2 ^ 35 else 0) + (if o.ev then 2 ^ 36 else 0))

/-- The entry, or the tag word, as it is written: with its check bits (R310). -/
def DirEnt.coded (d : DirEnt) : DirEnt := { d with ecc := Config.dirEcc d.word }
def OlcEnt.coded (o : OlcEnt) : OlcEnt := { o with ecc := Config.olcEcc o.word }

def State.setDir (k : Nat) (v : Option DirEnt) (s : State) : State :=
  s.onHome fun h => { h with dir := Tab.set noneAt h.dir k (v.map DirEnt.coded) }

def State.setOlc (k : Nat) (v : Option OlcEnt) (s : State) : State :=
  s.onHome fun h => { h with olc := Tab.set noneAt h.olc k (v.map OlcEnt.coded) }

def State.setTrk (la : Nat) (v : Option Trk) (s : State) : State :=
  s.onHome fun h => { h with trk := Tab.set noneAt h.trk la v }

def State.dirAt (s : State) (k : Nat) : Option DirEnt := Tab.get noneAt s.home.dir k
def State.olcAt (s : State) (k : Nat) : Option OlcEnt := Tab.get noneAt s.home.olc k
def State.trkOf (s : State) (la : Nat) : Option Trk := Tab.get noneAt s.home.trk la

/-- The directory entry of a line with its way. -/
def State.findDir (s : State) (la : Nat) : Option (Nat × DirEnt) :=
  (waysOf la).findSome? fun k => match s.dirAt k with
    | some d => if d.la = la then some (k, d) else none
    | none => none

/-- The OLC way that holds a line. -/
def State.findOlc (s : State) (la : Nat) : Option (Nat × OlcEnt) :=
  (waysOf la).findSome? fun k => match s.olcAt k with
    | some o => if o.la = la then some (k, o) else none
    | none => none

def State.holdsOlc (s : State) (la : Nat) : Bool := (s.findOlc la).isSome

/-- Data of the OLC copy. -/
def State.olcData (s : State) (la : Nat) : Option (Line × Bool) := (s.findOlc la).map fun x => (x.2.data, x.2.poison)

/-- Touch a way: its age becomes 0 and younger ones age by one (R294). -/
def touchAges (l : List Nat) (w : Nat) : List Nat :=
  let a := l.getD w 0
  (List.range 16).map fun i => let x := l.getD i 0; if i = w then 0 else if x < a then x + 1 else x

def State.touchDir (k : Nat) (s : State) : State :=
  s.onHome fun h => { h with dirAge := Tab.upd agesAt h.dirAge (k / 16) fun l => touchAges l (k % 16) }

def State.touchOlc (k : Nat) (s : State) : State :=
  s.onHome fun h => { h with olcAge := Tab.upd agesAt h.olcAge (k / 16) fun l => touchAges l (k % 16) }

/-- The window attributes of a line. -/
def State.lineRt (s : State) (la : Nat) : Bool := ((s.lineWin la).map fun w => w.rt).getD false

def State.isWatched (s : State) (la : Nat) : Bool := ((s.findDir la).map fun x => x.2.watch).getD (s.home.pins.contains la)

/-- Ports whose decode entry for the line's window carries domain `d`: H_D of R265. -/
def State.domainPorts (s : State) (la d : Nat) : BitVec 64 :=
  s.tabs.wins.foldl (fun b e => match e.2 with
    | some w => if w.kind && w.domain = d && w.scope < 64 && w.faRange.1 * mib2 ≤ faOf la && faOf la < w.faRange.2 * mib2
        then b ||| portBit w.scope else b
    | none => b) 0

/-- A line of an SH window bound to domain `d` (R271); where fabric scope alone maps the line, the DOMAIN written there counts (R197;
log 63). -/
def State.lineOfDomain (s : State) (la d : Nat) : Bool :=
  match s.lineOwners la with
  | [] => (s.shOfFa (faOf la)).any fun w => w.domain = d
  | l => l.contains d

/-! ### Requesters and data -/

/-- The host port a request comes from; a CXL.io request of a downstream port has none (R195). -/
def State.portOf (s : State) (r : HReq) : Option Nat :=
  match r.src with
  | .port p => if r.io then none else some (s.lowest p.val)
  | _ => none

/-- The host port that may hold a copy for a request: none once the port is lost, whatever its request is served as (R267, R269). -/
def State.hostOf (s : State) (r : HReq) : Option Nat := (s.portOf r).filter s.carries

/-- Requester as a sharer bit. -/
def State.reqBit (s : State) (r : HReq) : BitVec 63 := ((s.hostOf r).map shrBit).getD 0

/-- Tag under which the host interface's own read of a watched line runs (R279). -/
def recallTag : Nat := 2 ^ 40

/-- Window of the real-time work that a request belongs to (R446). -/
def State.rtOf (s : State) (r : HReq) : Option Nat :=
  if r.sc0 then (s.fab.sc0.find? fun x => x.src = s.sc0Src r.src && x.tag = r.tag).map fun x => x.win else none

/-- Mask of the enabled bytes. -/
def byteMask (be : BitVec 64) : Line :=
  (List.range 64).foldl (fun (m : Line) i => if be.getLsbD i then m ||| BitVec.ofNat 512 (0xFF * 2 ^ (8 * i)) else m) 0

/-- A write merged under byte enables; a full line replaces POISON (R254 onward). -/
def mergeLine (old : Line × Bool) (new : Line) (be : BitVec 64) (poison : Bool) : Line × Bool :=
  ((old.1 &&& ~~~ byteMask be) ||| (new &&& byteMask be), if be = BitVec.allOnes 64 then poison else old.2 || poison)

/-- New value of an atomic (R381) over `w` bits. -/
def atomNew (o : AtomOp) (w prior operand compare : Nat) : Nat :=
  let m := 2 ^ w
  let x := operand % m
  match o with
  | .add => (prior + x) % m
  | .and => prior &&& x
  | .or => prior ||| x
  | .xor => prior ^^^ x
  | .swap => x
  | .cas => if prior = compare % m then x else prior
  | .umin => min prior x
  | .umax => max prior x
  | .smin => if signedBits prior w ≤ signedBits x w then prior else x
  | .smax => if signedBits prior w ≤ signedBits x w then x else prior

/-- Bit position of an atomic's operand in its line. -/
def atomPos (r : HReq) : Nat := 8 * (r.fa.toNat % 64)

/-- Prior value of an atomic's operand (R280). -/
def atomPrior (r : HReq) (op : AtomOp × Bool × Word × Word) (l : Line) : Nat :=
  bits l.toNat (atomPos r) (if op.2.1 then 64 else 32)

/-- The line after a write or an atomic (R280), and the prior value of the operand with the poison of the line it stood in (R312). -/
def writeValue (r : HReq) (op : Option (AtomOp × Bool × Word × Word)) (old : Line × Bool) : (Line × Bool) × (Line × Bool) :=
  match op with
  | none => (mergeLine old r.data r.be r.poison, 0, old.2)
  | some x =>
    let w := if x.2.1 then 64 else 32
    let prior := atomPrior r x old.1
    let new := atomNew x.1 w prior x.2.2.1.toNat x.2.2.2.toNat
    let m : Line := BitVec.ofNat 512 ((2 ^ w - 1) * 2 ^ atomPos r)
    (((old.1 &&& ~~~ m) ||| BitVec.ofNat 512 (new * 2 ^ atomPos r), old.2), BitVec.ofNat 512 prior, old.2)

/-! ### Messages of the home -/

/-- Endpoint that a requester's answers go to. -/
def State.answerTo (s : State) (r : HReq) : Endpoint := Fin.ofNat 88 (s.srcNo r.src r.fa.toNat)

/-- A message of the home slice of a line. -/
def homeMsg (la dst : Nat) (kind : MKind) (cls tag : Nat) (data : Line × Bool) (st : Status) (code : Nat)
    (epoch : Option Nat := none) : CoreMsg :=
  { src := .home (sliceOf la), dst := Fin.ofNat 88 dst, kind := kind, cls := cls, fa := faOf la, tag := tag, epoch := epoch, data := data.1
    poison := data.2, status := st, code := code, be := BitVec.allOnes 64, atom := none }

/-- Rings whose watched doorbell lies in a line are read (R279, R491). -/
def State.watchSignal (la : Nat) (s : State) : State :=
  let hit (r : Option Ring) : Bool := match r with
    | some r => r.dbMode = 0 && r.dbSpace = 0 && r.dbAddr / 64 = la
    | none => false
  let s := (s.bump R.RNG_WATCH_SIG_COUNT 0 1).forAll (s.host.rings.filter fun e => hit e.2) fun e t => t.emit (.doorbellRead e.1 false)
  s.forAll (s.host.evqs.filter fun e => hit e.2) fun e t => t.emit (.doorbellRead e.1 true)

/-- Answer a request (G-S, G-E, Cmp of R253): `withData` for a read, `grant` 0 Cmp, 1 Cmp-S, 2 Cmp-E. -/
def State.respond (r : HReq) (withData : Bool) (grant : Nat) (data : Line × Bool) (st : Status) (s : State) : State :=
  let la := r.la
  let cls := if r.sc0 then 0 else 3
  let dst := (s.answerTo r).val
  if r.tag = recallTag then (if st = .ok then s.watchSignal la else s)   -- a slice that failed signals nothing (R315)
  else if r.io then
    if r.posted then
      let x := s.endPart dst r.tag none
      if x.1 then x.2.2.sc0Done (s.sc0Src r.src) r.tag 0 else x.2.2
    else s.sendCore (homeMsg la dst .ioCpl (if r.sc0 then 0 else 6) r.tag data st 0 r.epoch)
  else
    match s.portOf r with
    | some _ =>
      let s := if withData then s.sendCore (homeMsg la dst .memDrs cls r.tag data st 0 r.epoch) else s
      if !withData || grant ≠ 0 then s.sendCore (homeMsg la dst .memNdr cls r.tag (0, false) st grant r.epoch) else s
    | none => s.sendCore (homeMsg la dst (if withData then .memDrs else .memNdr) cls r.tag data st 0 r.epoch)

/-- A request of this kind is answered with data. -/
def kindReads (k : Nat) : Bool := k = 0 || k = 1 || k = 3 || k = 5

/-- Answer a request that is not performed: a read with poisoned data, a write with Cmp, others with the status. -/
def State.respondFail (r : HReq) (kind : Nat) (st : Status) (s : State) : State :=
  s.respond r (kindReads kind) 0 (BitVec.allOnes 512, true) st

/-- Epoch of the request that the line's tracker serves: what the home sends for it carries that epoch (R205). -/
def State.lineEpoch (s : State) (la : Nat) : Option Nat := ((s.trkOf la).bind Trk.req).map HReq.epoch

/-- Completions that the home owes port `x` for a line (R263). -/
def State.owes (s : State) (la x : Nat) : Bool :=
  (s.home.reads.any fun o => o.la = la && (match o.req with
    | some r => s.portOf r = some x
    | none => false))
  || match s.trkOf la with
    | some t => (match t.req with
        | some r => s.portOf r = some x
        | none => false) || t.queue.any fun q => s.portOf q.req = some x
    | none => false

/-- Send the conflict acknowledgements that nothing holds back any more (R263). -/
def State.settleConfs (la : Nat) (s : State) : State :=
  let go (c : Nat × Nat) : Bool := c.1 = la && !s.owes c.1 c.2
  let ready := s.home.confs.filter go
  let s := s.onHome fun h => { h with confs := h.confs.filter fun c => !go c }
  s.forAll ready fun c t => t.sendCore (homeMsg la c.2 .memNdr 3 0 (0, false) .ok 3)

/-- BISnpData or BISnpInv to each port of a set, one per CCLK (R253, R270). -/
def State.snoop (la : Nat) (ports : BitVec 64) (inv : Bool) (s : State) : State :=
  let l := bitsOf ports
  let s := s.forAll l fun p t => t.sendCore (homeMsg la p .biSnp 1 0 (0, false) .ok (if inv then 0 else 1) (s.lineEpoch la))
  if l.isEmpty then s else s.count 0x23 (homeOfLa la) l.length ⟨some (s.lineDomain la), 1, faOf la, 72 + homeOfLa la⟩

/-- FWD_REQ to an owner (R276, R278), its forward tag the tracker's number. -/
def State.fwdReq (la q tag : Nat) (s : State) : State :=
  ((s.sendCore (homeMsg la q .fwdReq 1 tag (0, false) .ok 0 (s.lineEpoch la))).bump R.HOM_FWD_COUNT (homeOfLa la) 1).count 0x23 (homeOfLa la) 1
    ⟨some (s.lineDomain la), 1, faOf la, 72 + homeOfLa la⟩

/-- Port that backs a line, by its window's target list (R251). -/
def State.backingPort (s : State) (la : Nat) : Option Nat :=
  (s.lineWin la).bind fun w => s.targetPort w (faOf la - w.faRange.1 * mib2)

/-- Rd: a backing read (R253), for the tracker or for a request served in a stable state. -/
def State.readMem (la : Nat) (o : Option HReq) (kind grant : Nat) (s : State) : State :=
  let s := s.onHome fun h => { h with reads := h.reads ++ [⟨la, o, kind, grant⟩] }
  s.sendCore (homeMsg la ((s.backingPort la).getD 0) .memRdU 2 la (0, false) .ok 0 ((o.map HReq.epoch).orElse fun _ => s.lineEpoch la))

/-! ### The OLC (R297 to R306) -/

/-- A line's directory entry is transient. -/
def State.transient (s : State) (la : Nat) : Bool := ((s.findDir la).map fun x => !x.2.st.stable).getD false

def State.olcPinned (s : State) (o : OlcEnt) : Bool := o.rt || o.wb || o.ev || s.transient o.la

/-- Free OLC ways of a line's set. -/
def State.olcFree (s : State) (la : Nat) : List Nat := (waysOf la).filter fun k => (s.olcAt k).isNone

/-- Ways of the set that open writes will take when their transients end. -/
def State.olcOwed (s : State) (la : Nat) : Nat :=
  (s.home.trk.filter fun e => match e.2 with
    | some t => setNo t.la = setNo la && t.la ≠ la && (t.kind = 4 || t.kind = 5) && !t.written && !s.holdsOlc t.la
    | none => false).length

/-- What R299 finds for a line that must be written to the OLC. -/
inductive Room where
  | ready | victim (key : Nat) | full
  deriving DecidableEq, Repr

def highestAge (ages : List Nat) (ks : List Nat) : Option Nat :=
  ks.foldl (fun b k => match b with
    | none => some k
    | some x => if ages.getD (x % 16) 0 < ages.getD (k % 16) 0 then some k else some x) none

def State.olcRoom (s : State) (la : Nat) : Room :=
  if s.holdsOlc la || s.olcOwed la < (s.olcFree la).length then .ready
  else
    let c := (waysOf la).filter fun k => match s.olcAt k with
      | some o => !s.olcPinned o && !s.home.wbOut.contains o.la
      | none => false
    match highestAge (Tab.get agesAt s.home.olcAge (setNo la)) c with
    | some k => .victim k
    | none => .full

/-- Write-backs that a slice has issued in this microsecond, and whether HOM_WB.RATE allows another (R304). -/
def State.wbUsed (s : State) (h : SliceId) : Nat := if (s.slice h).wbAt = s.now / 1000 then (s.slice h).wbUs else 0
def State.wbAllowed (s : State) (la : Nat) : Bool := s.wbUsed (sliceOf la) < s.rd R.HOM_WB_RATE

/-- Issue a write-back of an OLC line (R302): DIRTY clears at its issue (R304); `ev` marks a forced eviction (R299). -/
def State.issueWb (key : Nat) (ev forced : Bool) (s : State) : State :=
  match s.olcAt key with
  | none => s
  | some o =>
    let h := homeOfLa o.la
    let s := s.setOlc key (some { o with wb := true, ev := ev, dirty := false })
    let used := s.wbUsed (sliceOf o.la)
    let s := s.onSlice (sliceOf o.la) fun x => { x with wbFlight := x.wbFlight + 1, wbUs := used + 1, wbAt := s.now / 1000 }
    let s := s.onHome fun g => { g with wbOut := o.la :: g.wbOut }
    let s := s.sendCore { homeMsg o.la ((s.backingPort o.la).getD 0) .memWr 2 o.la (o.data, o.poison) .ok 0 with be := BitVec.allOnes 64 }
    let s := if forced then s.bump R.HOM_WB_FORCED_COUNT h 1 else s.bump R.HOM_WB_SLACK_COUNT h 1
    (s.spend 16 1 none).count 0x24 h 1 ⟨some (s.lineDomain o.la), 2, faOf o.la, 72 + h⟩

/-- W: write a line into the OLC (R253, R299, R305), and signal a watched line (R279). -/
def State.writeLine (la : Nat) (v : Line × Bool) (rt : Option Nat) (s : State) : State :=
  let s := s.spend 17 1 rt
  let s := match s.findOlc la with
    | some (k, o) => (s.setOlc k (some { o with data := v.1, poison := v.2, dirty := true })).touchOlc k
    | none => match s.olcFree la with
      | k :: _ => (s.setOlc k (some ⟨la, true, v.2, s.lineRt la, false, false, v.1, 0⟩)).touchOlc k
      | [] => s
  if s.isWatched la then s.watchSignal la else s

/-- The OLC copy of a line is discarded. -/
def State.dropOlc (la : Nat) (s : State) : State :=
  match s.findOlc la with
  | some (k, _) => s.setOlc k none
  | none => s

/-- The entry of a line is freed; one with RT or WATCH stays, without holders (R699). -/
def State.freeEntry (la : Nat) (s : State) : State :=
  match s.findDir la with
  | none => s
  | some (k, d) =>
    if d.rt || d.watch then
      s.setDir k (some { d with st := if s.holdsOlc la then .oOlc else .s, shr := 0, owner := noOwner, olcv := false, trk := 0 })
    else s.setDir k none

/-- Put an entry into a stable state. -/
def State.putEntry (la : Nat) (st : LSt) (shr : BitVec 63) (owner : Nat) (olcv : Bool) (s : State) : State :=
  match s.findDir la with
  | none => s
  | some (k, d) => s.setDir k (some { d with st := st, shr := shr, owner := owner, olcv := olcv, trk := 0 })

/-- Exclusive ownership goes to the requester at once; a lost requester leaves the line without a holder (R269). -/
def State.ownNow (r : HReq) (olcv : Bool) (s : State) : State :=
  match s.hostOf r with
  | some p => s.putEntry r.la .m 0 p olcv
  | none => s.freeEntry r.la

/-- Exclusive ownership granted: a watched line is recalled DELAY_NS later (R279). -/
def State.granted (la : Nat) (s : State) : State :=
  if s.isWatched la then s.onHome fun h => { h with recalls := h.recalls ++ [(la, s.now + s.rd R.HOM_WATCH_DELAY_NS)] } else s

/-- Sharers left: an entry without holders is freed to I or O0. -/
def State.shareOrFree (la : Nat) (st : LSt) (shr : BitVec 63) (s : State) : State :=
  if shr = 0 then s.freeEntry la else s.putEntry la st shr noOwner false

/-! ### NAK, retry and guard (R272 to R275, R287) -/

/-- Number of guard positions in use in a slice. -/
def Slice.guards (x : Slice) : Nat := (x.retry.filter fun q => q.guard.isSome).length

/-- A guard entry order later than every one in use. -/
def Slice.nextGuard (x : Slice) : Nat := x.retry.foldl (fun n q => max n ((q.guard.map fun g => g.1 + 1).getD 0)) 0

/-- Change the record of an SC0 request under way. -/
def State.onSc0 (r : HReq) (f : Sc0Live → Sc0Live) (s : State) : State :=
  let src := s.sc0Src r.src
  s.onFab fun g => { g with sc0 := g.sc0.map fun x => if x.src = src && x.tag = r.tag then f x else x }

/-- A NAK (R272): the request waits n × 64 ns, takes a guard position from its fourth on, and is given up at its sixteenth. `way`
tells that it wants a way of its set. An SC0 request is stored even when the store holds 1,024 requests already (R274; log 64). -/
def State.nak (q : Retry) (way : Bool) (s : State) : State :=
  let la := q.req.la
  let h := sliceOf la
  let n := q.tries + 1
  let s := (s.bump R.HOM_NAK_COUNT h.val 1).count 0x21 h.val 1 ⟨some q.req.domain.val, if q.req.sc0 then 0 else 2, faOf la, 72 + h.val⟩
  let s := s.digest (72 + h.val) 1 1 [0xFF]
  let s := if q.req.sc0 then s.onSc0 q.req fun x => { x with bound := 0 } else s
  if 16 ≤ n then
    ((s.bump R.HOM_EXHAUST_COUNT h.val 1).fc2 q.req.domain.val 0x203 (faOf la)).respondFail q.req q.kind .retryExhausted
  else
    let x := s.slice h
    let g := match q.guard with
      | some (o, _) => some (o, way)
      | none => if 4 ≤ n && x.guards < 32 then some (x.nextGuard, way) else none
    let s := if g.isSome && q.guard.isNone then s.bump R.HOM_GUARD_COUNT h.val 1 else s
    s.onSlice h fun x => { x with retry := x.retry ++ [{ q with tries := n, due := s.fine + 64 * n * 2 ^ 32, guard := g }] }

/-- A NAK because the whole set is pinned (R31). -/
def State.nakFull (q : Retry) (s : State) : State := (s.bump R.HOM_FULLPIN_COUNT (homeOfLa q.req.la) 1).nak q true

/-! ### Transients -/

/-- Lowest tracker number free in a slice. -/
def State.freeTrkNo (s : State) (h : Nat) : Nat :=
  let used := s.home.dir.filterMap fun e => match e.2 with
    | some d => if e.1 / 32768 = h && !d.st.stable then some d.trk else none
    | none => none
  ((List.range (used.length + 1)).find? fun n => !used.contains n).getD 0

/-- L_snp of R75 over the ports snooped, by the terms that stood at the request's stamp (R76); 0 without one. -/
def Sc0Live.snpOf (x : Sc0Live) (ports : List Nat) : Nat :=
  if ports.isEmpty then 0 else (SnpTerm.worst (ports.map fun p => x.terms.getD p ⟨0, 0, 0, 0⟩)).snp ports.length

/-- An SC0 request snoops for a line: the L_snp of the sharers recorded when it arrived, once a line (R286). -/
def State.boundSnoops (r : HReq) (la : Nat) (ports : BitVec 64) (s : State) : State :=
  if r.sc0 then
    s.onSc0 r fun x => if x.snps.any (·.1 = la) then x else { x with snps := x.snps ++ [(la, x.snpOf (bitsOf ports))] }
  else s

/-- What a transient begins with. -/
structure Start where
  st      : LSt
  snp     : BitVec 64 := 0
  inv     : Bool := true
  rd      : Bool := false
  fwd     : Bool := false
  wb      : Bool := false
  written : Bool := false
  prior   : Line × Bool := (0, false)
  why     : Why := .request
  shr0    : BitVec 63 := 0
  keep    : Nat := 0
  deriving DecidableEq, Repr

/-- Begin a transient of the entry at way `k` for a request, or for none. -/
def State.beginTrk (q : Option Retry) (k : Nat) (d : DirEnt) (x : Start) (s : State) : State :=
  let la := d.la
  let t : Trk :=
    { la := la, why := x.why, req := q.map fun q => q.req, kind := (q.map fun q => q.kind).getD 8, op := q.bind fun q => q.op, keep := x.keep
      await := x.snp, inv := x.inv, awaitMem := x.rd, awaitFwd := x.fwd, awaitWb := x.wb, rsps := 0, mem := none, fwd := none
      orig := d.st, shr0 := x.shr0, owner0 := d.owner, written := x.written, prior := x.prior, sent := s.now, queue := [], after := []
      wbTaken := false, snooped := x.snp, lostDue := false, wbPend := none, mute := false, wbDone := false }
  let n := s.freeTrkNo (homeOfLa la)
  let s := (s.setDir k (some { d with st := x.st, trk := n })).setTrk la (some t)
  let s := match q with
    | some q => (s.touchDir k).boundSnoops q.req la x.snp
    | none => s
  let s := s.snoop la x.snp x.inv
  let s := if x.rd then s.readMem la none 8 0 else s
  if x.fwd then s.fwdReq la d.owner n else s

/-- Snoops that take every holder of an entry away, and the state while they run (R265). -/
def evictStart (d : DirEnt) (ports : BitVec 64) (why : Why) (shr0 : BitVec 63) : Start :=
  match d.st with
  | .e => { st := .eiA, snp := ports, why := why, shr0 := shr0 }
  | .m => { st := .miA, snp := ports, why := why, shr0 := shr0 }
  | .oOlc => { st := .oiA, snp := ports, why := why, shr0 := shr0 }
  | .oq => { st := .oiA, snp := ports, wb := ports.getLsbD d.owner, why := why, shr0 := shr0 }
  | _ => { st := .siA, snp := ports, why := why, shr0 := shr0 }

/-- Every port that holds a copy. -/
def DirEnt.holders (d : DirEnt) : BitVec 64 :=
  match d.st with
  | .e | .m => portBit d.owner
  | .oq => portsOf d.shr ||| portBit d.owner
  | _ => portsOf d.shr

/-- Port `x` holds a copy. -/
def DirEnt.holds (d : DirEnt) (x : Nat) : Bool := d.holders.getLsbD x

/-- Class of a replacement candidate (R295). -/
def victimClass (d : DirEnt) : Nat :=
  match d.st with
  | .s => 1 | .oOlc => 2 | .e => 3 | .m => 4 | .oq => 5
  | _ => 6

/-- The replacement victim of a set (R295): first class with a candidate, highest age within it. -/
def State.dirVictim (s : State) (la : Nat) : Option Nat :=
  let c := (waysOf la).filterMap fun k => match s.dirAt k with
    | some d => if d.pinned then none else some (k, victimClass d)
    | none => none
  let best := c.foldl (fun b x => min b x.2) 6
  highestAge (Tab.get agesAt s.home.dirAge (setNo la)) ((c.filter fun x => x.2 = best).map Prod.fst)

/-- A way for a new entry: free, after a victim's eviction, or none. -/
def State.dirRoom (s : State) (la : Nat) : Sum Nat Room :=
  match (waysOf la).find? fun k => (s.dirAt k).isNone with
  | some k => .inl k
  | none => match s.dirVictim la with
    | some k => .inr (.victim k)
    | none => .inr .full

/-- An entry of a line that has none: no holder. -/
def freshEntry (la : Nat) : DirEnt := ⟨la, .s, 0, noOwner, false, false, false, 0, 0⟩

/-- Run `f` with a new entry's way, or evict a victim and NAK (R266, R31). -/
def State.withEntry (q : Retry) (f : Nat → State → State) (s : State) : State :=
  let la := q.req.la
  match s.dirRoom la with
  | .inl k => f k ((s.setDir k (some (freshEntry la))).touchDir k)
  | .inr (.victim k) =>
    match s.dirAt k with
    | some d =>
      let s := s.bump R.HOM_EVICT_COUNT (homeOfLa la) 1
      (s.beginTrk none k d (evictStart d d.holders .victim 0)).nak q true
    | none => s
  | .inr _ => s.nakFull q

/-- Run `f` when the OLC can take the line, or start a victim's write-back and NAK (R299, R31). A write to a line under forced
eviction is NAKed (R300). -/
def State.withOlc (q : Retry) (f : State → State) (s : State) : State :=
  let la := q.req.la
  let ev := ((s.findOlc la).map fun x => x.2.ev).getD false
  if ev then s.nak q true
  else match s.olcRoom la with
    | .ready => f s
    | .victim k => (if s.wbAllowed la then s.issueWb k true true else s).nak q true   -- no more than HOM_WB.RATE a us (R304)
    | .full => s.nakFull q

/-- FWD to an owner is allowed (R278). -/
def State.mayFwd (s : State) (q : Nat) : Bool := 2 ≤ (s.portN q).negVer && s.bit R.HOM_CTRL_FWD_EN

/-- A request served on an OLC line makes the age of its way 0 (R294). -/
def State.touchLine (la : Nat) (s : State) : State :=
  match s.findOlc la with
  | some (k, _) => s.touchOlc k
  | none => s

/-- OLC read of a line for a request (R444, R524). -/
def State.takeOlc (r : HReq) (s : State) : State :=
  ((s.touchLine r.la).spend 16 1 (s.rtOf r)).count 0x22 (homeOfLa r.la) 1 ⟨some r.domain.val, if r.sc0 then 0 else 2, faOf r.la, 72 + homeOfLa r.la⟩

/-- Do: answer from the OLC. -/
def State.doData (r : HReq) (grant : Nat) (s : State) : State :=
  (s.takeOlc r).respond r true grant ((s.olcData r.la).getD (0, false)) .ok

/-! ### Service in stable states (R259) -/

/-- RdS. -/
def State.serveRdS (q : Retry) (s : State) : State :=
  let r := q.req; let la := r.la
  let b := s.reqBit r
  match s.findDir la with
  | none =>
    s.withEntry q fun k s =>
      if s.holdsOlc la then (s.shareOrFree la .oOlc b).doData r 1
      else s.beginTrk (some q) k (freshEntry la) { st := .ieD, rd := true }
  | some (k, d) =>
    let s := s.touchDir k
    match d.st with
    | .s => (s.putEntry la .s (d.shr ||| b) noOwner false).readMem la (some r) 0 1
    | .e =>
      if s.hostOf r = some d.owner then (s.readMem la (some r) 0 2).granted la
      else s.beginTrk (some q) k d { st := .esA, snp := portBit d.owner, inv := false, rd := !s.holdsOlc la }
    | .m =>
      if s.hostOf r = some d.owner then (if d.olcv then s.doData r 2 else s.readMem la (some r) 0 2).granted la
      else if s.mayFwd d.owner then s.beginTrk (some q) k d { st := .moD, fwd := true, shr0 := d.shr }
      else s.beginTrk (some q) k d { st := .msA, snp := portBit d.owner, inv := false, rd := !s.holdsOlc la }
    | .oq => s.beginTrk (some q) k d { st := .ooD, fwd := true, shr0 := d.shr }
    | _ => (s.putEntry la .oOlc (d.shr ||| b) noOwner false).doData r 1

/-- RdX, and Upg where it is served as RdX. -/
def State.serveRdX (q : Retry) (s : State) : State :=
  let r := q.req; let la := r.la
  let b := s.reqBit r
  let p := (s.hostOf r).getD noOwner
  match s.findDir la with
  | none =>
    s.withEntry q fun k s =>
      if s.holdsOlc la then ((s.ownNow r true).doData r 2).granted la
      else s.beginTrk (some q) k (freshEntry la) { st := .imD, rd := true }
  | some (k, d) =>
    let s := s.touchDir k
    match d.st with
    | .s =>
      if q.kind = 2 && d.shr &&& b ≠ 0 then
        if d.shr = b then ((s.putEntry la .m 0 p false).respond r false 2 (0, false) .ok).granted la
        else s.beginTrk (some q) k d { st := .smA, snp := portsOf (d.shr &&& ~~~ b) }
      else s.beginTrk (some q) k d { st := .smDA, snp := portsOf (d.shr &&& ~~~ b), rd := true }
    | .e =>
      if p = d.owner then ((s.putEntry la .m 0 p false).readMem la (some r) 1 2).granted la
      else s.beginTrk (some q) k d { st := .emA, snp := portBit d.owner, rd := !s.holdsOlc la }
    | .m =>
      if p = d.owner then (if d.olcv then s.doData r 2 else s.readMem la (some r) 1 2).granted la
      else s.beginTrk (some q) k d { st := .mmA, snp := portBit d.owner, rd := !s.holdsOlc la }
    | .oq =>
      if p = d.owner then s.beginTrk (some q) k d { st := .omA, snp := portsOf d.shr }
      else s.beginTrk (some q) k d { st := .omA, snp := (portsOf d.shr ||| portBit d.owner) &&& ~~~ portBit p, wb := true }
    | _ =>
      if d.shr &&& ~~~ b = 0 then ((s.ownNow r true).doData r 2).granted la
      else s.beginTrk (some q) k d { st := .omA, snp := portsOf (d.shr &&& ~~~ b) }

/-- RdU. -/
def State.serveRdU (q : Retry) (s : State) : State :=
  let r := q.req; let la := r.la
  match s.findDir la with
  | none => if s.holdsOlc la then s.doData r 0 else s.readMem la (some r) 3 0
  | some (k, d) =>
    let s := s.touchDir k
    match d.st with
    | .s => s.readMem la (some r) 3 0
    | .e => s.beginTrk (some q) k d { st := .esA, snp := portBit d.owner, inv := false, rd := !s.holdsOlc la }
    | .m => s.beginTrk (some q) k d { st := .msA, snp := portBit d.owner, inv := false, rd := !s.holdsOlc la }
    | .oq => s.beginTrk (some q) k d { st := .ooD, fwd := true, shr0 := d.shr }
    | _ => s.doData r 0

/-- Full-line writes need no old data. -/
def Retry.partial_ (q : Retry) : Bool := q.op.isSome || !q.req.full

/-- Answer a write or an atomic that is done: an atomic carries the prior value (R280). -/
def State.respondWrite (r : HReq) (kind : Nat) (prior : Line × Bool) (s : State) : State :=
  s.respond r (kind = 5) 0 prior .ok

/-- W of a request over a base line, then what follows. -/
def State.writeReq (r : HReq) (op : Option (AtomOp × Bool × Word × Word)) (base : Line × Bool) (s : State) : (Line × Bool) × State :=
  let v := writeValue r op base
  (v.2, s.writeLine r.la v.1 (s.rtOf r))

/-- WrU and atomics of a line outside an RT window. -/
def State.serveWrU (q : Retry) (s : State) : State :=
  let r := q.req; let la := r.la
  s.withOlc q fun s =>
    match s.findDir la with
    | none =>
      match s.olcData la with
      | some base => let x := s.writeReq r q.op base; x.2.respondWrite r q.kind x.1
      | none =>
        if q.partial_ then s.withEntry q fun k s => s.beginTrk (some q) k (freshEntry la) { st := .ioD, rd := true }
        else let x := s.writeReq r q.op (0, false); x.2.respondWrite r q.kind x.1
    | some (k, d) =>
      let s := s.touchDir k
      match d.st with
      | .s => s.beginTrk (some q) k d { st := if q.partial_ then .soDA else .soA, snp := portsOf d.shr, rd := q.partial_ }
      | .e => s.beginTrk (some q) k d { st := .eoA, snp := portBit d.owner, rd := q.partial_ && !s.holdsOlc la }
      | .m => s.beginTrk (some q) k d { st := .moA, snp := portBit d.owner, rd := q.partial_ && !s.holdsOlc la }
      | .oq => s.beginTrk (some q) k d { st := .ooA, snp := portsOf d.shr ||| portBit d.owner, wb := q.partial_ }
      | _ =>
        let x := s.writeReq r q.op ((s.olcData la).getD (0, false))
        if d.shr = 0 then x.2.respondWrite r q.kind x.1
        else x.2.beginTrk (some q) k d { st := .ooA, snp := portsOf d.shr, written := true, prior := x.1 }

/-! ### RT lines (R281 to R285) -/

/-- The request comes from the writer of an RT window (R281); with WRITER 0x3F, from an engine that runs a work item of a domain that
owns the window. -/
def State.isWriter (s : State) (w : DWin) (r : HReq) : Bool :=
  match r.src with
  | .port p => w.writer ≠ 63 && s.lowest p.val = w.writer
  | .engine _ => w.writer = 63 && (r.domain.val = s.lineDomain r.la || (s.lineOwners r.la).contains r.domain.val)
  | _ => false

/-- R282 refuses a request. -/
def State.refuseRt (q : Retry) (s : State) : State :=
  (s.fc2 q.req.domain.val 0x206 (faOf q.req.la)).respondFail q.req q.kind .denied

/-- A write of the writer to an RT line in O(OLC). -/
def State.serveRtWrite (q : Retry) (s : State) : State :=
  let r := q.req; let la := r.la
  match s.findDir la with
  | none => s.respondFail r q.kind .denied
  | some (k, d) =>
    let b := s.reqBit r
    let stay := if r.mv = .i then d.shr &&& ~~~ b else d.shr
    let x := s.writeReq r q.op ((s.olcData la).getD (0, false))
    let snp := portsOf (d.shr &&& ~~~ b)
    let s := x.2.touchDir k
    let keep := stay &&& b
    if snp = 0 then (s.setDir k (some { d with shr := keep })).respondWrite r q.kind x.1
    else s.beginTrk (some q) k { d with shr := keep } { st := .ooA, snp := snp, written := true, prior := x.1 }

/-- Serve a request to an RT line (R282 to R285). -/
def State.serveRt (q : Retry) (w : DWin) (s : State) : State :=
  let r := q.req; let la := r.la
  if q.kind = 1 || q.kind = 2 || ((q.kind = 4 || q.kind = 5 || q.kind = 6) && !s.isWriter w r) then s.refuseRt q
  else
    match s.findDir la, s.trkOf la with
    | some (k, d), some t =>
      if d.st = .ooA then
        if q.kind = 0 then (((s.touchDir k).setDir k (some { d with shr := d.shr ||| s.reqBit r })).doData r 1)
        else if q.kind = 3 then (s.touchDir k).doData r 0
        else ((s.bump R.HOM_RT_WAIT_COUNT (homeOfLa la) 1).boundSnoops r la (portsOf (d.shr &&& ~~~ s.reqBit r))).setTrk la (some { t with queue := t.queue ++ [{ q with kind := if q.kind = 6 then 4 else q.kind }] })
      else s.nak q false
    | _, _ =>
      if q.kind = 0 then s.serveRdS q
      else if q.kind = 3 then s.serveRdU q
      else s.serveRtWrite { q with kind := if q.kind = 6 then 4 else q.kind }

/-! ### Wb and CEv of holders (R259, R262, R264, R698) -/

/-- A stale Wb or CEv (R264). -/
def State.stale (r : HReq) (wb : Bool) (s : State) : State :=
  let s := s.bump R.HOM_STALE_COUNT (homeOfLa r.la) 1
  let s := if wb then s.fc2 r.domain.val 0x205 (faOf r.la) else s
  s.respond r false 0 (0, false) .ok

/-- Cmp to the source of a Wb or CEv. -/
def State.cmp (r : HReq) (s : State) : State := s.respond r false 0 (0, false) .ok

/-- Wb in a stable state. A partial Wb of a line of which the home has no copy reads backing memory first, as a partial write on I
does (log 14). -/
def State.serveWb (q : Retry) (s : State) : State :=
  let r := q.req; let la := r.la
  let x := (s.hostOf r).getD noOwner
  match s.findDir la with
  | none => s.stale r true
  | some (k, d) =>
    match d.st with
    | .e | .m =>
      if x ≠ d.owner then s.stale r true
      else s.withOlc q fun s =>
        let s := s.touchDir k
        if !r.full && !s.holdsOlc la then
          s.beginTrk (some q) k { d with st := .s, shr := 0, owner := noOwner }
            { st := .ioD, rd := true, keep := match r.mv with
              | .i => 0
              | .s => 1
              | .a => 2 }
        else
          let s := (s.writeReq r none ((s.olcData la).getD (0, false))).2
          match r.mv with
          | .i => (s.freeEntry la).cmp r
          | .s => (s.putEntry la .oOlc (shrBit x) noOwner false).cmp r
          | .a => (s.putEntry la .m 0 x true).cmp r
    | .oq =>
      if x ≠ d.owner then s.stale r true
      else s.withOlc q fun s =>
        let s := s.touchDir k
        let shr := if r.mv = .i then d.shr &&& ~~~ shrBit x else d.shr ||| shrBit x
        if !r.full && !s.holdsOlc la then
          s.beginTrk (some q) k { d with st := .oOlc, shr := shr, owner := noOwner } { st := .ioD, rd := true, shr0 := shr, keep := 3 }
        else ((s.writeReq r none ((s.olcData la).getD (0, false))).2.shareOrFree la .oOlc shr).cmp r
    | _ => s.stale r true

/-- Poison W: the line's data is lost (R259, R265, R268). -/
def State.poisonLine (la : Nat) (s : State) : State := s.writeLine la (((s.olcData la).map Prod.fst).getD 0, true) none

/-- CEv in a stable state. -/
def State.serveCev (q : Retry) (s : State) : State :=
  let r := q.req; let la := r.la
  let x := (s.hostOf r).getD noOwner
  match s.findDir la with
  | none => s.stale r false
  | some (k, d) =>
    match d.st with
    | .e | .m => if x = d.owner then ((s.touchDir k).freeEntry la).cmp r else s.stale r false
    | .oq =>
      if x = d.owner then s.withOlc q fun s =>
        let s := (s.touchDir k).fc2 (s.lineDomain la) 0x208 (faOf la)
        ((s.poisonLine la).shareOrFree la .oOlc d.shr).cmp r
      else if d.holds x then ((s.touchDir k).putEntry la .oq (d.shr &&& ~~~ shrBit x) d.owner false).cmp r
      else s.stale r false
    | st => if d.holds x then ((s.touchDir k).shareOrFree la st (d.shr &&& ~~~ shrBit x)).cmp r else s.stale r false

/-- A snoop or FWD_REQ to port `x` is outstanding (R262). -/
def Trk.awaits (t : Trk) (x : Nat) : Bool := t.await.getLsbD x || ((t.awaitFwd || t.awaitWb) && t.owner0 = x)

/-- A Wb that meets a transient (R262): snoop data when it comes from a port snooped. What cannot be written yet, for want of an
OLC way or of the line's old bytes, is written when the transient ends. -/
def State.transientWb (q : Retry) (t : Trk) (s : State) : State :=
  let r := q.req; let la := r.la
  let x := (s.hostOf r).getD noOwner
  if !t.awaits x then s.stale r true
  else
    let s := s.bump R.HOM_CROSS_WB_COUNT (homeOfLa la) 1
    let t := { t with wbTaken := true, awaitWb := if t.owner0 = x then false else t.awaitWb }
    let s := match t.why with
      | .reset _ true => s.setTrk la (some t)
      | _ =>
        let old := (s.olcData la).orElse fun _ => t.mem
        if s.olcRoom la = Room.ready && (r.full || old.isSome) then
          (s.setTrk la (some t)).writeLine la (mergeLine (old.getD (0, false)) r.data r.be r.poison) none
        else
          let rd := !r.full && old.isNone && !t.awaitMem
          let s := s.setTrk la (some { t with wbPend := some (r.data, r.be, r.poison), awaitMem := t.awaitMem || rd })
          if rd then s.readMem la none 8 0 else s
    s.cmp r

/-- A CEv that meets a transient (R262). -/
def State.transientCev (q : Retry) (k : Nat) (d : DirEnt) (t : Trk) (s : State) : State :=
  let r := q.req; let la := r.la
  let x := (s.hostOf r).getD noOwner
  if t.awaits x then s.cmp r
  else if d.st = .smA && t.req.any (fun y => s.hostOf y = some x) then
    let s := (s.setDir k (some { d with st := .smDA, shr := d.shr &&& ~~~ shrBit x })).setTrk la (some { t with awaitMem := true })
    (s.readMem la none 8 0).cmp r
  else s.stale r false

/-! ### One request -/

/-- Requests to lines of a failed slice (R315): poisoned data or Cmp; Wb and CEv get Cmp. -/
def State.serveFailed (q : Retry) (s : State) : State :=
  if 6 ≤ q.kind then s.cmp q.req else s.respondFail q.req q.kind .poison

/-- Kinds of a U window: every read is RdU, every write WrU (R252). -/
def uKind (w : DWin) (k : Nat) : Nat := if w.u then (if k ≤ 3 then 3 else if k = 6 then 4 else k) else k

/-- A Wb of a port that is not the writer of an RT window: R282 names WrU and atomics only, so R259, R262 and R264 serve it. -/
def State.rtWb (s : State) (w : DWin) (q : Retry) : Bool :=
  !s.isWriter w q.req && (q.kind = 6 || (q.kind = 4 && q.op.isNone && match s.findDir q.req.la, s.hostOf q.req with
    | some (_, d), some x => d.holds x
    | _, _ => false))

/-- Serve one request against the state at this CCLK (R257, R259, R262). -/
def State.serveOne (q : Retry) (s : State) : State :=
  let la := q.req.la
  if (s.slice (sliceOf la)).failed then s.serveFailed q
  else match s.lineWin la with
    | none => s.respondFail q.req q.kind .denied
    | some w =>
      let s := s.spend 15 1 (s.rtOf q.req)
      if w.rt then
        if q.kind = 7 then
          match s.findDir la, s.trkOf la with
          | some (k, d), some t => s.transientCev q k d t
          | _, _ => s.serveCev q
        else if s.rtWb w q then
          match s.trkOf la with
          | some t => s.transientWb q t
          | none => s.serveWb q
        else s.serveRt q w
      else
        let q := { q with kind := uKind w q.kind }
        match s.findDir la, s.trkOf la with
        | some (k, d), some t =>
          if q.kind = 6 then s.transientWb q t
          else if q.kind = 7 then s.transientCev q k d t
          else if q.kind = 4 && q.op.isNone && t.awaits ((s.hostOf q.req).getD noOwner) then s.transientWb q t
          else s.nak q false
        | _, _ =>
          match q.kind with
          | 0 => s.serveRdS q
          | 1 => s.serveRdX q
          | 2 => s.serveRdX q
          | 3 => s.serveRdU q
          | 6 => s.serveWb q
          | 7 => s.serveCev q
          | _ =>
            match s.findDir la, s.hostOf q.req with
            | some (_, d), some x => if d.holds x && q.op.isNone then s.serveWb q else s.serveWrU q
            | _, _ => s.serveWrU q

/-- State code of a line after an action (R569). -/
def State.lineCode (s : State) (la : Nat) : Nat := ((s.findDir la).map fun x => x.2.st.code).getD 0

/-! ### Completion of transients (R260, R261, R268, R269) -/

/-- Every awaited item has arrived. -/
def Trk.ready (t : Trk) : Bool := t.await = 0 && !t.awaitMem && !t.awaitFwd && !t.awaitWb

/-- The transient ends with a W of its own. -/
def Trk.writes (t : Trk) : Bool := t.lostDue || t.wbPend.isSome || ((t.kind = 4 || t.kind = 5 || t.kind = 6) && !t.written && t.req.isSome)

/-- The transient can end now. -/
def State.canEnd (s : State) (t : Trk) : Bool := t.ready && (!t.writes || s.olcRoom t.la = Room.ready)

/-- Data by R261: a Wb taken meanwhile, then the OLC copy, then MemD. -/
def State.trkData (s : State) (t : Trk) : Line × Bool := ((s.olcData t.la).orElse fun _ => t.mem).getD (0, true)

/-- Write what came meanwhile: a Wb not yet written, or the poison that stands for a lost owner's data (R268). -/
def State.payTrk (t : Trk) (s : State) : State :=
  let s := match t.wbPend with
    | some (d, be, p) => s.writeLine t.la (mergeLine (s.trkData t) d be p) none
    | none => s
  if t.lostDue then s.poisonLine t.la else s

/-- Host port of the transient's requester, unless it was lost. -/
def State.trkPort (s : State) (t : Trk) : Option Nat := if t.mute then none else t.req.bind s.hostOf

/-- The completion to a requester whose port was lost (R269): the core drops it while the port carries nothing (R235); one that would
meet the port at a later generation is dropped as of the old one. -/
def State.answerLost (t : Trk) (r : HReq) (f : State → State) (s : State) : State :=
  match s.portOf r with
  | some x => if t.mute && s.carries x then s.bump R.XBR_COL_GEN_DROP_COUNT x 1 else f s
  | none => f s

/-- Answer the request of a transient, if anybody is still owed an answer. -/
def State.answerTrk (t : Trk) (withData : Bool) (grant : Nat) (data : Line × Bool) (s : State) : State :=
  match t.req with
  | some r => s.answerLost t r fun s => s.respond r withData grant data .ok
  | none => s

/-- An exclusive grant ends a transient; without its requester the line ends in O0 or I (R269). -/
def State.grantTrk (t : Trk) (st : LSt) (withData olcv : Bool) (s : State) : State :=
  match s.trkPort t with
  | some p => (((s.touchLine t.la).putEntry t.la st 0 p olcv).answerTrk t withData 2 (s.trkData t)).granted t.la
  | none => (s.freeEntry t.la).answerTrk t withData 2 (s.trkData t)

/-- Sharer bit of the requester of an RdS that ends a transient. -/
def State.newSharer (s : State) (t : Trk) : BitVec 63 := if t.kind = 0 then ((s.trkPort t).map shrBit).getD 0 else 0

/-- A snooped read ends: sharers are the requester of an RdS and the holders that answered RspS. -/
def State.readTrk (t : Trk) (s : State) : State :=
  let v := s.trkData t
  ((s.touchLine t.la).shareOrFree t.la (if s.holdsOlc t.la then .oOlc else .s) (s.newSharer t ||| t.rsps.setWidth 63)).answerTrk t true
    (if t.kind = 0 then 1 else 0) v

/-- A forwarded read ends: with FWD_DATA the owner keeps the line in O and no OLC copy stays; with a Wb the home owns it. -/
def State.fwdTrk (t : Trk) (s : State) : State :=
  let shr := t.shr0 ||| s.newSharer t
  let grant := if t.kind = 0 then 1 else 0
  match t.fwd with
  | some d => ((s.dropOlc t.la).putEntry t.la .oq shr t.owner0 false).answerTrk t true grant (d, false)
  | none =>
    let v := s.trkData t
    ((s.touchLine t.la).shareOrFree t.la .oOlc shr).answerTrk t true grant v

/-- The write of a transient is made, if it is not yet: the prior value of an atomic's operand, and the state. -/
def State.trkWrite (t : Trk) (s : State) : (Line × Bool) × State :=
  match t.req with
  | some r => if t.written then (t.prior, s) else s.writeReq r t.op (s.trkData t)
  | none => ((0, false), s)

/-- A write ends a transient: merged, written, answered. The entry is freed, kept for the source of a partial Wb or for the other holders, or stays for an
RT line (R303). -/
def State.writeTrk (t : Trk) (d : DirEnt) (s : State) : State :=
  let x := s.trkWrite t
  let p := (s.trkPort t).getD noOwner
  let s := x.2
  let s :=
    if d.rt then s.putEntry t.la .oOlc d.shr noOwner false
    else match t.keep, s.trkPort t with
      | 1, some _ => s.putEntry t.la .oOlc (shrBit p) noOwner false
      | 2, some _ => s.putEntry t.la .m 0 p true
      | 3, _ => s.shareOrFree t.la .oOlc t.shr0
      | _, _ => s.freeEntry t.la
  match t.req with
  | some r => s.answerLost t r fun s => if t.kind = 6 then s.cmp r else s.respondWrite r t.kind x.1
  | none => s

/-- An eviction frees the entry; a reset or a revocation leaves the line to its other holders (R260, R271). -/
def State.evictTrk (t : Trk) (s : State) : State :=
  match t.why with
  | .reset _ _ | .revoke _ =>
    match t.orig with
    | .s => s.shareOrFree t.la .s t.shr0
    | .oOlc => s.shareOrFree t.la .oOlc t.shr0
    | .oq =>
      if t.owner0 = noOwner || t.snooped.getLsbD t.owner0 then s.shareOrFree t.la (if s.holdsOlc t.la then .oOlc else .s) t.shr0
      else s.putEntry t.la .oq t.shr0 t.owner0 false
    | _ => s.freeEntry t.la
  | _ => s.freeEntry t.la

/-- The row of R260 for a transient whose items have all arrived. -/
def State.endTrk (d : DirEnt) (t : Trk) (s : State) : State :=
  match d.st with
  | .ieD => s.grantTrk t .e true false
  | .imD | .smDA => s.grantTrk t .m true false
  | .smA => s.grantTrk t .m false false
  | .emA | .mmA => s.grantTrk t .m true (s.holdsOlc t.la)
  | .omA =>
    if t.orig = .oq && s.trkPort t = some t.owner0 then s.grantTrk t .m false false else s.grantTrk t .m true true
  | .esA | .msA => s.readTrk t
  | .ooD | .moD => s.fwdTrk t
  | .ioD | .eoA | .moA | .soA | .soDA | .ooA => s.writeTrk t d
  | .siA | .eiA | .miA | .oiA => s.evictTrk t
  | .s | .e | .m | .oOlc | .oq => s

/-- R301: a write-back has completed and the line is in a stable state. -/
def State.endWb (key : Nat) (s : State) : State :=
  match s.olcAt key with
  | none => s
  | some o =>
    let kept := some { o with wb := false, ev := false }
    if o.dirty || o.rt then s.setOlc key kept
    else
      match s.findDir o.la with
      | none => s.setOlc key none
      | some (k, d) =>
        match d.st with
        | .oOlc => (s.setOlc key none).setDir k (some { d with st := .s })
        | .m => (s.setOlc key none).setDir k (some { d with olcv := false })
        | _ => s.setOlc key none

/-- Start the eviction of a line under R265 for a reset, a revocation, or of every holder; a line that is transient takes it when
its transient ends (R271), and one whose slice has no tracker left when one is free (R258). -/
def State.evictLine (la : Nat) (w : Why) (s : State) : State :=
  if 4096 ≤ s.openTrackers (homeOfLa la) && (s.findDir la).isSome && (s.trkOf la).isNone then
    s.onHome fun h => { h with owed := h.owed ++ [(la, w)] }
  else match s.findDir la, s.trkOf la with
  | some _, some t => if t.after.contains w then s else s.setTrk la (some { t with after := t.after ++ [w] })
  | some (k, d), none =>
    match w with
    | .reset dom _ | .revoke dom =>
      let snp := d.holders &&& s.domainPorts la dom
      if snp = 0 then s else s.beginTrk none k d (evictStart d snp w (d.shr &&& ~~~ snp.setWidth 63))
    | _ => s.beginTrk none k d (evictStart d d.holders w 0)
  | none, _ => s

/-! ### What a resolution serves next (R275, R285) -/

/-- Same request. -/
def Retry.same (a b : Retry) : Bool := a.req.src = b.req.src && a.req.tag = b.req.tag && a.req.fa = b.req.fa

/-- Writes of an RT line wait in order: the first one that leaves the line in OO_A holds the others back. -/
def State.serveQueue (la : Nat) : List Retry → State → State
  | [], s => s
  | q :: rest, s =>
    match s.trkOf la with
    | some t => s.setTrk la (some { t with queue := t.queue ++ q :: rest })
    | none => (s.serveOne q).serveQueue la rest

/-- The first guarded request of a line or of its set, in order of guard entry. -/
def State.firstGuarded (s : State) (la : Nat) : Option Retry :=
  (s.slice (sliceOf la)).retry.foldl (fun b q => match q.guard with
    | some (o, way) =>
      if (if way then setNo q.req.la = setNo la else q.req.la = la) then
        match b with
        | some x => if o < ((x.guard.map Prod.fst).getD 0) then some q else b
        | none => some q
      else b
    | none => b) none

/-- Trackers that SC2 requests hold in a slice. -/
def State.sc2Trackers (s : State) (h : Nat) : Nat :=
  (s.home.trk.filter fun e => match e.2 with
    | some t => homeOfLa t.la = h && (match t.req with
        | some r => !r.sc0
        | none => false)
    | none => false).length

/-- A tracker is free for the request (R258). -/
def State.trackerFree (s : State) (r : HReq) : Bool :=
  let h := homeOfLa r.la
  s.openTrackers h < 4096 && (r.sc0 || s.sc2Trackers h < s.rd R.HOM_TRK_SC2_MAX)

/-- Serve the guarded requests of a line and its set in order, up to the first one that is refused again or that no tracker is free
for: it then waits for the next resolution (R258, log 65). -/
def State.serveGuarded (la : Nat) : Nat → State → State
  | 0, s => s
  | n + 1, s =>
    match s.firstGuarded la with
    | none => s
    | some q =>
      let h := sliceOf la
      if !s.trackerFree q.req then s
      else
      let s := s.onSlice h fun x => { x with retry := x.retry.erase q }
      let s := s.serveOne q
      let s := s.digest (72 + h.val) 1 1 [s.lineCode q.req.la]
      if (s.slice h).retry.any (Retry.same q) then s else s.serveGuarded la n

/-- A resolution: a transient of the line has ended, or a way of its set is unpinned. -/
def State.resolve (la : Nat) (s : State) : State := s.serveGuarded la (s.slice (sliceOf la)).guards

/-- End one transient. -/
def State.complete1 (d : DirEnt) (t : Trk) (s : State) : State :=
  let la := t.la
  let s := ((s.payTrk t).setTrk la none).endTrk d t
  let s := if t.wbDone then (match s.findOlc la with
    | some (key, _) => s.endWb key
    | none => s) else s
  let s := s.forAll t.after fun w x => x.evictLine la w
  (s.serveQueue la t.queue).resolve la

/-- A tracker that waits for an OLC way starts a victim's write-back, one at a time in a set (R299). -/
def State.claimWays (s : State) : State :=
  s.forAll s.home.trk fun e x => match e.2 with
    | some t =>
      if t.ready && !x.canEnd t && !((waysOf t.la).any fun k => ((x.olcAt k).map fun o => o.ev).getD false) then
        match x.olcRoom t.la with
        | .victim key => if x.wbAllowed t.la then x.issueWb key true true else x
        | _ => x
      else x
    | none => x

/-- A transient that can end. -/
def State.nextEnd (s : State) : Option (DirEnt × Trk) :=
  s.home.trk.findSome? fun e => match e.2 with
    | some t => if s.canEnd t then (s.findDir t.la).map fun x => (x.2, t) else none
    | none => none

/-- End every transient that can end. -/
def State.endAll : Nat → State → State
  | 0, s => s
  | n + 1, s => match s.nextEnd with
    | some (d, t) => (s.complete1 d t).endAll n
    | none => s

/-- Requests that a resolution could serve, and open trackers: no more transients can end in one CCLK. -/
def State.endFuel (s : State) : Nat :=
  2 * (s.home.trk.length + ((s.home.trk.map fun e => match e.2 with
    | some t => t.queue.length + t.after.length
    | none => 0).foldl (· + ·) 0) + ((s.home.slices.toList.map fun x => x.retry.length).foldl (· + ·) 0)) + 4

/-- Pinned entries of watched lines that found their set full (R30, R491): a way that has become free takes one. -/
def State.placePins (s : State) : State :=
  s.forAll s.home.pins fun la x =>
    let done (x : State) : State := x.onHome fun h => { h with pins := h.pins.filter (· ≠ la) }
    match x.findDir la, x.dirRoom la with
    | some (k, d), _ => done (x.setDir k (some { d with watch := true }))
    | none, .inl k =>
      let st := if x.holdsOlc la then LSt.oOlc else .s
      done ((x.setDir k (some { freshEntry la with st := st, watch := true })).touchDir k)
    | none, .inr (.victim k) => match x.dirAt k with
      | some d => (x.bump R.HOM_EVICT_COUNT (homeOfLa la) 1).beginTrk none k d (evictStart d d.holders .victim 0)
      | none => x
    | none, .inr _ => x

/-- Evictions that waited for a tracker begin as trackers are free (R258). -/
def State.payOwed (s : State) : State :=
  (s.onHome fun h => { h with owed := [] }).forAll s.home.owed fun e x => x.evictLine e.1 e.2

/-- What a home slice does after each message: transients whose items have arrived end, waiting evictions begin, and conflicts are
acknowledged. -/
def State.settle (s : State) : State :=
  let s := (s.endAll s.endFuel).payOwed.claimWays.placePins
  s.forAll (s.home.confs.map Prod.fst).eraseDups fun la x => x.settleConfs la

/-! ### Lost ports (R265, R267 to R269) -/

/-- A transient meets the loss of port `x`: its response counts as RspI without data. -/
def State.lostTrk (x k : Nat) (d : DirEnt) (t : Trk) (s : State) : State :=
  let owner := t.owner0 = x && (t.orig = .e || t.orig = .m || t.orig = .oq)
  let due := owner && !t.wbTaken && t.fwd.isNone && (t.awaits x || (t.orig = .oq && !t.snooped.getLsbD x))
  let s := if due then s.bump R.HOM_LOST_COUNT (homeOfLa t.la) 1 else s
  let s := s.setTrk t.la (some
    { t with
        await := t.await &&& ~~~ portBit x, rsps := t.rsps &&& ~~~ portBit x, shr0 := t.shr0 &&& ~~~ shrBit x
        awaitFwd := t.awaitFwd && !owner, awaitWb := t.awaitWb && !owner, owner0 := if owner then noOwner else t.owner0
        lostDue := t.lostDue || due
        mute := t.mute || (t.req.bind s.portOf) = some x })
  s.setDir k (some { d with shr := d.shr &&& ~~~ shrBit x })

/-- The "Port x lost" column of R265 for a line in a stable state. -/
def State.lostStable (x k : Nat) (d : DirEnt) (s : State) : State :=
  let lose (s : State) : State :=
    let s := s.bump R.HOM_LOST_COUNT (homeOfLa d.la) 1
    match s.trkOf d.la with
    | some t => s.setTrk d.la (some { t with lostDue := true, owner0 := noOwner })
    | none => s
  match d.st with
  | .e | .m => if d.owner = x then lose (s.beginTrk none k d (evictStart d 0 .lost 0)) else s
  | .oq =>
    if d.owner = x then lose (s.beginTrk none k d { evictStart d (portsOf d.shr) .lost 0 with wb := false })
    else s.setDir k (some { d with shr := d.shr &&& ~~~ shrBit x })
  | .s | .oOlc => if d.holds x then s.shareOrFree d.la d.st (d.shr &&& ~~~ shrBit x) else s
  | _ => s

/-- Port `x` is lost to every home slice: entries, transients, and requests of the port that would make it a holder. -/
def State.lostPort (x : Nat) (s : State) : State :=
  let s := s.forAll s.home.dir fun e t => match t.dirAt e.1 with
    | some d => if (t.slice (sliceOf d.la)).failed then t   -- nothing of a failed slice is snooped or written back (R315)
      else match t.trkOf d.la with
      | some u => t.lostTrk x e.1 d u
      | none => t.lostStable x e.1 d
    | none => t
  let gone (r : HReq) : Bool := s.portOf r = some x
  let s := s.onHome fun h =>
    { h with
        slices := h.slices.map fun c => { c with retry := c.retry.filter fun q => !(gone q.req && q.kind ≤ 3) }
        reads := h.reads.map fun o => { o with req := o.req.filter fun r => !gone r }
        confs := h.confs.filter fun c => c.2 ≠ x }
  s.settle

/-! ### Requesters of a domain being reset (R271) -/

/-- Complete the open transactions that satisfy `p` with a status; nothing of theirs is performed any more. -/
def State.abortReqs (p : HReq → Bool) (st : Status) (s : State) : State :=
  let s := s.forAll s.home.trk fun e x => match e.2 with
    | some t =>
      let mine := t.queue.filter fun q => p q.req
      let x := x.forAll mine fun q y => y.respondFail q.req q.kind st
      let hit := t.req.any p
      let x := match t.req with
        | some r => if hit && !t.mute then x.respondFail r t.kind st else x
        | none => x
      x.setTrk t.la (some { t with queue := t.queue.filter fun q => !p q.req, req := if hit then none else t.req })
    | none => x
  let s := s.forAll s.home.reads fun o x => match o.req with
    | some r => if p r then x.respondFail r o.kind st else x
    | none => x
  let s := s.forAll allSlices fun h x => x.forAll ((x.slice h).retry.filter fun q => p q.req) fun q y => y.respondFail q.req q.kind st
  s.onHome fun h =>
    { h with
        slices := h.slices.map fun c => { c with retry := c.retry.filter fun q => !p q.req }
        reads := h.reads.map fun o => { o with req := o.req.filter fun r => !p r } }

/-! ### Home slice failure (R314, R315) -/

/-- A home slice fails. -/
def State.failHome (h : SliceId) (cause : Nat) (s : State) : State :=
  if (s.slice h).failed then s
  else
    let s := (s.onSlice h fun c => { c with failed := true, cause := cause }).fault 0x30B h.val
    let mine (la : Nat) : Bool := homeOfLa la = h.val
    let s := s.abortReqs (fun r => mine r.la) .poison
    let s := s.onHome fun g => 
      { g with
          trk := g.trk.filter fun e => !mine e.1, recalls := g.recalls.filter fun e => !mine e.1
          owed := g.owed.filter fun e => !mine e.1, pins := g.pins.filter fun la => !mine la }
    let watched (r : Option Ring) : Option Nat := r.bind fun r =>
      if r.dbMode = 0 && r.dbSpace = 0 && mine (r.dbAddr / 64) && ((s.lineWin (r.dbAddr / 64)).map fun w => w.w).getD false
      then some r.domain else none
    let ds := (s.host.rings ++ s.host.evqs).filterMap fun e => (watched e.2).map fun d => (d, (e.2.map fun r => r.dbAddr).getD 0)
    (s.forAll ds fun x t => t.fc2 x.1 0x20B x.2).settle

/-! ### Errors (R310 to R312) -/

/-- ECC item of a scoped unit (R564). -/
def State.captureEcc (inScope : Bool) (unit checker word : Nat) (unc : Bool) (s : State) : State :=
  if inScope then s.capture 0x08 unit 0 16 [checker % 256 + word % 2 ^ 32 * 256 + (if unc then 2 ^ 40 else 0)] else s

/-- R312. -/
def State.poisonOlc (key : Nat) (s : State) : State :=
  match s.olcAt key with
  | none => s
  | some o =>
    let s := s.setOlc key (some { o with poison := true, dirty := true })
    s.forAll (0 :: s.domainsOfFa (faOf o.la)).eraseDups fun d t => t.fc2 d 0x204 (faOf o.la)

/-- An error that a home slice finds in the structure of checker `c` (R558 codes 3 to 7) at a way (R310, R311). -/
def State.homeError (h : SliceId) (c key : Nat) (unc : Bool) (s : State) : State :=
  let s := s.captureEcc s.recHomes h.val c (key % 32768) unc
  if c = 7 then
    ((s.onHome fun g =>
      { g with
          dirAge := Tab.set agesAt g.dirAge (key / 16) (List.range 16)
          olcAge := Tab.set agesAt g.olcAge (key / 16) (List.range 16) }).bump R.HOM_ECC_UNC_COUNT h.val 1).fault 0x105 h.val
  else if !unc then (s.bump R.HOM_ECC_CORR_COUNT h.val 1).fault 0x105 h.val
  else
    let s := s.bump R.HOM_ECC_UNC_COUNT h.val 1
    match c with
    | 3 => s.failHome h 1
    | 4 => s.failHome h 2
    | 5 => s.poisonOlc key
    | _ => s.failHome h 3

/-- Way whose structures a lookup of a line reads: its entry's or its OLC copy's, else the first of its set. -/
def State.wayOf (s : State) (la : Nat) : Nat :=
  (((s.findDir la).map Prod.fst).orElse fun _ => (s.findOlc la).map Prod.fst).getD (setNo la * 16)

/-- A read of a way meets the check bits that LIVE injection left inverted there (R561): its directory entry, OLC tag and OLC data
words. What is found is rewritten, poisoned, or fails the slice (R310). -/
def State.meetInverted (h : SliceId) (key : Nat) (s : State) : State :=
  let way := key % 32768
  let here (x : Inverted) : Bool := x.unit = h.val && ((x.checker = 3 || x.checker = 4) && x.word = way || x.checker = 5 && x.word / 8 = way)
  let l := s.flt.inverted.filter here
  let s := s.onFlt fun f => { f with inverted := f.inverted.filter fun x => !here x }
  s.forAll l fun x t => if (t.slice h).failed then t else t.homeError h x.checker key x.two

/-! ### Taking a request (R257, R258, R274) -/

/-- An SC0 request stands whole in a slice's column: the slice takes it before anything else (R257). -/
def State.sc0Waits (s : State) (h : SliceId) : Bool :=
  s.fab.msgs.any fun m => m.queued && !m.skip && m.port = 72 + h.val && m.cls = 0 && m.last && (m.kind.sort = .np || m.kind.sort = .posted)

/-- A retry of a slice is due in this CCLK (R257, R272). -/
def State.retryNow (s : State) (h : SliceId) : Bool := (s.slice h).retry.any fun q => q.guard.isNone && q.due ≤ s.fine

/-- The home takes a request of its class from its column now: SC0 first, SC2 after the retries that are due (R257), with a tracker
(R258) and, for SC2, room in the retry store (R274). -/
def State.takes (s : State) (r : HReq) : Bool :=
  let h := sliceOf r.la
  s.trackerFree r && (r.sc0 || (!s.sc0Waits h && !s.retryNow h && (s.slice h).retry.length < 1024))

/-- A request is taken, its lookup reads its ways (R310), and it is served and digested. -/
def State.present (q : Retry) (s : State) : State :=
  let h := homeOfLa q.req.la
  let s := s.meetInverted (sliceOf q.req.la) (s.wayOf q.req.la)
  let s := s.forAll q.req.errs fun e t => t.homeError (sliceOf q.req.la) e.1.val (t.wayOf q.req.la) e.2
  let s := s.serveOne { q with req := { q.req with errs := [] } }
  (s.digest (72 + h) 1 1 [s.lineCode q.req.la]).settle

/-- A request reaches its home for the first time. -/
def State.arrive (r : HReq) (kind : Nat) (op : Option (AtomOp × Bool × Word × Word)) (s : State) : State :=
  let h := homeOfLa r.la
  if !s.serving || !s.takes r then s
  else
    (s.count 0x20 h 1 ⟨some r.domain.val, if r.sc0 then 0 else 2, faOf r.la, 72 + h⟩).present ⟨r, kind, op, 0, 0, s.fine, none⟩

/-- Nanoseconds that a home slice takes to walk its directory of 32,768 entries at one a CCLK (R308, R410, R420, R572). -/
def walkNs : Nat := 20480

/-! ### Write-backs (R304, R307, R308, R572, R612) -/

/-- A line that must be written back whether or not there is slack. -/
def State.forcedDue (s : State) (la : Nat) : Bool :=
  let inRange (u : Unbind) : Bool := u.walking && u.base * mib2 ≤ faOf la && faOf la < u.limit * mib2
  (match s.dom.reset with
    | some r => r.step = 6 && !r.squash && s.lineOfDomain la r.domain
    | none => false)
  || s.tabs.unbinds.any inRange
  || (s.rec_.st = .quiesce && s.rec_.walked && (match s.rec_.cfg with
      | some c => c.wins.any fun w => match Tab.get noneAt s.tabs.wins w with
          | some x => x.kind && x.faRange.1 * mib2 ≤ faOf la && faOf la < x.faRange.2 * mib2
          | none => false
      | none => false))
  || (match s.img.act with
    | some a => a.evict.any fun e => e.1 ≤ faOf la && faOf la < e.2
    | none => false)

/-- No window in which the line's backing port has a gate state opens within the next 2 us, and it has none now (R304). -/
def State.backingQuiet (s : State) (la : Nat) : Bool :=
  match s.backingPort la with
  | none => false
  | some n => !s.protectedPort n

/-- A line that slack write-back may take. -/
def State.slackDue (s : State) (la : Nat) : Bool := s.bit R.HOM_WB_EN && s.bel.slack && s.backingQuiet la

/-- The line of a set that a slice writes back next: dirty, unpinned but for a forced RT line, of highest age (R304). -/
def State.wbCandidate (s : State) (set : Nat) (forced : Bool) : Option Nat :=
  let ks := ((List.range 16).map fun w => set * 16 + w).filter fun k => match s.olcAt k with
    | some o =>
      o.dirty && !o.wb && !s.home.wbOut.contains o.la && !s.transient o.la && (if forced then s.forcedDue o.la else !s.olcPinned o && s.slackDue o.la)
    | none => false
  highestAge (Tab.get agesAt s.home.olcAge set) ks

/-- The next set with a candidate from a slice's pointer on. -/
def State.wbNext (s : State) (h : SliceId) (forced : Bool) : Option Nat :=
  let x := s.slice h
  let sets := (s.home.olc.filterMap fun e => match e.2 with
    | some o => if e.1 / 32768 = h.val && o.dirty && !o.wb then some (e.1 / 16 % 2048) else none
    | none => none).eraseDups
  let best := sets.foldl (fun (b : Option (Nat × Nat)) st =>
    match s.wbCandidate (h.val * 2048 + st) forced with
    | some k =>
      let dist := (st + 2048 - x.wbPtr) % 2048
      match b with
      | some y => if dist < y.1 then some (dist, k) else b
      | none => some (dist, k)
    | none => b) none
  best.map Prod.snd

end Sys2Proof.Machine
end

