-- ==== Sys2Proof/Machine/PortOps.lean ====
section
/-! DEFINITION. Operations on ports: sideband pins, binding into ACTIVE, Merad negotiation, link training and link-down
(R92 to R151, R166 to R170, R232 to R236). -/

namespace Sys2Proof.Machine

/-! ### Sideband pins (R123 to R131, R659) -/

/-- A pin of port `n` at a level. -/
def pinAt (v : BitVec 64) (n : Nat) (b : Bool) : BitVec 64 := if b then v ||| portBit n else v &&& ~~~ portBit n

def State.perstAt (n : Nat) (b : Bool) (s : State) : State := s.onSys fun y => { y with perstN := pinAt y.perstN n b }
def State.pwrenAt (n : Nat) (b : Bool) (s : State) : State := s.onSys fun y => { y with pwren := pinAt y.pwren n b }
def State.dischAt (n : Nat) (b : Bool) (s : State) : State := s.onSys fun y => { y with disch := pinAt y.disch n b }

def State.powered (s : State) (n : Nat) : Bool := s.sys.pwren.getLsbD n

/-- PWREN low and DISCH high, and PERST_N low on a port that had power (R131, R135); the pins are held in the safe state (R552). -/
def State.unpower (n : Nat) (s : State) : State :=
  let s := s.onPortN n fun p => { p with ramping := false, upWait := false }
  if s.flt.safe then s
  else ((if s.powered n then s.perstAt n false else s).pwrenAt n false).dischAt n true

/-! ### Negotiation (R106 to R114) -/

/-- VER_MAP of R106. -/
def State.verMap (s : State) (n : Nat) : Nat := [0, 2, 6, 14].getD (s.rd R.PRT_MERAD_MAX_VER n) 0

/-- Highest version set in two maps, or 0. -/
def commonVer (a b : Nat) : Nat := if flag a 3 && flag b 3 then 3 else if flag a 2 && flag b 2 then 2 else if flag a 1 && flag b 1 then 1 else 0

/-- Tie value of R111. -/
def State.tieValue (n : Nat) : Nat := Config.dieId.toNat * 256 + n

/-- The device leads the handshake (R107, R111). -/
def Port.leads (p : Port) : Bool := p.role = 2 || p.role = 3

/-- Send OFFER for the `k`-th time (R109, R111). The device declares no snoop response time of its own (log 71). -/
def State.sendOffer (n k : Nat) (s : State) : State :=
  let p := s.portN n
  let s := s.onPortN n fun p => { p with merad := .leading k, meradAt := s.now }
  s.emit (.port n (.offer (s.verMap n) 0 (if p.role = 3 then some (State.tieValue n) else none)))

/-- Answer an OFFER with ACCEPT (R107, R110). -/
def State.sendAccept (n ver respNs : Nat) (s : State) : State :=
  (s.onPortN n fun p => { p with merad := .accepted ver, meradAt := s.now, respNs := respNs }).emit (.port n (.accept ver 0))

/-- The Merad SC0 channel of a port: its credits, and their advertisement (R167). -/
def State.openSc0 (n : Nat) (s : State) : State :=
  let a := (s.portN n).link.sc0Adv
  (s.onCredit n 0 fun _ =>
    { Credit.zero with rxHLim := a.1 % 2 ^ 12, rxDLim := a.2 % 2 ^ 16, rxHAdv := a.1, rxDAdv := a.2, rxHTold := a.1 % 2 ^ 12
                       rxDTold := a.2 % 2 ^ 16, sentAt := s.now }).emit (.port n (.creditInit 0 a.1 a.2))

/-- Negotiation ends at a version (R108 to R110), from version 1 on with the SC0 channel. -/
def State.meradEnds (n ver : Nat) (closed : Bool) (s : State) : State :=
  let s := s.onPortN n fun p => { p with merad := if closed then .closed else .ended, negVer := ver }
  if 1 ≤ ver then s.openSc0 n else s

def Port.negotiated (p : Port) : Bool := p.merad = .ended || p.merad = .closed

/-! ### States -/

/-- The link of the port is up. -/
def PState.linked : PState → Bool
  | .up | .active | .quiesce | .flushWait => true
  | _ => false

/-- A port in UP or FLUSH_WAIT that nothing keeps from ACTIVE any more (R105, R696). -/
def Port.bindable (p : Port) : Bool := (p.state = .up || p.state = .flushWait) && p.negotiated && !p.flushing && p.walks = 0

/-- The port enters ACTIVE (R105, R237). -/
def State.enterActive (n : Nat) (s : State) : State :=
  (s.onPortN n fun p => { p with state := .active, wasBound := true, waitBind := false, outNp := 0 }).freshPort n

/-- The port joins those that wait for a ramp place (R124, R470). A port fenced until cold start stays OFF (R415). -/
def State.wantPower (n : Nat) (s : State) : State :=
  if (s.portN n).state = .off && !(s.portN n).fenced && !s.powered n then s.onPortN n fun p => { p with upWait := true } else s

/-- A tool-change group asks for release, or has been given TCOK, so that its ports stay off (R133, R137). -/
def State.groupHeld (s : State) (n : Nat) : Bool :=
  s.bit R.PRT_HP_TCG_EN n && (s.tool.tcrLow.getLsbD (s.rd R.PRT_HP_TCG n) || s.sys.tcok.getLsbD (s.rd R.PRT_HP_TCG n))

/-- The configuration of the registers comes into force (R151). -/
def State.latchCfg (n : Nat) (s : State) : State :=
  s.onPortN n fun p =>
    { p with role := s.cfgRole n, maxRate := s.rd R.PRT_CFG_MAX_RATE n, flit := s.rd R.PRT_CFG_FLIT n, lopt := s.bit R.PRT_CFG_LOPT n
             clkMode := s.rd R.PRT_CLKM_MODE n }

/-- A training begins: the LTSSM leaves Detect (R104, R124, R151). -/
def State.startTraining (n : Nat) (s : State) : State :=
  (s.latchCfg n).onPortN n fun p => { p with state := .training, trainAt := s.now, rate := 0, ltssm := (Config.ltssmCode 0).toNat }

/-- A port that is OFF comes up as its role gives: an upstream port releases PERST_N and starts receiver detection, and a port with role
fabric likewise (R637, log 69); a present downstream port without power waits for its turn (R124, R637), and one with power trains. The
safe state holds the pins (R552). -/
def State.comeUp (n : Nat) (s : State) : State :=
  let p := s.portN n
  if p.state ≠ .off || p.fenced || s.groupHeld n || s.flt.safe then s
  else if s.isUpstream n || s.isFabric n then (s.perstAt n true).startTraining n
  else if s.isDownstream n && !p.prsnt then (if s.powered n && s.sys.perstN.getLsbD n then s.startTraining n else s.wantPower n)
  else s

/-- The quad of a slice applies a bundling mode held for it once every slice is OFF, and its ports come up (R93). -/
def State.settleQuad (q : Nat) (s : State) : State :=
  match Tab.get noneAt s.tool.quadWait q with
  | none => s
  | some m =>
    if (List.range 4).all fun i => (s.portN (4 * q + i)).state = .off then
      let s := (s.wr R.PRT_QUAD_MODE (4 * q) m).onTool fun t => { t with quadWait := Tab.set noneAt t.quadWait q none }
      if s.serving then s.forAll ((List.range 4).map (4 * q + ·)) fun n t => if t.isLowest n then t.comeUp n else t else s
    else s

/-- The port enters OFF. -/
def State.enterOff (n : Nat) (s : State) : State :=
  (s.onPortN n fun p => { p with state := .off, width := 0, rate := 0, mode := 0 }).settleQuad (n / 4)

/-! ### Training (R98, R103, R151, R167 to R172) -/

/-- Class of a channel (R167). -/
def chanClass (ch : Nat) : Nat := [0, 2, 2, 3, 3, 1, 1, 2, 1, 3, 1, 3, 3, 4, 5, 6].getD ch 0

/-- Header credits and data units of a preset per slice and class (R168). -/
def presetH : List Nat := [32, 96, 112, 112, 48, 48, 64]

def presetD (preset : Nat) : List Nat :=
  match preset with
  | 1 => [128, 64, 640, 768, 128, 16, 304]
  | 2 => [128, 32, 256, 256, 640, 32, 704]
  | _ => [256, 64, 448, 512, 256, 16, 496]

/-- Custom credits of a port. -/
def State.customH (s : State) (n : Nat) : List Nat := (List.range 7).map fun i => bits (s.rd ⟨R.PRT_LNK_HCRED_H0.base, R.PRT_LNK_HCRED_H0.stride, 0, 64⟩ n) (8 * i) 8

def State.customD (s : State) (n : Nat) : List Nat :=
  (List.range 7).map fun i =>
    if i < 4 then bits (s.rd ⟨R.PRT_LNK_DCRED0_D0.base, R.PRT_LNK_DCRED0_D0.stride, 0, 64⟩ n) (16 * i) 16
    else bits (s.rd ⟨R.PRT_LNK_DCRED1_D4.base, R.PRT_LNK_DCRED1_D4.stride, 0, 64⟩ n) (16 * (i - 4)) 16

/-- The custom values fit a slice's receive buffer (R169). -/
def State.customFits (s : State) (n : Nat) : Bool := sumNat (s.customH n) ≤ 512 && sumNat (s.customD n) ≤ 2048

/-- Channels of a class (R167). -/
def chansOf (cls : Nat) : List Nat := (List.range 16).filter fun ch => chanClass ch = cls

/-- What the channels of a list take of a total: a free share each, which R167 leaves open, and the last one the rest. -/
def shareOut : List Nat → Nat → List (Nat × Nat)
  | [], _ => []
  | [ch], total => [(ch, total)]
  | ch :: t, total =>
    let x := min total (Config.chanShare ch total)
    (ch, x) :: shareOut t (total - x)

/-- Share of a channel in the credits of its class. -/
def chanShare (ch total : Nat) : Nat := (((shareOut (chansOf (chanClass ch)) total).find? fun x => x.1 = ch).map Prod.snd).getD 0

/-- Receive credits of a channel at training (R168 to R171). -/
def State.advertised (s : State) (n preset ch : Nat) : Nat × Nat :=
  let c := chanClass ch
  let k := s.nslices n
  let h := chanShare ch (k * (if preset = 3 then s.customH n else presetH).getD c 0)
  let d := chanShare ch (k * (if preset = 3 then s.customD n else presetD preset).getD c 0)
  (h, if 1 ≤ ch && ch ≤ 12 then d / 4 else d)

/-- A channel as training leaves it; the SC0 channel opens with the Merad version (R167). -/
def State.trainCredit (s : State) (n preset ch : Nat) : Credit :=
  if ch = 0 then Credit.zero
  else
    let a := s.advertised n preset ch
    { Credit.zero with rxHLim := a.1 % 2 ^ 12, rxDLim := a.2 % 2 ^ 16, rxHAdv := a.1, rxDAdv := a.2, rxHTold := a.1 % 2 ^ 12
                       rxDTold := a.2 % 2 ^ 16, sentAt := s.now }

/-- The link layer at training, and the advertisement of its channels. -/
def State.trainLink (n : Nat) (s : State) : State :=
  let want := s.rd R.PRT_LNK_CFG_PRESET n
  let bad := want = 3 && !s.customFits n
  let preset := if bad then 0 else want
  let credits : Vector Credit 16 := Vector.ofFn fun (i : Fin 16) => s.trainCredit n preset i.val
  let adv := s.advertised n preset 0
  let s := s.onPortN n fun p => { p with link :=
    { Link.init with credits := credits, preset := preset, retrains := p.link.retrains, sc0Adv := adv } }
  let s := s.forAll ((List.range 16).drop 1) fun ch t =>
    t.emit (.port n (.creditInit ch (t.credit n ch).rxHAdv (t.credit n ch).rxDAdv))
  if bad then s.fc0 0x13 0x0133 n 0 0 else s

/-! ### Loss of ACTIVE and link-down -/

/-- RT loads of commands that a port leaving ACTIVE breaks off (R283); a window of the image waits for its ports again (log 41). -/
def State.breakLoads (n : Nat) (s : State) : State :=
  let hit (r : RtLoad) : Bool := r.hdr.isSome && (s.targetPorts r.win).contains (some n)
  let bad := s.tabs.rtLoads.filter hit
  let s := s.onTabs fun t => { t with rtLoads := t.rtLoads.filter fun r => !hit r }
  s.forAll bad fun r t => t.tell r.hdr { status := .busy }

/-- What hangs on a port being ACTIVE: rings whose space is its I/O space, RT loads, bandwidth windows (R283, R498, R537). -/
def State.leaveActive (n : Nat) (s : State) : State :=
  let mine (r : Option Ring) : Bool := match r with
    | some r => r.space = 1 && r.port = n && r.state ≠ .error
    | none => false
  let s := s.onPortN n fun p => { p with bwDown := true }
  let s := s.forAll ((s.host.rings.filter fun e => mine e.2).map Prod.fst) fun k t => t.ringError k false 2
  let s := s.forAll ((s.host.evqs.filter fun e => mine e.2).map Prod.fst) fun k t => t.ringError k true 2
  s.breakLoads n

/-- The Yo-yo is emptied at link-down (R166); a request in it that has left whole is completed with those that the partner has taken
(R128). -/
def State.emptyYoyo (n : Nat) (s : State) : State :=
  let l := (s.portN n).link.yoyo
  let gone (r : TxReq) : Bool := (s.portN n).sent.any fun m => m.from_ = r.src && m.tag = r.tag
  let s := s.onPortN n fun p => { p with link := { p.link with yoyo := [], replays := 0, sinceAck := 0, stall := none } }
  let s := s.forAll l fun y t => t.forAll (y.flit.np.filter fun r => !gone r) fun r u => u.reply r.src r.kind r.tag r.addr.toNat .portDown
  s.bump R.PRT_LNK_UNCONF_COUNT n (sumNat (l.map fun y => y.flit.posted))

/-- The virtual bridges of downstream port `n`: upstream port and LD of each binding. -/
def State.bridgesOf (s : State) (n : Nat) : List (Nat × Nat) :=
  (s.tabs.binds.filterMap fun e => match e.2 with
    | some b => if e.1 / 32 = n then some (b.up, e.1 % 16) else none
    | none => none).eraseDups

/-- Hot-plug events in the virtual bridges of the upstream ports bound to a downstream port that goes down: presence detect changed,
when presence is gone, and data link layer state changed (R132). An upstream port in UP shows its bridges too (R638). -/
def State.hotPlug (n : Nat) (gone : Bool) (s : State) : State :=
  s.forAll (s.bridgesOf n) fun x t =>
    let t := t.onHost fun h => { h with bridgeEvt := Tab.upd natAt h.bridgeEvt (n * 32 + x.2) fun v => v ||| 0x100 ||| (if gone then 8 else 0) }
    if (t.portN x.1).state.linked then t.emit (.port x.1 (.hotPlug n x.2 gone true)) else t

/-- The link of a port can go down: its data link layer is up, or its LTSSM has reached L0 (R127). -/
def Port.canFall (p : Port) : Bool := p.state.linked || (p.state = .training && p.rate ≠ 0)

/-- Link-down for a cause of R517: 1 DLL inactive, 2 presence, 3 LTSSM, 4 PORT_DOWN. `asked` marks one that R130 does not call
unrequested (PORT_DOWN, R139). A release under way goes on with its flush (R135), and the next training takes the configuration as it
stands now (R151). The safe state has no message to flush, and its homes are frozen (R552). -/
def State.declareDown (n cause : Nat) (asked : Bool) (s : State) : State :=
  let p := s.portN n
  if !p.canFall then s
  else
    let s := if p.state = .active then s.leaveActive n else s
    let gen := p.gen + 1
    let s := s.onPortN n fun p =>
      { p with
          state := .flush, gen := gen, dll := false, flushing := true, walks := BitVec.allOnes 16, width := 0, rate := 0, mode := 0
          merad := .none, negVer := 0, respNs := 0, retrain := false, l0pAsk := none, keys := [], secure := 0
          outNp := 0, ltssm := (Config.ltssmCode 0).toNat, waitBind := p.wasBound, wasBound := false
          release := if p.release = .draining then .flushing else p.release }
    let s := s.latchCfg n
    let s := s.bump R.PRT_LDOWN_CNT_COUNT n 1
    let s := s.captureSide n 3 0
    let s :=
      if s.bit R.PRT_HP_SURPRISE n then s.fc0 0x13 0x0130 n cause gen.toNat
      else if asked then s
      else s.fault 0x303 n 0 cause
    let s := s.onFab fun f => { f with sc0 := f.sc0.filter fun r => r.src ≠ n, splits := f.splits.filter fun r => r.port ≠ n }
    let s :=
      if s.flt.safe then (s.onPortN n fun p => { p with sent := [], flushOwed := 0 }).emptyYoyo n
      else (((s.emptyYoyo n).cutInputs n).flushColumns n).lostPort n
    let s := s.hotPlug n p.prsnt
    if p.prsnt then s.unpower n else s

/-- Presence is gone: link-down, or an unfinished power-up or training ends (R127, R131). -/
def State.presenceLost (n : Nat) (s : State) : State :=
  let p := s.portN n
  if p.canFall then s.declareDown n 2 false
  else
    match p.state with
    | .powerUp | .training => (s.unpower n).enterOff n
    | .off => s.unpower n
    | _ => s.unpower n

/-- Port power fault (R125, R471). -/
def State.powerFault (n : Nat) (s : State) : State :=
  let s := if s.flt.safe then s else s.pwrenAt n false
  let s := (s.onPortN n fun p => { p with ramping := false }).fault 0x301 n
  if (s.portN n).canFall then s.declareDown n 1 false
  else if (s.portN n).state = .powerUp || (s.portN n).state = .training then s.enterOff n else s

/-- Egress-ready vector of a port: bit c set when the link layer can take the head message of class c (R564). -/
def State.rdyVec (s : State) (n : Nat) : Nat :=
  (List.range 8).foldl (fun v c =>
    match s.fab.msgs.find? fun m => m.port = n && m.cls = c && s.inSequence m with
    | some m => if s.linkTakes n m then v + 2 ^ c else v
    | none => v) 0

/-- RDY items of scoped ports whose vector has changed. -/
def State.noteRdy (s : State) : State :=
  if !s.rec_.st.takes then s
  else s.forAll ((List.range 64).filter fun n => s.isLowest n && s.recPort n) fun n t =>
    let v := t.rdyVec n
    if Tab.get natAt t.rec_.rdy n = v then t
    else (t.capture 0x04 n 0 16 [v]).onRec fun r => { r with rdy := Tab.set natAt r.rdy n v }

/-! ### Column faults (R243) -/

/-- An engine cluster, a home slice or a port behind a faulted column goes down. Its column carries nothing until cold start
(log 72). -/
def State.columnFault (ep : Nat) (s : State) : State :=
  let s := (s.onColumnN ep fun c => { c with down := true }).fault 0x309 ep
  if ep < 64 then s.declareDown (s.lowest ep) 1 false
  else if ep < 72 then s.failCluster (ep - 64)
  else s.failHome (Fin.ofNat 16 (ep - 72)) 4

end Sys2Proof.Machine
end

