-- ==== Sys2Proof/Machine/Home.lean ====
section
/-! DEFINITION. Commands of the home slices (spec 06, 07). -/

namespace Sys2Proof.Machine

/-! ### Requests (R253, R257 to R262, R272 to R287, R698) -/

def execRds (r : HReq) (s : State) : Host.Outcome State Fault Refusal := .next (s.arrive r 0 none)

def execRdx (r : HReq) (s : State) : Host.Outcome State Fault Refusal := .next (s.arrive r 1 none)

def execUpg (r : HReq) (s : State) : Host.Outcome State Fault Refusal := .next (s.arrive r 2 none)

def execRdu (r : HReq) (s : State) : Host.Outcome State Fault Refusal := .next (s.arrive r 3 none)

def execWru (r : HReq) (s : State) : Host.Outcome State Fault Refusal := .next (s.arrive r 4 none)

/-- R280: a partial write whose merge is the operation. -/
def execAtomic (r : HReq) (op : AtomOp) (w64 : Bool) (operand compare : Word) (s : State) : Host.Outcome State Fault Refusal :=
  .next (s.arrive r 5 (some (op, w64, operand, compare)))

def execWb (r : HReq) (s : State) : Host.Outcome State Fault Refusal := .next (s.arrive r 6 none)

def execCev (r : HReq) (s : State) : Host.Outcome State Fault Refusal := .next (s.arrive r 7 none)

/-! ### Responses -/

/-- R263. -/
def execBiconflict (p : PortId) (fa : BitVec 52) (s : State) : Host.Outcome State Fault Refusal :=
  let la := fa.toNat / 64
  .next (s.whenServing fun s =>
    ((s.bump R.HOM_CONFLICT_COUNT (homeOfLa la) 1).onHome fun h => { h with confs := h.confs ++ [(la, s.lowest p.val)] }).settleConfs la)

/-- A snoop response that a transient awaits; any other one is discarded (R262, R315). -/
def State.snoopAnswer (x la : Nat) (shared : Bool) (s : State) : State :=
  match s.trkOf la with
  | none => s
  | some t =>
    if !t.await.getLsbD x then s
    else
      let s := if shared && t.inv then s.fc2 (s.lineDomain la) 0x209 (faOf la) else s
      (s.setTrk la (some
        { t with await := t.await &&& ~~~ portBit x, rsps := if shared && !t.inv then t.rsps ||| portBit x else t.rsps })).settle

def execRspi (p : PortId) (fa : BitVec 52) (s : State) : Host.Outcome State Fault Refusal :=
  .next (s.whenServing fun s => s.snoopAnswer (s.lowest p.val) (fa.toNat / 64) false)

def execRsps (p : PortId) (fa : BitVec 52) (s : State) : Host.Outcome State Fault Refusal :=
  .next (s.whenServing fun s => s.snoopAnswer (s.lowest p.val) (fa.toNat / 64) true)

/-- The forwarding response of the owner that a transient awaits (R276, R277). -/
def State.fwdAnswer (x la tag : Nat) (data : Option Line) (s : State) : State :=
  match s.findDir la, s.trkOf la with
  | some (_, d), some t =>
    if t.awaitFwd && t.owner0 = x && d.trk = tag then
      (s.setTrk la (some { t with awaitFwd := false, fwd := data, awaitWb := data.isNone && !t.wbTaken })).settle
    else s
  | _, _ => s

def execFwdData (p : PortId) (tag : BitVec 16) (fa : BitVec 52) (data : Line) (s : State) : Host.Outcome State Fault Refusal :=
  .next (s.whenServing fun s => s.fwdAnswer (s.lowest p.val) (fa.toNat / 64) tag.toNat (some data))

def execFwdNack (p : PortId) (tag : BitVec 16) (fa : BitVec 52) (s : State) : Host.Outcome State Fault Refusal :=
  .next (s.whenServing fun s => s.fwdAnswer (s.lowest p.val) (fa.toNat / 64) tag.toNat none)

/-- Data of the oldest backing read of a line: for its transient, or for a request served in a stable state; else discarded. -/
def execMemd (fa : BitVec 52) (data : Line) (poison : Bool) (s : State) : Host.Outcome State Fault Refusal :=
  let la := fa.toNat / 64
  .next (s.whenServing fun s =>
    match s.home.reads.find? fun o => o.la = la with
    | none => s
    | some o =>
      let s := s.onHome fun h => { h with reads := h.reads.erase o }
      let s := match o.req with
        | some r => s.respond r true o.grant (data, poison) .ok
        | none =>
          if o.kind ≠ 8 then s
          else match s.trkOf la with
            | some t => if t.awaitMem then s.setTrk la (some { t with awaitMem := false, mem := some (data, poison) }) else s
            | none => s
      s.settle)

/-- R251. -/
def execBisnpFromBacking (h : SliceId) (p : PortId) (fa : BitVec 52) (s : State) : Host.Outcome State Fault Refusal :=
  .next (s.whenServing fun s =>
    (s.sendCore { homeMsg (fa.toNat / 64) (s.lowest p.val) .biRspI 1 0 (0, false) .ok 0 with src := .home h }).bump
      R.HOM_STALE_COUNT h.val 1)

/-! ### Retries, snoop timers, recalls -/

/-- Order of lists of keys. -/
def lexLt : List Nat → List Nat → Bool
  | a :: x, b :: y => a < b || (a = b && lexLt x y)
  | _, _ => false

/-- A retry comes before another: the CCLK in which it falls due, then that of first arrival, then SRC, then SEQ (R273). -/
def State.retryBefore (s : State) (a b : Retry) : Bool :=
  let key (q : Retry) : List Nat := [s.cclksTo q.due, q.first, s.srcNo q.req.src q.req.fa.toNat, q.req.seq]
  lexLt (key a) (key b)

/-- The retry that falls due next: guarded requests have left the timer (R275). -/
def State.nextRetry (s : State) (h : SliceId) : Option Retry :=
  ((s.slice h).retry.filter fun q => q.guard.isNone).foldl (fun b q => match b with
    | some x => if s.retryBefore q x then some q else b
    | none => some q) none

/-- R272, R273: not before an SC0 request that stands in the column (R257), nor without a tracker for it (R258, log 65). -/
def execRetryDue (h : SliceId) (s : State) : Host.Outcome State Fault Refusal :=
  .next (s.whenServing fun s =>
    match s.nextRetry h with
    | none => s
    | some q => if s.sc0Waits h || !s.trackerFree q.req then s else ((s.reach ((q.due + 2 ^ 32 - 1) / 2 ^ 32)).onSlice h fun x => { x with retry := x.retry.erase q }).present q)

/-- R270. -/
def execSnoopTimeout (p : PortId) (fa : BitVec 52) (s : State) : Host.Outcome State Fault Refusal :=
  let la := fa.toNat / 64
  .next (s.whenServing fun s =>
    let x := s.lowest p.val
    match s.findDir la, s.trkOf la with
    | some (k, d), some t =>
      if !t.awaits x then s
      else
        let s := s.reach (t.sent + 1000 * s.rd R.HOM_SNP_TSNP_US)
        let s := (s.bump R.HOM_SNP_TOUT_COUNT (homeOfLa la) 1).fault 0x30A x
        if (s.portN x).state.linked then s.declareDown x 4 true else (s.lostTrk x k d t).settle
    | _, _ => s)

/-- R279: the recall of a watched line, once it is due. -/
def execWatchRecall (fa : BitVec 52) (s : State) : Host.Outcome State Fault Refusal :=
  let la := fa.toNat / 64
  .next (s.whenServing fun s =>
    match s.home.recalls.find? fun e => e.1 = la with
    | none => s
    | some e =>
      let s := (s.reach e.2).onHome fun h => { h with recalls := h.recalls.erase e }
      if !s.isWatched la then s
      else
        let r : HReq :=
          { src := .svc (Fin.ofNat 64 s.mgrPort), fa := BitVec.ofNat 52 (faOf la), domain := Fin.ofNat 4096 (s.lineDomain la), data := 0
            poison := false, be := 0, mv := .i, io := false, posted := false, sc0 := false, stamp := s.now, seq := 0, epoch := s.fab.epoch
            tag := recallTag }
        s.present ⟨r, 3, none, 0, 0, s.fine, none⟩)

/-! ### Write-backs -/

/-- The next forced or slack write-back of a slice, at HOM_WB.RATE per microsecond (R304, R307). -/
def execWritebackIssue (h : SliceId) (s : State) : Host.Outcome State Fault Refusal :=
  .next (s.whenServing fun s =>
    if (s.slice h).failed || s.rd R.HOM_WB_RATE ≤ s.wbUsed h then s
    else
      let go (key : Nat) (forced : Bool) : State :=
        ((s.issueWb key false forced).onSlice h fun c => { c with wbPtr := (key / 16 % 2048 + 1) % 2048 }).claimWays
      match s.wbNext h true, s.wbNext h false with
      | some key, _ => go key true
      | none, some key => go key false
      | none, none => s.claimWays)

/-- R301, R306: backing memory has completed a write-back of the line. -/
def execWritebackComplete (fa : BitVec 52) (s : State) : Host.Outcome State Fault Refusal :=
  let la := fa.toNat / 64
  let h := sliceOf la
  .next (s.whenServing fun s =>
    if !s.home.wbOut.contains la then s
    else
      let s := (s.onSlice h fun c => { c with wbFlight := c.wbFlight - 1 }).onHome fun g => { g with wbOut := g.wbOut.erase la }
      match s.findOlc la with
      | some (key, o) =>
        if !o.wb then s
        else match s.trkOf la with
          | some t => s.setTrk la (some { t with wbDone := true })
          | none => ((s.endWb key).resolve la).settle
      | none => s)

/-! ### Scrub and errors (R310 to R314) -/

/-- R313: at a multiple of STEP_NS, or at the first CCLK after it without an SC0 request, one way is scrubbed; `errs` names the
structures in which an error is found. -/
def execScrubStep (h : SliceId) (errs : List (Fin 8 × Bool)) (s : State) : Host.Outcome State Fault Refusal :=
  .next (s.whenServing fun s =>
    let x := s.slice h
    if x.failed || !s.bit R.HOM_SCRUB_EN || s.sc0Waits h then s
    else
      let due := s.multipleDue x.scrubAt (s.rd R.HOM_SCRUB_STEP_NS)
      let next := (x.scrubPtr + 1) % 32768
      let s := (s.reach due).onSlice h fun c => { c with scrubPtr := next, scrubAt := due }
      let s := if next = 0 then s.bump R.HOM_SCRUB_PASS_COUNT h.val 1 else s
      let s := s.meetInverted h (h.val * 32768 + x.scrubPtr)
      (s.forAll (errs.filter fun e => 3 ≤ e.1.val) fun e t => t.homeError h e.1.val (h.val * 32768 + x.scrubPtr) e.2))

/-! ### Unbinding and revocation (R308, R410) -/

/-- Lines in an FA range with an entry or an OLC way in a slice that works. -/
def State.linesIn (s : State) (lo hi : Nat) : List Nat :=
  let ok (la : Nat) : Bool := lo ≤ faOf la && faOf la < hi && !(s.slice (sliceOf la)).failed
  ((s.home.dir.filterMap fun e => e.2.bind fun d => if ok d.la then some d.la else none)
    ++ (s.home.olc.filterMap fun e => e.2.bind fun o => if ok o.la then some o.la else none)).eraseDups

/-- No live message belongs to an epoch older than `e` (R207). -/
def State.drainedTo (s : State) (e : Nat) : Bool := s.liveEpochs.all fun x => !olderEpoch x e

/-- RT and WATCH leave a line that is unbound. -/
def State.unpin (la : Nat) (s : State) : State :=
  let s := match s.findDir la with
    | some (k, d) => s.setDir k (some { d with rt := false, watch := false })
    | none => s
  match s.findOlc la with
  | some (k, o) => s.setOlc k (some { o with rt := false })
  | none => s

/-- The walk of an unbound range over one line: pins cleared, holders evicted, a clean resident line freed. -/
def State.unbindLine (la : Nat) (s : State) : State :=
  let s := (s.unpin la).evictLine la .victim
  match s.findOlc la with
  | some (k, o) => if !o.dirty && !o.wb then s.setOlc k none else s
  | none => s

/-- A retry of a range waits. -/
def State.retriesIn (s : State) (lo hi : Nat) : Bool :=
  s.home.slices.toList.any fun x => x.retry.any fun q => lo ≤ q.req.fa.toNat && q.req.fa.toNat < hi

/-- R308: the walk begins once no message of an older epoch is live. -/
def execUnbindWalkStart (s : State) : Host.Outcome State Fault Refusal :=
  .next (s.whenServing fun s =>
    let ready (u : Unbind) : Bool := !u.walking && s.drainedTo u.epoch && !s.retriesIn (u.base * mib2) (u.limit * mib2)
    match s.tabs.unbinds.find? ready with
    | none => s
    | some u =>
      let s := s.onTabs fun t => { t with unbinds := t.unbinds.map fun v => if v = u then { v with walking := true, walkAt := s.now } else v }
      (s.forAll (s.linesIn (u.base * mib2) (u.limit * mib2)) fun la t => t.unbindLine la).settle)

/-- R308: nothing of the range is left in any slice that works. -/
def execWbDone (s : State) : Host.Outcome State Fault Refusal :=
  .next (s.whenServing fun s =>
    match s.tabs.unbinds.find? fun u => u.walking && (s.linesIn (u.base * mib2) (u.limit * mib2)).isEmpty with
    | none => s
    | some u => ((s.reach (u.walkAt + walkNs)).onTabs fun t => { t with unbinds := t.unbinds.erase u }).fc0 0x11 0x0110 0 (u.base * mib2) (u.limit - u.base))

/-- Some line still has a revocation of this domain before it. -/
def State.revoking (s : State) (r : Revoke) : Bool :=
  (s.home.trk.any fun e => match e.2 with
    | some t =>
      r.base * 4096 ≤ faOf t.la && faOf t.la < r.limit * 4096 && (t.why = .revoke r.domain || t.after.contains (.revoke r.domain))
    | none => false)
  || s.home.owed.any fun e => r.base * 4096 ≤ faOf e.1 && faOf e.1 < r.limit * 4096 && e.2 = .revoke r.domain

/-- R410: the walks of the oldest revocation that has ended are reported. -/
def execRevokeDone (s : State) : Host.Outcome State Fault Refusal :=
  .next (s.whenServing fun s =>
    match s.dom.revokes.find? fun r => !s.revoking r with
    | none => s
    | some r =>
      ((s.reach (r.walkAt + walkNs)).onDom fun g => { g with revokes := g.revokes.erase r }).fc0 0x11 0x0111 r.domain (r.base * 4096) (r.limit - r.base))

end Sys2Proof.Machine
end

