-- ==== Sys2Proof/Machine/Ports.lean ====
section
/-! DEFINITION. Commands of ports: sideband, training, Merad negotiation, retrain, L0p, link-down and its end, resets,
configuration requests and IDE (spec 03; R403, R632). -/

namespace Sys2Proof.Machine

/-! ### Presence and power (R123 to R125, R131, R470, R471, R659) -/

def execPrsntNEdge (p : PortId) (high : Bool) (s : State) : Host.Outcome State Fault Refusal :=
  .next (if (s.port p).prsntRaw = high then s else s.onPort p fun x => { x with prsntRaw := high, prsntAt := s.now })

/-- The level of PRSNT_N has held for 1 µs since its last edge (R123). -/
def execPrsntFilterExpire (p : PortId) (s : State) : Host.Outcome State Fault Refusal :=
  .next (s.whenServing fun s =>
    let x := s.port p
    if x.prsntRaw = x.prsnt || !s.isLowest p.val then s
    else
      let s := s.reach (x.prsntAt + 1000)
      let s := (s.onPort p fun x => { x with prsnt := x.prsntRaw }).captureSide p.val 0 (boolNat x.prsntRaw)
      if x.prsntRaw then s.presenceLost p.val else if s.isDownstream p.val then s.comeUp p.val else s)

/-- Inrush of a port in units of 0.1 A / (1000 × lcm of 1 to 20) (R470). -/
def State.inrush (s : State) (n : Nat) : Nat :=
  s.rd R.BLW_PORT_LOAD_CLOAD_UF n * s.rd R.BLW_PORT_LOAD_VNOM_DV n * (232792560 / max 1 (s.rd R.BLW_PORT_LOAD_RAMP_MS n))

/-- Ports that hold a ramp place: from its grant, through the 100 us of R659, to the rise of PWRGD. -/
def State.rampers (s : State) : List Nat := (List.range 64).filter fun n => (s.portN n).ramping

/-- The port that waits first obtains a place (R470). -/
def State.mayRamp (s : State) (n : Nat) : Bool :=
  (s.portN n).upWait && (List.range n).all (fun m => !(s.portN m).upWait)
  && (s.rampers.isEmpty
    || (s.rampers.length < s.blw R.BLW_PWR_CONC
        && sumNat (s.rampers.map s.inrush) + s.inrush n ≤ s.blw R.BLW_PWR_IMAX_DA * 1000 * 232792560))

def execPortPowerUpStart (p : PortId) (s : State) : Host.Outcome State Fault Refusal :=
  .next (s.whenServing fun s =>
    let n := p.val
    if !s.mayRamp n then s
    else
      let s := (s.latchCfg n).onPort p fun x => { x with state := .powerUp, upWait := false, ramping := true, powerAt := s.now }
      let s := (s.dischAt n false).perstAt n false
      let reg := s.rd R.BLW_PORT_LOAD_RREG n
      if reg = 0xFF then s else s.emit (.i3c (s.rd R.BLW_PORT_HS_ADDR n) reg (some (s.rd R.BLW_PORT_LOAD_RVAL n))))

/-- 100 µs after the fall of DISCH (R659). -/
def execDischLeadExpire (p : PortId) (s : State) : Host.Outcome State Fault Refusal :=
  .next (s.whenServing fun s =>
    if (s.port p).state = .powerUp && !s.powered p.val && !s.sys.disch.getLsbD p.val then
      let s := s.reach ((s.port p).powerAt + 100000)
      (s.pwrenAt p.val true).onPort p fun x => { x with powerAt := s.now }
    else s)

def execPwrgdRise (p : PortId) (s : State) : Host.Outcome State Fault Refusal :=
  .next (if !s.isLowest p.val || (s.port p).pwrgd then s
    else
      let s := (s.onPort p fun x => { x with pwrgd := true }).captureSide p.val 1 1
      if s.powered p.val then s.onPort p fun x => { x with ramping := false, powerAt := s.now } else s)

/-- 100 ms after the rise of PWRGD (R124). -/
def execPerstHoldExpire (p : PortId) (s : State) : Host.Outcome State Fault Refusal :=
  .next (s.whenServing fun s =>
    if (s.port p).state = .powerUp && s.powered p.val && (s.port p).pwrgd then
      ((s.reach ((s.port p).powerAt + 100000000)).perstAt p.val true).startTraining p.val
    else s)

/-- R125; in the safe state too, where the pins are held (R552, R555). -/
def execPwrgdFall (p : PortId) (s : State) : Host.Outcome State Fault Refusal :=
  .next (if !s.isLowest p.val || !(s.port p).pwrgd then s
    else
      let s := (s.onPort p fun x => { x with pwrgd := false }).captureSide p.val 1 0
      if s.powered p.val && s.started then s.powerFault p.val else s)

/-- 2 × RAMP_MS + 5 ms after the rise of PWREN (R471). -/
def execPwrgdTimeout (p : PortId) (s : State) : Host.Outcome State Fault Refusal :=
  .next (s.whenServing fun s =>
    if s.powered p.val && !(s.port p).pwrgd && (s.port p).ramping then
      (s.reach ((s.port p).powerAt + (2 * s.rd R.BLW_PORT_LOAD_RAMP_MS p.val + 5) * 1000000)).powerFault p.val
    else s)

/-! ### Training (R98, R103, R151) -/

/-- The LTSSM of a port may train: the port has a role, its partner is out of reset, and the port is not up. -/
def State.mayTrain (s : State) (n : Nat) : Bool :=
  let p := s.portN n
  s.role n ≠ 0 && !p.fenced && s.sys.perstN.getLsbD n && !p.dll
  && (p.state = .training || p.state = .off || p.state = .flush)

/-- Mode code of what the partner offers, when the FLIT in force allows it (R101, R103, R151). -/
def Port.modeOf (p : Port) (rate : Nat) : FlitOffer → Option Nat
  | .flit256 lopt => if p.flit ≤ 1 && 3 ≤ rate then some (if lopt && p.lopt && 5 ≤ rate then 3 else 2) else none
  | .flit68 => if (p.flit = 0 || p.flit = 2) && 3 ≤ rate && rate ≤ 5 then some 1 else none
  | .nonFlit => if p.flit = 0 && rate ≤ 5 then some 0 else none

/-- Width and rate as NARROW_TRAIN carries them. -/
def widthRate (w r : Nat) : Nat := w + 16 * r

/-- LINK_TRAINED: by the configuration that the training took (R151). What the partner is stays known until the next training
(log 73). -/
def execLinkTrained (p : PortId) (width : Fin 6) (rate : Fin 7) (offer : FlitOffer) (isSwitch : Bool) (s : State) :
    Host.Outcome State Fault Refusal :=
  .next (s.whenServing fun s =>
    let n := p.val
    let w := width.val; let r := rate.val
    if !s.mayTrain n then s
    else
      let s := if (s.port p).state = .off then s.startTraining n else s
      let cfgW := widthCode (s.cfgLanes n); let maxR := (s.port p).maxRate
      match if w = 0 || cfgW < w || r = 0 || maxR < r then none else (s.port p).modeOf r offer with
      | none => s
      | some mode =>
        let s := s.onPort p fun x =>
          { x with width := w, trained := w, rate := r, mode := mode, partnerSwitch := isSwitch, ltssm := (Config.ltssmCode 1).toNat }
        let s := (s.trainLink n).captureSide n 4 (widthRate w r)
        if w < cfgW || r < maxR then (s.fault 0x101 n).raise 0 0x13 0x0134 1 n (widthRate w r) (widthRate cfgW maxR) else s)

/-- 100 ms in TRAINING without an allowed mode (R103). -/
def execTrainModeTimeout (p : PortId) (s : State) : Host.Outcome State Fault Refusal :=
  .next (s.whenServing fun s =>
    if (s.port p).state = .training && (s.port p).rate = 0 then (s.reach ((s.port p).trainAt + 100000000)).fault 0x302 p.val else s)

/-- The data link layer becomes active: UP, or FLUSH_WAIT while the flush lasts (R129), and the handshake begins (R109, R110). -/
def execDllUp (p : PortId) (s : State) : Host.Outcome State Fault Refusal :=
  .next (s.whenServing fun s =>
    let x := s.port p
    if x.rate = 0 || x.dll || !(x.state = .training || x.state = .flush) then s
    else
      let s := s.onPort p fun x => { x with state := if x.flushing then .flushWait else .up, dll := true, negVer := 0, respNs := 0 }
      let s := s.captureSide p.val 3 1
      if x.leads then s.sendOffer p.val 1 else s.onPort p fun x => { x with merad := .waitOffer, meradAt := s.now })

/-! ### Merad handshake (R107 to R111) -/

/-- When the wait of PRT_MERAD.WAIT_MS of a port ends (R109, R110). -/
def State.meradDue (s : State) (n : Nat) : Nat := (s.portN n).meradAt + s.rd R.PRT_MERAD_WAIT_MS n * 1000000

/-- WAIT_MS after the last OFFER: it is repeated up to twice, and after the last one the link runs at version 0 (R109). -/
def execMeradOfferRepeat (p : PortId) (s : State) : Host.Outcome State Fault Refusal :=
  .next (s.whenServing fun s =>
    match (s.port p).merad with
    | .leading k =>
      let s := s.reach (s.meradDue p.val)
      if k < 3 then s.sendOffer p.val (k + 1) else s.meradEnds p.val 0 false
    | _ => s)

/-- R107, R110, R111. A partner that offers once the negotiation has ended is followed at the version in force, which holds until
link-down (R112, log 70). -/
def execMeradOfferRx (p : PortId) (verMap : Byte) (respNs : BitVec 16) (tie : Option Word) (s : State) :
    Host.Outcome State Fault Refusal :=
  .next (s.whenServing fun s =>
    let n := p.val
    let accept := s.sendAccept n (commonVer (s.verMap n) verMap.toNat) respNs.toNat
    match (s.port p).merad with
    | .waitOffer | .accepted _ => accept
    | .leading _ =>
      match tie with
      | some t => if State.tieValue n < t.toNat then s else accept
      | none => accept
    | .closed | .ended => s.emit (.port n (.accept (s.port p).negVer 0))
    | .none => s)

/-- R107, R108: the version is in force once CONFIRM is sent. -/
def execMeradAcceptRx (p : PortId) (ver : Fin 4) (respNs : BitVec 16) (s : State) : Host.Outcome State Fault Refusal :=
  .next (s.whenServing fun s =>
    match (s.port p).merad with
    | .leading _ =>
      ((s.onPort p fun x => { x with respNs := respNs.toNat }).emit (.port p.val (.confirm ver.val))).meradEnds p.val ver.val false
    | _ => s)

def execMeradConfirmRx (p : PortId) (ver : Fin 4) (s : State) : Host.Outcome State Fault Refusal :=
  .next (s.whenServing fun s =>
    match (s.port p).merad with
    | .accepted _ => s.meradEnds p.val ver.val false
    | _ => s)

/-- WAIT_MS after the data link layer became active, or after the ACCEPT (R110). -/
def execMeradWaitExpire (p : PortId) (s : State) : Host.Outcome State Fault Refusal :=
  .next (s.whenServing fun s =>
    match (s.port p).merad with
    | .waitOffer | .accepted _ => (s.reach (s.meradDue p.val)).meradEnds p.val 0 true
    | _ => s)

/-- R105, R638. -/
def execAutoRebind (p : PortId) (s : State) : Host.Outcome State Fault Refusal :=
  .next (s.whenServing fun s =>
    let x := s.port p
    if x.bindable && (p.val = s.mgrPort || (s.bit R.PRT_HP_AUTO_REBIND p.val && x.waitBind)) then s.enterActive p.val else s)

/-! ### Retrain and L0p (R115 to R122, R164, R165) -/

/-- Enter Recovery; an error-forced retrain beyond RETRAIN_MAX within a second takes the link down. -/
def State.startRetrain (n : Nat) (forced : Bool) (s : State) : State :=
  let s := (s.onPortN n fun p => { p with retrain := true, ltssm := (Config.ltssmCode 2).toNat }).emit (.port n .ts1)
  if !forced then s
  else
    let s := s.bump R.PRT_LNK_RETRAIN_COUNT n 1
    let l := s.now :: (s.portN n).link.retrains.filter fun t => s.now < t + 1000000000
    let s := s.onPortN n fun p => { p with link := { p.link with retrains := l } }
    if s.rd R.PRT_LNK_RETRY_RETRAIN_MAX n < l.length then (s.fault 0x304 n).declareDown n 3 false else s

def execRetrainStart (p : PortId) (forced : Bool) (s : State) : Host.Outcome State Fault Refusal :=
  .next (if s.started && (s.port p).state.linked && !(s.port p).retrain then s.startRetrain p.val forced else s)

/-- Retransmit flits of the Yo-yo; a replay of the oldest one counts, and the fourth without an acknowledgement forces a retrain (R116,
R157, R163, R164). -/
def State.replay (n : Nat) (l : List YoFlit) (s : State) : State :=
  let oldest := ((s.portN n).link.yoyo.head?.map YoFlit.seq)
  let s := (s.forAll l fun y t => t.emit (.port n (.replay y.seq y.returns))).bump R.PRT_LNK_REPLAY_COUNT n l.length
  if l.head?.map YoFlit.seq = oldest && oldest.isSome then
    let k := (s.portN n).link.replays + 1
    let s := s.onPortN n fun p => { p with link := { p.link with replays := if k = 4 then 0 else k, replayFrom := s.now } }
    if k = 4 then (s.fault 0x102 n).startRetrain n true else s
  else s

/-- R115, R116. A Recovery that ends narrower or slower is no training of R98 (log 74). -/
def execRetrainEnd (p : PortId) (width : Fin 6) (rate : Fin 7) (s : State) : Host.Outcome State Fault Refusal :=
  .next (let n := p.val
    if !(s.started && (s.port p).state.linked && (s.port p).retrain && 0 < width.val && 0 < rate.val) then s
    else
      let s := s.onPort p fun x =>
        { x with retrain := false, width := width.val, trained := width.val, rate := rate.val, ltssm := (Config.ltssmCode 1).toNat }
      let s := (s.captureSide n 4 (widthRate width.val rate.val)).emit (.port n (.ack (s.link p).rxNext))
      let s := s.replay n (s.link p).yoyo
      s.forAll (List.range 16) fun ch t => t.sendCredit n ch)

/-- R118, R120: the narrower of two requested widths takes effect; of two equal requests that of the downstream port of the link
stands, and the other is withdrawn. -/
def execL0pRequestRx (p : PortId) (width : Fin 6) (s : State) : Host.Outcome State Fault Refusal :=
  .next (s.whenServing fun s =>
    let n := p.val
    let x := s.port p
    if !x.state.linked || width.val = 0 || widthCode (s.cfgLanes n) < width.val then s
    else if width.val < x.width && s.protectedPort n then s.emit (.port n .l0pDecline)
    else if x.l0pAsk = some width.val && x.leads then s
    else
      let w := match x.l0pAsk with
        | some a => min a width.val
        | none => width.val
      (s.emit (.port n (.l0pAccept w))).onPort p fun x => { x with l0pAsk := some w })

/-- FTIME that lies `lead` ns before the next OPEN of a window that gives the port a gate state, when it lies in this tick. -/
def State.beforeOpen (s : State) (n w lead : Nat) : Option Nat :=
  (s.opens.find? fun x => x.2.2 = w && s.offset < x.1 && gateBits (x.2.1.gates.getD w 0) n ≠ 0).bind fun x =>
    if x.1 < s.pit.period + lead then some (s.pit.bk + (x.1 - lead)) else none

/-- OPEN − 2 µs − WIDEN_US (R121). -/
def execL0pWidenTimer (p : PortId) (w : WinId) (s : State) : Host.Outcome State Fault Refusal :=
  .next (s.whenServing fun s =>
    let full := widthCode (s.cfgLanes p.val)
    match s.beforeOpen p.val w.val (2000 + 1000 * s.rd R.PRT_L0P_WIDEN_US p.val) with
    | some t =>
      if (s.port p).state.linked && (s.port p).width < full && (s.port p).l0pAsk ≠ some full then
        ((s.reach t).emit (.port p.val (.l0pRequest full))).onPort p fun x => { x with l0pAsk := some full }
      else s
    | none => s)

def execL0pWidthChangeEnd (p : PortId) (s : State) : Host.Outcome State Fault Refusal :=
  .next (match (s.port p).l0pAsk with
    | some w =>
      if s.started && (s.port p).state.linked then (s.onPort p fun x => { x with width := w, l0pAsk := none }).captureSide p.val 5 w else s
    | none => s)

/-- The start of a protected period, 2 µs before OPEN (R122). -/
def execL0pProtectStart (p : PortId) (w : WinId) (s : State) : Host.Outcome State Fault Refusal :=
  .next (s.whenServing fun s =>
    match s.beforeOpen p.val w.val 2000 with
    | some t =>
      if (s.port p).state.linked && (s.port p).lateAt ≠ some t then
        let s := (s.reach t).onPort p fun x => { x with lateAt := some t }
        if (s.port p).width ≠ widthCode (s.cfgLanes p.val) then s.fc0 0x13 0x0131 p.val w.val (s.port p).width else s
      else s
    | none => s)

/-! ### Link-down and its end (R127 to R132, R135, R139, R236, R267) -/

def DownCause.code : DownCause → Nat
  | .dllInactive => 1 | .presence => 2 | .ltssm => 3

/-- LINK_DOWN, in the safe state too (R555). A link-down during a release, deferred or draining ones among them, counts as requested
(R139, log 75). -/
def execLinkDown (p : PortId) (cause : DownCause) (s : State) : Host.Outcome State Fault Refusal :=
  .next (let n := s.lowest p.val
    if s.started then s.declareDown n (DownCause.code cause) ((s.portN n).release ≠ .none) else s)

/-- Step 5 of a release (R135): PERST_N low, power off, RELEASED. -/
def State.released (n : Nat) (s : State) : State :=
  ((s.perstAt n false).unpower n).onPortN n fun p =>
    { p with state := .released, release := .proving, relStart := s.now, width := 0, rate := 0, mode := 0
             proofPass := false, proofFail := false, samples := [] }

/-- Every cell toward the port is free and every completion of R234 has left (R236). -/
def execFlushEnd (p : PortId) (s : State) : Host.Outcome State Fault Refusal :=
  .next (let n := p.val
    if !s.started || !(s.port p).flushing || 0 < (s.port p).flushOwed || s.fab.msgs.any (fun m => m.port = n && m.queued) then s
    else
      let s := s.onPort p fun x => { x with flushing := false }
      if (s.port p).state ≠ .flush then s
      else if (s.port p).release = .flushing && !s.flt.safe then s.released n
      else (s.enterOff n).comeUp n)

def execLostPortWalkEnd (h : SliceId) (p : PortId) (s : State) : Host.Outcome State Fault Refusal :=
  .next (s.whenServing fun s =>
    s.onPort p fun x => { x with walks := x.walks &&& ~~~ BitVec.ofNat 16 (2 ^ h.val) })

/-- R632: a reset of an upstream port from its partner, or a Secondary Bus Reset toward a downstream port. -/
def execHotResetRx (p : PortId) (kind : HotReset) (s : State) : Host.Outcome State Fault Refusal :=
  .next (s.whenServing fun s =>
    let n := s.lowest p.val
    match kind with
    | .secondaryBus => if (s.portN n).role = 2 && (s.portN n).state.linked then (s.emit (.port n .hotReset)).declareDown n 1 false else s
    | _ => if (s.portN n).role = 1 then s.declareDown n 1 false else s)

/-! ### IDE (R142 to R145) -/

def execIdeCheckFail (p : PortId) (stream : Fin 9) (s : State) : Host.Outcome State Fault Refusal :=
  .next (s.whenServing fun s =>
    if !(s.port p).secure.getLsbD stream.val then s
    else
      let s := s.onPort p fun x => { x with insecure := x.insecure ||| BitVec.ofNat 9 (2 ^ stream.val) }
      (s.fault 0x306 p.val).declareDown p.val 1 false)

/-- Write a key slot (R143). -/
def State.putKey (n : Nat) (k : IdeKeySlot) (s : State) : State :=
  s.onPortN n fun p =>
    { p with keys := (p.keys.filter fun x => !(x.stream = k.stream && x.rx = k.rx && x.sub = k.sub && x.slot = k.slot)) ++ [k] }

/-- A stream becomes secure. -/
def State.streamGo (n stream : Nat) (s : State) : State :=
  s.onPortN n fun p => { p with secure := p.secure ||| BitVec.ofNat 9 (2 ^ stream), insecure := p.insecure &&& ~~~ BitVec.ofNat 9 (2 ^ stream) }

def State.streamStop (n stream : Nat) (s : State) : State :=
  s.onPortN n fun p => { p with secure := p.secure &&& ~~~ BitVec.ofNat 9 (2 ^ stream) }

/-- The stream has a key of each direction, which is what K_SET_GO of the host waits for here (log 40). -/
def Port.keyed (p : Port) (stream : Nat) : Bool :=
  p.keys.any (fun k => k.stream = stream && k.rx) && p.keys.any (fun k => k.stream = stream && !k.rx)

/-- An answer whose content the standard gives: a free value. -/
def State.answerFree (n : Nat) (s : State) : State :=
  (s.emit (.port n (.config [(Config.freeWord s.free).toNat]))).nextFree

/-- R144. -/
def execIdeKmRequest (p : PortId) (r : IdeReq) (s : State) : Host.Outcome State Fault Refusal :=
  .next (s.whenServing fun s =>
    let n := p.val
    if !((s.port p).state.linked && (s.port p).role = 1) then s
    else
      let s := match r with
        | .keyProg stream rx sub slot key => s.putKey n ⟨stream.val, rx, sub.val, slot, key⟩
        | .setGo stream => if (s.port p).keyed stream.val then s.streamGo n stream.val else s
        | .setStop stream => s.streamStop n stream.val
      s.answerFree n)

/-! ### Configuration requests (R106, R403, R554) -/

/-- Word of the Merad DVSEC at an offset; header fields of the standard are free. RESP_NS reads 0 (log 71). -/
def State.dvsecWord (s : State) (n off : Nat) : Nat :=
  if off = 0x04 then 0x1F6B + bits (Config.freeWord s.free).toNat 20 12 * 2 ^ 20
  else if off = 0x08 then 0x0004 + s.verMap n * 2 ^ 16
  else if off = 0x0A then s.verMap n
  else if off = 0x0C then (s.portN n).negVer * 2 ^ 16
  else if off = 0x0E then (s.portN n).negVer
  else (Config.freeWord s.free).toNat

/-- A vector of the MSI-X table is written; a message held by its mask is sent when the mask is cleared. -/
def State.writeMsix (n vec addr data : Nat) (mask : Bool) (s : State) : State :=
  let k := n * 2048 + vec
  let e := Tab.get msixAt s.host.msix k
  let send := e.pend && !mask
  let s := s.onHost fun h => { h with msix := Tab.set msixAt h.msix k ⟨addr, data, mask, e.pend && mask⟩ }
  if send then s.emit (.msix n vec) else s

/-- The device serves configuration requests of a port: the link is up; in the safe state only the manager port's. -/
def State.servesConfig (s : State) (n : Nat) : Bool :=
  s.started && (s.portN n).state.linked && (!s.flt.safe || n = s.mgrPort)

/-- Upstream port `n` has a virtual bridge for logical device `ld` of port `ds`. -/
def State.hasBridge (s : State) (n ds ld : Nat) : Bool := (s.bridgesOf ds).contains (n, ld)

/-- Serve a request for a virtual bridge, when the port has it. -/
def State.onBridge (n ds ld : Nat) (f : State → State) (s : State) : State :=
  if s.hasBridge n ds ld then f s else s.emit (.port n (.unsupportedRequest 0))

def execConfigRequest (p : PortId) (r : CfgReq) (s : State) : Host.Outcome State Fault Refusal :=
  .next (let n := p.val
    if !s.servesConfig n then s
    else match r with
      | .dvsecRead off => (s.emit (.port n (.config [s.dvsecWord n off.toNat]))).nextFree
      | .bridgeMem ds ld pref base limit =>
        s.onBridge n ds.val ld.val fun s =>
          (s.onHost fun h => { h with
            bridgeMem := Tab.set pairAt h.bridgeMem ((ds.val * 32 + ld.val) * 2 + boolNat pref) (base.toNat, limit.toNat) }).answerFree n
      | .bridgeBus ds ld lo hi =>
        s.onBridge n ds.val ld.val fun s =>
          (s.onHost fun h => { h with
            bridgeBus := Tab.set pairAt h.bridgeBus (ds.val * 32 + ld.val) (lo.toNat, hi.toNat) }).answerFree n
      | .slotStatus ds ld clear =>
        s.onBridge n ds.val ld.val fun s =>
          let k := ds.val * 32 + ld.val
          (s.emit (.port n (.config [Tab.get natAt s.host.bridgeEvt k]))).onHost fun h =>
            { h with bridgeEvt := Tab.upd natAt h.bridgeEvt k fun v => v &&& (clear ^^^ BitVec.allOnes 16).toNat }
      | .command v =>
        if (s.port p).role = 1 then (s.onHost fun h => { h with cmdReg := Tab.set natAt h.cmdReg n v.toNat }).answerFree n
        else s.answerFree n
      | .msix vec addr data mask =>
        if (s.port p).role = 1 then (s.writeMsix n vec.val addr.toNat data.toNat mask).answerFree n else s.answerFree n
      | .doe none _ _ => s.answerFree n
      | .doe (some ds) protocol payload =>
        if ((s.bridgesOf ds.val).map Prod.fst).contains n && (s.port ds).state.linked && payload.length ≤ 1024 then
          (s.emit (.port ds.val (.doe protocol.toNat payload))).answerFree n
        else s.emit (.port n (.unsupportedRequest 0))
      | .margin lane _ =>
        if 4 ≤ (s.port p).rate && lane.val < lanesOf (s.port p).trained then s.answerFree n else s.emit (.port n (.unsupportedRequest 0))
      | .ptm => if n = s.rd R.TIK_PTM_PORT then s.emit (.port n (.unsupportedRequest 0)) else s.emit (.port n (.ptmResponse s.now))
      | .lowPower l1 => if l1 then s.emit (.port n .pmNak) else s
      | .absent _ => s.emit (.port n (.unsupportedRequest 0))
      | .other _ _ _ => s.answerFree n)

end Sys2Proof.Machine
end

