-- ==== Sys2Proof/Machine/RecOps.lean ====
section
/-! DEFINITION. What ends a recording (R581 to R584), and the failure of a check unit, which may do so (R415). -/

namespace Sys2Proof.Machine

/-- Place in the sink of byte `o` of a record: one that wraps goes on after its STATE or RTDATA section (R581). -/
def State.sinkPlace (s : State) (c : RecCfg) (o : Nat) : Nat :=
  if o < c.len then o else s.rec_.first + (o - c.len) % max 64 (c.len - s.rec_.first)

/-- Eight words go to the sink behind those written, while it has room for them (R575, R581). -/
def State.sinkLine (w : List Nat) (s : State) : State :=
  match s.rec_.cfg with
  | some c =>
    if !c.wrap && c.len < s.rec_.written + 64 then s
    else (s.emit (.sink (c.base + s.sinkPlace c s.rec_.written) w)).onRec fun r => { r with written := r.written + 64 }
  | none => s

/-- Words, a multiple of eight, go to the sink. -/
def State.toSink (w : List Nat) (s : State) : State :=
  s.forAll (List.range (w.length / 8)) fun i t => t.sinkLine ((w.drop (8 * i)).take 8)

/-- Bytes of the sink that items and sections may fill: the last 4 KiB are kept for the END section unless the record wraps. -/
def RecCfg.room (c : RecCfg) : Nat := if c.wrap then c.len else c.len - 4096

/-- The buffer goes to the sink as far as it has room beside the END section (R581, R584). -/
def State.spillAll (s : State) : State :=
  let n := match s.rec_.cfg with
    | some c => if c.wrap then s.rec_.buf.length else (c.room - s.rec_.written) / 64 * 8
    | none => 0
  (s.toSink (s.rec_.buf.take n)).onRec fun r => { r with buf := [], used := 0 }

/-- The chunks of a section with its body in words, each of at most 64 KiB (R578); `items` counts those of each chunk. -/
def sectionOf (type tick : Nat) (items : List Nat → Nat) (body : List Nat) : List Nat :=
  let n := max 1 (ceilDiv body.length (chunkRoom / 8))
  (List.range n).flatMap fun i =>
    let w := (body.drop (chunkRoom / 8 * i)).take (chunkRoom / 8)
    chunkWords type (0 < i) (i + 1 = n) tick (items w) w

/-- Body of a section given as words. -/
def bodyOf (l : List Word) : List Nat := l.map BitVec.toNat

/-- The EPOCH section in progress closes. -/
def State.closeEpoch (s : State) : State :=
  if s.rec_.st.takes || s.rec_.chunk ≠ [] then s.onRec fun r => r.closeEpoch s.pit.tick else s

/-- A GAP section enters the buffer (R582). -/
def State.pushGap (s : State) : State :=
  let w := sectionOf 0x11 s.pit.tick (fun _ => 0)
    (bodyOf (Config.gapBody s.rec_.gapAt s.rec_.gapTick (s.pit.tick - s.rec_.gapTick + 1) s.rec_.gapLost))
  s.onRec fun r => { r.push w with used := r.used + 8 * w.length, gapLost := 0 }

/-- Oldest tick that the sink still holds, of a record that wraps (R581). -/
def State.oldestHeld (s : State) (c : RecCfg) : Option Nat :=
  if c.wrap then (s.rec_.begun.find? fun e => s.rec_.written ≤ e.2 + (c.len - s.rec_.first)).map Prod.fst else none

/-- Each scoped endpoint that took a decision writes its DIGEST item, and the next span begins (R569). -/
def State.endSpan (s : State) : State :=
  let span := s.rec_.span
  let s := s.forAll s.rec_.digests fun e t =>
    t.capture 0x0C e.1 0 16 [e.2.crc + e.2.count % 65536 * 2 ^ 32 + span % 65536 * 2 ^ 48]
  s.onRec fun r => { r with digests := [], span := r.span + 1 }

/-- The span in progress ends short, where items are captured. -/
def State.lastSpan (s : State) : State := if s.rec_.st.takes then s.endSpan else s

/-- The recording ends (R584): capture stops, the EPOCH section is closed, the buffer goes to the sink and the END section after
it. The cause is 0 command, 1 sink full, 2 check unit, 3 activation. Messages and engine requests held for it go on, and a
REC_START not yet complete ends with GAP. -/
def State.recClose (cause : Nat) (s : State) : State :=
  let owed := if s.rec_.hold then s.rec_.cfg else none
  let s := s.lastSpan.closeEpoch.spillAll
  let oldest := s.rec_.cfg.bind s.oldestHeld
  let s := s.toSink (sectionOf 0x1F s.pit.tick (fun _ => 0) (bodyOf (Config.endBody s.pit.tick s.rec_.written s.rec_.gaps cause oldest)))
  let s := s.onRec fun r =>
    { r with
        st := .idle, hold := false, cfg := none, cont := false, begun := [], endCause := cause, lastTick := s.pit.tick, digests := [], rdy := [] }
  match owed with
  | some c => s.done c.hdr .gap
  | none => s

/-- A gap closes a recording (R583): the GAP section stands before the END section. -/
def State.recCloseGap (cause : Nat) (s : State) : State :=
  let s := s.lastSpan.closeEpoch
  (if s.rec_.st.takes then s.beginGap 0 else s).pushGap.recClose cause

/-- A recording runs past its quiesce point. -/
def RecSt.captures (r : RecSt) : Bool := r = .recording || r = .gap || r = .sections

/-- A check unit fails (R415): its cause is recorded, its master fenced, and an FC3 fault names it. -/
def State.cuFail (u cause : Nat) (s : State) : State :=
  if s.rd R.DOM_CU_STATUS_FENCED u = 1 then s
  else
    let s := ((s.wr R.DOM_CU_STATUS_FENCED u 1).wr R.DOM_CU_STATUS_CAUSE u cause).fault 0x30D u
    if u < 64 then
      let n := s.lowest u
      let s := s.onPortN n fun p => { p with fenced := true }
      if (s.portN n).state.linked then s.declareDown n 1 false
      else if (s.portN n).state = .powerUp || (s.portN n).state = .training then (s.unpower n).enterOff n
      else s
    else if u < 128 then s.failEngine (Fin.ofNat 64 (u - 64)) 4
    else if u = 129 && s.rec_.st.captures then s.recCloseGap 2
    else s

end Sys2Proof.Machine
end

