-- ==== Sys2Proof/Machine/Fabric.lean ====
section
/-! DEFINITION. The switch core: lookup and check of a message, column admission, arbitration, age, order, audit and barriers
(spec 05; R395 to R406, R434). -/

namespace Sys2Proof

open Machine in
/-- Permissions that an access needs (R402); none: not checked. -/
def MKind.need : MKind → Option Need
  | .memRdS | .memRdU | .ioRd | .svcRd => some needR
  | .memRdX | .memUpg => some needRW
  | .memWr | .ioWr | .svcWr | .cacheWr => some needW
  | .ioAtomic => some needRWA
  | .cacheRd own => some (if own then needRW else needR)
  | _ => none

/-- CXL.mem requests of a host. -/
def MKind.isMemReq (k : MKind) : Bool := k.isMemRead || k.isMemWrite

/-- CXL.io memory requests, routed by address (R194). -/
def MKind.isIoMem : MKind → Bool
  | .ioRd | .ioWr | .ioAtomic => true
  | _ => false

/-- CXL.cache kinds. -/
def MKind.isCache : MKind → Bool
  | .cacheRd _ | .cacheWr | .cacheD2hRsp | .cacheD2hData | .cacheH2dReq | .cacheH2dRsp | .cacheH2dData => true
  | _ => false

/-- A response to a non-posted request of the core, as opposed to one to a snoop. -/
def MKind.isAnswer : MKind → Bool
  | .memDrs | .memNdr | .ioCpl | .cacheH2dRsp | .cacheH2dData => true
  | _ => false

def MSort.isRequest : MSort → Bool
  | .np | .posted => true
  | _ => false

end Sys2Proof

namespace Sys2Proof.Machine

/-! ### Lookup (R194 to R201) -/

/-- The decision for a message. -/
structure Route where
  port   : Nat                  -- destination port name, 64 + n cluster, 72 + n home
  addr   : Nat                  -- ADDR of the header
  chk    : Nat                  -- address at which it is checked (R401)
  space  : Nat
  cport  : Nat
  sh     : Bool
  winSc0 : Bool
  domain : Option Nat
  split  : Bool
  ld     : Nat                  -- logical device of the target (R199)
  pbr    : Option Nat           -- PBR ID that it travels under (R199, R200)
  deriving DecidableEq, Repr

/-- A decision by a decode window of a scope (R194, R197, R199); `.inl` names the domain of a message without a valid target. -/
def State.viaWindow (s : State) (scope addr : Nat) (dom : DWin → Option Nat) (split : Bool) : Option (Sum Nat Route) :=
  (s.window scope addr).map fun x =>
    let w := x.2
    let fa := w.fa addr
    let a := if w.kind || scope = 64 then fa else addr
    if w.kind then .inr ⟨72 + homeOf fa, a, fa, 0, 0, true, w.sc0, dom w, split, 0, none⟩
    else match s.targetAt w (addr - w.base * mib2) with
      | none => .inl ((dom w).getD 0)
      | some t => .inr ⟨s.lowest t.port, a, fa, 0, 0, false, w.sc0, dom w, split, t.ld, if t.usePbr then some t.pbr else none⟩

/-- A route to a port checked in I/O space of port `cport`, or to an endpoint that a home or the core names. -/
def Route.direct (t addr cport : Nat) (d : Option Nat) : Route := ⟨t, addr, addr, 1, cport, false, false, d, false, 0, none⟩

/-- The virtual bridges below upstream port `u`: downstream port and LD of each binding. -/
def State.boundTo (s : State) (u : Nat) : List (Nat × Nat) :=
  (s.tabs.binds.filterMap fun e => match e.2 with
    | some b => if b.up = u then some (e.1 / 32, e.1 % 16) else none
    | none => none).eraseDups

/-- The virtual bridge below upstream port `u` whose memory or prefetchable window holds an address, or whose buses hold a bus number. -/
def State.bridgeOfMem (s : State) (u addr : Nat) : Option (Nat × Nat) :=
  let holds (k : Nat) : Bool := (Tab.get pairAt s.host.bridgeMem k).1 ≤ addr && addr < (Tab.get pairAt s.host.bridgeMem k).2
  (s.boundTo u).find? fun x => holds ((x.1 * 32 + x.2) * 2) || holds ((x.1 * 32 + x.2) * 2 + 1)

def State.bridgeOfBus (s : State) (u bus : Nat) : Option (Nat × Nat) :=
  (s.boundTo u).find? fun x =>
    let r := Tab.get pairAt s.host.bridgeBus (x.1 * 32 + x.2)
    r.1 ≠ 0 && r.1 ≤ bus && bus ≤ r.2

/-- The binding of a logical device, or of a CXL.cache device, of port `n`. -/
def State.bindOf (s : State) (n ld : Nat) (cache : Bool) : Option Bind :=
  Tab.get noneAt s.tabs.binds (n * 32 + ld % 16 + if cache then 16 else 0)

/-- Upstream port of the virtual CXL switch that a port's hierarchy-routed message travels in. -/
def State.hierarchy (s : State) (n ld : Nat) : Option Nat :=
  if s.isUpstream n then some n else (s.bindOf n ld false).map Bind.up

/-- Hierarchy-based routing: to the matching virtual bridge, else upstream (R194). -/
def State.viaHierarchy (s : State) (n : Nat) (m : InMsg) (d : Option Nat) : Sum Nat Route :=
  let addr := m.addr.toNat
  let toward (u t : Nat) : Route := Route.direct t (if m.kind.isIoMem then addr else 0) u d
  match s.hierarchy n m.ld with
  | none => .inl (d.getD 0)
  | some u =>
    let below := if m.kind.isIoMem then s.bridgeOfMem u addr else s.bridgeOfBus u (m.dest.toNat / 256)
    match below with
    | some t => if t.1 = n then .inl (d.getD 0) else .inr { toward u t.1 with ld := t.2 }
    | none => if n = u then .inl (d.getD 0) else .inr (toward u u)

/-- The lookup of a message from port `n` (R194). -/
def State.lookupPort (s : State) (n : Nat) (m : InMsg) : Sum Nat Route :=
  let k := m.kind
  let addr := m.addr.toNat
  let rid := s.ridDomain n m.rid
  let own (d : Option Nat) : Option Nat := if k.need.isSome then d else some (d.getD 0)
  let home (d : Nat) : Sum Nat Route := match m.target with
    | some t => .inr (Route.direct t.val addr 0 (some d))
    | none => .inl d
  if s.isFabric n then
    match s.pbrPort m.pbr.toNat with
    | some t => .inr { Route.direct (s.lowest t) addr n (own rid) with pbr := some m.pbr.toNat }
    | none => .inl (rid.getD 0)
  else if k.isMemReq then (s.viaWindow n addr (fun w => some w.domain) false).getD (.inl 0)
  else match k with
    | .memDrs | .memNdr =>
      match m.target, s.bindOf n m.ld false with
      | some t, _ => if 64 ≤ t.val then home (rid.getD 0) else .inl (rid.getD 0)
      | none, some b => .inr (Route.direct b.up addr 0 (some (rid.getD 0)))
      | none, none => .inl (rid.getD 0)
    | .biSnp | .biRspI | .biRspS | .fwdReq | .fwdData | .fwdNack => home (rid.getD 0)
    | _ =>
      if k.isCache then
        let b := if s.isUpstream n then m.target.bind fun t => (s.bindOf t.val m.ld true).bind fun b =>
            if b.up = n then some (t.val, b) else none
          else (s.bindOf n m.ld true).map fun b => (b.up, b)
        match b with
        | some (t, b) => .inr (Route.direct (s.lowest t) addr b.up (some b.domain))
        | none => .inl 0
      else if k.isIoMem then
        match (if s.isDownstream n then s.viaWindow n addr (fun _ => rid) true else none) with
        | some r => r
        | none => s.viaHierarchy n m rid
      else match k, m.target with
        | .ioCpl, some t => if 64 ≤ t.val then home (rid.getD 0) else s.viaHierarchy n m (some (rid.getD 0))
        | _, _ => s.viaHierarchy n m (some (rid.getD 0))

/-- Domain of an access of the device's own masters (R395). -/
def State.ownDomain (s : State) (m : InMsg) : Nat :=
  match m.src with
  | .engine e => match s.item e with
    | some i => i.disp.domain
    | none => (s.engine e).lastDomain
  | .mar => s.rd R.DBG_CTRL_DOMAIN
  | _ => m.rid.toNat % 4096

/-- The decision for a message (R194). A service access that names a port is one of I/O space (R395). -/
def State.lookup (s : State) (m : InMsg) : Sum Nat Route :=
  let addr := m.addr.toNat
  match m.src with
  | .port p => s.lookupPort (s.lowest p.val) m
  | .home _ => match m.target with
    | some t => .inr (Route.direct (if t.val < 64 then s.lowest t.val else t.val) addr 0 (some (s.lineDomain (addr / 64))))
    | none => .inl 0
  | .svc _ => match m.target with
    | some t => if t.val < 64 then .inr (Route.direct (s.lowest t.val) addr (s.lowest t.val) (some (s.ownDomain m)))
      else (s.viaWindow 64 addr (fun _ => some (s.ownDomain m)) false).getD (.inl (s.ownDomain m))
    | none => (s.viaWindow 64 addr (fun _ => some (s.ownDomain m)) false).getD (.inl (s.ownDomain m))
  | _ => (s.viaWindow 64 addr (fun _ => some (s.ownDomain m)) false).getD (.inl (s.ownDomain m))

/-- Input endpoint of a message (R97, R317). -/
def State.inputOf (s : State) (m : InMsg) : Nat :=
  match m.src with
  | .port p =>
    let n := s.lowest p.val
    let w := s.nslices n
    n + ((s.portN n).link.rxNext + w - 1) % w
  | .engine e => 64 + e.val / 8
  | .home h => 72 + h.val
  | _ => s.inlet m.addr.toNat

/-! ### What the source sees -/

/-- A request of port source counts as outstanding from its acceptance until it is completed (R135). -/
def State.took (m : InMsg) (s : State) : State :=
  match m.src with
  | .port p => if m.kind.sort = .np then s.onPortN (s.lowest p.val) fun q => { q with outNp := q.outNp + 1 } else s
  | _ => s

/-- A final response from a port ends the request of its destination `t` that it answers (R135). -/
def State.tookAnswer (m : InMsg) (t : Nat) (s : State) : State :=
  match m.src with
  | .port p =>
    if m.kind.isAnswer && m.final then
      s.onPortN (s.lowest p.val) fun q => match q.sent.find? fun x => x.src = t && x.tag = m.tag with
        | some x => { q with sent := q.sent.erase x }
        | none => q
    else s
  | _ => s

/-- End a message without forwarding it: a non-posted request completes to its source, a posted message is dropped, a response
discarded. -/
def State.turnAway (m : InMsg) (e : Ending) (s : State) : State :=
  if m.kind.sort = .np then s.reply m.src m.kind m.tag m.addr.toNat e else s

/-- A message toward a port that carries nothing now: as in the flush of R233 (R196). -/
def State.awayDown (m : InMsg) (d : Nat) (s : State) : State :=
  let s := if m.kind.sort = .posted then s.bump R.XBR_FLUSH_POSTED_COUNT 0 1 else s
  (if m.kind = .memWr then s.fc2 d 0x207 m.addr.toNat else s).turnAway m .portDown

/-- An engine's request ends refused (R375). -/
def State.engineRefused (e : EngineId) (tag addr : Nat) (s : State) : State :=
  match (s.item e).bind fun i => i.reqs.find? fun r => r.tag = tag with
  | some r => (((s.popReq e tag).refusedReq e r addr).settleEngine e).settleAccs e
  | none => s

/-- No valid decision, or no domain (R201, R397): an access of the device's own masters completes DENIED, posted or not, and a posted
CXL.io message is logged as an unsupported request. -/
def State.missed (m : InMsg) (d : Nat) (s : State) : State :=
  let s := s.countMiss (s.cuOf m.src)
  match m.src with
  | .engine e => s.engineRefused e m.tag m.addr.toNat
  | .port p =>
    let s := if m.kind.isMemReq then s.fc2 d 0x202 m.addr.toNat else s
    let s := if m.kind.isIo && m.kind.sort = .posted then s.aer (s.lowest p.val) .unsupportedRequest else s
    s.turnAway m .noDecision
  | .home _ => s.turnAway m .noDecision
  | _ => if m.kind.sort.isRequest then s.reply m.src m.kind m.tag m.addr.toNat .noDecision else s

/-! ### SC0 (R66, R72, R73, R76, R695) -/

/-- The open window that admits an SC0 request of port `n` now. -/
def State.sc0Window (s : State) (n : Nat) : Option Nat :=
  (bitsOf s.pit.openWin).find? fun w => gateBits (s.pit.current.gates.getD w 0) n % 2 = 1 && s.admits w

/-- Window of the SC0 request that a response toward `t` with a tag answers: WIN of the request (R695). -/
def State.sc0Answers (s : State) (t tag : Nat) : Option Nat :=
  (s.fab.sc0.find? fun r => r.tag = tag && (if t < 64 then r.src = t else 64 ≤ r.src && 64 + (r.src - 64) / 8 = t)).map Sc0Live.win

/-- The window in which a message travels as SC0: that of its admission, or of the request it answers. -/
def State.sc0Of (s : State) (m : InMsg) (r : Route) : Option Nat :=
  if !m.kind.sort.isRequest then (if m.kind.isAnswer && r.port < 72 then s.sc0Answers r.port m.tag else none)
  else match m.src with
    | .port p =>
      let n := s.lowest p.val
      if (if (s.portN n).negVer = 0 then r.winSc0 else m.sc0) then s.sc0Window n else none
    | .engine e =>
      (s.item e).bind fun i => if i.reqs.any (fun q => q.tag = m.tag && q.sc0) then some i.disp.win else none
    | _ => none

/-- A marked request that is not admitted as SC0 (R72). -/
def State.demoted (s : State) (m : InMsg) (win : Option Nat) : Bool :=
  match m.src with
  | .port p => m.sc0 && m.kind.sort.isRequest && 1 ≤ (s.portN (s.lowest p.val)).negVer && win.isNone
  | _ => false

/-- A request is admitted as SC0: its bound is taken now, without a snoop term (R75, R76). -/
def State.sc0Begin (m : InMsg) (w : Nat) (x : Counted) (s : State) : State :=
  let src := s.sc0Src m.src
  if s.fab.sc0.any fun r => r.src = src && r.tag = m.tag then s
  else
    let t := match m.src with
      | .port p => s.portTerms (s.lowest p.val)
      | _ => engineTerms
    let b := boundSc0 (s.nSrc s.pit.current w) (s.windowK w) 0 t ⟨0, 0, 0, 0⟩
    let terms := (List.range 64).map s.snoopTerm
    let s := s.onFab fun f => { f with sc0 := f.sc0 ++ [⟨src, w, s.now % 2 ^ 32, m.tag, x.domain.getD 0, b, [], terms⟩] }
    if src < 64 then s.count 0x05 src 1 x else s

/-! ### Entry of a message (R190, R192, R228, R434) -/

/-- Channel of its link that a message arrived in (R167, R184). -/
def State.channelOf (s : State) (m : InMsg) : Nat :=
  match m.src with
  | .port p => if m.sc0 && (s.portN (s.lowest p.val)).negVer ≥ 1 then 0 else chanOf m.kind
  | _ => chanOf m.kind

/-- The message of an engine, a home or a service block that an entry stands for. -/
def State.handed (s : State) (m : InMsg) : Option CoreMsg :=
  match m.src with
  | .port _ => none
  | _ => s.fab.inbox.find? fun e => e.src = m.src && e.kind = m.kind && e.tag = m.tag && e.fa = m.addr.toNat

/-- Bytes [off, off + len) of a payload given in cells, from byte 0 of a cell on, padded with zeros (R189). -/
def cellOf (body : List Line) (off len : Nat) : Line :=
  let x := (body.zip (List.range body.length)).foldl (fun (a : Nat) c => a + c.1.toNat * 2 ^ (512 * c.2)) 0
  BitVec.ofNat 512 (x / 2 ^ (8 * off) % 2 ^ (8 * min 64 len))

/-- The data cells of the part of a message that starts at byte `off` and holds `p` bytes of payload: `n` of them. -/
def dataCells (body : List Line) (poison : Bool) (off p n : Nat) : List Cell :=
  (List.range n).map fun i => ⟨cellOf body (off + 64 * i) (p - 64 * i), poison⟩

/-- The message as the lookup leaves it, before SEQ, GEN and DST. `off` is the place of its payload in that of the message received,
and `group` the first part of a request split by R195. -/
def State.newMsg (s : State) (m : InMsg) (r : Route) (d addr off bytes group : Nat) (win : Option Nat) : Msg :=
  let p := payload m.kind bytes
  let ncell := ceilDiv p 64
  let src := s.srcNo m.src m.addr.toNat
  let cls := if win.isSome then 0 else baseClass m.src m.kind
  let fromPort : Bool := match m.src with
    | .port _ => true
    | _ => false
  let u := s.handed m
  let ch := s.channelOf m
  { id := s.fab.nextId, src := src, dst := r.port, cls := cls, proto := protoOf m.src m.kind, ncell := ncell, domain := d
    epoch := (u.bind CoreMsg.epoch).getD s.fab.epoch, gen := 0, sf := s.saf src cls || s.saf r.port cls, sh := r.sh
    sc0a := win.isSome, addr := addr, seq := 0, np := m.kind.sort = .np, stamp := s.now % 2 ^ 32, hs := if r.sh then r.port - 72 else 0
    win := win.getD 0, head := m.head
    body := match u with
      | some e => dataCells [e.data] e.poison 0 p ncell
      | none => dataCells m.body m.poison off p ncell
    input := s.inputOf m, port := r.port, ld := r.ld, pbr := r.pbr, kind := m.kind, tag := m.tag
    status := (u.map CoreMsg.status).getD .ok, owed := none, flush := false, last := m.rdy || ncell = 0 || !fromPort
    bad := false, skip := false, held := false, queued := false, since := 0, started := false, restarts := 0, safIn := s.saf src cls
    from_ := m.src, bytes := p, final := m.final, waited := false, ch := ch, group := group
    units := dataUnits ch (off + p) - dataUnits ch off }

/-- IN or ADM item of a message (R564). -/
def State.captureHead (kind unit : Nat) (m : Msg) (s : State) : State :=
  s.capture kind unit 0 80 ([m.ctl 0, m.word0, m.word1, m.word2] ++ m.headWords)

/-- TAIL item of a message whose LAST cell has come (R564, R565). Bit 26 of its word is POISON of the header cell, and the data cells
follow it (log 77). -/
def State.captureTail (unit : Nat) (m : Msg) (s : State) : State :=
  if m.ncell = 0 then s
  else
    let full := match s.rec_.cfg with
      | some c => c.full || (64 ≤ m.dst && m.dst < 72 && s.recEndpoint m.dst)
      | none => false
    s.capture 0x03 unit (if full then 1 else 0) (if full then 16 + 64 * m.ncell else 16)
      ([m.seq % 2 ^ 16 + m.src % 128 * 2 ^ 16 + m.cls * 2 ^ 23 + sumNat ((List.range m.ncell).map fun i => m.ctl (i + 1) / 8 % 2 * 2 ^ (27 + i))
        + (if m.bad then 2 ^ 35 else 0)] ++ (if full then m.bodyWords else []))

/-- A port can be the target of a message now (R196): one in QUIESCE takes what belongs to requests under way. -/
def State.reachable (s : State) (n : Nat) (k : MSort) : Bool :=
  (s.portN n).state = .active || ((s.portN n).state = .quiesce && !k.isRequest)

/-- A pause for a record or an image holds the message at L5 (R572, R602). -/
def State.pauseHolds (s : State) (m : Msg) : Bool :=
  let isReq : Bool := (m.kind.isMemRead || m.kind = .memUpg)
  m.input < 64
  && ((s.rec_.hold && (m.cls = 0 || m.cls = 4 || m.cls = 5 || (m.cls = 2 && isReq))) || (s.img.hold && m.kind.sort.isRequest))

/-- An earlier message of its class from its port waits at ingress. -/
def State.waitsBehind (s : State) (m : Msg) : Bool := s.fab.msgs.any fun y => y.held && y.src = m.src && y.cls = m.cls && y.id ≠ m.id

/-- Buckets of POINT 0 that match the message (R427). -/
def State.ingressBuckets (s : State) (m : Msg) : List (Nat × Bucket × BucketDec) :=
  if m.src < 64 && !m.sc0a then s.bucketsOf false m.src m.domain m.cls m.epoch else []

/-- A message enters the core: it is held or policed at L5, or takes its number in its flow. -/
def State.enterMsg (x : Msg) (s : State) : State :=
  let add (held : Bool) (s : State) : State :=
    (s.onFab fun f => { f with
      msgs := f.msgs ++ [{ x with held := held }], nextId := f.nextId + 1
      used := f.used || x.epoch = f.epoch }).ledgerAdd x.epoch
  let l := s.ingressBuckets x
  if s.pauseHolds x || s.waitsBehind x then add true s
  else if s.proceeds l x.bytes then (add false (s.chargeBuckets l x.bytes)).stampSeq x.id
  else
    let s := s.countNc l x.bytes
    if x.kind.sort = .posted && s.dropsAt l x.bytes then s.bump R.SHP_DROP_COUNT 0 1 else add true s

/-- What a port's ingress counts of an accepted message (R462, R524, R537, R564). -/
def State.acceptCounts (x : Msg) (s : State) : State :=
  if x.input < 64 then
    let n := x.src
    let s := (s.count 0x01 n 1 x.counted).count 0x02 n x.bytes x.counted
    let s := (s.countRx n x.bytes).onBel fun b => { b with traffic := Tab.upd trafficAt b.traffic n fun l => match l with
      | y :: t => (y.1 + x.bytes, y.2) :: t
      | [] => [(x.bytes, 0)] }
    if s.recPort n then
      let s := s.captureHead 0x01 x.input x
      if x.last then s.captureTail x.input x else s
    else s
  else s

/-- Forward a message, or one part of it, by its decision: not toward a port that is not ACTIVE (R196), nor a home slice whose column
has failed (R314). -/
def State.forward (m : InMsg) (r : Route) (d addr off bytes group : Nat) (win : Option Nat) (s : State) : State :=
  let x := s.newMsg m r d addr off bytes group win
  let s := s.acceptCounts x
  if r.port < 64 && !s.reachable r.port m.kind.sort then s.awayDown m d
  else if 64 ≤ r.port && (s.columnN r.port).down then s.turnAway m .poison
  else
    let s := match win with
      | some w => if m.kind.sort.isRequest then s.sc0Begin m w x.counted else s
      | none => s
    (s.enterMsg x).noteRdy

/-- A marked request that goes on in its base class is counted once, however many parts it has (R72). -/
def State.noteDemoted (m : InMsg) (r : Route) (d : Nat) (win : Option Nat) (s t : State) : State :=
  if t.fab.nextId ≠ s.fab.nextId && s.demoted m win then
    let x := s.newMsg m r d r.addr 0 m.len s.fab.nextId win
    (t.bump R.PRT_LNK_SC0_DEMOTED_COUNT x.src 1).count 0x06 x.src 1 x.counted
  else t

/-- Forward a message that is not split. -/
def State.forwardWhole (m : InMsg) (r : Route) (d : Nat) (s : State) : State :=
  let win := s.sc0Of m r
  s.noteDemoted m r d win ((s.tookAnswer m r.port).forward m r d r.addr 0 m.len s.fab.nextId win)

/-! ### Region check (R400 to R406, R415, R416) -/

/-- Bytes of [addr, addr + len) in the 64-byte part at `a`. -/
def partLen (addr len a : Nat) : Nat := min (addr + len) (a / 64 * 64 + 64) - a

/-- Account the decisions of an engine's request to its access (R406). -/
def State.joinEngine (e : EngineId) (tag kind : Nat) (ds : List (Nat × Decision)) (s : State) : State :=
  s.onItem e fun i =>
    match i.reqs.find? fun r => r.tag = tag with
    | none => i
    | some r =>
      { i with
          reqs := i.reqs.map fun q => if q.tag = tag then { q with checked := true } else q
          accs := match RefAcc.join (i.accs.find? fun a => a.acc = r.acc) r.acc kind ds with
            | some a => a :: i.accs.filter fun b => b.acc ≠ r.acc
            | none => i.accs }

/-- One allowed part of a request of a downstream port split by R195: it goes to the target of its own address (R199), with the address
as received toward a pass-through window (R190). -/
def State.forwardPart (m : InMsg) (r : Route) (d group : Nat) (win : Option Nat) (a : Nat) (s : State) : State :=
  let off := a - r.chk
  let len := partLen r.chk (max 1 m.len) a
  if r.sh then s.forward m { r with port := 72 + homeOf a } d a off len group win
  else match s.viaWindow (s.srcNo m.src 0) (m.addr.toNat + off) (fun _ => some d) true with
    | some (.inr x) => s.forward m x d x.addr off len group win
    | _ => s.turnAway m .noDecision

/-- The allowed parts of a checked message go on; one message a part when it is split (R195). -/
def State.forwardParts (m : InMsg) (r : Route) (d : Nat) (ds : List (Nat × Decision)) (s : State) : State :=
  let win := s.sc0Of m r
  let bad := refusedParts ds
  let lock := (bad.head?.map fun x => x.2.isLock).getD false
  if r.split then
    let good := (ds.filter fun x => x.2 = .allowed).map fun x => x.1
    let n := s.srcNo m.src m.addr.toNat
    if good = [] then s.turnAway m (.refused lock)
    else
      let owed := if bad = [] then none else some ((Ending.refused lock).toPort m.kind m.tag)
      let t := if m.kind.sort = .np || win.isSome then
          s.onFab fun f => { f with splits := ⟨n, m.tag, good.length, owed⟩ :: f.splits }
        else s
      s.noteDemoted m r d win (t.forAll good fun a u => u.forwardPart m r d s.fab.nextId win a)
  else if bad = [] then s.forwardWhole m r d
  else match m.src with
    | .engine e => s.engineRefused e m.tag r.chk
    | _ => s.turnAway m (.refused lock)

/-- The check unit's decision on a message that needs permissions. -/
def State.checked (m : InMsg) (r : Route) (d : Nat) (need : Need) (s : State) : State :=
  let u := s.cuOf m.src
  if (s.domain d).st = .resetting then s.turnAway m .domainReset
  else
    let parts := if m.kind.isIo || m.kind = .svcRd || m.kind = .svcWr then partsOf r.chk m.len else [r.chk]
    let ds := s.decide d r.space r.cport need parts
    let ds := if m.cu.val = 1 then match ds with
        | x :: t => (x.1, .refused) :: t
        | [] => []
      else ds
    let word := s.srcNo m.src m.addr.toNat % 128 + r.port % 128 * 2 ^ 7 + baseClass m.src m.kind * 2 ^ 14 + d * 2 ^ 20
    let s := s.countParts u d (s.sc0Of m r) word ds
    let s := match m.src with
      | .engine e =>
        if (s.item e).any fun (i : Item) => i.reqs.any fun q => q.tag = m.tag then (s.joinEngine e m.tag need.kind ds).settleAccs e
        else s.reportAcc u d (RefAcc.join none 0 need.kind ds)
      | _ => s.reportAcc u d (RefAcc.join none 0 need.kind ds)
    let s := s.forwardParts m r d ds
    if m.cu.val = 0 then s else s.cuFail u m.cu.val

/-- A message with a decision: its domain, its check, its way on (R395 to R402). -/
def State.routed (m : InMsg) (r : Route) (s : State) : State :=
  match r.domain with
  | none => s.missed m 0
  | some d =>
    if m.kind.sort.isRequest && (m.kind.need.isSome || m.kind.isMemReq) && !s.domainLive d then s.missed m 0
    else match m.kind.need, m.src with
      | some _, .home _ => s.forwardWhole m r d
      | some _, .mar => s.forwardWhole m r d   -- its parts are decided before they are issued (MARIONETTE_ACCESS)
      | some n, _ => s.checked m r d n
      | none, _ => s.forwardWhole m r d

/-- An engine of a cluster, by its number there, has a message for the core, or is the one that enters. -/
def State.clusterWaits (s : State) (e : EngineId) (i : Nat) : Bool :=
  i = e.val % 8 || s.fab.inbox.any fun m => m.src = .engine (Fin.ofNat 64 (e.val / 8 * 8 + i))

/-- Engine `i` of the cluster of `e` runs an SC0 work item. -/
def State.clusterSc0 (s : State) (e : EngineId) (i : Nat) : Bool :=
  ((s.item (Fin.ofNat 64 (e.val / 8 * 8 + i))).map fun x => x.disp.sc0).getD false

/-- The cluster's input serves engine `e` next: SC0 work items first, then round robin from the engine last served (R320). -/
def State.clusterTurn (s : State) (e : EngineId) : Bool :=
  let order := (List.range 8).map fun i => (s.fab.served.getD (e.val / 8) 0 + 1 + i) % 8
  let l := order.filter (s.clusterWaits e)
  (if l.any (s.clusterSc0 e) then l.find? (s.clusterSc0 e) else l.head?) = some (e.val % 8)

/-- The cluster's input has served an engine. -/
def State.clusterServed (src : Src) (s : State) : State :=
  match src with
  | .engine e => s.onFab fun f => { f with served := f.served.set (e.val / 8) (e.val % 8) }
  | _ => s

/-- A message can enter now: its port carries messages, and no replay presents those of its record (R587); an engine or a home slice has
handed it over; in a pause engines issue nothing (R572, R602), and they enter in their turn. -/
def State.mayEnter (s : State) (m : InMsg) : Bool :=
  match m.src with
  | .port p => s.carries (s.lowest p.val) && s.rec_.st ≠ .replay
  | .engine e => (s.handed m).isSome && !s.rec_.hold && !s.imagePaused && s.clusterTurn e
  | .home _ => (s.handed m).isSome
  | _ => true

/-- What does not enter the core of a message leaves the receive buffer (R175): its header when no part of it entered, and the data of
the parts that did not. -/
def State.notEntered (m : InMsg) (s t : State) : State :=
  match m.src with
  | .port p =>
    let n := t.lowest p.val
    let ch := t.channelOf m
    let parts := t.fab.msgs.filter fun x => s.fab.nextId ≤ x.id && !x.flush
    let d := dataUnits ch (payload m.kind m.len) - sumNat (parts.map Msg.units)
    let h := if parts.isEmpty then 1 else 0
    if t.carries n && (h ≠ 0 || d ≠ 0) then t.giveBack n ch h d else t
  | _ => t

/-- A TLP of a port keeps to the values of R101: at most 512 bytes of payload, read requests of at most 4,096, tags of 14 bits in flit
mode and of 10 bits otherwise. -/
def State.tlpFits (s : State) (m : InMsg) : Bool :=
  match m.src with
  | .port p =>
    !m.kind.isIo
      || (payload m.kind m.len ≤ 512 && m.len ≤ 4096
          && (m.kind.sort ≠ .np || m.tag < (if 2 ≤ (s.portN (s.lowest p.val)).mode then 2 ^ 14 else 2 ^ 10)))
  | _ => true

/-- A TLP that does not is malformed: it is dropped and recorded in the port's AER capability (log 78). -/
def State.malformed (m : InMsg) (s : State) : State :=
  match m.src with
  | .port p => s.aer (s.lowest p.val) .malformedTlp
  | _ => s

/-- In the safe state messages are answered as toward a port that is down and none is forwarded (R553). -/
def State.answerSafe (m : InMsg) (s : State) : State :=
  s.awayDown m (match s.lookup m with
    | .inl d => d
    | .inr r => r.domain.getD 0)

/-- A message that the slice has accepted enters at L1 (R192). -/
def State.takeIn (m : InMsg) (s : State) : State :=
  if !s.tlpFits m then s.notEntered m (s.malformed m)
  else
    let u := s.handed m
    let t := (s.took m).clusterServed m.src
    let t := if t.flt.safe then t.answerSafe m
      else match t.lookup m with
        | .inl d => t.missed m d
        | .inr r => t.routed m r
    let t := match u with
      | some e => t.onFab fun f => { f with inbox := f.inbox.erase e }
      | none => t
    s.notEntered m t

/-- MESSAGE_INGRESS. -/
def execMessageIngress (m : InMsg) (s : State) : Host.Outcome State Fault Refusal :=
  .next (if !s.started || !s.mayEnter m then s else s.takeIn m)

/-- INGRESS_HOLD_RELEASE: the first held message of its class at a port proceeds once nothing holds it (R430, R434). -/
def execIngressHoldRelease (id : Nat) (s : State) : Host.Outcome State Fault Refusal :=
  .next (match s.msg id with
  | none => s
  | some m =>
    let first := s.fab.msgs.find? fun y => y.held && y.src = m.src && y.cls = m.cls
    let l := s.ingressBuckets m
    if !s.serving || !m.held || first.map Msg.id ≠ some id || s.pauseHolds m || !s.proceeds l m.bytes then s
    else
      let s := s.chargeBuckets l m.bytes
      if m.port < 64 && !s.reachable m.port m.kind.sort then (s.flushResult m).takeOff m
      else (s.stampSeq id).noteRdy)

/-! ### Columns (R217 to R222, R235) -/

/-- Cells that the queue of an input and class holds in a column. -/
def State.queueCells (s : State) (ep input cls : Nat) : Nat :=
  ((s.fab.msgs.filter fun m => m.queued && !m.skip && m.dst = ep && m.input = input && m.cls = cls).map Msg.cells).foldl (· + ·) 0

/-- α code of a class (R219). -/
def State.alphaCode (s : State) (c : Nat) : Nat := s.rd ⟨R.XBR_ALPHA_A0.base, R.XBR_ALPHA_A0.stride, 4 * c, 4⟩

/-- R219, R221, R222: the message is admitted to its column. -/
def State.admissible (s : State) (m : Msg) : Bool :=
  let c := s.columnN m.dst
  let n := m.cells
  let F := if m.cls = 0 then c.free else c.free - c.rsv
  let q := s.queueCells m.dst m.input m.cls
  let whole : Bool := m.cls = 0 || c.rsvWant ≤ c.rsv + s.sc0Cells m.dst
  n ≤ F && whole && (q = 0 || q + n ≤ F * 2 ^ s.alphaCode m.cls / 64)
  && (!m.np || c.np < s.rd R.XBR_NPCAP_NP_CAP)

/-- The message at the head of an input and class (R218), once it may be presented: as its SF says, stamped at L6 (R216, R246). -/
def State.inputHead (s : State) (input cls : Nat) : Option Msg :=
  (s.fab.msgs.find? fun m => !m.queued && !m.held && !m.skip && m.input = input && m.cls = cls).bind fun m =>
    if m.last || !m.safIn then some m else none

/-- A message whose generation is not its port's is dropped (R235). -/
def State.staleGen (s : State) (m : Msg) : Bool := m.port < 64 && m.gen ≠ (s.portN m.port).gen.toNat

def State.genDrop (m : Msg) (s : State) : State :=
  (((s.bump R.XBR_COL_GEN_DROP_COUNT m.dst 1).count 0x12 m.dst 1 m.counted).flushResult m).takeOff m

/-- Inputs that write cells of an admitted message in this CCLK (R217). -/
def State.writing (s : State) : List (Nat × Nat × Nat) := s.fab.writes.filter fun w => s.fine < w.2.2

/-- Order in which a column grants an input (R217): those that present SC0 cells first, each group from the input after the one last
granted. -/
def Column.rank (c : Column) (input : Nat) (sc0 : Bool) : Nat := (if sc0 then 0 else 88) + (input + 87 - c.rr % 88) % 88

/-- Inputs that present the header cell of a message to a column in this CCLK, and whether it is one of SC0. -/
def State.presenters (s : State) (ep : Nat) : List (Nat × Bool) :=
  (s.fab.msgs.filterMap fun m =>
    if m.dst = ep && s.inputHead m.input m.cls = some m && !(s.writing.any fun w => w.1 = m.input) then some (m.input, m.cls == 0)
    else none).eraseDups

/-- The column takes a cell of the input in this CCLK: up to 32 cells, each from a different input (R217). -/
def State.columnGrants (s : State) (ep input : Nat) (sc0 : Bool) : Bool :=
  let c := s.columnN ep
  let ahead := ((s.presenters ep).filter fun x => x.1 ≠ input && c.rank x.1 x.2 < c.rank input sc0).map Prod.fst
  ahead.eraseDups.length + (s.writing.filter fun w => w.2.1 = ep).length < 32

/-- The column takes the message's cells (R220). -/
def State.admitMsg (m : Msg) (s : State) : State :=
  let s := ((s.leaveBuffer m).owedLeaves m).onColumnN m.dst fun c =>
    { c with free := c.free - m.cells, np := if m.np then c.np + 1 else c.np, rr := m.input }
  let s := (s.onMsg m.id fun x => { x with queued := true, since := s.now }).settleRsv m.dst
  let s := s.onFab fun f => { f with writes := s.writing ++ [(m.input, m.dst, s.fine + m.cells * s.pit.rate)] }
  let s := if m.poison then s.bump R.XBR_COL_TAIL_BAD_COUNT m.dst 1 else s
  let s := (s.spend 13 m.cells m.rt).count 0x10 m.dst m.cells m.counted
  if s.recEndpoint m.dst && !(m.src < 64 && s.recPort m.src) then
    let s := s.captureHead 0x02 m.dst m
    if m.last then s.captureTail m.dst m else s
  else s

/-- COLUMN_ADMIT: the head message of an input and class, whose turn it is at the column, is admitted, refused, or dropped (R217, R219,
R235). -/
def execColumnAdmit (ep input : Endpoint) (cls : Fin 8) (s : State) : Host.Outcome State Fault Refusal :=
  .next (match s.inputHead input.val cls.val with
  | none => s
  | some m =>
    if !s.serving || m.dst ≠ ep.val || s.writing.any (fun w => w.1 = input.val) then s
    else if !s.columnGrants ep.val input.val (cls.val = 0) then s.bump R.XBR_COL_GRANTLOSS_COUNT ep.val 1
    else if s.staleGen m then s.genDrop m
    else if s.admissible m then (s.admitMsg m).noteRdy
    else (s.bump R.XBR_COL_REFUSE_COUNT ep.val 1).count 0x11 ep.val 1 m.counted)

/-! ### Arbitration (R224 to R226) and errors of the cells read (R238, R239) -/

/-- Messages next in sequence toward a port that its partner's credit holds back count as having waited (R524). -/
def State.markWaits (n : Nat) (s : State) : State :=
  s.forAll (s.fab.msgs.filter fun m => m.port = n && n < 64 && s.inSequence m && !m.started && !m.waited && !s.linkTakes n m) fun m t =>
    (t.onMsg m.id fun x => { x with waited := true }).count 0x07 n 1 m.counted

/-- The message that an arbiter reads now: the one in egress, else its choice. -/
def State.reading (s : State) (port : Nat) : Option Msg :=
  match (s.fab.arbs.toList.getD port Arb.init).busy with
  | some id => s.msg id
  | none => (s.choose port (s.fab.arbs.toList.getD port Arb.init)).2

/-- The arbiter of `port` goes on: a message whole in egress leaves; a free arbiter chooses and starts the next one. -/
def State.arbitrate (port : Nat) (s : State) : State :=
  let a := s.fab.arbs.toList.getD port Arb.init
  match a.busy with
  | some id => match s.msg id with
    | some m => if m.last then s.leave m else s
    | none => s
  | none =>
    let c := s.choose port a
    let s := if port < 64 && s.passedOver port c.2 then s.bump R.SHP_SKIP_COUNT 0 1 else s
    match c.2 with
    | some m => if s.staleGen m then (s.genDrop m).advanceFlow m.flow else s.startMsg m c.1
    | none => if h : port < 88 then s.onArb ⟨port, h⟩ fun _ => c.1 else s

/-- An uncorrectable error in a payload word of data cell `i` of a message in its column: the cell is poisoned, and the message counts as
poisoned once (R214, R238). -/
def State.cellError (m : Msg) (i : Nat) (s : State) : State :=
  let s := if m.poison then s else s.bump R.XBR_COL_TAIL_BAD_COUNT m.dst 1
  (s.onMsg m.id fun x => x.poisonCell i).fc2 m.domain 0x20C m.addr

/-- ARBITER_CHOOSE; an uncorrectable error of a payload word poisons its data cell (R214, R238). -/
def execArbiterChoose (ep : Endpoint) (ecc : Fin 4) (cell : Fin 8) (s : State) : Host.Outcome State Fault Refusal :=
  .next (let port := if ep.val < 64 then s.lowest ep.val else ep.val
  if !s.serving || (s.columnN ep.val).down || (port < 64 && !s.carries port) then s
  else
    let s := s.markWaits port
    match ecc.val, s.reading port with
    | 1, some _ =>
      ((((s.bump R.XBR_COL_ECC_COUNT ep.val 1).fault 0x103 ep.val).capture 0x08 ep.val 0 16 [0x01]).arbitrate port).noteRdy
    | 2, some m =>
      if m.ncell ≤ cell.val then (s.arbitrate port).noteRdy
      else (((s.cellError m cell.val).capture 0x08 ep.val 0 16 [0x01 + 2 ^ 40]).arbitrate port).noteRdy
    | 3, some _ => (s.capture 0x08 ep.val 0 16 [0x02 + 2 ^ 40]).columnFault ep.val
    | _, _ => (s.arbitrate port).noteRdy)

/-- EGRESS_RESTART (R213): the next cell of a started message has not come; the message ends nullified and starts again whole. -/
def execEgressRestart (id : Nat) (s : State) : Host.Outcome State Fault Refusal :=
  .next (match s.msg id with
  | none => s
  | some m =>
    if !s.serving || !m.started || m.last || 64 ≤ m.port then s
    else
      let s := s.emit (.egress m m.kind.vdm true)
      let s := s.onMsg id fun x => { x with started := false, restarts := x.restarts + 1 }
      let s := s.onFab fun f => { f with arbs := f.arbs.map fun a => if a.busy = some id then { a with busy := none } else a }
      s.bump R.XBR_COL_RESTART_COUNT m.dst 1)

/-! ### Age, order, epochs (R205 to R209, R231) -/

/-- Age of a message by its stamp, in ns (R209). -/
def State.ageOf (s : State) (m : Msg) : Nat := (s.now % 2 ^ 32 + 2 ^ 32 - m.stamp) % 2 ^ 32

/-- AGE_LIMIT_EXPIRE. -/
def execAgeLimitExpire (id : Nat) (s : State) : Host.Outcome State Fault Refusal :=
  .next (match s.msg id with
  | none => s
  | some m =>
    if !s.serving || !m.queued || m.skip || m.started then s
    else
      let limit := 1000 * s.rd R.XBR_AGE_LIMIT_US
      let s := s.reach (s.now + (limit - s.ageOf m))
      let s := (s.discardMsg m).bump R.XBR_COL_AGE_DROP_COUNT m.dst 1
      if m.np then s.reply m.from_ m.kind m.tag m.addr .timeout else s)

/-- RESEQ_TIMEOUT: a later message of the flow, within the range of R230, has been present for 4 µs (R231). -/
def execReseqTimeout (src : Fin 88) (dst : Endpoint) (cls : Fin 8) (s : State) : Host.Outcome State Fault Refusal :=
  .next (let port := if dst.val < 64 then s.lowest dst.val else dst.val
  let flow := flowKey src.val port cls.val
  let ahead (m : Msg) : Nat := (m.seq + 65536 - Tab.get natAt s.fab.expect flow) % 65536
  let here := s.fab.msgs.filter fun m => m.queued && !m.skip && m.flow = flow
  match (here.filter fun m => 0 < ahead m && ahead m < 32768).map Msg.since with
  | [] => s
  | t :: l =>
    if !s.serving || here.any (fun m => ahead m = 0) then s
    else
      let s := (s.reach (l.foldl min t + 4000)).bump R.XBR_RESEQ_SKIP_COUNT 0 1
      (s.advanceFlow flow).fault 0x308 dst.val)

/-- BARRIER_COMPLETE: barriers whose older epochs hold no live message complete. -/
def execBarrierComplete (s : State) : Host.Outcome State Fault Refusal :=
  .next (if !s.serving then s
  else
    let done := s.fab.barriers.filter fun b => s.drainedTo b.2
    let s := s.onFab fun f => { f with barriers := f.barriers.filter fun b => !s.drainedTo b.2 }
    s.forAll done fun b t => t.done b.1 .ok)

/-! ### Audit (R240 to R242) -/

/-- Cells that a column's messages hold: its queue occupancies and the cells admitted but not yet written. -/
def State.cellsHeld (s : State) (ep : Nat) : Nat :=
  sumNat ((s.fab.msgs.filter fun m => m.queued && !m.skip && m.dst = ep).map Msg.cells)

/-- D of R240: 8,192 less the free count, the queue occupancies and the cells not yet written. -/
def State.auditD (s : State) (ep : Nat) : Int := 8192 - ((s.columnN ep).free : Int) - (s.cellsHeld ep : Int)

/-- The audit of one column: a D below 0 is a column fault (R242), and a D above 0 at two audits in a row starts the walk (R241). -/
def State.auditColumn (ep : Nat) (s : State) : State :=
  let c := s.columnN ep
  let d := s.auditD ep
  if d < 0 then (if c.down then s else s.columnFault ep)
  else s.onColumnN ep fun c => if c.walk then c else { c with leakD := d.toNat, walk := c.leakD ≠ 0 && d ≠ 0 }

/-- COLUMN_AUDIT once at every TICKS-th fault scan (R240). `upsets` is what has gone wrong in the free counts since the last audit: cells
lost from a column's count, or, below 0, gained (log 19). -/
def execColumnAudit (upsets : List (Endpoint × Int)) (s : State) : Host.Outcome State Fault Refusal :=
  .next (if !s.serving || s.flt.scans = s.fab.auditAt || s.flt.scans % max 1 (s.rd R.XBR_AUDIT_TICKS) ≠ 0 then s
  else
    let s := s.onFab fun f => { f with auditAt := s.flt.scans }
    let s := s.forAll upsets fun x t => t.onColumnN x.1.val fun c => { c with free := ((c.free : Int) - x.2).toNat }
    s.forAll allEndpoints fun ep t => t.auditColumn ep.val)

/-- AUDIT_RECLAIM_END: the walk has returned the leaked cells. -/
def execAuditReclaimEnd (ep : Endpoint) (s : State) : Host.Outcome State Fault Refusal :=
  .next (let c := s.column ep
  if !s.started || !c.walk then s
  else
    let s := s.onColumn ep fun c => { c with free := c.free + c.leakD, leakD := 0, walk := false }
    ((s.settleRsv ep.val).bump R.XBR_AUDIT_LEAK_COUNT 0 c.leakD).fault 0x104 ep.val)

end Sys2Proof.Machine
end

