-- ==== Sys2Proof/Machine/Shaping.lean ====
section
/-! DEFINITION. Token buckets: refill, writes and clears (spec 11). -/

namespace Sys2Proof.Machine

/-! ### Refill (R431 to R433, R437) -/

/-- T after INIT of the last write, where it is due (R437). -/
def Bucket.loaded (b : Bucket) : Bucket :=
  if !b.load then b
  else
    let full : Int := (64 * b.burst : Nat)
    { b with
        load := false, ovhIn := b.ovh
        tokens := if b.init = 0 then full else if b.init = 1 || !b.wasValid then 0 else min b.tokens full }

/-- A refresh of `d` ns at grant factor `g`; `frozen`: the port's gate state is not zero. -/
def Bucket.refill (g d : Nat) (frozen : Bool) (b : Bucket) : Bucket :=
  let b := b.loaded
  let rate := if b.blw then b.rate * g / 16 else b.rate
  if b.gfreeze && frozen then b
  else { b with tokens := min (b.tokens + (rate * d / 128 : Nat)) (64 * b.burst : Nat) }

/-- SHAPER_REFRESH: refresh j of the tick starts at B_k + 128 j; the last one of a tick is shorter. -/
def execShaperRefresh (s : State) : Host.Outcome State Fault Refusal :=
  .next (let at_ := 128 * s.tabs.refresh
  if !s.serving || !s.pit.running || s.pit.period ≤ at_ then s
  else
    let s := s.reach (s.pit.bk + at_)
    let d := min 128 (s.pit.period - at_)
    let g := s.bel.g
    s.onTabs fun t =>
      { t with
          refresh := t.refresh + 1
          buckets := Tab.mapAll noneAt t.buckets fun _ o => o.map fun b => b.refill g d (s.gate b.port ≠ 0) })

/-! ### Slots (R424, R426, R436, R438) -/

/-- Key of a bucket. -/
def bucketKey (d slot : Nat) : Nat := d * 1024 + slot

def State.bucket (s : State) (d slot : Nat) : Option Bucket := Tab.get noneAt s.tabs.buckets (bucketKey d slot)

/-- BUCKET_SLOT_RELEASE: a cleared bucket goes once no live message is of an epoch older than its clear (R438). -/
def execBucketSlotRelease (domain : Fin 4096) (slot : Nat) (s : State) : Host.Outcome State Fault Refusal :=
  .next (match (s.bucket domain.val slot).bind Bucket.cleared with
  | some e => if s.started && s.drainedTo e then s.setBucket (bucketKey domain.val slot) none else s
  | none => s)

/-- Some class of `b` at its port and point would have more than four valid buckets of domain `d` (R426). -/
def State.bucketCrowd (s : State) (d slot : Nat) (b : Bucket) : Bool :=
  (List.range 8).any fun c =>
    b.cls.getLsbD c && 4 ≤ (s.tabs.buckets.filter fun e => match e.2 with
      | some x => e.1 / 1024 = d && e.1 ≠ bucketKey d slot && x.cleared.isNone && x.port = b.port && x.egress = b.egress && x.cls.getLsbD c
      | none => false).length

/-- Decision of a bucket now, kept for messages of epochs before `e` (R436). -/
def Bucket.pastAt (b : Bucket) (e : Nat) : List BucketDec :=
  if b.since = e then b.past else b.past ++ [⟨e, b.port, b.cls, b.egress, b.act⟩]

/-- Write the bucket of a slot at the current epoch. -/
def State.putBucket (d slot : Nat) (b : Bucket) (s : State) : State :=
  let e := s.fab.epoch
  let key := bucketKey d slot
  let old := s.bucket d slot
  let b := match old with
    | some o =>
      { b with
          since := o.since, past := o.pastAt e, load := true, wasValid := true, ovhIn := o.ovhIn, tokens := o.tokens, repB := o.repB, repNc := o.repNc
          repHeld := o.repHeld, repLow := o.repLow }
    | none => { b with since := e, load := true, wasValid := false }
  let w := bucketEntry d b
  (s.setBucket key (some b)).captureCfg 5 (key % 2 ^ 32) [entWord w 0, entWord w 1, entWord w 2, entWord w 3]

/-- Clear the bucket of a slot (R438). -/
def State.clearBucket (d slot : Nat) (s : State) : State :=
  let e := s.fab.epoch
  let s := s.onBucket (bucketKey d slot) fun b => { b with cleared := some e }
  s.captureCfg 5 (bucketKey d slot) [0, 0, 0, 0]

/-- The checks of a bucket command on its slot: it lies below the domain's allocation. -/
def State.bucketSlotBad (s : State) (h : Hdr) (index : Word32) : Bool := (s.domain h.domain.toNat).buckets ≤ index.toNat

/-- A clear of a slot that holds no valid bucket does nothing. -/
def State.runBucketClear (h : Hdr) (index : Word32) (c : Instr) (s : State) : State :=
  let d := h.domain.toNat
  if s.bucketSlotBad h index then s.denied h 0
  else match s.bucket d index.toNat with
    | some b => if b.cleared.isSome then s.done h .ok else s.tableChange c fun s => (s.clearBucket d index.toNat).done h .ok
    | none => s.done h .ok

/-- BUCKET_CLEAR. -/
def execBucketClear (h : Hdr) (index : Word32) (s : State) : Host.Outcome State Fault Refusal :=
  .next (s.manager h [] none fun s => s.runBucketClear h index (.bucketClear h index))

/-- BUCKET_WRITE: an entry with VALID clear clears the slot. -/
def execBucketWrite (h : Hdr) (index : Word32) (entry : Entry) (s : State) : Host.Outcome State Fault Refusal :=
  .next (s.manager h [] (bucketBad entry) fun s =>
    let d := h.domain.toNat
    let c := Instr.bucketWrite h index entry
    if !bucketValid entry then s.runBucketClear h index c
    else if s.bucketSlotBad h index then s.denied h 0
    else if ((s.bucket d index.toNat).bind Bucket.cleared).isSome then s.done h .busy
    else if s.bucketCrowd d index.toNat (bucketOf entry) then s.denied h 0
    else s.tableChange c fun s => (s.putBucket d index.toNat (bucketOf entry)).done h .ok)

/-- R439: a domain reset sets T by the INIT of the last write, KEEP taken as FULL. -/
def Bucket.resetTokens (b : Bucket) : Bucket := { b with tokens := if b.init = 1 then 0 else (64 * b.burst : Nat), load := false, ovhIn := b.ovh }

/-! ### Reports (R441 to R443) -/

/-- The shaper reports of [B_k−1, B_k): domain and record (R442). -/
def State.shaperRecords (s : State) : List (Nat × List Nat) :=
  let k := s.pit.tick - 1
  if !s.bit R.SHP_CTRL_REPORT || s.img.hold then []
  else s.tabs.buckets.filterMap fun e => match e.2 with
    | some b =>
      let d := e.1 / 1024; let slot := e.1 % 1024
      if b.report then some (d, [1 + slot % 256 * 2 ^ 8 + 0x0030 * 2 ^ 16 + b.tag * 2 ^ 32, k % 2 ^ 48 + d * 2 ^ 48,
        b.repB % 2 ^ 48 + slot * 2 ^ 48, min (2 ^ 32 - 1) b.repHeld + b.repNc % 2 ^ 32 * 2 ^ 32])
      else none
    | none => none

/-- The next report interval and the 128 ns refresh start at B_k (R59, R431, R441). -/
def State.restartShapers (s : State) : State :=
  s.onTabs fun t => { t with
    refresh := 0
    buckets := Tab.mapAll noneAt t.buckets fun _ o => o.map fun b => { b with repB := 0, repNc := 0, repHeld := 0, repLow := b.tokens } }

end Sys2Proof.Machine
end

