-- ==== Sys2Proof/Machine/Tables.lean ====
section
/-! DEFINITION. Table writes: decode windows, target lists, PBR routes, bindings, requester-ID maps and region rules, their
checks and commands (R197 to R203, R248, R249, R283, R308, R309, R396 to R399, R408 to R410, R697, TABLE_READ). An image writes
its tables by the same operations. -/

namespace Sys2Proof

/-- A field of HSPACE or HADDR out of range (R499). -/
def HRef.bad (o : HRef) : List (Bool × Nat) := [(1 < o.space.toNat, 0x14), (o.addr.toNat % 64 ≠ 0, 0x18)]

end Sys2Proof

namespace Sys2Proof.Machine

/-! ### Host objects (R477, R499) -/

/-- Port of a ring: MGR_SEL for the manager's rings (R477). -/
def State.ringPort (s : State) (n : Nat) : Nat :=
  s.lowest (if n ≤ 1 then s.mgrPort else (s.ring n).map (fun r => r.port)|>.getD 0)

/-- Read or write the host object of a command: each part is checked for the ring's domain by the check unit of the ring's port; with
a part refused, or no decode window, the command does not run (R404, R405, R477). -/
def State.withObject (h : Hdr) (o : HRef) (len : Nat) (need : Need) (f : State → State) (s : State) : State :=
  let d := s.ringDomain h.ring.val
  let u := s.ringPort h.ring.val
  let addr := o.addr.toNat
  let parts := partsOf addr len
  let ds := s.decide d o.space.toNat o.port.val need parts
  let s := s.countParts u d none (72 + homeOf addr + 7 * 2 ^ 14 + d * 2 ^ 20) ds
  if refusedParts ds ≠ [] then
    (s.reportAcc u d (RefAcc.join none 0 need.kind ds)).complete h { status := accessStatus ds, addr := firstRefused ds }
  else if o.space.toNat = 0 && parts.any fun a => (s.window 64 a).isNone then (s.countMiss u).complete h { status := .denied, addr := addr }
  else f s

/-! ### Table writes -/

/-- One table write. Keys are those of the tables of the state. -/
inductive TabWrite where
  | win (index : Nat) (w : Option DWin)
  | tlist (index : Nat) (l : List Word32)
  | pbr (id entry : Nat)
  | bind (key : Nat) (b : Option Bind)
  | rid (key : Nat) (x : RidEnt)
  | rule (key : Nat) (r : Option Rule)
  | bucket (d slot : Nat) (b : Option Bucket)
  deriving DecidableEq, Repr

/-- Words of an entry. -/
def entWords (e : Entry) : List Nat := [entWord e 0, entWord e 1, entWord e 2, entWord e 3]

/-- Two 32-bit entries to a 64-bit word. -/
def pairWords : List Word32 → List Nat
  | a :: b :: t => (a.toNat + b.toNat * 2 ^ 32) :: pairWords t
  | [a] => [a.toNat]
  | [] => []

/-- The 32-byte entry of one half of a target list. -/
def halfWords (l : List Word32) (half : Nat) : List Nat := pairWords ((List.range 8).map fun i => l.getD (8 * half + i) 0)

/-- A window an index holds. -/
def State.winAt (s : State) (i : Nat) : Option DWin := Tab.get noneAt s.tabs.wins i

def State.setWin (i : Nat) (w : Option DWin) (s : State) : State :=
  s.onTabs fun t => { t with wins := Tab.set noneAt t.wins i w }

/-! ### Ranges of SH windows (R308, R309) -/

/-- What of [a, b) is not in [c, d). -/
def cut (a b c d : Nat) : List (Nat × Nat) :=
  [(a, min b c), (max a d, b)].filter fun x => x.1 < x.2

/-- What of [a, b) none of the ranges covers. -/
def uncovered (a b : Nat) (l : List (Nat × Nat)) : List (Nat × Nat) :=
  l.foldl (fun segs r => segs.flatMap fun x => cut x.1 x.2 r.1 r.2) [(a, b)]

/-- FA ranges that the listed windows other than `i` map. -/
def State.otherRanges (s : State) (i : Nat) : List (Nat × Nat) :=
  s.tabs.wins.filterMap fun e => if e.1 = i then none else e.2.map DWin.faRange

def overlaps (x y : Nat × Nat) : Bool := max x.1 y.1 < min x.2 y.2

/-- Ranges that no entry maps any more once index `i` holds `w` (R308); a PT window has none. -/
def State.unmapped (s : State) (i : Nat) (w : Option DWin) : List (Nat × Nat) :=
  match s.winAt i with
  | some o => if o.kind then uncovered o.faRange.1 o.faRange.2 ((w.map DWin.faRange).toList ++ s.otherRanges i) else []
  | none => []

/-- A doorbell is watched in one of the ranges. -/
def State.watchedIn (s : State) (l : List (Nat × Nat)) : Bool :=
  let hit (r : Option Ring) : Bool := match r with
    | some r => r.dbMode = 0 && r.dbSpace = 0 && l.any fun x => x.1 * mib2 ≤ r.dbAddr && r.dbAddr < x.2 * mib2
    | none => false
  (s.host.rings.any fun e => hit e.2) || s.host.evqs.any fun e => hit e.2

/-! ### Checks of a window (R22, R148, R198, R248, R249, R283, R309, R318, R393) -/

/-- R248. -/
def DWin.shKind (w : DWin) : Bool := !w.kind || (w.c && !w.u) || (!w.c && !w.rt && w.u && !w.w)

/-- R249. -/
def DWin.agrees (a b : DWin) : Bool :=
  a.kind = b.kind && a.c = b.c && a.rt = b.rt && a.u = b.u && a.w = b.w && a.writer = b.writer

/-- Windows listed at indices other than `i`. -/
def State.otherWins (s : State) (i : Nat) : List DWin := s.tabs.wins.filterMap fun e => if e.1 = i then none else e.2

/-- Windows at indices other than `i` whose lines are being loaded: their commands are accepted, their entries not in effect (R283). -/
def State.loadingWins (s : State) (i : Nat) : List DWin :=
  (s.tabs.rtLoads.filter fun x => x.index ≠ i).map RtLoad.win

/-- FA ranges of 2 MiB that RT windows map: one line of each stands in every set (R250, R289). -/
def unitsOf (l : List DWin) : List Nat :=
  ((l.filter fun w => w.rt).flatMap fun w => (List.range (w.faRange.2 - w.faRange.1)).map (w.faRange.1 + ·)).eraseDups

/-- Units with resident RT lines: those of the entries in effect. -/
def State.rtUnits (s : State) (i : Nat) : List Nat := unitsOf (s.otherWins i)

/-- Units of an RT window that no bound entry maps yet, also when another window over them is still loading (R283). -/
def State.newUnits (s : State) (i : Nat) (w : DWin) : List Nat :=
  (unitsOf [w]).filter fun u => !(s.rtUnits i).contains u

/-- The window's RT lines, with those resident and those being loaded, would put more than four into a set. -/
def State.rtCrowd (s : State) (i : Nat) (w : DWin) : Bool :=
  w.rt && (8 < w.faRange.2 - w.faRange.1 || 4 < (unitsOf (w :: s.otherWins i ++ s.loadingWins i)).length)

/-- Every target port of a window is ACTIVE (R283). -/
def State.targetsActive (s : State) (w : DWin) : Bool :=
  (s.targetPorts w).all fun p => match p with
    | some n => s.isActive (s.lowest n)
    | none => false

/-- A C window of the scope would give a port caching access that may have none: PS63 (R22), or an upstream port whose partner is a
switch (R148). -/
def State.noCaching (s : State) (w : DWin) : Bool :=
  w.c && w.scope < 64 && (w.scope = 63 || (s.isUpstream (s.lowest w.scope) && (s.portN (s.lowest w.scope)).partnerSwitch))

/-- Why an index may not take a window, apart from the state of the ports that back it. Windows whose lines are being loaded count as
bound; an index whose own window is being loaded takes no other one meanwhile (log 66). -/
def State.winClash (s : State) (i : Nat) (w : DWin) : Option Status :=
  let others := s.otherWins i ++ s.loadingWins i
  let gone := s.unmapped i (some w)
  let pending := (s.tabs.unbinds.map fun u => (u.base, u.limit)) ++ gone
  if !w.shKind then some .denied
  else if (s.domain w.domain).debug then some .denied
  else if s.noCaching w then some .denied
  else if others.any fun o => o.scope = w.scope && overlaps (o.base, o.limit) (w.base, w.limit) then some .denied
  else if others.any fun o => overlaps o.faRange w.faRange && !o.agrees w then some .denied
  else if w.kind && s.home.slices.toList.any Slice.failed then some .denied
  else if s.rtCrowd i w then some .denied
  else if s.tabs.rtLoads.any fun x => x.index = i then some .busy
  else if w.kind && pending.any fun r => overlaps r w.faRange then some .busy
  else if s.watchedIn gone then some .busy
  else none

/-- Why an index may not take a window: a new RT window also needs its target ports ACTIVE (R283). -/
def State.winRefused (s : State) (i : Nat) (w : DWin) : Option Status :=
  match s.winClash i w with
  | some st => some st
  | none => if w.rt && s.newUnits i w ≠ [] && !s.targetsActive w then some .busy else none

/-- Ranges that lose their last entry begin to be unbound (R308). -/
def State.beginUnbind (l : List (Nat × Nat)) (old : DWin) (s : State) : State :=
  let e := s.fab.epoch
  s.onTabs fun t => { t with unbinds := t.unbinds ++ l.map fun r => ⟨r.1, r.2, e, false, 0, old⟩ }

/-- Put a window, or none, at an index. -/
def State.putWin (i : Nat) (w : Option DWin) (s : State) : State :=
  let gone := s.unmapped i w
  let s := match s.winAt i with
    | some o => if gone = [] then s else s.beginUnbind gone o
    | none => s
  let w := w.map fun x => { x with epoch := s.fab.epoch }
  (s.setWin i w).captureCfg 1 i ((w.map fun x => entWords (winEntry x)).getD [0, 0, 0, 0])

/-! ### Rules (R399, R409, R410) -/

def ruleKey (d slot : Nat) : Nat := d * 4096 + slot

def State.rule (s : State) (key : Nat) : Option Rule := Tab.get noneAt s.dom.rules key

def State.putRule (key : Nat) (r : Option Rule) (s : State) : State :=
  (s.onDom fun g => { g with rules := Tab.set noneAt g.rules key r }).captureCfg 4 key
    ((r.map fun x => entWords (ruleEntry (key / 4096) x)).getD [0, 0, 0, 0])

def State.ruleLocked (s : State) (key : Nat) : Bool := ((s.rule key).map fun r => r.lock).getD false

/-- Lines of a rule's range in SH windows bound to its domain. -/
def State.revokedLines (s : State) (r : Revoke) : List Nat :=
  (s.linesIn (r.base * 4096) (r.limit * 4096)).filter fun la => s.lineOfDomain la r.domain

/-- FA ranges, in bytes, that SH windows outside fabric scope map. -/
def State.ownedRanges (s : State) : List (Nat × Nat) :=
  s.tabs.wins.filterMap fun e => e.2.bind fun w =>
    if w.kind && w.scope < 64 then some (w.faRange.1 * mib2, w.faRange.2 * mib2) else none

/-- The range covers a line of an SH window bound to the domain; a window of fabric scope counts where no other one maps the line
(log 63). -/
def State.coversSh (s : State) (r : Revoke) : Bool :=
  s.tabs.wins.any fun e => match e.2 with
    | some w =>
      let a := max (w.faRange.1 * mib2) (r.base * 4096)
      let b := min (w.faRange.2 * mib2) (r.limit * 4096)
      w.kind && w.domain = r.domain && a < b && (w.scope < 64 || uncovered a b s.ownedRanges ≠ [])
    | none => false

/-- Reach the copies of what the old rule admitted (R410). -/
def State.revoke (d : Nat) (old : Option Rule) (s : State) : State :=
  match old with
  | none => s.fc0 0x11 0x0111 d 0 0
  | some r =>
    let v : Revoke := ⟨d, r.base, r.limit, s.now⟩
    if r.space ≠ 0 || !s.coversSh v then s.fc0 0x11 0x0111 d (r.base * 4096) (r.limit - r.base)
    else
      let s := s.onDom fun g => { g with revokes := g.revokes ++ [v] }
      (s.forAll (s.revokedLines v) fun la t => t.evictLine la (.revoke d)).settle

/-! ### Every table -/

/-- A CXL.cache device behind a switch would cache for an upstream port that has a C window (R148; log 67). -/
def State.cachesBehindSwitch (s : State) (key : Nat) (b : Bind) : Bool :=
  16 ≤ key % 32 && (s.portN (s.lowest (key / 32))).partnerSwitch && s.tabs.wins.any fun e => match e.2 with
    | some w => w.c && w.scope < 64 && s.lowest w.scope = b.up
    | none => false

/-- Why a table write is refused by the command that makes it. -/
def State.refuses (s : State) : TabWrite → Option Status
  | .win i (some w) => s.winRefused i w
  | .win i none => if s.watchedIn (s.unmapped i none) then some .busy else none
  | .tlist .. => none
  | .pbr .. => none
  | .bind key (some b) =>
    if !s.isDownstream (key / 32) || !s.isUpstream b.up || (s.domain b.domain).debug || s.cachesBehindSwitch key b then some .denied else none
  | .bind _ none => none
  | .rid _ x => if x.valid && (s.domain x.domain).debug then some .denied else none
  | .rule key _ => if s.ruleLocked key then some .locked else none
  | .bucket d slot (some b) =>
    if ((s.bucket d slot).bind Bucket.cleared).isSome then some .busy else if s.bucketCrowd d slot b then some .denied else none
  | .bucket _ _ none => none

/-- Make a table write at the current epoch. -/
def State.put (x : TabWrite) (s : State) : State :=
  match x with
  | .win i w => s.putWin i w
  | .tlist i l =>
    -- one CFG item for each 32-byte half, with INDEX 2 i + half (log 86)
    ((s.onTabs fun t => { t with tlists := Tab.set tlistAt t.tlists i l }).captureCfg 2 (2 * i) (halfWords l 0)).captureCfg 2 (2 * i + 1)
      (halfWords l 1)
  | .pbr id e => (s.onTabs fun t => { t with pbr := Tab.set natAt t.pbr id e }).captureCfg 3 id [e]
  | .bind key b =>
    (s.onTabs fun t => { t with binds := Tab.set noneAt t.binds key b }).captureCfg 7 key
      [(b.map fun x => x.up + x.domain * 2 ^ 16).getD 0]
  | .rid key x =>
    (s.onDom fun g => { g with rids := Tab.set ridAt g.rids key x }).captureCfg 6 key (entWords (ridEntry x))
  | .rule key r => s.putRule key r
  | .bucket d slot (some b) => s.putBucket d slot b
  | .bucket d slot none => s.clearBucket d slot

/-- A table command: refused, or made at its epoch and completed OK (R203). -/
def State.tableCommand (h : Hdr) (c : Instr) (x : TabWrite) (after : State → State) (s : State) : State :=
  match s.refuses x with
  | some st => s.done h st
  | none => s.tableChange c fun s => after ((s.put x).done h .ok)

/-! ### Commands -/

/-- An index beyond a table. -/
def indexBad (index : Word32) (n : Nat) : Bool × Nat := (n ≤ index.toNat, 0x10)

/-- WINDOW_BIND: for a new RT window the entry takes effect when its lines are loaded (R283). -/
def execWindowBind (h : Hdr) (index : Word32) (entry : Entry) (s : State) : Host.Outcome State Fault Refusal :=
  .next (s.manager h [(winOf entry).domain] ((firstBad [indexBad index 16384]).orElse fun _ => winBad entry) fun s =>
    let i := index.toNat
    let w := winOf entry
    match s.winRefused i w with
    | some st => s.done h st
    | none =>
      if w.rt && s.newUnits i w ≠ [] then s.onTabs fun t => { t with rtLoads := t.rtLoads ++ [⟨some h, i, w⟩] }
      else s.tableCommand h (.windowBind h index entry) (.win i (some w)) id)

/-- WINDOW_UNBIND: of an index without an entry it has no effect (R697). -/
def execWindowUnbind (h : Hdr) (index : Word32) (s : State) : Host.Outcome State Fault Refusal :=
  .next (s.manager h [] (firstBad [indexBad index 16384]) fun s =>
    if (s.winAt index.toNat).isNone then s.done h .ok
    else s.tableCommand h (.windowUnbind h index) (.win index.toNat none) id)

/-- Reserved bits of a target list (R199). -/
def tlistBad (l : List Word32) : Option Nat :=
  firstBad ((List.range l.length).map fun i => ((l.getD i 0).extractLsb' 23 8 ≠ 0, 4 * i + 2))

/-- TLIST_WRITE. -/
def execTlistWrite (h : Hdr) (index : Word32) (o : HRef) (targets : List Word32) (s : State) : Host.Outcome State Fault Refusal :=
  .next (s.manager h [] (firstBad (indexBad index 1024 :: o.bad)) fun s =>
    s.withObject h o 64 needR fun s =>
      match tlistBad targets with
      | some b => s.bad h b
      | none => s.tableCommand h (.tlistWrite h index o targets) (.tlist index.toNat (targets.take 16)) id)

/-- PBR_WRITE. -/
def execPbrWrite (h : Hdr) (index : Word32) (entry : BitVec 16) (s : State) : Host.Outcome State Fault Refusal :=
  .next (s.manager h [] (firstBad [indexBad index 4096, (entry.getLsbD 7, 0x20), (256 ≤ entry.toNat, 0x21)]) fun s =>
    s.tableCommand h (.pbrWrite h index entry) (.pbr index.toNat entry.toNat) id)

/-- Key of the binding that LD_BIND names. -/
def bindKey (index aux : Word32) : Nat := index.toNat * 32 + (aux.extractLsb' 24 4).toNat + if aux.getLsbD 28 then 16 else 0

/-- Reserved bits of AUX in LD_BIND. -/
def bindBad (aux : Word32) : Option Nat :=
  firstBad [(aux.extractLsb' 0 8 ≠ 0, 0x14), (aux.extractLsb' 8 8 ≠ 0, 0x15), (aux.extractLsb' 22 2 ≠ 0, 0x16), (aux.extractLsb' 30 2 ≠ 0, 0x17)]

/-- LD_BIND. -/
def execLdBind (h : Hdr) (index aux : Word32) (s : State) : Host.Outcome State Fault Refusal :=
  .next (s.manager h [] (bindBad aux) fun s =>
    if 63 < index.toNat then s.denied h 0
    else
      s.tableCommand h (.ldBind h index aux)
        (.bind (bindKey index aux) (some ⟨(aux.extractLsb' 16 6).toNat, h.domain.toNat⟩)) id)

/-- LD_BIND with AUX[29]: of a binding that does not exist it has no effect (R697). -/
def execLdUnbind (h : Hdr) (index aux : Word32) (s : State) : Host.Outcome State Fault Refusal :=
  .next (s.manager h [] (bindBad aux) fun s =>
    if 63 < index.toNat || !s.isDownstream index.toNat || !s.isUpstream (aux.extractLsb' 16 6).toNat then s.denied h 0
    else if (Tab.get noneAt s.tabs.binds (bindKey index aux)).isNone then s.done h .ok
    else s.tableCommand h (.ldUnbind h index aux) (.bind (bindKey index aux) none) id)

/-- PORT_RIDMAP. -/
def execPortRidmap (h : Hdr) (index : Word32) (sub : Fin 16) (entry : Word) (s : State) : Host.Outcome State Fault Refusal :=
  .next (s.manager h [(ridOf entry).domain] ((firstBad [indexBad index 64]).orElse fun _ => ridBad entry) fun s =>
    s.tableCommand h (.portRidmap h index sub entry) (.rid (index.toNat * 16 + sub.val) (ridOf entry)) id)

/-- The slot of a rule command lies below the domain's allocation (R399). -/
def State.ruleSlotBad (s : State) (h : Hdr) (index : Word32) : Bool × Nat := ((s.domain h.domain.toNat).rules ≤ index.toNat, 0x10)

/-- Write or empty a rule slot, with its revocation. -/
def State.runRule (h : Hdr) (key : Nat) (r : Option Rule) (revoke : Bool) (c : Instr) (s : State) : State :=
  let old := s.rule key
  s.tableCommand h c (.rule key r) fun s => if revoke then s.revoke (key / 4096) old else s

/-- RULE_WRITE: an entry with VALID clear empties the slot. -/
def execRuleWrite (h : Hdr) (index : Word32) (revoke : Bool) (entry : Entry) (s : State) : Host.Outcome State Fault Refusal :=
  .next (s.manager h [] ((firstBad [s.ruleSlotBad h index]).orElse fun _ => ruleBad entry s.isUpstream) fun s =>
    s.runRule h (ruleKey h.domain.toNat index.toNat) (if ruleValid entry then some (ruleOf entry) else none) revoke
      (.ruleWrite h index revoke entry))

/-- RULE_CLEAR. -/
def execRuleClear (h : Hdr) (index : Word32) (revoke : Bool) (s : State) : Host.Outcome State Fault Refusal :=
  .next (s.manager h [] (firstBad [s.ruleSlotBad h index]) fun s =>
    s.runRule h (ruleKey h.domain.toNat index.toNat) none revoke (.ruleClear h index revoke))

/-- The entry that TABLE_READ writes, by table code; none: an index or code out of range. -/
def State.tableEntry (s : State) (d : Nat) (table index sub : Nat) : Option (List Nat) :=
  match table with
  | 1 => if index < 16384 then some (((s.winAt index).map fun w => entWords (winEntry w)).getD [0, 0, 0, 0]) else none
  | 2 =>
    if index < 1024 then
      let l := Tab.get tlistAt s.tabs.tlists index
      some ((List.range 8).map fun i => (l.getD (2 * i) 0).toNat + (l.getD (2 * i + 1) 0).toNat * 2 ^ 32)
    else none
  | 3 => if index < 4096 then some [Tab.get natAt s.tabs.pbr index] else none
  | 4 =>
    if index < 4096 then some (((s.rule (ruleKey d index)).map fun r => entWords (ruleEntry d r)).getD [0, 0, 0, 0]) else none
  | 5 => if index < 1024 then some (((s.bucket d index).map fun b => entWords (bucketEntry d b)).getD [0, 0, 0, 0]) else none
  | 6 => if index < 64 then some [entWord (ridEntry (Tab.get ridAt s.dom.rids (index * 16 + sub))) 0] else none
  | _ => none

/-- TABLE_READ. -/
def execTableRead (h : Hdr) (table : Byte) (index : Word32) (sub : Fin 16) (o : HRef) (s : State) : Host.Outcome State Fault Refusal :=
  .next (s.command h false true []
    (firstBad ([(1 ≤ table.toNat && table.toNat ≤ 6 && (s.tableEntry 0 table.toNat index.toNat sub.val).isNone, 0x10)] ++ o.bad.take 1
      ++ [(table.toNat = 0 || 6 < table.toNat, 0x17)] ++ o.bad.drop 1)) fun s =>
    match s.tableEntry h.domain.toNat table.toNat index.toNat sub.val with
    | none => s.bad h 0x10
    | some w =>
      s.withObject h o (8 * w.length) needW fun s =>
        (s.emit (.hostWrite o.space.toNat o.port.val o.addr.toNat w)).done h .ok)

/-! ### The load of an RT window (R283) -/

/-- Lines of the window that are not resident yet. -/
def State.loadLines (s : State) (x : RtLoad) : List Nat :=
  let units := (List.range (x.win.faRange.2 - x.win.faRange.1)).map (x.win.faRange.1 + ·)
  let bound := ((s.otherWins x.index).filter fun w => w.rt).map DWin.faRange
  (units.filter fun u => !bound.any fun r => r.1 ≤ u && u < r.2).flatMap fun u => (List.range 32768).map fun i => u * 32768 + i

/-- The line has a way in its directory set and in its OLC set. -/
def State.rtRoom (s : State) (la : Nat) : Bool :=
  (match s.dirRoom la with
    | .inl _ => true
    | .inr _ => false)
  && (match s.olcRoom la with
    | .ready => true
    | _ => false)

/-- Evict for a line that finds a set full. -/
def State.rtMakeRoom (la : Nat) (s : State) : State :=
  let s := match s.dirRoom la with
    | .inr (.victim k) => match s.dirAt k with
      | some d => (s.bump R.HOM_EVICT_COUNT (homeOfLa la) 1).evictLine d.la .victim
      | none => s
    | _ => s
  match s.olcRoom la with
  | .victim k => if s.wbAllowed la then s.issueWb k true true else s
  | _ => s

/-- One line becomes resident: O(OLC), pinned, with its backing data, which the command does not carry: a free value. -/
def State.installRt (la : Nat) (s : State) : State :=
  match s.dirRoom la, s.olcFree la with
  | .inl k, j :: _ =>
    let data := Config.freeLine s.free
    let s := (s.nextFree.setDir k (some { freshEntry la with st := .oOlc, rt := true })).touchDir k
    (s.setOlc j (some ⟨la, false, false, true, false, false, data, 0⟩)).touchOlc j
  | _, _ => s

/-- RT_LOAD_END: every line is loaded; the entry takes effect and WINDOW_BIND completes. -/
def execRtLoadEnd (index : Fin 16384) (s : State) : Host.Outcome State Fault Refusal :=
  .next (match s.tabs.rtLoads.find? fun x => x.index = index.val with
  | none => s
  | some x =>
    if !s.serving then s
    else
      let lines := s.loadLines x
      if !lines.all s.rtRoom then (s.forAll (lines.filter fun la => !s.rtRoom la) fun la t => t.rtMakeRoom la).settle
      else if s.slotBusy || (x.hdr.isNone && !s.targetsActive x.win) then s
      else
        let s := s.forAll lines fun la t => t.installRt la
        let s := s.onTabs fun t => { t with rtLoads := t.rtLoads.filter fun y => y.index ≠ x.index }
        (s.openEpoch.putWin x.index (some x.win)).tell x.hdr {})

end Sys2Proof.Machine
end

