-- ==== Sys2Proof/Machine/RingOps.lean ====
section
/-! DEFINITION. Operations on rings and event queues: their creation from a descriptor's body, watched doorbell lines, doorbell words,
removal (R478 to R492, R502, R503, R519 to R522). -/

namespace Sys2Proof.Machine

/-! ### The body of RING_CREATE and EVQ_CREATE (R502, R519) -/

/-- The ring that a body describes, before it is registered. -/
def ringOf (domain w10 w18 w20 w28 w30 w38 : Nat) (isEvq : Bool) : Ring :=
  { state := .active
    kind := if isEvq then .evq else if bits w10 16 2 = 0 then .sq else if bits w10 16 2 = 1 then .cq else .stat
    log2n := bits w10 20 5, fmt := bits w10 18 2, base := w18 / 4096 * 4096, space := bits w28 0 2, port := bits w28 8 6
    dbMode := bits w28 4 2, dbSpace := bits w28 2 2, dbPort := bits w28 16 6, dbAddr := w20 / 8 * 8, poll := bits w28 24 8
    gen := bits w28 32 8, pair := bits w10 32 13, evqEn := !isEvq && flag w28 61, evq := if isEvq then 0 else bits w28 48 13
    shadow := w30 / 8 * 8, vec := if isEvq then bits w38 0 11 else 0, vecEn := isEvq && flag w38 16, domain := domain, prod := 0
    cons := 0, reserved := 0, fetched := [], live := [], full := false, dropped := 0, dropAt := 0, dropTold := false, pollAt := none }

/-- The doorbell fields at 0x20 and 0x28: byte offset of the first one out of range. -/
def doorbellChecks (w20 w28 : Nat) : List (Bool × Nat) :=
  [(bits w20 0 3 ≠ 0, 0x20), (1 < bits w28 2 2 || bits w28 4 2 = 3 || bits w28 6 2 ≠ 0, 0x28), (bits w28 22 2 ≠ 0, 0x2A),
   (bits w28 4 2 = 1 && (bits w28 24 8 = 0 || 128 < bits w28 24 8), 0x2B)]

/-- BAD_DESC of RING_CREATE and EVQ_CREATE (R10, R502, R519). A field that the kind does not use is 0. -/
def ringBad (w10 w18 w20 w28 w30 w38 : Nat) (isEvq : Bool) : Option Nat :=
  let kind := bits w10 16 2
  let fmt := bits w10 18 2
  let shadowed := fmt = 1 && (isEvq || kind ≠ 0)
  let db := doorbellChecks w20 w28
  let head : List (Bool × Nat) :=
    [(isEvq && bits w10 0 13 = 0, 0x10), (bits w10 13 3 ≠ 0, 0x11),
     ((if isEvq then kind ≠ 0 else kind = 3) || fmt = 0 || fmt = 3 || bits w10 20 5 < 6 || 16 < bits w10 20 5, 0x12),
     (bits w10 25 7 ≠ 0, 0x13), ((isEvq || kind ≠ 0) && bits w10 32 13 ≠ 0, 0x14), (bits w10 45 3 ≠ 0, 0x15), (bits w10 48 16 ≠ 0, 0x16),
     (bits w18 0 12 ≠ 0, 0x18)]
  let ports : List (Bool × Nat) := [(bits w28 14 2 ≠ 0, 0x29)]
  let tail : List (Bool × Nat) :=
    [(bits w28 40 8 ≠ 0, 0x2D), ((isEvq || kind ≠ 1) && bits w28 48 13 ≠ 0, 0x2E), ((isEvq || kind ≠ 1) && flag w28 61, 0x2F),
     (bits w28 62 2 ≠ 0, 0x2F), (bits w30 0 3 ≠ 0 || (!shadowed && w30 ≠ 0), 0x30), (bits w38 11 5 ≠ 0, 0x39), (bits w38 17 7 ≠ 0, 0x3A),
     (bits w38 24 40 ≠ 0, 0x3B)]
  firstBad (head ++ db.take 1 ++ [(decide (1 < bits w28 0 2), 0x28)] ++ (db.drop 1).take 1 ++ ports ++ db.drop 2 ++ tail)

/-! ### Watched doorbell lines (R279, R296, R491) -/

/-- Line of a watched doorbell. -/
def Ring.watchLine (r : Ring) : Option Nat := if r.dbMode = 0 then some (r.dbAddr / 64) else none

/-- Watched lines of one directory set. -/
def State.watchedInSet (s : State) (la : Nat) : List Nat :=
  ((waysOf la).filterMap fun k => match s.dirAt k with
    | some d => if d.watch then some d.la else none
    | none => none) ++ s.home.pins.filter fun x => setNo x = setNo la

/-- The line of a watched doorbell may be registered: it lies in a line of an SH window with attribute W, and its set holds at most
three other watched lines. Other modes need nothing. -/
def State.watchOk (s : State) (r : Ring) : Bool :=
  match r.watchLine with
  | none => true
  | some la =>
    let inSet := (s.watchedInSet la).eraseDups
    r.dbSpace = 0 && ((s.shOfFa (faOf la)).map fun w => w.w).getD false && (inSet.contains la || inSet.length < 4)

/-- Register the line of a ring (R30, R279). -/
def State.watch (r : Ring) (s : State) : State :=
  match r.watchLine with
  | none => s
  | some la => if s.isWatched la then s else (s.onHome fun h => { h with pins := h.pins ++ [la] }).settle

/-- Some ring or event queue watches the line. -/
def State.watchUsed (s : State) (la : Nat) : Bool :=
  (s.host.rings ++ s.host.evqs).any fun e => (e.2.bind Ring.watchLine) = some la

/-- A line that no ring uses any more is unregistered (R492, R503). -/
def State.unwatch (r : Ring) (s : State) : State :=
  match r.watchLine with
  | none => s
  | some la =>
    if s.watchUsed la then s
    else
      let s := s.onHome fun h => { h with pins := h.pins.filter (· ≠ la), recalls := h.recalls.filter fun e => e.1 ≠ la }
      match s.findDir la with
      | some (k, d) =>
        let s := if (d.st = .s || d.st = .oOlc) && d.shr = 0 && !d.rt then s.setDir k none else s.setDir k (some { d with watch := false })
        if d.rt || !d.st.stable then s else (s.resolve la).settle   -- a way of the set is unpinned: its guarded requests are served (R275)
      | none => s

/-! ### Rings by kind of slot -/

/-- A ring slot, or an event queue. -/
def State.queueAt (s : State) (n : Nat) (isEvq : Bool) : Option Ring := if isEvq then s.evq n else s.ring n

def State.setQueue (n : Nat) (isEvq : Bool) (r : Option Ring) (s : State) : State :=
  if isEvq then s.setEvq n r else s.setRing n r

/-- The device reads a doorbell word; DOORBELL_READ_COMPLETE brings it. -/
def State.readDoorbell (n : Nat) (isEvq : Bool) (s : State) : State := s.emit (.doorbellRead n isEvq)

/-- Put a ring into service: its line is registered and its doorbell read once (R491). -/
def State.addQueue (n : Nat) (isEvq : Bool) (r : Ring) (s : State) : State :=
  ((s.setQueue n isEvq (some r)).watch r).readDoorbell n isEvq

/-- The queue number or ring slot is free again. -/
def State.dropQueue (n : Nat) (isEvq : Bool) (s : State) : State :=
  match s.queueAt n isEvq with
  | some r => (s.setQueue n isEvq none).unwatch r
  | none => s

/-- The ports that RING_CREATE names have role upstream (R502). -/
def State.ringPortsOk (s : State) (r : Ring) : Bool := s.isUpstream r.port && s.isUpstream r.dbPort

/-! ### Doorbell words (R490, R515, R521) -/

/-- Domain, space and port of the read of a doorbell word pass the checks of R477. -/
def State.doorbellAllowed (s : State) (r : Ring) : Bool := s.hostAllows r.domain r.dbSpace r.dbPort r.dbAddr needR

/-- Act on the index of a doorbell word. -/
def State.takeIndex (n : Nat) (isEvq : Bool) (r : Ring) (idx : Nat) (s : State) : State :=
  if r.kind = .sq then
    if 2 ^ r.log2n < (idx + 2 ^ 32 - r.cons) % 2 ^ 32 then s.ringError n isEvq 3 else s.setQueue n isEvq (some { r with prod := idx })
  else if (r.prod + 2 ^ 32 - r.cons) % 2 ^ 32 < (idx + 2 ^ 32 - r.cons) % 2 ^ 32 then s.ringError n isEvq 3
  else
    let r' := { r with cons := idx }
    let r' := { r' with full := r.full && r'.freeEntries = 0 }
    let s := s.setQueue n isEvq (some r')
    if isEvq && idx ≠ r.cons && idx ≠ r.prod then s.signal n r' else s

/-- Act on a doorbell word: a stale GEN is counted; a ring in ERROR or STOPPED does not act (R482, R490). -/
def State.takeDoorbell (n : Nat) (isEvq : Bool) (w : Nat) (s : State) : State :=
  match s.queueAt n isEvq with
  | none => s
  | some r =>
    if r.state ≠ .active then s
    else if bits w 32 8 ≠ r.gen then s.bump R.RNG_DB_STALE_COUNT 0 1
    else s.takeIndex n isEvq r (bits w 0 32)

/-! ### Removal (R503, R522) -/

/-- Take the descriptors of a ring that wait inside the device out of it. -/
def State.forgetRing (n : Nat) (s : State) : State :=
  let mine (h : Hdr) : Bool := h.ring.val = n
  let s := s.onFab fun f => { f with barriers := f.barriers.filter fun b => !mine b.1 }
  let s := s.onEng fun g =>
    { g with
        loads := Tab.mapAll noneAt g.loads fun _ o => o.filter fun l => !mine l.hdr
        slots := Tab.mapAll slotAt g.slots fun _ x => { x with queue := x.queue.filter fun w => !mine w.hdr }
        engs := g.engs.map fun e => { e with item := e.item.map fun i => if i.hdr.any mine then { i with muted := true } else i } }
  s

/-- Header of a raw descriptor (R485). -/
def hdrOf (ring : Nat) (d : List Word) : Hdr :=
  let a := wordAt d 0; let b := wordAt d 1
  { ring := Fin.ofNat 8192 ring, fmt := bits a 16 8, fence := flag a 24, nocpl := flag a 25, tag := BitVec.ofNat 32 (bits a 32 32)
    domain := BitVec.ofNat 16 (bits b 0 16) }

/-- Destroy a ring: the completions owed to its descriptors are written DENIED, and the slot is FREE. -/
def State.destroyRing (n : Nat) (s : State) : State :=
  match s.ring n with
  | none => s
  | some r =>
    let owed : List Hdr := r.fetched.map (hdrOf n) ++ r.live.map fun l => ⟨Fin.ofNat 8192 n, 2, false, false, BitVec.ofNat 32 l.tag, 0⟩
    let s := s.setRing n (some { r with fetched := [] })
    ((s.forAll owed fun h t => t.done h .denied).forgetRing n).dropQueue n false

/-- Entries of a CQ that the fetches of its SQs hold. -/
def State.heldEntries (s : State) (cq : Nat) : Nat :=
  sumNat (s.host.rings.map fun e => match e.2 with
    | some r => if r.kind = .sq && s.cqOf e.1 = cq then r.fetched.length + r.live.length else 0
    | none => 0)

end Sys2Proof.Machine
end

