-- ==== Sys2Proof/Machine/Domains.lean ====
section
/-! DEFINITION. Domains: creation, destruction and reset (R388 to R394, R419 to R423, R271, R307). -/

namespace Sys2Proof.Machine

/-! ### Creation (R323, R389, R500) -/

/-- The domain that a body of R500 describes. -/
def domainOf (w10 w18 w20 : Nat) : Domain :=
  { st := .active, debug := flag w10 63, rules := bits w10 0 13, buckets := bits w10 16 11, counters := bits w10 32 11
    evqs := bits w10 48 7, mask := BitVec.ofNat 64 w18, prg := bits w20 0 7, scr := bits w20 8 7 }

def domainBad (w10 w20 : Nat) : Option Nat :=
  let d := domainOf w10 0 w20
  firstBad
    [(4096 < d.rules, 0x10), (bits w10 13 3 ≠ 0, 0x11), (1024 < d.buckets, 0x12), (bits w10 27 5 ≠ 0, 0x13), (1024 < d.counters, 0x14),
     (bits w10 43 5 ≠ 0, 0x15), (64 < d.evqs, 0x16), (bits w10 55 8 ≠ 0, 0x16), (64 < d.prg, 0x20), (flag w20 7, 0x20),
     (64 < d.scr, 0x21), (flag w20 15, 0x21), (bits w20 16 48 ≠ 0, 0x22)]

/-- Pages of one kind that the live domains hold in an engine. -/
def State.pagesHeld (s : State) (e : Nat) (f : Domain → Nat) : Nat :=
  sumNat (s.liveDomains.map fun d => if s.inMask d e then f (s.domain d) else 0)

/-- A pool lacks what the domain takes (R389, R323): 64 program and 64 scratch pages stand in each engine (R322). -/
def State.poolLacks (s : State) (x : Domain) : Bool :=
  65536 < s.reserved Domain.rules + x.rules || 16384 < s.reserved Domain.buckets + x.buckets
    || 8192 < s.reserved Domain.counters + x.counters || 8192 < s.reserved Domain.evqs + x.evqs
    || (bitsOf x.mask).any fun e => 64 < s.pagesHeld e Domain.prg + x.prg || 64 < s.pagesHeld e Domain.scr + x.scr

/-- Zero the scratch pages of a domain in every engine of its set (R327). -/
def State.zeroScratches (d : Nat) (s : State) : State :=
  s.forAll ((bitsOf (s.domain d).mask).map (Fin.ofNat 64)) fun e t => t.zeroScratch e d

/-- DOMAIN_CREATE. -/
def execDomainCreate (h : Hdr) (w10 w18 w20 : Word) (s : State) : Host.Outcome State Fault Refusal :=
  .next (s.manager h [] (domainBad w10.toNat w20.toNat) fun s =>
    let n := h.domain.toNat
    let x := domainOf w10.toNat w18.toNat w20.toNat
    if n = 0 || (s.domain n).st ≠ .free || s.poolLacks x then s.denied h 0 else ((s.setDomain n x).zeroScratches n).done h .ok)

/-! ### Steps of a domain reset (R420) -/

/-- The SQs of a domain. -/
def State.sqsOf (s : State) (d : Nat) : List (Nat × Ring) :=
  s.host.rings.filterMap fun e => match e.2 with
    | some r => if r.domain = d && r.kind = .sq && 1 < e.1 then some (e.1, r) else none
    | none => none

/-- Step 2 for one ring: fetching stops, and each fetched descriptor not yet executed completes. -/
def State.stopRing (n : Nat) (r : Ring) (s : State) : State :=
  let s := s.setRing n (some { r with state := if r.state = .active then .stopped else r.state, fetched := [] })
  s.forAll (r.fetched.map (hdrOf n)) fun h t => t.done h .domainReset

/-- Step 2 for the descriptors queued for fed slots of the domain. -/
def State.stopSlots (d : Nat) (s : State) : State :=
  let slots := ((s.livePlans.flatMap Plan.disp).filter fun x => x.domain = d && x.fed).map Disp.slot |>.eraseDups
  s.forAll slots fun k t =>
    let x := t.slot k
    (t.setSlot k { x with queue := [] }).forAll x.queue fun w u => u.complete w.hdr { status := .domainReset, result := workResult k 0 }

/-- Step 3. -/
def State.stopItems (d : Nat) (s : State) : State :=
  s.forAll allEngines fun e t => match t.item e with
    | some i => if i.disp.domain = d then t.stopItem e .domainReset else t
    | none => t

/-- Step 4 in squash mode: messages of D of an older epoch that have not started egress and have not been taken by a home slice or an
engine are discarded (R215). -/
def State.squashMsgs (d epoch : Nat) (s : State) : State :=
  s.forAll (s.fab.msgs.filter fun m => m.domain = d && olderEpoch m.epoch epoch && !m.started && !m.skip) fun m t =>
    let t := (t.discardMsg m).bump R.XBR_COL_TAIL_BAD_COUNT m.dst 1
    if m.np then t.reply m.from_ m.kind m.tag m.addr .domainReset else t

/-- Steps 1 to 4 begin, within the table change that makes D RESETTING. -/
def State.beginReset (h : Hdr) (d : Nat) (squash destroy : Bool) (s : State) : State :=
  let e := s.fab.epoch
  let s := (s.setDomain d { s.domain d with st := .resetting }).onDom fun g => { g with reset := some ⟨h, d, squash, destroy, 4, e, 0⟩ }
  let s := s.forAll (s.sqsOf d) fun r t => t.stopRing r.1 r.2
  let s := (s.stopSlots d).stopItems d
  if squash then s.squashMsgs d e else s

/-- DOMAIN_RESET. -/
def execDomainReset (h : Hdr) (squash : Bool) (s : State) : Host.Outcome State Fault Refusal :=
  .next (s.manager h [] none fun s =>
    let d := h.domain.toNat
    if d = 0 || (s.domain d).st = .free || ((s.domain d).debug && s.rd R.DBG_CTRL_DOMAIN = d) then s.denied h 0
    else if s.dom.reset.isSome then s.done h .busy
    else s.tableChange (.domainReset h squash) fun s => s.beginReset h d squash false)

/-- A rule of the domain carries LOCK. -/
def State.holdsLock (s : State) (d : Nat) : Bool := s.dom.rules.any fun e => match e.2 with
  | some r => ruleDomain e.1 = d && r.lock
  | none => false

/-- What keeps a domain from being destroyed (R394). -/
def State.domainNamed (s : State) (d : Nat) : Bool :=
  (s.tabs.wins.any fun e => match e.2 with
    | some w => w.domain = d
    | none => false)
  || (s.dom.rids.any fun e => e.2.valid && e.2.domain = d)
  || (s.tabs.binds.any fun e => match e.2 with
    | some b => b.domain = d
    | none => false)
  || (s.livePlans.any fun p => p.disp.any fun x => x.domain = d)
  || (s.host.rings.any fun e => match e.2 with
    | some r => r.domain = d
    | none => false)
  || s.rd R.DBG_CTRL_DOMAIN = d

/-- DOMAIN_DESTROY. -/
def execDomainDestroy (h : Hdr) (s : State) : Host.Outcome State Fault Refusal :=
  .next (s.manager h [] none fun s =>
    let d := h.domain.toNat
    if d = 0 || (s.domain d).st = .free || s.holdsLock d then s.denied h 0
    else if s.dom.reset.isSome || s.domainNamed d then s.done h .busy
    else s.tableChange (.domainDestroy h) fun s => s.beginReset h d true true)

/-- Lines of SH windows bound to the domain that the directory or the OLC holds. -/
def State.domainLines (s : State) (d : Nat) : List Nat := (s.linesIn 0 (2 ^ 52)).filter fun la => s.lineOfDomain la d

/-- Step 5 begins: every open transaction of a requester in D completes, and every line of a window bound to D loses its holders in D
(R271). -/
def execDomainResetDrained (s : State) : Host.Outcome State Fault Refusal :=
  .next (s.whenServing fun s =>
    match s.dom.reset with
    | some r =>
      if r.step = 4 && s.drainedTo r.epoch then
        let s := s.onDom fun g => { g with reset := some { r with step := 5, walkAt := s.now } }
        let s := s.abortReqs (fun q => q.domain.val = r.domain) .domainReset
        (s.forAll (s.domainLines r.domain) fun la t => t.evictLine la (.reset r.domain r.squash)).settle
      else s
    | none => s)

/-- Some line still has this reset before it. -/
def State.resetting (s : State) (r : ResetRun) : Bool :=
  (s.home.trk.any fun e => match e.2 with
    | some t => t.why = .reset r.domain r.squash || t.after.contains (.reset r.domain r.squash)
    | none => false)
  || s.home.owed.any fun e => e.2 = .reset r.domain r.squash

/-- Step 5 has ended; in drain mode the write-backs of R307 run. -/
def execDomainResetWalkEnd (s : State) : Host.Outcome State Fault Refusal :=
  .next (s.whenServing fun s =>
    match s.dom.reset with
    | some r => if r.step = 5 && !s.resetting r then (s.reach (r.walkAt + walkNs)).onDom fun g => { g with reset := some { r with step := 6 } } else s
    | none => s)

/-- Dirty lines of the domain, and lines whose write-back runs (R307). -/
def State.dirtyLines (s : State) (d : Nat) : Bool := s.home.olc.any fun e => match e.2 with
  | some o => (o.dirty || o.wb) && s.lineOfDomain o.la d && !(s.slice (sliceOf o.la)).failed
  | none => false

/-- Step 7: scratch pages zeroed, buckets restarted (R327, R439). -/
def State.restartDomain (d : Nat) (s : State) : State :=
  (s.zeroScratches d).onTabs fun t =>
    { t with buckets := Tab.mapAll noneAt t.buckets fun k o => if k / 1024 = d then o.map Bucket.resetTokens else o }

/-- The resources of a destroyed domain go back to their pools, and its sources are unmapped (R394, R514). -/
def State.freeDomain (d : Nat) (s : State) : State :=
  let s := s.forAll ((s.host.evqs.filter fun e => match e.2 with
    | some r => r.domain = d
    | none => false).map Prod.fst) fun q t => t.dropQueue q true
  let s := s.onDom fun g => { g with rules := g.rules.filter fun e => ruleDomain e.1 ≠ d }
  let s := s.onTabs fun t => { t with buckets := t.buckets.filter fun e => e.1 / 1024 ≠ d }
  let s := s.onHost fun h => { h with
    counters := h.counters.filter fun e => e.1 / 1024 ≠ d
    sources := h.sources.filter fun e => e.1 / 256 ≠ d
    refTick := Tab.set natAt h.refTick d 0
    refSupp := Tab.set natAt h.refSupp d 0 }
  let s := s.forAll (s.eng.loads.filter fun e => e.1 / 4096 = d) fun e t => match e.2 with
    | some l => t.done l.hdr .domainReset
    | none => t
  let s := s.onEng fun g => { g with progs := g.progs.filter fun e => e.1 / 4096 ≠ d, loads := g.loads.filter fun e => e.1 / 4096 ≠ d }
  s.setDomain d Domain.none

/-- Step 8: D is ACTIVE and its rings fetch again; a destroyed domain is FREE instead (R394). -/
def execDomainResetDone (s : State) : Host.Outcome State Fault Refusal :=
  .next (s.whenServing fun s =>
    match s.dom.reset with
    | some r =>
      if r.step ≠ 6 || (!r.squash && s.dirtyLines r.domain) then s
      else
        let d := r.domain
        let s := (s.restartDomain d).onDom fun g => { g with reset := none }
        if r.destroy then (s.freeDomain d).done r.hdr .ok
        else
          let s := s.setDomain d { s.domain d with st := .active }
          let s := s.forAll (s.sqsOf d) fun x t =>
            t.setRing x.1 (some { x.2 with state := if x.2.state = .stopped then .active else x.2.state })
          (s.done r.hdr .ok).fc0 0x11 0x0112 d 0 (if r.squash then 1 else 0)
    | none => s)

end Sys2Proof.Machine
end

