-- ==== Sys2Proof/Machine/LinkLayer.lean ====
section
/-! DEFINITION. The link layer of a port: sequence numbers, acknowledgement, the Yo-yo, credits (R152 to R188). -/

namespace Sys2Proof.Machine

/-! ### Sequence space (R152, R155) -/

/-- Numbers before the next expected one that mark a duplicate. -/
def dupRange (mode : Nat) : Nat := if mode = 0 then 2048 else if mode = 1 then 128 else 512

/-- How far sequence number `a` lies behind `b`. -/
def seqBehind (mode a b : Nat) : Nat := (b + seqSpace mode - a % seqSpace mode) % seqSpace mode

/-- The link of a port carries flits: it is up and not in Recovery. -/
def State.linkRuns (s : State) (n : Nat) : Bool := s.started && (s.portN n).state.linked && !(s.portN n).retrain

/-! ### Receiving (R153 to R159, R162, R177) -/

/-- Request replay from the next expected number. -/
def State.sendNak (n : Nat) (s : State) : State :=
  (s.emit (.port n (.nak (s.portN n).link.rxNext))).bump R.PRT_LNK_NAK_TX_COUNT n 1

/-- Acknowledge every accepted flit: the number is the next expected one. -/
def State.sendAck (n : Nat) (s : State) : State :=
  (s.emit (.port n (.ack (s.portN n).link.rxNext))).onPortN n fun p => { p with link := { p.link with sinceAck := 0 } }

/-- The port has advertised credits for all that a flit uses. -/
def State.rxCovers (s : State) (n : Nat) (uses : List ChUse) : Bool :=
  (List.range 16).all fun ch =>
    let c := s.credit n ch
    let u := usesOf uses ch
    c.rxUsedH + u.1 ≤ c.rxHAdv && c.rxUsedD + u.2 ≤ c.rxDAdv

/-- Count what a flit uses as consumed. -/
def State.rxConsume (n : Nat) (u : ChUse) (s : State) : State :=
  s.onCredit n u.ch.val fun c => { c with rxHCons := (c.rxHCons + u.hdr) % 2 ^ 12, rxDCons := (c.rxDCons + u.data) % 2 ^ 16 }

/-- The LAST cell of the oldest message that a port is still receiving arrives. -/
def State.tailArrives (n : Nat) (s : State) : State :=
  match s.fab.msgs.find? fun m => m.input < 64 && m.src = n && !m.last with
  | none => s
  | some m =>
    let s := s.onMsg m.id fun x => { x with last := true }
    if s.recPort n then s.captureTail m.input m
    else if m.queued && s.recEndpoint m.dst then s.captureTail m.dst m else s

/-- A TLP fails LCRC in non-flit mode after cells of it entered the crossbar (R214): not started, it is discarded; started, it ends
nullified; a non-posted request discarded completes with POISON (R215). -/
def State.tailBad (n : Nat) (s : State) : State :=
  match s.fab.msgs.find? fun m => m.input < 64 && m.src = n && !m.last with
  | none => s
  | some m =>
    let m' := { m with last := true, bad := true }
    let s := if s.recPort n then s.captureTail m.input m'
      else if m.queued && s.recEndpoint m.dst then s.captureTail m.dst m' else s
    let s := s.bump R.XBR_COL_TAIL_BAD_COUNT m.dst 1
    if m.started then
      ((s.emit (.egress m m.kind.vdm true)).takeOff m).advanceFlow m.flow
    else
      let s := s.discardMsg m
      if m.np then s.reply m.from_ m.kind m.tag m.addr .poison else s

/-- Accept a flit; the acknowledgement is due ACK_NS after the oldest one accepted since the last, or after ACK_FLITS (R162). -/
def State.acceptFlit (n : Nat) (uses : List ChUse) (s : State) : State :=
  let p := s.portN n
  let s := s.onPortN n fun p => { p with link :=
    { p.link with rxNext := (p.link.rxNext + 1) % seqSpace p.mode, sinceAck := p.link.sinceAck + 1
                  ackFrom := if p.link.sinceAck = 0 then s.now else p.link.ackFrom } }
  let s := (s.forAll uses fun u t => t.rxConsume n u).tailArrives n
  if s.rd R.PRT_LNK_CFG_ACK_FLITS n ≤ p.link.sinceAck + 1 then s.sendAck n else s

/-- FLIT_RECEIVED: a flit without transaction-layer content has no number of its own (R158), and only 256-byte flits have FEC (R152). -/
def execFlitReceived (p : PortId) (fecCorrected fecBad crcOk : Bool) (seq : Nat) (tl : Bool) (uses : List ChUse) (s : State) :
    Host.Outcome State Fault Refusal :=
  .next (let n := p.val
    if !s.linkRuns n then s
    else
      let x := s.port p
      let fec : Bool := 2 ≤ x.mode
      let s := if fec && fecCorrected then s.bump R.PRT_LNK_FEC_CORR_COUNT n 1 else s
      if fec && fecBad then (s.bump R.PRT_LNK_FEC_UNC_COUNT n 1).sendNak n
      else if !crcOk then
        let s := (s.bump R.PRT_LNK_CRC_ERR_COUNT n 1).sendNak n
        if x.mode = 0 then s.tailBad n else s
      else if !tl then s
      else
        let behind := seqBehind x.mode seq x.link.rxNext
        if behind = 0 then
          if s.rxCovers n uses then s.acceptFlit n uses else ((s.aer n .receiverOverflow).fault 0x305 n).declareDown n 3 false
        else if behind ≤ dupRange x.mode then s.bump R.PRT_LNK_DUP_COUNT n 1
        else s.sendNak n)

/-- ACK_TIMER_EXPIRE: ACK_NS after the acceptance of the oldest unacknowledged flit. -/
def execAckTimerExpire (p : PortId) (s : State) : Host.Outcome State Fault Refusal :=
  .next (if s.linkRuns p.val && 0 < (s.link p).sinceAck then
      (s.reach ((s.link p).ackFrom + s.rd R.PRT_LNK_CFG_ACK_NS p.val)).sendAck p.val
    else s)

/-! ### The Yo-yo (R157, R160, R163 to R165) -/

/-- The flits that are left once those before a place are acknowledged: an acknowledgement that frees an entry restarts the replay timer
and the count of replays (R163, R164). -/
def State.keepYoyo (n : Nat) (keep : List YoFlit) (s : State) : State :=
  if keep.length < (s.portN n).link.yoyo.length then
    s.onPortN n fun p => { p with link := { p.link with yoyo := keep, replays := 0, replayFrom := s.now } }
  else s

/-- ACK_RECEIVED: the partner acknowledges the flit of this number and every earlier one (R160). -/
def execAckReceived (p : PortId) (seq : Nat) (s : State) : Host.Outcome State Fault Refusal :=
  .next (if s.linkRuns p.val then
      match (s.link p).yoyo.dropWhile fun y => y.seq ≠ seq with
      | [] => s
      | _ :: keep => s.keepYoyo p.val keep
    else s)

/-- NAK_RECEIVED: the standard Nak acknowledges what lies before its number and replays from there on; the selective one replays a
single flit (R157). -/
def execNakReceived (p : PortId) (seq : Nat) (selective : Bool) (s : State) : Host.Outcome State Fault Refusal :=
  .next (let n := p.val
    if !s.linkRuns n then s
    else
      let s := s.bump R.PRT_LNK_NAK_RX_COUNT n 1
      if selective then s.replay n ((s.link p).yoyo.filter fun y => y.seq = seq)
      else
        let keep := (s.link p).yoyo.dropWhile fun y => y.seq ≠ seq
        if keep = [] && seq ≠ (s.link p).txSeq then s else (s.keepYoyo n keep).replay n keep)

/-- REPLAY_TIMER_EXPIRE: REPLAY_NS after the timer's start (R163). -/
def execReplayTimerExpire (p : PortId) (s : State) : Host.Outcome State Fault Refusal :=
  .next (let n := p.val
    if s.linkRuns n && (s.link p).yoyo ≠ [] then
      let s := s.reach ((s.link p).replayFrom + s.rd R.PRT_LNK_CFG_REPLAY_NS n)
      (s.bump R.PRT_LNK_REPLAY_TO_COUNT n 1).replay n (s.link p).yoyo
    else s)

/-! ### Transmitting (R161, R173, R174, R184, R185) -/

/-- The channels of a flit suit it: SC0 flits travel in the Merad SC0 channel of a link at version 1 or later, and nothing else does
(R184, R185). -/
def State.channelsOk (s : State) (n : Nat) (f : TxFlit) : Bool :=
  f.uses.all fun u => (u.ch.val = 0) = (f.sc0 && 1 ≤ (s.portN n).negVer)

/-- FLIT_TRANSMIT: a flit that may not leave stalls, and the CCLKs that pass are counted (R161, R174). -/
def execFlitTransmit (p : PortId) (flit : TxFlit) (s : State) : Host.Outcome State Fault Refusal :=
  .next (let n := p.val
    if !s.linkRuns n || !(s.port p).dll || !s.channelsOk n flit then s
    else if (flit.tl && !s.yoyoRoom n flit) || !s.txCovers n flit then
      s.onPort p fun x => { x with link := { x.link with stall := some flit } }
    else
      let s := s.forAll flit.uses fun u t =>
        t.onCredit n u.ch.val fun c => { c with hCons := (c.hCons + u.hdr) % 2 ^ 12, dCons := (c.dCons + u.data) % 2 ^ 16 }
      let s := s.onPort p fun x => { x with link := { x.link with stall := none } }
      if flit.tl then s.sendFlit n flit else s.emit (.port n (.flit (s.link p).txSeq [])))

/-! ### Credit updates (R178 to R183) -/

/-- The limit after an update: none when the update is stale (R179). -/
def newLimit (old value range : Nat) (inc : Bool) : Option Nat :=
  let v := if inc then (old + value) % range else value % range
  if (v + range - old) % range ≤ range / 2 then some v else none

/-- CREDIT_UPDATE_RX: a cumulative limit, or an increment on the channels of R181. -/
def execCreditUpdateRx (p : PortId) (ch : Fin 16) (data : Bool) (limit : BitVec 16) (infinite : Bool) (s : State) :
    Host.Outcome State Fault Refusal :=
  .next (let n := p.val
    if !s.linkRuns n || (ch.val = 0 && (s.port p).negVer = 0) then s
    else
      let c := s.credit n ch.val
      let inc := s.incremental n ch.val
      if infinite then s.onCredit n ch.val fun c => if data then { c with dInf := true } else { c with hInf := true }
      else if data then
        match newLimit c.dLim limit.toNat (2 ^ 16) inc with
        | some v => s.onCredit n ch.val fun c => { c with dLim := v }
        | none => s.bump R.PRT_LNK_STALE_COUNT n 1
      else
        match newLimit c.hLim limit.toNat (2 ^ 12) inc with
        | some v => s.onCredit n ch.val fun c => { c with hLim := v }
        | none => s.bump R.PRT_LNK_STALE_COUNT n 1)

/-- When a channel's update is due: 256 ns after the first unreported credit was freed, and 8 µs after the last update of a channel that
reports limits (R181, R182). -/
def State.creditDue (s : State) (n ch : Nat) : Option Nat :=
  let c := s.credit n ch
  let freed := if c.owedH ≠ 0 || c.owedD ≠ 0 then some (c.freeAt + 256) else none
  if s.incremental n ch then freed
  else some (match freed with
    | some t => min t (c.sentAt + 8000)
    | none => c.sentAt + 8000)

/-- CREDIT_UPDATE_TIMER. -/
def execCreditUpdateTimer (p : PortId) (ch : Fin 16) (s : State) : Host.Outcome State Fault Refusal :=
  .next (if s.linkRuns p.val && (s.port p).dll then
      match s.creditDue p.val ch.val with
      | some t => (s.reach t).sendCredit p.val ch.val
      | none => s
    else s)

end Sys2Proof.Machine
end

