-- ==== Sys2Proof/Machine/Tool.lean ====
section
/-! DEFINITION. Tool change: release of a group of ports, the stored-energy proof and TCOK (R133 to R141, R472, R473). -/

namespace Sys2Proof.Machine

/-! ### Groups -/

/-- The port belongs to tool-change group `g`. -/
def State.inGroup (s : State) (g n : Nat) : Bool := s.isLowest n && s.bit R.PRT_HP_TCG_EN n && s.rd R.PRT_HP_TCG n = g

def State.groupPorts (s : State) (g : Nat) : List Nat := (List.range 64).filter (s.inGroup g)

/-- The proof of the port's release is over and no fault of it is open (R137, R138). -/
def State.proofClear (s : State) (n : Nat) : Bool := (s.findFlt 0x307 n).isNone

/-- The port counts as released with a passed proof; one that was OFF counts so too. -/
def State.safeToOpen (s : State) (n : Nat) : Bool :=
  let p := s.portN n
  p.release = .proving && (p.state = .released || p.state = .off) && p.proofPass && s.proofClear n

/-- A pin of a group. -/
def State.tcokAt (g : Nat) (b : Bool) (s : State) : State :=
  s.onSys fun y => { y with tcok := if b then y.tcok ||| BitVec.ofNat 16 (2 ^ g) else y.tcok &&& ~~~ BitVec.ofNat 16 (2 ^ g) }

/-- A port whose release and proof are over leaves the release when the group's request has ended (R140, R141). -/
def State.endRelease (n : Nat) (s : State) : State :=
  let p := s.portN n
  if p.release = .proving && (p.proofPass || p.proofFail) && s.proofClear n then
    ((s.onPortN n fun p => { p with release := .none }).enterOff n).comeUp n
  else s

/-- What follows for a group from its request and its proofs (R137, R138, R140, R141). The safe state holds TCOK low (R552), and a group
without a port gets none (log 79). -/
def State.settleGroup (g : Nat) (s : State) : State :=
  if s.flt.safe then s
  else if s.tool.tcrLow.getLsbD g then
    if (s.groupPorts g).all s.safeToOpen && s.groupPorts g ≠ [] then s.tcokAt g true else s
  else (s.groupPorts g).foldl (fun t n => t.endRelease n) (s.tcokAt g false)

/-! ### The request (R133, R134) -/

/-- A release begins: a port whose link is up quiesces; one that is OFF loses what power it has and proves at once; one in power-up or
training loses power. -/
def State.beginRelease (n : Nat) (s : State) : State :=
  match (s.portN n).state with
  | .active | .up | .flushWait =>
    let s := if (s.portN n).state = .active then s.leaveActive n else s
    s.onPortN n fun p => { p with state := .quiesce, release := .draining, relStart := s.now }
  | .off =>
    (s.unpower n).onPortN n fun p =>
      { p with release := .proving, relStart := s.now, upWait := false, proofPass := false, proofFail := false, samples := [] }
  | .powerUp | .training => s.released n
  | .flush => s.onPortN n fun p => { p with release := .flushing }
  | .quiesce | .released => s

/-- A release that waits for CLOSE of its window begins once the gate state of the port is 0 (R134). -/
def State.beginDeferred (s : State) : State :=
  s.forAll ((List.range 64).filter fun n => (s.portN n).release = .deferred) fun n t =>
    if t.gate n = 0 then (t.onPortN n fun p => { p with release := .none }).beginRelease n else t

/-- An edge of TCR_N: its filter of 2 µs begins anew (R133). -/
def State.tcrEdge (g : Nat) (s : State) : State := s.onTool fun t => { t with tcrAt := Tab.set natAt t.tcrAt g s.now }

/-- The level of TCR_N has held for 2 µs. -/
def State.tcrFiltered (g : Nat) (s : State) : State := s.reach (Tab.get natAt s.tool.tcrAt g + 2000)

/-- TCR_N_FALL. -/
def execTcrNFall (g : GroupId) (s : State) : Host.Outcome State Fault Refusal :=
  .next (if !s.sys.tcrN.getLsbD g.val then s else (s.tcrEdge g.val).onSys fun y => { y with tcrN := y.tcrN &&& ~~~ BitVec.ofNat 16 (2 ^ g.val) })

/-- TOOL_RELEASE_REQUEST: TCR_N has been low 2 µs. -/
def execToolReleaseRequest (g : GroupId) (s : State) : Host.Outcome State Fault Refusal :=
  .next (s.whenServing fun s =>
    if s.sys.tcrN.getLsbD g.val || s.tool.tcrLow.getLsbD g.val then s
    else
      let s := (s.tcrFiltered g.val).onTool fun t => { t with tcrLow := t.tcrLow ||| BitVec.ofNat 16 (2 ^ g.val) }
      let ports := s.groupPorts g.val
      let s := s.forAll ports fun n t => t.captureSide n 2 0
      s.forAll ports fun n t =>
        if (t.portN n).release ≠ .none then t
        else if t.gate n = 0 then t.beginRelease n
        else t.onPortN n fun p => { p with release := .deferred })

/-! ### Drain (R135, R136) -/

/-- Step 3: the link is directed to Disabled, which is no unrequested link-down (R139). -/
def State.disableLink (n : Nat) (s : State) : State :=
  let s := s.onPortN n fun p => { p with release := .flushing }
  (s.emit (.port n .disableLink)).declareDown n 3 true

def State.draining (s : State) (n : Nat) : Bool := (s.portN n).state = .quiesce && (s.portN n).release = .draining

/-- Non-posted requests outstanding over a port in both directions: accepted from it, sent to it, and still under way to it. -/
def State.outstanding (s : State) (n : Nat) : Nat :=
  (s.portN n).outNp + (s.portN n).sent.length + (s.fab.msgs.filter fun m => m.port = n && m.np && !m.skip).length

/-- TOOL_DRAIN_END. -/
def execToolDrainEnd (p : PortId) (s : State) : Host.Outcome State Fault Refusal :=
  .next (s.whenServing fun s => if s.draining p.val && s.outstanding p.val = 0 then s.disableLink p.val else s)

/-- TOOL_DRAIN_CUT: DRAIN_US after the start of the release; the flush completes what is outstanding (R136). -/
def execToolDrainCut (p : PortId) (s : State) : Host.Outcome State Fault Refusal :=
  .next (s.whenServing fun s =>
    let n := p.val
    if s.draining n && 0 < s.outstanding n then
      let s := s.reach ((s.port p).relStart + 1000 * s.rd R.PRT_TC_DRAIN_US n)
      (s.fc0 0x13 0x0132 n (s.outstanding n) (s.rd R.PRT_HP_TCG n)).disableLink n
    else s)

/-! ### The stored-energy proof (R472, R473) -/

/-- CLOAD V² of a sample against the limit: E = ½ CLOAD V². -/
def State.withinLimit (s : State) (e : Nat) : Bool := e ≤ 2000000000000 * s.blw R.BLW_PWR_ELIM_UJ

/-- A sample: CLOAD in µF times the square of V in µV; a failed read lies above every limit. -/
def State.sampleEnergy (s : State) (n : Nat) (reading : Option (BitVec 16)) : Nat :=
  match reading with
  | some v => s.rd R.BLW_PORT_LOAD_CLOAD_UF n * (v.toNat * s.rd R.BLW_PORT_HS_VLSB_UV n) ^ 2
  | none => 2000000000 * 2 ^ 32

/-- The port's proof can pass: its controller and its capacitance are declared. -/
def State.provable (s : State) (n : Nat) : Bool := s.rd R.BLW_PORT_HS_ADDR n ≠ 0 && s.rd R.BLW_PORT_LOAD_CLOAD_UF n ≠ 0

/-- The proof has not passed within 2 ms: fault PROOF_FAIL, and DISCH stays high (R138). -/
def State.proofExpires (n : Nat) (s : State) : State :=
  (s.onPortN n fun p => { p with proofFail := true }).condition 0x307 n

/-- When the next voltage reading of a port falls due (R472); none when its proof takes no more samples. -/
def State.sampleDue (s : State) (n : Nat) : Option Nat :=
  let p := s.portN n
  if p.release ≠ .proving || p.proofPass then none
  else some ((p.samples.head?.map Prod.fst).getD p.relStart + 1000 * s.blw R.BLW_PWR_SAMPLE_US)

/-- The port power bus serves this port's reading next: by due time, then by port name (R126). -/
def State.servedNext (s : State) (n t : Nat) : Bool :=
  (List.range 64).all fun m => match s.sampleDue m with
    | some u => n = m || t < u || (t = u && n < m)
    | none => true

/-- Time that a reading takes on the port power bus: 5 µs in I3C SDR mode, 50 µs with LEGACY set (R126). -/
def State.readingNs (s : State) : Nat := if s.blw R.BLW_PWR_LEGACY = 1 then 50000 else 5000

/-- PROOF_SAMPLE: two consecutive samples within the limit, PWRGD low, pass the proof; past the limit of 2 ms the fault is raised
first, and a later pass counts once it is cleared (R137, R138). A reading waits for the bus, and counts when it is taken (R126). -/
def execProofSample (p : PortId) (reading : Option (BitVec 16)) (s : State) : Host.Outcome State Fault Refusal :=
  .next (s.whenServing fun s =>
    let n := p.val
    match s.sampleDue n with
    | none => s
    | some due =>
      if !s.servedNext n due then s
      else
        let s := s.reach (max due s.tool.busFree)
        let s := s.onTool fun t => { t with busFree := s.now + s.readingNs }
        let s := s.emit (.i3c (s.rd R.BLW_PORT_HS_ADDR n) (s.rd R.BLW_PORT_HS_VREG n) none)
        let s := s.captureSide n 6 ((reading.map BitVec.toNat).getD 0)
        let e := s.sampleEnergy n reading
        let before := ((s.port p).samples.head?.map fun x => x.2.2).getD false
        let ok := s.provable n && s.withinLimit e && !(s.port p).pwrgd
        let s := s.onPort p fun x => { x with samples := (s.now, e, ok) :: x.samples.take 7 }
        let late := (s.port p).relStart + 2000000 < s.now
        let s := if late && !(s.port p).proofFail then s.proofExpires n else s
        if ok && before then (s.onPort p fun x => { x with proofPass := true }).settleGroup (s.rd R.PRT_HP_TCG n) else s)

/-- PROOF_DEADLINE. -/
def execProofDeadline (p : PortId) (s : State) : Host.Outcome State Fault Refusal :=
  .next (s.whenServing fun s =>
    let n := p.val
    if (s.port p).release ≠ .proving || (s.port p).proofPass || (s.port p).proofFail then s
    else (s.reach ((s.port p).relStart + 2000000)).proofExpires n)

/-! ### The end of the request (R140, R141) -/

/-- TCR_N_RISE: a release in progress, or waiting for CLOSE, goes on (R141). -/
def execTcrNRise (g : GroupId) (s : State) : Host.Outcome State Fault Refusal :=
  .next (let s := if s.sys.tcrN.getLsbD g.val then s else s.tcrEdge g.val
    let s := s.onSys fun y => { y with tcrN := y.tcrN ||| BitVec.ofNat 16 (2 ^ g.val) }
    s.whenServing fun s =>
      if !s.tool.tcrLow.getLsbD g.val then s
      else
        let s := (s.tcrFiltered g.val).onTool fun t => { t with tcrLow := t.tcrLow &&& ~~~ BitVec.ofNat 16 (2 ^ g.val) }
        let s := s.forAll (s.groupPorts g.val) fun n t => t.captureSide n 2 1
        s.settleGroup g.val)

end Sys2Proof.Machine
end

