-- ==== Sys2Proof/Machine/Faults.lean ====
section
/-! DEFINITION. The fault collector at work: clears, the fault scan, the monitors and FAULT_N (R542 to R551). -/

namespace Sys2Proof.Machine

/-! ### Clearing (R544, R545, R51, R138) -/

/-- What clearing an entry brings beside: a cleared TICK_LOST lets TICK_OUT resume (R51), a cleared PROOF_FAIL lets the port's
group give TCOK again (R138). -/
def State.clearedCause (cause unit : Nat) (s : State) : State :=
  let s := s.conditionEnd cause unit
  if cause = 0x30E then s.onPit fun p => { p with faultSeen := false }
  else if cause = 0x307 then s.settleGroup (s.rd R.PRT_HP_TCG unit)
  else s

/-- Clear one entry. -/
def State.clearFlt (i : Nat) (s : State) : State :=
  match s.fltEntry i with
  | some e => ((s.setFltEntry i none).clearedCause e.cause e.unit).driveFaultN
  | none => s

/-- Clear every entry of a class. -/
def State.clearFltClass (cls : Nat) (s : State) : State :=
  s.forAll (List.range 256) fun i t =>
    match t.fltEntry i with
    | some e => if causeClass e.cause = cls then t.clearFlt i else t
    | none => t

/-! ### The fault scan (R546, R542, R543) -/

/-- Condition faults and whether their condition holds. -/
def State.conditions (s : State) : List (Nat × Nat × Bool) :=
  [(0x109, 0, s.bel.calHeld), (0x10B, 0, s.bel.hot || (412 < s.bel.temp && s.flt.onset.contains (0x10B, 0))), (0x30E, 0, s.pit.tstate = .lost)]
    ++ (List.range 64).map fun n => (0x307, n, (s.portN n).release = .proving && (s.portN n).proofFail && !(s.portN n).proofPass)

/-- Re-evaluate one condition fault: raised at the scan that finds it holding and not raised since its onset or its clear. -/
def State.scanCondition (cause unit : Nat) (holds : Bool) (s : State) : State :=
  if holds then s.condition cause unit else s.conditionEnd cause unit

/-- COLLECTOR_OVF: the first scan that finds an entry free places it and clears OVF. -/
def State.scanOvf (s : State) : State :=
  match s.flt.ovf, s.freeFlt with
  | true, some i =>
    let s := s.onFlt fun f => { f with ovf := false }
    let s := s.bump R.FLT_FC3_CNT_COUNT 0 1
    s.fillFlt i 0x311 0 false 0 0
  | _, _ => s

/-- Read every collector word (R546): an inverted check bit is corrected and rewritten, and two of a word are COLLECTOR (R550, R561). -/
def State.scanWords (s : State) : State :=
  let l := s.flt.inverted.filter fun x => x.checker = 0x0D
  let s := s.onFlt fun f => { f with inverted := f.inverted.filter fun x => x.checker ≠ 0x0D }
  s.forAll l fun x t => if x.two then t.fc4 0x403 0 0 false else t.fault 0x10C 0

/-- Read the latched monitor flags (R546). -/
def State.scanMonitors (s : State) : State :=
  let seen (n : Nat) : Bool := s.rd R.FLT_FC4_MASK_MASK / 2 ^ n % 2 = 1
  let s := if s.flt.monClock && !seen 4 then s.fc4 0x404 0 0 else s
  let s := if s.flt.monSupply && !seen 5 then s.fc4 0x405 0 0 else s
  s.onFlt fun f => { f with monClock := false, monSupply := false }

/-- The fault scan of a tick; the column audit of every TICKS-th scan is a command of its own (R240). -/
def State.faultScan (s : State) : State :=
  let s := s.forAll s.conditions fun c t => t.scanCondition c.1 c.2.1 c.2.2
  let s := s.scanOvf.scanWords.scanMonitors
  (s.onFlt fun f => { f with scans := f.scans + 1 }).driveFaultN

/-! ### Commands -/

/-- FAULT_CLEAR of one entry (R544). -/
def execFaultClear (h : Hdr) (index : Byte) (s : State) : Host.Outcome State Fault Refusal :=
  .next (s.manager h [] none fun s => (s.clearFlt index.toNat).done h .ok)

/-- FAULT_CLEAR with ALL set (R544). -/
def execFaultClearAll (h : Hdr) (cls : BitVec 3) (s : State) : Host.Outcome State Fault Refusal :=
  .next (s.manager h [] (if 1 ≤ cls.toNat && cls.toNat ≤ 4 then none else some 0x13) fun s => (s.clearFltClass cls.toNat).done h .ok)

/-- FAULTN_HOLD_EXPIRE: 10 µs after the fall of FAULT_N it may rise again (R548). -/
def execFaultnHoldExpire (s : State) : Host.Outcome State Fault Refusal :=
  .next (if s.flt.hold then
    ((s.reach (s.flt.fellAt + 10000)).onFlt fun f => { f with hold := false }).driveFaultN
  else s)

/-- CLOCK_MONITOR_LOSS: the PLL or the reference clock monitor reports loss of lock, fault CLOCK; the collector goes on by the
internal oscillator (R538, R551). -/
def execClockMonitorLoss (s : State) : Host.Outcome State Fault Refusal :=
  .next (if !s.sys.corePower then s
  else
    let s := s.onSys fun y => { y with oscOnly := true }
    let s := (s.onFlt fun f => { f with monClock := true }).wr R.GLB_CLK_PLL_LOCK 0 0
    s.fc4 0x404 0 0)

/-- SUPPLY_MONITOR_FAULT: a supply is more than 8 % from nominal for 1 µs, fault SUPPLY (R538). -/
def execSupplyMonitorFault (s : State) : Host.Outcome State Fault Refusal :=
  .next (if !s.sys.corePower then s
  else
    let s := s.reach (s.now + 1000)
    let s := s.onFlt fun f => { f with monSupply := true }
    s.fc4 0x405 0 0)

end Sys2Proof.Machine
end

