-- ==== Sys2Proof/Machine/HostCmds.lean ====
section
/-! DEFINITION. The host interface at work: doorbells, fetch, start and checks of descriptors (R486 to R495), and the commands of
spec 13 and 14: rings, event queues, sources, counters, bandwidth windows, ports and the Marionette's control. -/

namespace Sys2Proof.Machine

/-! ### Doorbells (R490, R491) -/

/-- FTIME of the next polled read: B_k + j × POLL × 0.5 µs, past those made and those missed (R491). -/
def State.pollDue (s : State) (r : Ring) : Nat :=
  let step := 500 * max 1 r.poll
  let j := match r.pollAt with
    | some t => if s.pit.bk ≤ t then (t - s.pit.bk) / step + 1 else 0
    | none => 0
  s.pit.bk + max (j * step) ((s.now - s.pit.bk) / step * step)

/-- DOORBELL_POLL of a polled doorbell, at its instant within the tick (R491); a read that would fall beyond the tick waits for the
boundary (R694). Watched doorbells are read when their line signals. -/
def execDoorbellPoll (ring : Fin 8192) (evq : Bool) (s : State) : Host.Outcome State Fault Refusal :=
  .next (s.whenServing fun s =>
    match s.queueAt ring.val evq with
    | some r =>
      if r.dbMode ≠ 1 then s
      else
        let at_ := s.pollDue r
        if s.pit.bk + s.pit.period ≤ at_ then s
        else
          let s := (s.reach at_).setQueue ring.val evq (some { r with pollAt := some at_ })
          (s.bump R.RNG_POLL_COUNT 0 1).readDoorbell ring.val evq
    | none => s)

/-- DOORBELL_READ_COMPLETE: `none` for a read that ended with an error or with poison. A read that does not pass the checks of R477 is
refused before it reaches memory. -/
def execDoorbellReadComplete (ring : Fin 8192) (evq : Bool) (word : Option Word) (s : State) : Host.Outcome State Fault Refusal :=
  .next (s.whenServing fun s =>
    let n := ring.val
    match s.queueAt n evq with
    | none => s
    | some r =>
      if r.state = .error then s
      else if !s.doorbellAllowed r then
        (s.refuseHost { r with port := r.dbPort, space := r.dbSpace } r.dbAddr needR).ringError n evq 1
      else match word with
        | none => s.ringError n evq 1
        | some w => s.takeDoorbell n evq w.toNat)

/-! ### Fetch (R493) -/

/-- The SQ may be fetched from: it holds unfetched descriptors, and its CQ has a free entry that no fetch has reserved. -/
def State.fetchable (s : State) (n : Nat) : Bool :=
  match s.ring n with
  | some r =>
    r.kind = .sq && r.state = .active && s.ringServes n && r.prod ≠ r.cons
      && (match s.ring (s.cqOf n) with
        | some q => s.ringServes (s.cqOf n) && q.reserved < q.freeEntries
        | none => false)
  | none => false

/-- The ring whose turn it is: the one being served while it may still be fetched from in this round, then the next by slot number,
then ring 0 of a new round. -/
def State.fetchTurn (s : State) : Option Nat :=
  let cand := (s.host.rings.map Prod.fst).filter s.fetchable
  if cand.contains s.host.roundAt && s.host.roundN < s.rd R.RNG_CTRL_BURST then some s.host.roundAt
  else match cand.find? fun n => s.host.roundAt < n with
    | some n => some n
    | none => cand.head?

/-- DESCRIPTOR_FETCH: `none` for a fetch that ended with an error or with poison. The host interface stops fetching while a recording
quiesces or an activation drains or pauses (R572, R602). -/
def execDescriptorFetch (ring : Fin 8192) (desc : Option (List Word)) (s : State) : Host.Outcome State Fault Refusal :=
  .next (s.whenServing fun s =>
    let n := ring.val
    if s.rec_.hold || s.img.hold || s.fetchTurn ≠ some n then s
    else match s.ring n with
      | none => s
      | some r =>
        let s := s.onHost fun h => { h with
          roundAt := n, roundN := if h.roundAt = n && h.roundN < s.rd R.RNG_CTRL_BURST then h.roundN + 1 else 1 }
        let addr := r.base + 64 * (r.cons % 2 ^ r.log2n)
        let s := s.emit (.fetch n r.cons)
        if !s.hostAllows r.domain r.space r.port addr needR then (s.refuseHost r addr needR).ringError n false 1
        else match desc with
          | none => s.ringError n false 1
          | some d =>
            let s := (s.setRing n (some { r with cons := (r.cons + 1) % 2 ^ 32, fetched := r.fetched ++ [d] })).bump R.RNG_FETCH_COUNT 0 1
            let q := s.cqOf n
            match s.ring q with
            | some c => s.setRing q (some { c with reserved := c.reserved + 1 })
            | none => s)

/-! ### Start of a descriptor (R486, R494, R499) -/

/-- A command of R499: whether any ring may submit it, whether it runs in the background, whether check 5 of R486 leaves it out, and the
bits of its six body words that carry fields. -/
structure CmdRow where
  any  : Bool
  bg   : Bool
  free : Bool
  used : List Nat
  deriving DecidableEq, Repr

def ones (n : Nat) : Nat := 2 ^ n - 1

/-- INDEX, HSPACE with HPORT, and REVOKE of the common body. -/
def useIndex : Nat := ones 32
def useHost : Nat := 3 * 2 ^ 32 + ones 6 * 2 ^ 40
def useRevoke : Nat := 2 ^ 48

/-- The word at 0x28 of RING_CREATE. -/
def useRing28 : Nat := 0xFF3F3F3F + ones 8 * 2 ^ 32 + ones 14 * 2 ^ 48

/-- The rows of R499 by opcode. -/
def cmdRow (op : Nat) : Option CmdRow :=
  let e := ones 64
  match op with
  | 0x0001 => some ⟨true, false, true, []⟩
  | 0x0002 => some ⟨true, true, true, []⟩
  | 0x0003 => some ⟨false, false, true, [useIndex ||| useHost ||| ones 4 * 2 ^ 32 ||| ones 8 * 2 ^ 56, e]⟩
  | 0x0101 => some ⟨false, false, false, [2 ^ 63 + ones 7 * 2 ^ 48 + ones 11 * 2 ^ 32 + ones 11 * 2 ^ 16 + ones 13, e, 0x7F7F]⟩
  | 0x0102 => some ⟨false, true, false, []⟩
  | 0x0103 => some ⟨false, true, false, [1]⟩
  | 0x0201 => some ⟨false, false, false, [useIndex, 0, e, e, e, e]⟩
  | 0x0202 => some ⟨false, false, false, [useIndex]⟩
  | 0x0203 => some ⟨false, false, false, [useIndex ||| useHost, e]⟩
  | 0x0204 => some ⟨false, false, false, [useIndex, 0, ones 16]⟩
  | 0x0205 => some ⟨false, false, false, [useIndex ||| ones 6 * 2 ^ 48 ||| ones 6 * 2 ^ 56]⟩
  | 0x0206 => some ⟨false, false, false, [useIndex ||| ones 4 * 2 ^ 32, 0, ones 56]⟩
  | 0x0301 => some ⟨false, false, false, [useIndex ||| useRevoke, 0, e, e, e, e]⟩
  | 0x0302 => some ⟨false, false, false, [useIndex ||| useRevoke]⟩
  | 0x0401 => some ⟨false, false, false, [useHost, e]⟩
  | 0x0402 => some ⟨false, true, false, [ones 48 + 2 ^ 63]⟩
  | 0x0403 => some ⟨false, true, false, [e]⟩
  | 0x0501 => some ⟨false, true, false, [useIndex]⟩
  | 0x0502 => some ⟨true, true, false, [useIndex ||| useHost, e]⟩
  | 0x0503 => some ⟨true, false, false, [useIndex]⟩
  | 0x0504 => some ⟨true, true, false, [ones 16, ones 48, e, e, e, e]⟩
  | 0x0601 => some ⟨false, false, false, [useIndex, 0, e, e, e, e]⟩
  | 0x0602 => some ⟨false, false, false, [useIndex]⟩
  | 0x0701 => some ⟨false, false, false, [useIndex, 0, e]⟩
  | 0x0702 => some ⟨false, false, false, [useHost, e]⟩
  | 0x0801 => some ⟨false, false, false, [useIndex]⟩
  | 0x0802 => some ⟨false, false, false, [useIndex]⟩
  | 0x0803 => some ⟨false, false, false, [useIndex ||| ones 8 * 2 ^ 32, 0, e, e, e, e]⟩
  | 0x0901 => some ⟨false, false, false, [ones 25 - ones 16 + ones 13 + ones 13 * 2 ^ 32, e - ones 12, e - 7, useRing28, e - 7, ones 11 + 2 ^ 16]⟩
  | 0x0902 => some ⟨false, false, false, [useIndex]⟩
  | 0x0903 => some ⟨false, false, false, [ones 20, 0, 0x71FFF]⟩
  | 0x0904 => some ⟨false, false, false, [useIndex, 0, e, e, e, e]⟩
  | 0x0905 => some ⟨false, false, false, [useIndex, 0, ones 16]⟩
  | 0x0906 => some ⟨true, false, false, [useIndex]⟩
  | 0x0A01 => some ⟨false, true, false, [e, e, ones 31 + ones 24 * 2 ^ 32, 7 + ones 12 * 2 ^ 16 + ones 22 * 2 ^ 32, e, ones 48 + 2 ^ 63]⟩
  | 0x0A02 => some ⟨false, true, false, []⟩
  | 0x0A03 => some ⟨false, true, false, [e, e, e, e, e, e]⟩
  | 0x0B01 => some ⟨false, true, false, [useIndex ||| useHost, e]⟩
  | 0x0B02 => some ⟨false, true, false, [ones 48 + 2 ^ 63, ones 22 + ones 10 * 2 ^ 32 + 2 ^ 48 + 2 ^ 56]⟩
  | 0x0B03 => some ⟨false, false, false, []⟩
  | 0x0C01 => some ⟨false, false, false, [ones 25 - ones 16 + ones 13 + ones 13 * 2 ^ 32, e - ones 12, e - 7, useRing28, e - 7]⟩
  | 0x0C02 => some ⟨false, false, false, [useIndex]⟩
  | 0x0C03 => some ⟨false, false, false, [useIndex, ones 40]⟩
  | 0x0C04 => some ⟨false, false, false, [useIndex, 0, e - 7, useRing28]⟩
  | 0x0C05 => some ⟨true, false, true, [useIndex]⟩
  | 0x0D01 => some ⟨false, false, false, [0xFF + 2 ^ 16 + 7 * 2 ^ 24]⟩
  | 0x0D02 => some ⟨false, true, false, [0x13FFFFFF + ones 32 * 2 ^ 32]⟩
  | 0x0E01 => some ⟨false, false, false, [0, 0, e]⟩
  | _ => none

/-- Offset of the lowest byte with a set bit, among `n` bytes. -/
def lowByte (v : Nat) : Nat → Nat → Option Nat
  | 0, _ => none
  | n + 1, o => if v % 256 ≠ 0 then some o else lowByte (v / 256) n (o + 1)

/-- Bits of a 64-bit word outside a mask. -/
def outside (v mask : Nat) : Nat := (BitVec.ofNat 64 v &&& ~~~ BitVec.ofNat 64 mask).toNat

/-- Byte offset of the first reserved field of a descriptor that is not zero, or of the first header field out of range (check 3). -/
def descBad (r : CmdRow) (d : List Word) : Option Nat :=
  let a := wordAt d 0; let b := wordAt d 1
  firstBad [(bits a 26 6 ≠ 0 || (flag a 25 && bits a 16 8 = 1), 3), (4095 < bits b 0 16, 8)] <|> lowByte (b / 2 ^ 16) 6 10
    <|> (List.range 6).findSome? fun i => lowByte (outside (wordAt d (2 + i)) (r.used.getD i 0)) 8 (16 + 8 * i)

/-- The first failure of checks 1 to 3 that the header and the reserved fields decide. The ranges of body fields, which belong to check 3,
and checks 4 and 5, which come after them, are made with the command itself (`State.command`). -/
def descCheck (d : List Word) : Option Cpl :=
  let a := wordAt d 0
  if bits a 16 8 ≠ 1 && bits a 16 8 ≠ 2 then some { status := .unsupported }
  else match cmdRow (bits a 0 16) with
    | none => some { status := .unsupported }
    | some r =>
      (descBad r d).map fun o => { status := .badDesc, code := o }

/-- The oldest fetched descriptor of a ring may start (R494). -/
def Ring.mayStart (r : Ring) (n : Nat) (h : Hdr) : Bool := (!h.fence || r.live.isEmpty) && (n ≠ 0 || r.live.all Live.bg)

/-- DESCRIPTOR_START: the descriptor that passes is live, and its command follows as a command of its own. -/
def execDescriptorStart (ring : Fin 8192) (s : State) : Host.Outcome State Fault Refusal :=
  .next (s.whenServing fun s =>
    let n := ring.val
    match s.ring n with
    | none => s
    | some r =>
      match r.fetched with
      | [] => s
      | d :: rest =>
        let h := hdrOf n d
        if !r.mayStart n h then s
        else
          let s := s.setRing n (some { r with
            fetched := rest
            live := r.live ++ [⟨h.tag.toNat, ((cmdRow (bits (wordAt d 0) 0 16)).map CmdRow.bg).getD false⟩] })
          match descCheck d with
          | some c => s.complete h c
          | none => s)

/-! ### NOP and BARRIER -/

/-- NOP. -/
def execNop (h : Hdr) (s : State) : Host.Outcome State Fault Refusal := .next (s.command h true true [] none fun s => s.done h .ok)

/-- BARRIER (R208). -/
def execBarrier (h : Hdr) (s : State) : Host.Outcome State Fault Refusal :=
  .next (s.command h true true [] none fun s =>
    let e := s.fab.epoch
    if s.drainedTo e then s.done h .ok else s.onFab fun f => { f with barriers := f.barriers ++ [(h, e)] })

/-! ### Rings (R502, R503, R492) -/

/-- INDEX of a ring slot. -/
def ringIndexBad (index : Word32) : Option Nat := firstBad [(decide (8191 < index.toNat), 0x10)]

/-- RING_CREATE. The domain must exist; a debug domain is refused (R393). -/
def execRingCreate (h : Hdr) (w10 w18 w20 w28 w30 : Word) (s : State) : Host.Outcome State Fault Refusal :=
  .next (s.manager h [] (ringBad w10.toNat w18.toNat w20.toNat w28.toNat w30.toNat 0 false) fun s =>
    let n := bits w10.toNat 0 13
    let d := h.domain.toNat
    let r := ringOf d w10.toNat w18.toNat w20.toNat w28.toNat w30.toNat 0 false
    let pairOk := match s.ring r.pair with
      | some q => q.kind = .cq && q.domain = d
      | none => false
    if n ≤ 1 || (s.ring n).isSome || (r.kind = .sq && !pairOk) || (r.kind = .stat && (s.statRing d).isSome) || !s.ringPortsOk r
        || !s.watchOk r || (s.domain d).debug || (s.domain d).st = .free then s.denied h 0
    else (s.addQueue n false r).done h .ok)

/-- A dispatch entry's CRING, or an SQ's PAIR, names the ring. -/
def State.ringNamed (s : State) (n : Nat) : Bool :=
  (s.livePlans.any fun p => p.disp.any fun d => !d.fed && d.cring = n)
  || s.host.rings.any fun e => match e.2 with
    | some r => r.kind = .sq && 1 < e.1 && r.pair = n
    | none => false

/-- RING_DESTROY: a slot that is FREE, and the manager's own rings, are refused. -/
def execRingDestroy (h : Hdr) (index : Word32) (s : State) : Host.Outcome State Fault Refusal :=
  .next (s.manager h [] (ringIndexBad index) fun s =>
    let n := index.toNat
    if n ≤ 1 || (s.ring n).isNone then s.denied h 0 else if s.ringNamed n then s.done h .busy else (s.destroyRing n).done h .ok)

/-- A ring after RING_RESET: the device-side index and GEN are set. Descriptors of an SQ that wait are forgotten, and its read index
starts there; what software has read of a ring that the device writes stands. -/
def Ring.restart (r : Ring) (idx gen : Nat) : Ring :=
  if r.kind = .sq then { r with state := .active, gen := gen, cons := idx, prod := idx, fetched := [] }
  else { r with state := .active, gen := gen, prod := idx, reserved := 0, full := false }

/-- RING_RESET. -/
def execRingReset (h : Hdr) (index : Word32) (w18 : Word) (s : State) : Host.Outcome State Fault Refusal :=
  .next (s.manager h [] (firstBad [(decide (8191 < index.toNat), 0x10), (bits w18.toNat 40 24 ≠ 0, 0x1D)]) fun s =>
    let n := index.toNat
    match s.ring n with
    | none => s.denied h 0
    | some r =>
      let s := s.setRing n (some (r.restart (bits w18.toNat 0 32) (bits w18.toNat 32 8)))
      let q := s.cqOf n
      let s := if r.kind = .sq then match s.ring q with
          | some c => s.setRing q (some { c with reserved := min c.reserved (s.heldEntries q) })
          | none => s
        else s
      (s.readDoorbell n false).done h .ok)

/-- RING_DOORBELL: mode and address of the doorbell; the other fields of the word at 0x28 do not act. -/
def execRingDoorbell (h : Hdr) (index : Word32) (w20 w28 : Word) (s : State) : Host.Outcome State Fault Refusal :=
  .next (s.manager h [] (firstBad ((decide (8191 < index.toNat), 0x10) :: doorbellChecks w20.toNat w28.toNat)) fun s =>
    let n := index.toNat
    match s.ring n with
    | none => s.denied h 0
    | some r =>
      let x := ringOf 0 0 0 w20.toNat w28.toNat 0 0 false
      let r' := { r with dbMode := x.dbMode, dbSpace := x.dbSpace, dbPort := x.dbPort, dbAddr := x.dbAddr, poll := x.poll }
      if !s.isUpstream r'.dbPort || !s.watchOk r' then s.denied h 0
      else ((((s.setRing n (some r')).unwatch r).watch r').readDoorbell n false).done h .ok)

def RState.ringCode : RState → Nat
  | .active => 1 | .stopped => 2 | .error => 3

/-- RESULT of RING_STATUS. -/
def ringResult (r : Option Ring) : Nat :=
  match r with
  | some r => (if r.kind = .sq then r.cons else r.prod) + r.state.ringCode * 2 ^ 32 + r.gen * 2 ^ 40
  | none => 0

/-- RING_STATUS. -/
def execRingStatus (h : Hdr) (index : Word32) (s : State) : Host.Outcome State Fault Refusal :=
  .next (s.command h true true [] (ringIndexBad index) fun s => s.complete h { status := .ok, result := ringResult (s.ring index.toNat) })

/-! ### Event queues and sources (R511 to R514, R519 to R522) -/

/-- Event queues that a domain holds. -/
def State.evqsOf (s : State) (d : Nat) : Nat := (s.host.evqs.filter fun e => match e.2 with
  | some r => r.domain = d
  | none => false).length

/-- EVQ_CREATE. -/
def execEvqCreate (h : Hdr) (w10 w18 w20 w28 w30 w38 : Word) (s : State) : Host.Outcome State Fault Refusal :=
  .next (s.manager h [] (ringBad w10.toNat w18.toNat w20.toNat w28.toNat w30.toNat w38.toNat true) fun s =>
    let n := bits w10.toNat 0 13
    let d := h.domain.toNat
    let r := ringOf d w10.toNat w18.toNat w20.toNat w28.toNat w30.toNat w38.toNat true
    if (s.evq n).isSome || (s.domain d).evqs ≤ s.evqsOf d || !s.isUpstream r.port || !s.watchOk r then s.denied h 0
    else (s.addQueue n true r).done h .ok)

/-- EVQ_DESTROY: sources mapped to the queue become inactive and keep their mapping. A queue that does not exist is refused. -/
def execEvqDestroy (h : Hdr) (index : Word32) (s : State) : Host.Outcome State Fault Refusal :=
  .next (s.manager h [] (ringIndexBad index) fun s =>
    let n := index.toNat
    let named := s.host.rings.any fun e => match e.2 with
      | some r => r.kind = .cq && r.evqEn && r.evq = n
      | none => false
    if n = 0 || (s.evq n).isNone then s.denied h 0 else if named then s.done h .busy else (s.dropQueue n true).done h .ok)

/-- Local source numbers that exist in a domain (R507). -/
def sourceExists (n : Nat) : Bool := n % 256 ≤ 3 || (n < 256 && 0x10 ≤ n && n ≤ 0x18)

/-- RESULT of a read mapping (R511). -/
def Source.result (x : Source) : Nat := x.cnt + x.evq * 2 ^ 16 + (if x.en then 2 ^ 32 else 0)

def sourceBad (index : Word32) (entry : Nat) : Option Nat :=
  firstBad [(2 ^ 20 ≤ index.toNat || !sourceExists index.toNat, 0x10), (bits entry 13 3 ≠ 0, 0x21)] <|> lowByte (entry / 2 ^ 19 * 2 ^ 3) 6 0x22

/-- SOURCE_MAP with READ set. -/
def State.sourceRead (h : Hdr) (index : Word32) (s : State) : State :=
  s.complete h { status := .ok, result := (s.source index.toNat).result }

/-- SOURCE_MAP. -/
def execSourceMap (h : Hdr) (index : Word32) (entry : Word) (s : State) : Host.Outcome State Fault Refusal :=
  .next (s.manager h [index.toNat / 256] (sourceBad index entry.toNat) fun s =>
    let n := index.toNat
    let q := bits entry.toNat 0 13
    let en := flag entry.toNat 16
    if flag entry.toNat 18 then s.sourceRead h index
    else
      let foreign := match s.evq q with
        | some r => r.domain ≠ n / 256 && r.domain ≠ 0
        | none => false
      if foreign || (en && !s.evqActive q) then s.denied h 0
      else
        let was := s.sourceActive n
        let x := s.source n
        let s := s.setSource n { cnt := if flag entry.toNat 17 then 0 else x.cnt, evq := q, en := en }
        (if was then s else s.summary n).done h .ok)

/-- SOURCE_MAP with READ set. -/
def execSourceMapRead (h : Hdr) (index : Word32) (s : State) : Host.Outcome State Fault Refusal :=
  .next (s.manager h [index.toNat / 256] (sourceBad index 0) fun s => s.sourceRead h index)

/-! ### Counters and bandwidth windows (R523 to R528, R536) -/

/-- The domain that the filter of a counter names. -/
def counterNames (e : Entry) : List Nat := if (counterOf e).fany then [] else [(counterOf e).fdom]

/-- COUNTER_CFG. -/
def execCounterCfg (h : Hdr) (index : Word32) (entry : Entry) (s : State) : Host.Outcome State Fault Refusal :=
  .next (s.manager h (counterNames entry) (counterBad entry) fun s =>
    let d := h.domain.toNat
    let k := counterOf entry
    if (s.domain d).counters ≤ index.toNat || (d ≠ 0 && (k.fany || k.fdom ≠ d || (k.level && selAnyOnly k.sel))) then s.denied h 0
    else
      let key := d * 1024 + index.toNat
      let v := if counterLoad entry then k.value else (Tab.get counterAt s.host.counters key).value
      (s.onHost fun x => { x with counters := Tab.set counterAt x.counters key { k with value := v, snap := v, snapAt := none } }).done h .ok)

/-- COUNTER_READ. -/
def execCounterRead (h : Hdr) (index : Word32) (s : State) : Host.Outcome State Fault Refusal :=
  .next (s.command h true false [] none fun s =>
    let d := h.domain.toNat
    if (s.domain d).counters ≤ index.toNat then s.denied h 0
    else s.complete h { status := .ok, result := (Tab.get counterAt s.host.counters (d * 1024 + index.toNat)).value })

/-- INDEX of the lowest slice of a port. -/
def State.portIndexBad (s : State) (index : Word32) : Option Nat := firstBad [(!s.isLowest index.toNat, 0x10)]

/-- BW_WINDOW: the length is taken at the next boundary; 0 ends the windows. -/
def execBwWindow (h : Hdr) (index : Word32) (nTick : BitVec 16) (s : State) : Host.Outcome State Fault Refusal :=
  .next (s.manager h [] (s.portIndexBad index) fun s =>
    let n := index.toNat
    let bw := if nTick = 0 then Tab.set bwAt s.host.bw n BwWin.none
      else Tab.upd bwAt s.host.bw n fun w => { w with next := nTick.toNat }
    (s.onHost fun x => { x with bw := bw }).done h .ok)

/-! ### Ports (R127, R143, R144, R696) -/

/-- PORT_BIND. -/
def execPortBind (h : Hdr) (index : Word32) (s : State) : Host.Outcome State Fault Refusal :=
  .next (s.manager h [] (s.portIndexBad index) fun s =>
    let n := index.toNat
    let p := s.portN n
    if s.role n = 0 || p.state = .quiesce || p.state = .released then s.denied h 0
    else if p.state = .active then s.done h .ok
    else if p.bindable then (s.enterActive n).done h .ok
    else s.done h .busy)

/-- PORT_DOWN: a port whose link is not up has nothing to take down. -/
def execPortDown (h : Hdr) (index : Word32) (s : State) : Host.Outcome State Fault Refusal :=
  .next (s.manager h [] (s.portIndexBad index) fun s => (s.declareDown index.toNat 4 true).done h .ok)

/-- A downstream port's stream has keys of both directions and the three sub-streams in one slot. -/
def Port.fullyKeyed (p : Port) (stream : Nat) (slot : Bool) : Bool :=
  [false, true].all fun rx => [0, 1, 2].all fun sub => p.keys.any fun k => k.stream = stream && k.rx = rx && k.sub = sub && k.slot = slot

/-- IDE_KEY: AUX holds stream, direction, sub-stream and slot. The device's side of a stream becomes secure with its last key, since no
command of its own says so (log 40). A port with role fabric is programmed like a downstream one, and a port whose link is not up
is DENIED (log 76). -/
def execIdeKey (h : Hdr) (index : Word32) (aux : Word32) (key : Entry) (s : State) : Host.Outcome State Fault Refusal :=
  .next (let a := aux.toNat
    s.manager h [] (firstBad [(!s.isLowest index.toNat, 0x10), (8 < bits a 0 4 || bits a 5 2 = 3, 0x14), (a / 256 ≠ 0, 0x15)]) fun s =>
      let n := index.toNat
      if !(s.isDownstream n || s.isFabric n) || !(s.portN n).state.linked then s.denied h 0
      else
        let s := s.putKey n ⟨bits a 0 4, flag a 4, bits a 5 2, flag a 7, key⟩
        (if (s.portN n).fullyKeyed (bits a 0 4) (flag a 7) then s.streamGo n (bits a 0 4) else s).done h .ok)

/-! ### The manager's rings (R504, R514) -/

/-- The three doorbell words of the manager. -/
def State.mringRing (s : State) (kind : RKind) (log2n fmt base k shadow : Nat) : Ring :=
  { state := .active, kind := kind, log2n := log2n, fmt := fmt, base := base, space := 1, port := s.mgrPort
    dbMode := s.rd R.GLB_MRING_CTRL_DBMODE, dbSpace := 1, dbPort := s.mgrPort, dbAddr := s.rd R.GLB_MRING_DB_ADDR * 8 + 8 * k
    poll := s.rd R.GLB_MRING_CTRL_POLL, gen := s.rd R.GLB_MRING_CTRL_GEN, pair := 1, evqEn := false, evq := 0
    shadow := s.rd R.GLB_MRING_SHADOW_ADDR * 8 + shadow, vec := s.rd R.GLB_MRING_CTRL_VEC, vecEn := true, domain := 0, prod := 0, cons := 0
    reserved := 0, fetched := [], live := [], full := false, dropped := 0, dropAt := 0, dropTold := false, pollAt := none }

/-- Every field of the manager's rings is in range. -/
def State.mringOk (s : State) : Bool :=
  let ok (l f : Nat) : Bool := 6 ≤ l && l ≤ 16 && (f = 1 || f = 2)
  ok (s.rd R.GLB_MRING_SQ_LOG2N) (s.rd R.GLB_MRING_SQ_FMT) && ok (s.rd R.GLB_MRING_CQ_LOG2N) (s.rd R.GLB_MRING_CQ_FMT)
    && ok (s.rd R.GLB_MRING_EVQ_LOG2N) (s.rd R.GLB_MRING_EVQ_FMT)
    && (s.rd R.GLB_MRING_CTRL_DBMODE = 1 || s.rd R.GLB_MRING_CTRL_DBMODE = 2)
    && 1 ≤ s.rd R.GLB_MRING_CTRL_POLL && s.rd R.GLB_MRING_CTRL_POLL ≤ 128

/-- EN has been set: READY, with the rings in service and a SUMMARY for each D0 source with a count (R514); or ERR. -/
def State.mringOn (s : State) : State :=
  if s.mringOk then
    let s := s.setRing 0 (some (s.mringRing .sq (s.rd R.GLB_MRING_SQ_LOG2N) (s.rd R.GLB_MRING_SQ_FMT) (s.rd R.GLB_MRING_SQ_BASE * 4096) 0 0))
    let s := s.setRing 1 (some (s.mringRing .cq (s.rd R.GLB_MRING_CQ_LOG2N) (s.rd R.GLB_MRING_CQ_FMT) (s.rd R.GLB_MRING_CQ_BASE * 4096) 1 0))
    let s := s.setEvq 0 (some (s.mringRing .evq (s.rd R.GLB_MRING_EVQ_LOG2N) (s.rd R.GLB_MRING_EVQ_FMT) (s.rd R.GLB_MRING_EVQ_BASE * 4096) 2 8))
    let s := s.wr R.GLB_MRING_STATUS_READY 0 1
    let s := ((s.readDoorbell 0 false).readDoorbell 1 false).readDoorbell 0 true
    s.forAll ((List.range 256).filter fun n => (s.source n).evq = 0) fun n t => t.summary n
  else s.wr R.GLB_MRING_STATUS_ERR 0 1

/-- EN has been cleared: the rings leave service, and records owed to them are dropped. -/
def State.mringOff (s : State) : State :=
  let s := ((s.wr R.GLB_MRING_STATUS_READY 0 0).wr R.GLB_MRING_STATUS_ERR 0 0).inTrial fun a => { a with unready := true }
  ((s.dropQueue 0 false).dropQueue 1 false).dropQueue 0 true

/-- FUNCTION_LEVEL_RESET (R633). -/
def execFunctionLevelReset (p : PortId) (s : State) : Host.Outcome State Fault Refusal :=
  .next (let n := p.val
    if !s.started || s.role n ≠ 1 then s
    else
      let s := s.onHost fun h => { h with
        msix := h.msix.filter fun e => e.1 / 2048 ≠ n
        cmdReg := Tab.set natAt h.cmdReg n 0 }
      if n = s.mgrPort && s.bit R.GLB_MRING_CTRL_EN then (s.wr R.GLB_MRING_CTRL_EN 0 0).mringOff else s)

end Sys2Proof.Machine
end

