-- ==== Sys2Proof/Machine/PlanCmds.lean ====
section
/-! DEFINITION. Tick plans, programs and coefficients as the manager and domain software load them: PLAN_LOAD, PLAN_SWITCH,
TIME_STEP, PROG_LOAD, PROG_UNLOAD, BLW_COEF_LOAD (R77 to R88, R46, R47, R324 to R326, R385 to R387, R447). -/

namespace Sys2Proof.Machine

/-! ### Plans -/

/-- Slots a plan holds. -/
def Plan.slots (p : Plan) : List Nat := p.disp.map Disp.slot

/-- Complete with SHED every queued descriptor of a slot, and forget its arguments. -/
def State.shedSlot (n : Nat) (s : State) : State :=
  let q := (s.slot n).queue
  (s.setSlot n Slot.none).forAll q fun w t => t.complete w.hdr { status := .shed, result := workResult n 0 }

/-- Slots with something stored that satisfy `p`. -/
def State.shedSlots (p : Nat → Bool) (s : State) : State :=
  s.forAll (s.eng.slots.filter fun e => p e.1) fun e t => t.shedSlot e.1

/-- Make a plan the pending plan; descriptors that only the discarded one held are shed (R85, R334). -/
def State.setPending (p : Plan) (s : State) : State :=
  let old := match s.pit.pendingPlan with
    | some q => q.slots
    | none => []
  let s := s.onPit fun x => { x with pendingPlan := some p }
  let kept := s.livePlans.flatMap Plan.slots
  s.shedSlots fun n => old.contains n && !kept.contains n

/-- Bytes of a plan object: DCNT beyond 256 fails check 1 before the dispatch list is read. -/
def planBytes (p : List Word) : Nat := 1600 + 32 * min 256 (planDcnt p)

/-- PLAN_LOAD (R77, R78, R85). -/
def execPlanLoad (h : Hdr) (o : HRef) (plan : List Word) (s : State) : Host.Outcome State Fault Refusal :=
  .next (s.manager h [] (firstBad o.bad) fun s =>
    s.withObject h o (planBytes plan) needR fun s =>
      match s.admitPlan plan with
      | .bad off => s.bad h off
      | .refused code => s.denied h code
      | .admitted p => (s.setPending p).done h .ok)

/-- Number of the first boundary that is not fixed yet (R56). -/
def State.firstUnfixed (s : State) : Nat := s.pit.tick + s.pit.fixed.length + 1

/-- PLAN_SWITCH (R86, R88): it waits for its boundary; with NEXT set, TICK is not looked at. -/
def execPlanSwitch (h : Hdr) (tick : BitVec 48) (next : Bool) (s : State) : Host.Outcome State Fault Refusal :=
  .next (s.manager h [] none fun s =>
    let k := if next then s.firstUnfixed else tick.toNat
    if s.pit.pendingPlan.isNone || k < s.firstUnfixed then s.bad h 0x10
    else s.onPit fun x => { x with switches := x.switches ++ [⟨some h, k, 0⟩] })

/-- The boundary that the next TIME_STEP acts at (R46): the first one neither fixed nor claimed. -/
def State.stepTick (s : State) : Nat := (s.pit.steps.map fun w => w.tick + 1).foldl max s.firstUnfixed

/-- Period of the last tick whose boundary is fixed. -/
def State.lastPeriod (s : State) : Nat := match s.pit.fixed.getLast? with
  | some f => f.period
  | none => s.pit.period

/-- TIME_STEP (R46, R47): the size is checked against the tick that ends at its boundary, here when that tick's period is fixed and at the
fixing of the boundary otherwise. -/
def execTimeStep (h : Hdr) (delta : Int) (s : State) : Host.Outcome State Fault Refusal :=
  .next (s.manager h [] none fun s =>
    let k := s.stepTick
    if delta = 0 || (k = s.firstUnfixed && s.lastPeriod ≤ delta.natAbs) then s.bad h 0x10
    else s.onPit fun x => { x with steps := x.steps ++ [⟨some h, k, delta⟩] })

/-! ### Program images (R385, R386) -/

/-- Which fields an instruction uses: 0 unused, 1 a scalar register, 2 a line register; the mask of IMM; whether F is legal. -/
structure Shape where
  d : Nat
  a : Nat
  b : Nat
  c : Nat
  imm : Nat
  f : Nat → Bool

/-- Every bit of IMM. -/
def imm32 : Nat := 2 ^ 32 - 1

/-- F values of R366: F[2] only with F[0], F[1] only for MIN and MAX, F[3] never. -/
def aluF (minMax : Bool) (f : Nat) : Bool := f < 8 && (!flag f 2 || flag f 0) && (!flag f 1 || minMax)

/-- The fields of an opcode (R365); `f` is the instruction's own F, on which the ALU operand depends. None: a reserved opcode. -/
def shapeOf (opc f : Nat) : Option Shape :=
  let zero : Nat → Bool := fun x => x = 0
  let size : Nat → Bool := fun x => x < 4
  if 1 ≤ opc && opc ≤ 0x0B then
    let alu := aluF (opc = 0x0A || opc = 0x0B)
    some (if flag f 0 then ⟨1, 1, 0, 0, imm32, alu⟩ else ⟨1, 1, 1, 0, 0, alu⟩)
  else match opc with
    | 0x0C => some ⟨1, 0, 0, 0, imm32, fun x => x % 4 = 0⟩
    | 0x0D => some ⟨1, 0, 0, 0, 0xF, zero⟩
    | 0x10 => some ⟨0, 1, 1, 0, imm32, fun x => x ≤ 6⟩
    | 0x11 => some ⟨1, 1, 0, 0, imm32, zero⟩
    | 0x12 => some ⟨0, 1, 0, 0, imm32, zero⟩
    | 0x13 => some ⟨0, 0, 0, 0, 0x3F, zero⟩
    | 0x1F => some ⟨0, 0, 0, 0, 0xFFFF, zero⟩
    | 0x20 => some ⟨1, 1, 0, 0, imm32, size⟩
    | 0x21 => some ⟨0, 1, 1, 0, imm32, size⟩
    | 0x22 => some ⟨2, 1, 0, 0, imm32, zero⟩
    | 0x23 => some ⟨2, 1, 0, 0, imm32, zero⟩
    | 0x28 => some ⟨1, 2, 0, 0, 0x3F, size⟩
    | 0x29 => some ⟨2, 0, 1, 0, 0x3F, size⟩
    | 0x2A => some ⟨2, 2, 2, 0, 0xFF, zero⟩
    | 0x2B => some ⟨2, 0, 0, 0, 0, zero⟩
    | 0x30 => some ⟨2, 1, 0, 0, imm32, zero⟩
    | 0x31 => some ⟨2, 1, 0, 0, imm32, zero⟩
    | 0x32 => some ⟨2, 1, 0, 1, imm32, zero⟩
    | 0x33 => some ⟨1, 1, 0, 1, 0, size⟩
    | 0x34 => some ⟨2, 1, 1, 1, 0, zero⟩
    | 0x35 => some ⟨2, 1, 1, 1, 0xFF, zero⟩
    | 0x36 => some ⟨0, 1, 1, 0, 0xFFFF, zero⟩
    | 0x38 => some ⟨1, 1, 1, 1, imm32, fun x => x ≤ 9⟩
    | 0x39 => some ⟨1, 1, 1, 1, imm32, fun x => x ≤ 9⟩
    | 0x3C => some ⟨1, 2, 0, 0, 0x7F, zero⟩
    | 0x3D => some ⟨1, 1, 1, 0, 0, zero⟩
    | _ => none

/-- A register field holds what its use allows. -/
def fieldOk (use r : Nat) : Bool := use = 1 || (use = 0 && r = 0) || (use = 2 && r < 8)

/-- The operation byte of LOP and RED holds no reserved value (R373). -/
def opByteOk (opc imm : Nat) : Bool := !(opc = 0x2A || opc = 0x35) || (imm % 16 ≤ 8 && !flag imm 7)

/-- The fields of one instruction pass the checks of R386. -/
def instrOk (w : Word) : Bool :=
  let x := fieldsOf w
  let f := x.f.toNat; let imm := x.imm.toNat
  match shapeOf (opcOf w) f with
  | none => false
  | some sh => sh.f f && fieldOk sh.d x.d && fieldOk sh.a x.a && fieldOk sh.b x.b && fieldOk sh.c x.c
      && outside imm sh.imm = 0 && opByteOk (opcOf w) imm
where
  /-- Bits of an immediate outside a mask. -/
  outside (v mask : Nat) : Nat := (BitVec.ofNat 32 v &&& ~~~ BitVec.ofNat 32 mask).toNat

/-- The bodies of the LOOP instructions as first and last index. -/
def loopBodies (code : List Word) : List (Nat × Nat) :=
  (List.range code.length).filterMap fun i => match code[i]? with
    | some w => if opcOf w = 0x11 then some (i + 1, i + (fieldsOf w).imm.toNat % 65536) else none
    | none => none

def inBody (b : Nat × Nat) (i : Nat) : Bool := b.1 ≤ i && i ≤ b.2

/-- Two bodies overlap and neither contains the other. -/
def crossing (x y : Nat × Nat) : Bool :=
  max x.1 y.1 ≤ min x.2 y.2 && !(x.1 ≤ y.1 && y.2 ≤ x.2) && !(y.1 ≤ x.1 && x.2 ≤ y.2)

/-- The control-flow checks of R386 for the instruction at `i`. -/
def flowOk (code : List Word) (bodies : List (Nat × Nat)) (i : Nat) (w : Word) : Bool :=
  let imm := (fieldsOf w).imm.toNat
  if opcOf w = 0x10 then
    let t := i + 1 + imm
    t < code.length && bodies.all fun b => inBody b i = inBody b t
  else if opcOf w = 0x11 then
    let b := (i + 1, i + imm % 65536)
    imm % 65536 ≠ 0 && b.2 < code.length && imm / 65536 ≠ 0 && !bodies.any (crossing b)
      && (bodies.filter fun x => x.1 ≤ b.1 && b.2 ≤ x.2).length ≤ 4
  else true

/-- Instruction words of an image of 64-bit words. -/
def imageCode (w : List Word) : List Word := (w.drop 8).take (bits (wordAt w 0) 48 16)

/-- The static checks of R386: byte offset in the image of the first failing field. -/
def progBad (w : List Word) : Option Nat :=
  let a := wordAt w 0; let b := wordAt w 1; let c := wordAt w 2
  let icnt := bits a 48 16
  let code := imageCode w
  let bodies := loopBodies code
  firstBad [(bits a 0 32 ≠ 0x47504B54, 0), (bits a 32 8 ≠ 1, 4), (bits a 40 8 ≠ 0, 5), (icnt = 0 || 8192 < icnt || code.length < icnt, 6),
      (crc32c (code.map fun x => x.toNat) ≠ bits b 32 32, 12), (bits c 32 32 ≠ 0, 20)]
    <|> firstBad ((List.range 5).map fun k => ((wordAt w (3 + k) ≠ 0 : Bool), 24 + 8 * k))
    <|> ((List.range code.length).findSome? fun i => match code[i]? with
      | some x => if instrOk x && flowOk code bodies i x then none else some (64 + 8 * i)
      | none => none)
    <|> firstBad [(opcOf (code.getLastD 0) ≠ 0x1F, 64 + 8 * (icnt - 1))]

/-- Bytes of a program image. -/
def imageBytes (w : List Word) : Nat := 64 + 8 * bits (wordAt w 0) 48 16

/-- The program of an image at a place in host memory, read through a check unit. -/
def progOf (w : List Word) (o : HRef) (unit : Nat) : Prog :=
  { code := imageCode w, scrMin := bits (wordAt w 1) 0 32, ptag := bits (wordAt w 2) 0 32, from_ := o, bytes := imageBytes w, unit := unit }

/-! ### PROG_LOAD and PROG_UNLOAD -/

/-- A dispatch entry of a live plan names the program (R324, R326). -/
def State.progNamed (s : State) (d handle : Nat) : Bool :=
  s.livePlans.any fun p => p.disp.any fun x => x.domain = d && x.prog = handle

/-- Program pages of a domain in use or being filled, those of `handle` left out. -/
def State.progPages (s : State) (d handle : Nat) : Nat :=
  let mine (k : Nat) : Bool := k / 4096 = d && k ≠ progKey d handle
  (s.eng.progs.map fun e => match e.2 with
    | some x => if mine e.1 then x.pages else 0
    | none => 0).foldl (· + ·) 0
  + (s.eng.loads.map fun e => match e.2 with
    | some x => if mine e.1 then x.prog.pages else 0
    | none => 0).foldl (· + ·) 0

/-- INDEX holds a program handle. -/
def handleBad (index : Word32) : Option Nat := firstBad [(4095 < index.toNat, 0x10)]

/-- PROG_LOAD: the copy into every engine begins, and takes 1,000 ns plus the instruction bytes at 16 GB/s (R324). -/
def execProgLoad (h : Hdr) (index : Word32) (o : HRef) (image : List Word) (s : State) : Host.Outcome State Fault Refusal :=
  .next (s.command h true false [] (handleBad index <|> firstBad o.bad) fun s =>
    s.withObject h o (imageBytes image) needR fun s =>
      let d := h.domain.toNat; let n := index.toNat
      let key := progKey d n
      let x := progOf image o (s.ringPort h.ring.val)
      match progBad image with
      | some off => s.bad h off
      | none =>
        if s.progNamed d n || (Tab.get noneAt s.eng.loads key).isSome then s.done h .busy
        else if (s.domain d).prg < s.progPages d n + x.pages || (s.domain d).scr * 4096 < x.scrMin then s.denied h 0
        else s.onEng fun g => { g with loads := Tab.set noneAt g.loads key (some ⟨h, x, s.now + 1000 + ceilDiv x.code.length 2⟩) })

/-- PROG_COPY_END. -/
def execProgCopyEnd (domain : Fin 4096) (handle : BitVec 12) (s : State) : Host.Outcome State Fault Refusal :=
  let key := progKey domain handle.toNat
  .next (match Tab.get noneAt s.eng.loads key with
  | none => s
  | some l =>
    if !s.serving then s
    else
      let s := (s.reach l.doneAt).onEng fun g =>
        { g with loads := Tab.set noneAt g.loads key none, progs := Tab.set noneAt g.progs key (some l.prog) }
      s.done l.hdr .ok)

/-- PROG_UNLOAD (R326). -/
def execProgUnload (h : Hdr) (index : Word32) (s : State) : Host.Outcome State Fault Refusal :=
  .next (s.command h true false [] (handleBad index) fun s =>
    let d := h.domain.toNat; let n := index.toNat
    if s.progNamed d n then s.done h .busy
    else if (Tab.get noneAt s.eng.progs (progKey d n)).isNone then s.denied h 0
    else (s.onEng fun g => { g with progs := Tab.set noneAt g.progs (progKey d n) none }).done h .ok)

/-! ### BLW_COEF_LOAD (R447, R84) -/

/-- CRC-32C over the first 252 bytes of a table of 64 entries. -/
def coefCrc (t : List Word32) : Nat :=
  let c := (t.take 63).foldl (fun c w => crcNat 4 w.toNat c) (BitVec.allOnes 32)
  (~~~ c).toNat

/-- Byte offset of the first entry that R447 refuses. -/
def coefBad (t : List Word32) : Option Nat :=
  let at_ (i : Nat) : Nat := (t.getD i 0).toNat
  firstBad (([(at_ 0 ≠ 1, 0)] : List (Bool × Nat)) ++ (List.range 40).map (fun i => (!(at_ (23 + i) == 0), 4 * (23 + i)))
    ++ [(!(at_ 63 == coefCrc t), 252)])

/-- A table in force: entry 63 is the CRC, checked already and not kept (log 9). -/
def coefOf (t : List Word32) : List Nat := (List.range 64).map fun i => if i = 63 then 0 else (t.getD i 0).toNat

/-- BLW_COEF_LOAD. -/
def execBlwCoefLoad (h : Hdr) (o : HRef) (table : List Word32) (s : State) : Host.Outcome State Fault Refusal :=
  .next (s.manager h [] (firstBad o.bad) fun s =>
    s.withObject h o 256 needR fun s =>
      match coefBad table with
      | some off => s.bad h off
      | none =>
        if !s.energyChangeOk { s.energyIn with coef := coefOf table } then s.denied h 6
        else (s.onBel fun b => { b with coef := coefOf table }).done h .ok)

end Sys2Proof.Machine
end

