-- ==== Sys2Proof/Machine/Dolet.lean ====
section
/-! DEFINITION. The bytes of a Dolet record: its header and sections as the recorder writes them, and as a replay reads them (R564, R575
to R579, R587). What the spec lists without a layout is laid out by free functions (log 85). -/

namespace Sys2Proof.Machine

/-- Bytes as little-endian 64-bit words. -/
def packWords (b : List Nat) : List Nat :=
  (List.range (ceilDiv b.length 8)).map fun i => ((b.drop (8 * i)).take 8).foldr (fun x a => x + 256 * a) 0

/-- The bytes of words. -/
def unpackWords (w : List Nat) : List Nat := w.flatMap (lowBytes 8)

/-- The number that the first `n` bytes hold. -/
def leadNat (n : Nat) (b : List Nat) : Nat := (b.take n).foldr (fun x a => x + 256 * a) 0

/-! ### The CONFIG section -/

/-- Words of a plan, the inverse of `planOf` (R63 to R68, R329). -/
def Plan.words (p : Plan) : List Nat :=
  let win (i : Nat) : List Nat := match p.windows[i]? with
    | some w => [w.opn + w.close * 2 ^ 32, w.guard + w.tail * 2 ^ 16 + w.k * 2 ^ 32 + 2 ^ 40 + w.smax * 2 ^ 41 + w.rsv * 2 ^ 48]
    | none => [0, 0]
  let gate (i : Nat) : List Nat := match p.gates[i]? with
    | some e => (List.range 4).map (entWord e)
    | none => [0, 0, 0, 0]
  let b (x : Bool) (k : Nat) : Nat := if x then 2 ^ k else 0
  let dsp (d : Disp) : List Nat :=
    [d.offset + d.budget * 2 ^ 24 + d.win * 2 ^ 48 + b d.bound 56 + b d.sc0 57 + b d.idem 58 + b d.fed 59 + b d.any 60 + b d.ceach 61,
     d.engine + d.prio * 2 ^ 8 + d.domain * 2 ^ 16 + d.prog * 2 ^ 32 + d.slot * 2 ^ 48, d.cring, 0]
  [1 + p.windows.length * 2 ^ 8 + p.disp.length * 2 ^ 16 + p.period * 2 ^ 32, p.spares + p.margin / 250 * 2 ^ 8 + p.tag * 2 ^ 32, 0, 0, 0, 0, 0, 0]
    ++ (List.range 32).flatMap win ++ (List.range 32).flatMap gate ++ p.disp.flatMap dsp

/-- Keys and values that a table lists. -/
def listed {α : Type} (t : Tab (Option α)) : List (Nat × α) := t.filterMap fun e => e.2.map fun x => (e.1, x)

/-- A CFG item (R564). -/
def cfgItem (table index : Nat) (w : List Nat) : RecItem := ⟨0x0A, table % 256, 0, 0, (table % 256 + index % 2 ^ 32 * 256) :: w, 48⟩

def cfgEntries {α : Type} (table : Nat) (t : Tab (Option α)) (f : Nat → α → Entry) : List RecItem :=
  (listed t).map fun e => cfgItem table e.1 (entWords (f e.1 e.2))

/-- The table items of a CONFIG section: one per valid entry (R577). -/
def State.tableItems (s : State) : List RecItem :=
  cfgEntries 1 s.tabs.wins (fun _ => winEntry)
    ++ (s.tabs.tlists.flatMap fun e => [cfgItem 2 (2 * e.1) (halfWords e.2 0), cfgItem 2 (2 * e.1 + 1) (halfWords e.2 1)])
    ++ (s.tabs.pbr.map fun e => cfgItem 3 e.1 [e.2])
    ++ ((s.dom.rids.filter fun e => e.2.valid).map fun e => cfgItem 6 e.1 (entWords (ridEntry e.2)))
    ++ cfgEntries 4 s.dom.rules (fun k => ruleEntry (k / 4096))
    ++ cfgEntries 5 s.tabs.buckets (fun k => bucketEntry (k / 1024))
    ++ (listed s.tabs.binds).map fun e => cfgItem 7 e.1 [e.2.up + e.2.domain * 2 ^ 16]

/-- Table code of setup items: the spec names none (R564, log 3). -/
def setupCode : Nat := (Config.sideCode 7).toNat

/-- The setup items: every field that is not read-only (R577). -/
def State.setupItems (s : State) : List RecItem :=
  regRows.flatMap fun r =>
    let f := r.fields.filter fun f => f.acc ≠ .ro
    if f.isEmpty then []
    else (List.range (if r.stride = 0 then 1 else r.count)).map fun i =>
      let off := r.base + r.stride * i
      cfgItem setupCode off [sumNat (f.map fun x => getBits (s.readReg off) x.lo x.width * 2 ^ x.lo)]

/-- The current and the pending plan as one object, and the coefficient table. -/
def State.planWords (s : State) : List Nat :=
  s.pit.current.words ++ ((s.pit.pendingPlan.map Plan.words).getD []) ++ pairWords (s.bel.coef.map (BitVec.ofNat 32))

/-- Body of the CONFIG section (R577). -/
def State.configBody (s : State) : List Nat :=
  s.tableItems.flatMap RecItem.bytes ++ s.planWords ++ s.setupItems.flatMap RecItem.bytes

/-! ### The STATE section -/

/-- Words of its fixed part: 256 KiB (R577). -/
def fixedWords : Nat := 32768

/-- What the fixed part holds. -/
def State.fixedValues (s : State) : List Int :=
  let nats (l : List Nat) : List Int := l.map Int.ofNat
  let tab (t : Tab Nat) : List Int := t.flatMap fun e => [(e.1 : Int), (e.2 : Int)]
  (s.fab.arbs.toList.flatMap fun a => nats a.rrs ++ nats a.deficit)
    ++ nats (s.fab.columns.toList.map Column.rr) ++ tab s.fab.flowSeq ++ tab s.fab.expect
    ++ ((listed s.tabs.buckets).flatMap fun e => [(e.1 : Int), e.2.tokens])
    ++ [(s.bel.g : Int), s.bel.u, (s.bel.kappa : Int), (s.bel.idx : Int), (s.fab.epoch : Int)]
    ++ ((List.range 64).flatMap fun n => [((s.portN n).gen.toNat : Int), ((s.portN n).state.code : Int)])
    ++ nats (s.eng.engs.toList.map fun e => e.st.code)

/-- The ways of a set that hold an entry: their mask and the entries' bytes, `n` each. -/
def maskedWays (n : Nat) (ways : List (Option Nat)) : List Nat :=
  lowBytes 2 (sumNat ((List.range ways.length).map fun i => if (ways.getD i none).isSome then 2 ^ i else 0))
    ++ ways.flatMap fun w => match w with
      | some v => lowBytes n v
      | none => []

/-- Eight bytes of ages of a set, four bits a way. -/
def ageBytes (l : List Nat) : List Nat := lowBytes 8 (sumNat ((List.range 16).map fun i => l.getD i 0 % 16 * 16 ^ i))

/-- Bytes of one set of the homes: directory, OLC, ages; check bits are written as 0 (R577, R578). -/
def State.setBytes (s : State) (n : Nat) : List Nat :=
  let ways := (List.range 16).map fun i => 16 * n + i
  maskedWays 16 (ways.map fun k => (s.dirAt k).map fun d => d.word.toNat)
    ++ maskedWays 8 (ways.map fun k => (s.olcAt k).map fun o => o.word.toNat)
    ++ ageBytes (Tab.get agesAt s.home.dirAge n) ++ ageBytes (Tab.get agesAt s.home.olcAge n)

/-- Sets of all home slices. -/
def homeSets : Nat := 32768

/-- Bytes of the pages of a domain reserved on an engine: its programs in order of handle, then its scratch pages (log 85). -/
def State.pageBytes (s : State) (e d : Nat) : List Nat :=
  ((listed s.eng.progs).filter fun p => p.1 / 4096 = d).flatMap (fun p => p.2.code.flatMap fun w => lowBytes 8 w.toNat)
    ++ (List.range (s.scratchSize d)).map fun a => Memory.read s.eng.scratch ((e * 4096 + d) * 2 ^ 18 + a) 1

/-- Body of the STATE section (R577). -/
def State.stateBody (s : State) (c : RecCfg) : List Nat :=
  let homes := if c.homes then (List.range homeSets).flatMap s.setBytes else []
  let pages := (bitsOf64 c.engs).flatMap fun e =>
    (s.dom.doms.filter fun d => d.2.mask.getLsbD e).flatMap fun d => s.pageBytes e d.1
  (List.range fixedWords).map (fun i => (Config.fixedWord s.fixedValues i).toNat) ++ packWords (homes ++ pages)
where
  bitsOf64 (x : BitVec 64) : List Nat := (List.range 64).filter fun i => x.getLsbD i

/-- Body of the RTDATA section: the data of the resident lines of the RT windows of WLIST, in order of FA (R577). -/
def State.rtBody (s : State) (lines : List Nat) : List Nat :=
  (lines.mergeSort (fun a b => Nat.ble a b)).flatMap fun la => match s.findOlc la with
    | some (_, o) => if o.rt then (List.range 8).map fun i => (o.data.extractLsb' (64 * i) 64).toNat else []
    | none => []

/-! ### The record header (R575) -/

/-- The 256 bytes of the record header; `q` is the CCLK of Q from B_s. -/
def State.recordHeader (s : State) (c : RecCfg) (id ftime q period : Nat) : List Nat :=
  let w : List Nat :=
    [1 + 0xB1 * 2 ^ 8 + 0x6480 * 2 ^ 16 + 0x544C4F44 * 2 ^ 32,
     (boolNat c.full + 2 * boolNat c.wrap + 4 * boolNat c.homes) * 2 ^ 16 + id % 2 ^ 32 * 2 ^ 32, c.ports.toNat, c.engs.toNat, c.tick,
     ftime, period % 2 ^ 22 + q % 2 ^ 32 * 2 ^ 32, ((s.img.running.map Image.svn).getD 0) % 2 ^ 8 + s.rd R.IMG_VERSION_RUN * 2 ^ 32, c.len / mib2] ++ List.replicate 23 0
  w.set 31 (crcBytes 0xFC (w.map (BitVec.ofNat 64)) * 2 ^ 32)

/-! ### Reading a record (R579, R586, R587) -/

/-- A section, or a chunk of one, as it is read. -/
structure RecSection where
  off   : Nat
  type  : Nat
  fmt   : Nat
  cont  : Bool
  tick  : Nat                   -- its low 32 bits
  crcOk : Bool
  body  : List Word
  deriving DecidableEq, Repr

/-- The sections of a record from byte `off` on, up to its END section or to the end of its bytes. -/
def recSections : Nat → Nat → List Word → List RecSection
  | 0, _, _ => []
  | n + 1, off, w =>
    let len := field w 4 32
    if w = [] || len < 32 then []
    else
      let body := (w.drop 4).take (len / 8 - 4)
      let x : RecSection :=
        { off := off, type := field w 0 8, fmt := field w 1 8, cont := flag (wordAt w 0) 16, tick := field w 8 32
          crcOk := 8 * w.length ≥ len && crcBytes (len - 32) body = field w 0x14 32, body := body }
      if x.type = 0x1F then [x] else x :: recSections n (off + (len + 63) / 64 * 64) (w.drop ((len + 63) / 64 * 8))

def sectionsOf (w : List Word) : List RecSection := recSections w.length 256 (w.drop 32)

/-- Words of all chunks of a type. -/
def bodyOfType (l : List RecSection) (type : Nat) : List Word := (l.filter fun x => x.type = type).flatMap RecSection.body

/-- Its CRCs hold. -/
def recordSound (w : List Word) : Bool :=
  32 ≤ w.length && crcBytes 0xFC w = field w 0xFC 32 && (sectionsOf w).all RecSection.crcOk

/-- One item at the front of words, and the bytes that it takes. -/
def itemAt (w : List Word) : RecItem :=
  let len := 16 * max 1 (field w 1 8)
  ⟨field w 0 8, field w 2 8, field w 3 8, field w 4 32, ((w.drop 1).take (len / 8 - 1)).map BitVec.toNat, len⟩

/-- The items of a section that begins at byte `off` of its record. -/
def feedOf : Nat → Nat → Nat → List Word → List Feed
  | 0, _, _, _ => []
  | n + 1, tick, off, w =>
    if w = [] then []
    else
      let i := itemAt w
      ⟨tick, off, some i⟩ :: feedOf n tick (off + i.len) (w.drop (i.len / 8))

/-- The CFG items at the front of a CONFIG section. -/
def leadItems : Nat → List Word → List RecItem × List Word
  | 0, w => ([], w)
  | n + 1, w =>
    if field w 0 16 = 0x0A + 3 * 2 ^ 8 then
      let x := leadItems n (w.drop 6)
      (itemAt w :: x.1, x.2)
    else ([], w)

/-- The setup items at the end of a CONFIG section, of whose registers every one has its item. -/
def setupCount : Nat :=
  sumNat (regRows.map fun r => if r.fields.all fun f => f.acc = .ro then 0 else if r.stride = 0 then 1 else r.count)

/-- A CONFIG section: its table items, its plans and coefficients, its setup items. -/
def configOf (w : List Word) : List RecItem × RecordPlans × List RecItem :=
  let x := leadItems w.length w
  let n := x.2.length - 6 * setupCount
  (x.1, Config.recordPlans (x.2.take n), (leadItems w.length (x.2.drop n)).1)

/-- Values of `n` bytes each at the front of bytes, one for each bit of a mask. -/
def readWays (n mask : Nat) (b : List Nat) : List (Nat × Nat) × List Nat :=
  ((List.range 16).filter fun i => flag mask i).foldl (fun a i => (a.1 ++ [(i, leadNat n a.2)], a.2.drop n)) ([], b)

/-- Ages of a set from their eight bytes. -/
def agesOf (b : List Nat) : List Nat := (List.range 16).map fun i => leadNat 8 b / 16 ^ i % 16

/-- Line address with a TAG in a set: the one that R289 places there. -/
def lineOf (tag n : Nat) : Nat := ((List.range 32768).find? fun x => setNo (tag * 32768 + x) = n).elim 0 fun x => tag * 32768 + x

/-- Stable state of a code (R254). -/
def stableOf (code : Nat) : LSt := ([LSt.s, .e, .m, .oOlc, .oq].find? fun x => x.code = code).getD .s

/-- Directory entry and OLC line from their bytes; the line's data is not part of a STATE section. -/
def dirOf (n v : Nat) : DirEnt :=
  DirEnt.coded
    { la := lineOf (bits v 64 31) n, st := stableOf (bits v 95 5), shr := BitVec.ofNat 63 v, owner := bits v 100 6, olcv := flag v 63
      watch := flag v 118, rt := flag v 119, trk := 0, ecc := 0 }

def olcOf (n v : Nat) (data : Line) : OlcEnt :=
  OlcEnt.coded
    { la := lineOf (bits v 0 31) n, dirty := flag v 32, poison := flag v 33, rt := flag v 34, wb := false, ev := false, data := data, ecc := 0 }

/-- The homes of a STATE section from its bytes: `n` sets from set `k` on, each with its keys and values, and the bytes that follow. -/
def readSets : Nat → Nat → List Nat → List (Nat × List (Nat × Nat) × List (Nat × Nat) × List Nat × List Nat) × List Nat
  | 0, _, b => ([], b)
  | n + 1, k, b =>
    let d := readWays 16 (leadNat 2 b) (b.drop 2)
    let o := readWays 8 (leadNat 2 d.2) (d.2.drop 2)
    let x := readSets n (k + 1) (o.2.drop 16)
    ((k, d.1, o.1, agesOf o.2, agesOf (o.2.drop 8)) :: x.1, x.2)

end Sys2Proof.Machine
end

