-- ==== Sys2Proof/Machine/Recorder.lean ====
section
/-! DEFINITION. The recorder: starting a record, the quiesce, digests, spills, marks and the end of a record (R563 to R585). -/

namespace Sys2Proof.Machine

/-! ### REC_START (R570, R571) -/

/-- The recording that a body names. -/
def recCfgOf (h : Hdr) (w10 w18 w20 w28 tick : Nat) (wins : List Nat) : RecCfg :=
  { hdr := h, ports := BitVec.ofNat 64 w10, engs := BitVec.ofNat 64 w18, base := bits w20 0 31 * mib2, len := bits w20 32 24 * mib2
    full := flag w28 0, wrap := flag w28 1, homes := flag w28 2, domain := bits w28 16 12, offset := bits w28 32 22
    wins := wins, tick := tick }

/-- The entries of WLIST before its end mark. -/
def wlistOf (l : List Word32) : List Nat := ((l.take 65).map BitVec.toNat).takeWhile fun x => x ≠ 2 ^ 32 - 1

/-- The PT window of fabric scope that holds the whole sink. -/
def State.sinkWin (s : State) (c : RecCfg) : Option DWin :=
  if c.len = 0 then none
  else match s.window 64 c.base, s.window 64 (c.base + c.len - 1) with
    | some (i, w), some (j, _) => if i = j && !w.kind then some w else none
    | _, _ => none

/-- Addresses of a range at which the decision of a check unit may change: its start, and every bound of a rule in it. -/
def State.ruleEdges (s : State) (base len : Nat) : List Nat :=
  base :: ((s.dom.rules.flatMap fun e => match e.2 with
    | some r => [r.base * 4096, r.limit * 4096]
    | none => []).filter fun a => base < a && a < base + len)

/-- DOMAIN may write the whole sink. -/
def State.sinkAllowed (s : State) (c : RecCfg) : Bool :=
  (s.ruleEdges c.base c.len).all fun a => decidePart s c.domain 0 0 a needW = .allowed

/-- Period of tick `k` as far as it is fixed, and of the plan in force beyond (R571). -/
def State.periodOf (s : State) (k : Nat) : Nat :=
  match s.pit.fixed.find? fun f => f.k = k with
  | some f => f.period
  | none => if k = s.pit.tick then s.pit.period else s.lastPeriod

/-- R571 refuses a recording. -/
def State.recRefused (s : State) (c : RecCfg) : Bool :=
  let inScope (n : Nat) : Bool := (s.portEndpoints (s.lowest n)).any fun e => c.ports.getLsbD e
  let sinkBad := match s.sinkWin c with
    | some w => (s.targetPorts w).any fun p => match p with
        | some n => inScope n
        | none => false
    | none => true
  s.rec_.st ≠ .idle || s.rec_.cfg.isSome || sinkBad || !s.sinkAllowed c
    || c.wins.any (fun i => match s.winAt i with
      | some w => !w.kind
      | none => true)
    || (!c.homes && c.wins ≠ []) || s.periodOf c.tick ≤ c.offset

/-- REC_START: the recording waits for B_s + OFFSET. A list is read from the I/O space of the manager port. -/
def execRecStart (h : Hdr) (w10 w18 w20 w28 w30 w38 : Word) (wlist : List Word32) (s : State) : Host.Outcome State Fault Refusal :=
  .next (s.manager h [bits w28.toNat 16 12] none fun s =>
    let tick := if flag w38.toNat 63 then s.pit.tick + 1 else bits w38.toNat 0 48
    let wins := if w30 = 0 then [] else wlistOf wlist
    let run (s : State) : State :=
      let c := recCfgOf h w10.toNat w18.toNat w20.toNat w28.toNat tick wins
      if w30 ≠ 0 && (wins = [] || 64 < wins.length) then s.bad h 0x30
      else if s.recRefused c then s.denied h 0
      else s.onRec fun r => { r with cfg := some c }
    if w30 = 0 then run s
    else s.withObject h ⟨1, Fin.ofNat 64 s.mgrPort, w30⟩ (4 * (wins.length + 1)) needR run)

/-! ### The quiesce (R572, R573) -/

/-- Lines of a window. -/
def State.winLines (s : State) (i : Nat) : List Nat :=
  match s.winAt i with
  | some w => s.linesIn (w.faRange.1 * mib2) (w.faRange.2 * mib2)
  | none => []

/-- REC_QUIESCE_START: steps 1 and 2. -/
def execRecQuiesceStart (s : State) : Host.Outcome State Fault Refusal :=
  .next (s.whenServing fun s =>
    match s.rec_.cfg with
    | none => s
    | some c =>
      if s.rec_.st ≠ .idle || s.pit.tick < c.tick || s.slotBusy then s
      else
        let s := (if s.pit.tick = c.tick then s.reach (s.pit.bk + c.offset) else s).openEpoch
        let s := s.onRec fun r =>
          { r with st := .quiesce, hold := true, walked := true, qStart := s.now, epochQ := s.fab.epoch }
        (s.forAll (c.wins.flatMap s.winLines).eraseDups fun la t => t.evictLine la .victim).settle)

/-- No home slice holds an open tracker, a retry or a write-back in flight. -/
def State.homesQuiet (s : State) : Bool :=
  s.home.trk.isEmpty && s.home.slices.toList.all fun x => x.failed || (x.retry.isEmpty && x.wbFlight = 0)

/-- Every column is empty. -/
def State.columnsEmpty (s : State) : Bool := s.fab.msgs.all fun m => !m.queued

/-- A dirty line of a window that the walk of step 2 has still to write back. -/
def State.walkOwes (s : State) (c : RecCfg) : Bool :=
  (c.wins.flatMap s.winLines).any fun la => match s.findOlc la with
    | some (_, o) => o.dirty || o.wb
    | none => false

/-- Everything that waited for the pause goes on: due dispatches in plan order, engine requests; messages at L5 by
INGRESS_HOLD_RELEASE. -/
def State.endHold (s : State) : State :=
  let s := s.onRec fun r => { r with hold := false }
  s.dispatchAllDue.forAll allEngines fun e t => t.settleEngine e

/-- Header and sections of the record whose quiesce point is now go straight to the sink (R572 step 4, R575 to R578). -/
def State.writeSections (c : RecCfg) (id : Nat) (s : State) : State :=
  let k := s.pit.tick
  let b0 := s.pit.bk - (k - c.tick) * s.pit.period
  let rt := (c.wins.filter fun i => (s.winAt i).any DWin.rt).flatMap s.winLines
  let rtBody := if c.full then s.rtBody rt.eraseDups else []
  let w := s.recordHeader c id b0 ((s.now - b0) * 8 / 5) (s.periodOf c.tick)
    ++ sectionOf 0x01 k (fun _ => 0) s.configBody ++ sectionOf 0x02 k (fun _ => 0) (s.stateBody c)
    ++ (if c.full then sectionOf 0x03 k (fun _ => 0) rtBody else [])
  let s := s.toSink w
  s.onRec fun r => { r with first := r.written }

/-- REC_QUIESCE_POINT: step 3 has ended. Header and sections go to the sink, capture begins, and scoped version-3 partners are
sent a REC_MARK with the record ID and the tick. -/
def execRecQuiescePoint (s : State) : Host.Outcome State Fault Refusal :=
  .next (s.whenServing fun s =>
    match s.rec_.cfg with
    | none => s
    | some c =>
      if s.rec_.st ≠ .quiesce || !s.drainedTo s.rec_.epochQ || !s.homesQuiet || !s.columnsEmpty || s.walkOwes c then s
      else
        let s := s.reach (s.rec_.qStart + walkNs)
        let id := (s.rec_.id + 1) % 2 ^ 32
        let s := s.onRec fun r =>
          { r with
              st := .sections, walked := false, id := id, written := 0, chunk := [], cont := false, buf := [], used := 0, high := 0
              gap := false, gaps := 0, gapLost := 0, begun := [], span := s.cclkInTick / 4096, digests := [] }
        let s := s.writeSections c id
        let s := if !c.wrap && c.room ≤ s.rec_.written then s.recClose 1 else s
        s.forAll (List.range 64) fun n t =>
          if t.isLowest n && t.recPort n && (t.portN n).negVer = 3 && (t.portN n).state.linked then
            t.emit (.port n (.vdm 0x1F6B 1 0x30 (lowBytes 4 id ++ lowBytes 2 t.pit.tick) false))
          else t)

/-- REC_SECTIONS_DONE: step 6. -/
def execRecSectionsDone (s : State) : Host.Outcome State Fault Refusal :=
  .next (s.whenServing fun s =>
    match s.rec_.cfg with
    | none => s
    | some c =>
      if !s.rec_.hold || !s.rec_.st.captures then s
      else
        let pause := (s.now - s.rec_.qStart) / 1000
        let s := (s.onRec fun r => { r with st := if r.st = .sections then .recording else r.st }).endHold
        s.complete c.hdr { status := .ok, result := s.rec_.id + pause % 2 ^ 32 * 2 ^ 32 })

/-- The quiesce ends without a record: every held message goes on, and REC_START completes BUSY (R573). -/
def State.quiesceFails (s : State) : State :=
  let h := s.rec_.cfg.map RecCfg.hdr
  (s.onRec fun r => { r with st := .idle, walked := false, cfg := none }).endHold.tell h { status := .busy }

/-- REC_QLIMIT_EXPIRE (R573). An activation whose drain begins in the quiesce ends it in the same way (R584). -/
def execRecQlimitExpire (s : State) : Host.Outcome State Fault Refusal :=
  .next (s.whenServing fun s =>
    if s.rec_.st ≠ .quiesce then s else (s.reach (s.rec_.qStart + 1000 * s.rd R.REC_CTRL_QLIMIT_US)).quiesceFails)

/-! ### Capture in progress (R564, R568, R569, R580 to R585) -/

/-- DIGEST_SPAN_END (R569): 4,096 CCLK after the span's start; the last span of a tick ends at the boundary (R694). -/
def execDigestSpanEnd (s : State) : Host.Outcome State Fault Refusal :=
  .next (s.whenServing fun s =>
    if !s.rec_.st.takes || s.pit.period ≤ (s.rec_.span + 1) * 2560 then s
    else (s.reach (s.pit.bk + (s.rec_.span + 1) * 2560)).endSpan)

/-- SPILL_WRITE_COMPLETE: one spill write of 64 bytes has been checked by check unit 129 for the record's domain and has ended. The
items of a chunk wait until it is closed, since its header stands before them (log 86). -/
def execSpillWriteComplete (status : RspStatus) (s : State) : Host.Outcome State Fault Refusal :=
  .next (match s.rec_.cfg with
  | none => s
  | some c =>
    if !s.rec_.st.captures || s.rec_.buf.length < 8 || s.rec_.frozen || !s.serving then s
    else
      let a := c.base + s.sinkPlace c s.rec_.written
      let w := s.rec_.buf.take 8
      let ds := s.decide c.domain 0 0 needW [a]
      let s := (s.countParts 129 c.domain none (72 + homeOf a + 7 * 2 ^ 14 + c.domain * 2 ^ 20) ds).onRec fun r =>
        { r with buf := r.buf.drop 8, used := r.used - 64 }
      if refusedParts ds ≠ [] then (s.reportAcc 129 c.domain (RefAcc.join none 0 2 ds)).beginGap 64
      else if status ≠ .ok then s.beginGap 64
      else
        let s := s.sinkLine w
        if !c.wrap && c.room ≤ s.rec_.written then s.recClose 1 else s)

/-- The recorder at a boundary (R568, R569, R582), before the new boundary is latched: the last span ends short, the EPOCH section closes, and a gap
ends with its GAP section when less than 8 MiB is buffered. -/
def State.recBoundary (s : State) : State :=
  let s := (if s.rec_.st.takes then s.endSpan else s).closeEpoch
  let s := s.onRec fun r => { r with span := 0, scan := 0 }
  if s.rec_.st = .gap && s.rec_.used < 8388608 && !s.rec_.frozen then
    s.pushGap.onRec fun r => { r with st := if r.hold then .sections else .recording }
  else s

/-- REC_MARK_RX (R585). -/
def execRecMarkRx (p : PortId) (value : Word32) (tag : BitVec 16) (s : State) : Host.Outcome State Fault Refusal :=
  let n := s.lowest p.val
  .next (if s.started && (s.portN n).negVer = 3 && (s.portN n).state.linked && s.recPort n then
    s.capture 0x0B n 0 16 [value.toNat + tag.toNat * 2 ^ 32]
  else s)

/-- REC_STOP (R584). With no recording it is DENIED; during the quiesce and the sections it is BUSY. -/
def execRecStop (h : Hdr) (s : State) : Host.Outcome State Fault Refusal :=
  .next (s.manager h [] none fun s =>
    if s.rec_.st = .quiesce || s.rec_.hold then s.done h .busy
    else if s.rec_.st.captures then
      let s := s.recClose 0
      s.complete h { status := if s.rec_.gap then .gap else .ok, result := s.rec_.written }
    else s.denied h 0)

/-- REC_BUF_READ: the next 8 bytes of the frozen buffer (R583); 0 past its end and while it is not frozen. -/
def execRecBufRead (s : State) : Host.Outcome State Fault Refusal :=
  .next (match s.rec_.buf with
  | w :: l => if s.rec_.frozen then (s.emit (.readData w)).onRec fun r => { r with buf := l } else s.emit (.readData 0)
  | [] => s.emit (.readData 0))

end Sys2Proof.Machine
end

