-- ==== Sys2Proof/Machine/Life.lean ====
section
/-! DEFINITION. Ageing and margin monitors and the hourly health record (R688 to R691). -/

namespace Sys2Proof.Machine

/-! ### The acceleration factor (R688) -/

/-- One: fractions here are in 2^-64. -/
def afOne : Nat := 2 ^ 64

/-- Product of two fractions. -/
def afMul (a b : Int) : Int := a * b / (afOne : Nat)

/-- The first twelve terms of the exponential series of a fraction of at most 1 in size: `t` is the term before term `k`. -/
def afSeries : Nat → Nat → Int → Int
  | 0, _, _ => 0
  | n + 1, k, y => (afOne : Nat) + afMul y (afSeries n (k + 1) y) / (k : Nat)

/-- Square `n` times. -/
def afSquare : Nat → Int → Int
  | 0, x => x
  | n + 1, x => afSquare n (afMul x x)

/-- AF at `q` quarter degrees: with T = q / 4 the exponent is 8,123 × 20 × (5 q − 1,800) / (7,263 × (5 q + 5,463)). -/
def accelFactor (q : Int) : Int :=
  let y : Int := 8123 * 20 * (5 * q - 1800) * (afOne : Nat) / (7263 * (5 * q + 5463) * 64)
  afSquare 6 (afSeries 12 1 y)

/-- Mean AF of the samples of an hour. -/
def Life.meanAf (x : Life) : Int :=
  let n := (x.temps.map Prod.snd).foldl (· + ·) 0
  if n = 0 then 0 else ((x.temps.map fun e => (e.2 : Int) * accelFactor ((e.1 : Int) - 1000)).foldl (· + ·) 0) / (n : Nat)

/-- Life consumed in an hour, 0.01 ppm: 10^8 / 219,150 at AF 1 (R688), rounded down (log 42). -/
def lifeUsed (af : Int) : Nat := (af * 100000000 / (219150 * (afOne : Nat))).toNat

/-- The highest temperature in quarter degrees from −50 °C to 150 °C whose AF is at most `af` (log 42). -/
def weightedTemp (af : Int) : Int :=
  match ((List.range 801).filter fun (i : Nat) => decide (accelFactor ((i : Int) - 200) ≤ af)).getLast? with
  | some i => (i : Int) - 200
  | none => -200

/-! ### The record (R690) -/

/-- The words of the record of an hour. What the hour gave no reading for is a free value: `f` stands for it (log 3). -/
def Life.words (x : Life) (hour temp : Nat) (f : Nat) : List Nat :=
  let used := x.temps.map fun e => (e.1 : Int) - 1000
  let free (i : Nat) : Nat := Config.freeNat (f + i)
  let tmax := match used with
    | [] => temp
    | q :: t => intBits 16 (t.foldl (fun a b => if a < b then b else a) q)
  let hot := (((x.temps.filter fun e => 1400 < e.1).map Prod.snd).foldl (· + ·) 0) / 100000
  let mean := if x.temps = [] then temp else intBits 16 (weightedTemp x.meanAf)
  let age := x.age.getD (free 0, free 1)
  let slack := x.slack.getD (free 2, free 3)
  let low : Bool := match x.slack with
    | some s => s.1 < 20
    | none => false
  let volts := x.volts.getD (free 4, free 5)
  [1 + 0x0060 * 2 ^ 16 + hour % 2 ^ 32 * 2 ^ 32,
   mean % 2 ^ 16 + tmax % 2 ^ 16 * 2 ^ 16 + min 65535 hot * 2 ^ 32 + min 65535 (lifeUsed x.meanAf) * 2 ^ 48,
   min 65535 age.1 + age.2 % 256 * 2 ^ 16 + min 255 slack.1 * 2 ^ 24 + slack.2 % 256 * 2 ^ 32 + (if low then 2 ^ 40 else 0),
   volts.1 % 2 ^ 16 + volts.2 % 2 ^ 16 * 2 ^ 16]

/-- The record of the last whole hour is queued when a boundary has fallen since it ended. -/
def State.healthDue (s : State) : State :=
  let h := s.pit.bk / hourNs
  if h = s.sys.life.hour || !s.serving then s
  else
    let w := s.sys.life.words h (intBits 16 s.bel.temp) s.free
    let s := s.onLife fun _ => { Life.init with hour := h }
    (match s.statRing 0 with
      | some _ => s.stat 0 w
      | none => s.bump R.PMC_NOSTAT_COUNT 0 1).takeFree 6

/-- HEALTH_RECORD. -/
def execHealthRecord (s : State) : Host.Outcome State Fault Refusal := .next s.healthDue

/-! ### Monitors (R689) -/

/-- Number of the monitors, 16 beside the quads and 8 in the core. -/
def monitors : Nat := 24

/-- The first extreme of a list by an order, with its place. -/
def extreme (before : Nat → Nat → Bool) (l : List Nat) : Option (Nat × Nat) :=
  (List.zip l (List.range monitors)).foldl (fun b x => match b with
    | some y => if before x.1 y.1 then some x else some y
    | none => some x) none

/-- The more extreme of what the hour has shown and a new sample. -/
def keepMore (before : Nat → Nat → Bool) (old new : Option (Nat × Nat)) : Option (Nat × Nat) :=
  match old, new with
  | some o, some n => if before n.1 o.1 then some n else some o
  | none, n => n
  | o, none => o

/-- The monitors are sampled at `at_`. -/
def State.ageSample (age margin : List Nat) (at_ : Nat) (s : State) : State :=
  ((s.reach at_).onSys fun y => { y with ageAt := at_ }).onLife fun x =>
    { x with
        age := keepMore (fun a b => b < a) x.age (extreme (fun a b => b < a) age)
        slack := keepMore (fun a b => a < b) x.slack (extreme (fun a b => a < b) margin) }

/-- AGEING_SAMPLE: each second of FTIME every monitor is sampled; the operands are what the monitors give, in order of number. -/
def execAgeingSample (age margin : List Nat) (s : State) : Host.Outcome State Fault Refusal :=
  .next (if !s.started then s else s.ageSample age margin (s.multipleDue s.sys.ageAt secondNs))

end Sys2Proof.Machine
end

