-- ==== Sys2Proof/Machine/Tick.lean ====
section
/-! DEFINITION. The Pitch pipe: sources of time, boundaries, the boundary sequence, windows, and the records of a boundary
(R37 to R62, R694, R534 to R537). -/

namespace Sys2Proof.Machine

/-! ### Time sources (R41 to R51, R91) -/

/-- Boundaries are generated: the Pitch pipe runs, and ENABLE is set or a boundary fixed before its clear is still to come (R694). -/
def State.ticksRun (s : State) : Bool := s.pit.running && (!s.pit.stopAfter || !s.pit.fixed.isEmpty)

/-- Nominal rate word: 0.625 ns per CCLK. -/
def nominalRate : Nat := 2684354560

/-- A rate word that the servo may choose: within 50 ppm of the nominal one (R45). The spec states no servo law: a free value. -/
def servoRate (f : Nat) : Nat := nominalRate - 134217 + f % 268435

/-- The Pitch pipe takes a rate word; a change is a TIME item (R564). -/
def State.setRate (r : Nat) (s : State) : State :=
  if r = s.pit.rate then s else (s.onPit fun p => { p with rate := r }).capture 0x09 0 0 16 [r]

/-- The servo takes a new rate word. -/
def State.slew (s : State) : State := s.nextFree.setRate (servoRate (Config.freeNat s.free))

/-- A source takes effect (R43, R91). -/
def State.selectSource (src : BitVec 2) (s : State) : State :=
  let s := s.onPit fun p =>
    { p with
        source := src, srcWait := none, srcAt := s.now, ptmAt := none, good := 0, ptmFails := 0
        tstate := if src = 0 then .free else .acquire }
  if src = 0 then s.setRate nominalRate else s.slew

/-- SRC has been written: it takes effect at the next boundary while ticks run, and at once otherwise. -/
def State.writeSource (src : BitVec 2) (s : State) : State :=
  if s.ticksRun then s.onPit fun p => { p with srcWait := if src = p.source then none else some src }
  else if src = s.pit.source then s else s.selectSource src

/-- The source in force shows what it should: no part of it is declared lost (R44, R51). -/
def Pitch.sourceBack (p : Pitch) : Bool := p.source ≠ 1 || !p.clkLost && !p.ppsLost

/-- The source is back: HOLDOVER and LOST lead to ACQUIRE (R43, R51). -/
def Pitch.regain (p : Pitch) : Pitch :=
  if p.sourceBack && (p.tstate = .holdover || p.tstate = .lost) then { p with tstate := .acquire, good := 0 } else p

/-- A sample of the phase error: 16 consecutive ones below 4 ns lock a source that is whole (R43, R51). -/
def State.phaseSample (err : Int) (s : State) : State :=
  let s := s.onPit fun p =>
    let p := p.regain
    let n := if err.natAbs < 4 && p.sourceBack then p.good + 1 else 0
    { p with phaseErr := err, good := n, tstate := if p.tstate = .acquire && 16 ≤ n then .locked else p.tstate }
  s.slew

/-- The source is lost (R43, R44, R48): LOCKED becomes HOLDOVER, which runs on at an averaged rate word. -/
def State.loseSource (s : State) : State :=
  if s.pit.source = 0 then s
  else if s.pit.tstate = .locked then
    let s := (s.onPit fun p => { p with tstate := .holdover, holdAt := s.now, good := 0 }).slew
    s.fc0 0x14 0x0140 TState.holdover.code (intBits 64 s.pit.phaseErr) 0
  else s.onPit fun p => { p with good := 0 }

/-- The first FTIME after the last PTM dialogue that is a whole number of intervals from the selection of the source (R24, R42). -/
def State.ptmDue (s : State) : Nat :=
  let iv := 1000 * s.rd R.TIK_PTM_INTERVAL
  match s.pit.ptmAt with
  | some t => s.pit.srcAt + nextMultiple iv (max (s.now - s.pit.srcAt) (t - s.pit.srcAt + 1))
  | none => s.pit.srcAt + nextMultiple iv (s.now - s.pit.srcAt)

/-- PTM_DIALOGUE (R42, R24): one request dialogue at each whole interval since the source was selected. -/
def execPtmDialogue (s : State) : Host.Outcome State Fault Refusal :=
  .next (if !s.started || s.pit.source ≠ 2 then s
  else
    let at_ := s.ptmDue
    let s := (s.reach at_).onPit fun p => { p with ptmAt := some at_ }
    let n := s.lowest (s.rd R.TIK_PTM_PORT)
    if (s.portN n).state.linked then s.emit (.port n .ptmRequest) else s)

/-- PTM_RESPONSE_RX: three dialogues failed in a row lose the source (R44). -/
def execPtmResponseRx (failed : Bool) (err : Int) (s : State) : Host.Outcome State Fault Refusal :=
  .next (if !s.started || s.pit.source ≠ 2 then s
  else if failed then
    let n := s.pit.ptmFails + 1
    let s := s.onPit fun p => { p with ptmFails := n }
    if n = 3 then s.loseSource else s
  else (s.onPit fun p => { p with ptmFails := 0 }).phaseSample err)

/-- Phase error at a PPS_IN edge: FTIME against the value in TIK_PPS_FTIME and the whole seconds from it, the nearest one counting (R41;
log 61). -/
def State.ppsError (s : State) : Int :=
  let d : Int := ((s.now : Int) - (s.rd R.TIK_PPS_FTIME_PPS_FTIME : Nat)) % 1000000000
  if d < 500000000 then d else d - 1000000000

/-- PPS_IN_EDGE: in ACQUIRE, while no ticks are generated, FTIME takes TIK_PPS_FTIME (R41, R45). -/
def execPpsInEdge (s : State) : Host.Outcome State Fault Refusal :=
  .next (if !s.started then s
  else if s.pit.source ≠ 1 then s.onPit fun p => { p with ppsAt := some s.now, ppsLost := false }
  else
    let s := s.onPit fun p => { p with ppsLost := false }
    let s := s.onPit fun p => p.regain
    let s := if s.pit.tstate = .acquire && !s.ticksRun then
        s.onPit fun p => { p with ftime := s.rd R.TIK_PPS_FTIME_PPS_FTIME, frac := 0 }
      else s
    (s.onPit fun p => { p with ppsAt := some s.now }).phaseSample s.ppsError)

/-- Nominal period of TIME_CLK in ns (TIK_CTRL.TCLK_FREQ). -/
def State.timeClkNs (s : State) : Nat := [100, 40, 10].getD (s.rd R.TIK_CTRL_TCLK_FREQ) 100

/-- TIME_SOURCE_LOSS (R44): TIME_CLK shows no edge for four of its nominal periods, PPS_IN none for 1.5 s after the previous one, or
three PTM dialogues in a row have failed. -/
def execTimeSourceLoss (why : SourceLoss) (s : State) : Host.Outcome State Fault Refusal :=
  .next (if !s.started then s
  else match why with
    | .clk last =>
      if s.pit.source ≠ 1 || s.pit.clkLost then s
      else ((s.reach (last + 4 * s.timeClkNs)).onPit fun p => { p with clkLost := true }).loseSource
    | .pps =>
      match s.pit.ppsAt with
      | some t =>
        if s.pit.source ≠ 1 || s.pit.ppsLost then s
        else ((s.reach (t + 1500000000)).onPit fun p => { p with ppsLost := true }).loseSource
      | none => s
    | .ptm => if s.pit.source = 2 && 3 ≤ s.pit.ptmFails then s.loseSource else s)

/-- HOLDOVER_LIMIT_EXPIRE: LOST, with the tick fault; TICK_OUT stops after the next boundary (R49, R50). -/
def execHoldoverLimitExpire (s : State) : Host.Outcome State Fault Refusal :=
  .next (if !s.started || s.pit.tstate ≠ .holdover then s
  else
    let s := s.reach (s.pit.holdAt + 1000000 * s.rd R.TIK_HOLD_LIMIT_MS)
    let s := s.onPit fun p => { p with tstate := .lost, outStop := true, outLast := true, faultSeen := true }
    s.condition 0x30E 0)

/-- TIME_CLK_RETURN: with PPS_IN present too, the source is back (R51). -/
def execTimeClkReturn (s : State) : Host.Outcome State Fault Refusal :=
  .next (if s.started && s.pit.source = 1 && s.pit.clkLost then
    let back : Bool := !s.pit.ppsLost && (s.pit.tstate = .holdover || s.pit.tstate = .lost)
    let s := s.onPit fun p => ({ p with clkLost := false } : Pitch).regain
    if back then s.slew else s
  else s)

/-! ### Fixing a boundary (R54, R56, R86, R87) -/

/-- δ of the TIME_STEP that acts at a fixed boundary. -/
def FixedB.delta (f : FixedB) : Int := match f.step with
  | some w => w.delta
  | none => 0

/-- B_k of a fixed boundary, with its step (R46). -/
def FixedB.at (f : FixedB) : Nat := ((f.due : Int) + f.delta).toNat

/-- B of the last boundary latched or fixed. -/
def State.lastB (s : State) : Nat := match s.pit.fixed.getLast? with
  | some f => f.at
  | none => s.pit.bk

/-- FTIME at which the first boundary not fixed falls, reckoned with the steps of the boundaries before it (R39, R694). -/
def State.fixDue (s : State) : Nat := s.pit.resumeAt.getD (s.lastB + s.lastPeriod)

/-- The steps of the fixed boundaries that FTIME has still to take. -/
def State.stepsAhead (s : State) : Int := (s.pit.fixed.map FixedB.delta).foldl (· + ·) 0

/-- What the plan switches that wait for boundary `k` come to: in the order of the commands, the first finds the pending plan and commits it
with the placement that check 5 finds; one that finds none is BAD_DESC, one whose plan no longer fits is DENIED (R87, R88). -/
def State.commitSwitch (w : Wait) (done : Option (Plan × Option Hdr)) (s : State) : Option (Plan × Option Hdr) × State :=
  match s.pit.pendingPlan with
  | none => (done, s.tell w.hdr { status := .badDesc, code := 0x10 })
  | some p =>
    if done.isSome then (done, s.tell w.hdr { status := .badDesc, code := 0x10 })
    else match s.placePlan p with
      | some pl => (some ({ p with place := pl }, w.hdr), s.onPit fun x => { x with pendingPlan := none })
      | none => (none, s.tell w.hdr { status := .denied, code := 5 })

/-- The switches that wait for boundary `k`. -/
def State.commitSwitches (k : Nat) (s : State) : Option (Plan × Option Hdr) × State :=
  let mine := s.pit.switches.filter fun w => w.tick = k
  let s := s.onPit fun p => { p with switches := p.switches.filter fun w => w.tick ≠ k }
  mine.foldl (fun a w => State.commitSwitch w a.1 a.2) (none, s)

/-- The step that waits for boundary `k`: BAD_DESC when it is not below the period of tick k − 1 (R47). -/
def State.commitStep (k : Nat) (s : State) : Option Wait × State :=
  match s.pit.steps.find? fun w => w.tick = k with
  | none => (none, s)
  | some w =>
    let short : Bool := s.lastPeriod ≤ w.delta.natAbs
    let s := s.onPit fun p => { p with steps := p.steps.filter fun w => w.tick ≠ k }
    if short then (none, s.tell w.hdr { status := .badDesc, code := 0x10 }) else (some w, s)

/-- The tick-edge messages of a boundary (R54, R150). -/
def State.tickEdges (f : FixedB) (s : State) : State :=
  let sync : Bool := s.pit.tstate = .locked || s.pit.tstate = .free
  s.forAll ((List.range 64).filter fun n => (s.portN n).state.linked && 1 ≤ (s.portN n).negVer && !(s.portN n).partnerSwitch)
    fun n t => t.emit (.port n (.tickEdge f.k f.at f.period sync))

/-- BOUNDARY_FIX: FTIME reaches LEAD_NS before the next boundary not fixed. -/
def execBoundaryFix (s : State) : Host.Outcome State Fault Refusal :=
  .next (if !s.started || !s.pit.running || s.pit.stopAfter then s
  else
    let k := s.firstUnfixed
    let due := s.fixDue
    let s := s.reach (((due : Int) - s.stepsAhead - s.rd R.TIK_LEAD_LEAD_NS).toNat)
    let step := s.commitStep k
    let sw := step.2.commitSwitches k
    let s := sw.2
    let period := match sw.1 with
      | some x => x.1.period
      | none => s.lastPeriod
    let f : FixedB := ⟨k, due, period, sw.1.map Prod.fst, sw.1.bind Prod.snd, step.1⟩
    let s := s.onPit fun p => { p with fixed := p.fixed ++ [f], resumeAt := none }
    if s.flt.safe then s else s.tickEdges f)

/-! ### Gate states and reserves (R66 to R70, R222) -/

/-- The column of endpoint `m` is an SC0 sink of window `w`: its port has SNK, or its cluster runs an SC0 entry bound to `w`. -/
def State.sinks (s : State) (w m : Nat) : Bool :=
  if m < 64 then flag (gateBits (s.pit.current.gates.getD w 0) (s.lowest m)) 1
  else m < 72 && (List.zip s.pit.current.disp s.eng.place).any fun x => x.1.sc0 && x.1.win = w && (match x.2 with
    | some e => e / 8 = m - 64
    | none => false)

/-- Cells held for SC0 in the column of endpoint `m` by the windows open now. -/
def State.reserveOf (s : State) (m : Nat) : Nat :=
  ((bitsOf s.pit.openWin).map fun w => match s.pit.current.windows[w]? with
    | some x => if s.sinks w m then 16 * x.rsv else 0
    | none => 0).foldl (· + ·) 0

/-- Give every column the reserve of the windows open now. -/
def State.applyReserves (s : State) : State :=
  s.forAll (List.range 72) fun m t =>
    let want := t.reserveOf m
    if (t.columnN m).rsvWant = want then t else (t.onColumnN m fun c => { c with rsvWant := want }).settleRsv m

/-- TICK_OUT pins in a mode (R52). -/
def State.outPins (s : State) (mode : Nat) : List Nat := (List.range 4).filter fun n => s.rd R.TIK_OUT_MODE n = mode

/-- An edge of TICK_OUTn due at `at_`, which DLY_ADJ moves (R53); an edge to the level that the pin has is none. -/
def State.drivePin (n at_ : Nat) (b : Bool) (s : State) : State :=
  if s.sys.tickOut.getLsbD n = b then s
  else
    (s.onSys fun y => { y with tickOut := if b then y.tickOut ||| (1#4 <<< n) else y.tickOut &&& ~~~ (1#4 <<< n) }).emit
      (.tickOut n b ((at_ : Int) + signedBits (s.rd R.TIK_OUT_DLY_ADJ n) 8))

/-- Pins that follow window `w`, in mode 3. -/
def State.windowPins (s : State) (w : Nat) : List Nat := (s.outPins 3).filter fun n => s.rd R.TIK_OUT_DIV n % 32 = w

/-- TICK_OUT pulses may start (R50). -/
def Pitch.mayPulse (p : Pitch) : Bool := !p.outStop || p.outLast

/-- Window `w` of the current plan opens. -/
def State.openWindow (w : WinId) (s : State) : State :=
  let s := (s.onPit fun p => { p with openWin := p.openWin ||| (1#32 <<< w.val) }).applyReserves
  if s.pit.mayPulse && !s.flt.safe then s.forAll (s.windowPins w.val) fun n t => t.drivePin n t.now true else s

/-- Window `w` closes: its gate states and reserves end, deferred releases begin (R70, R134), RT_OVER is reported (R458). -/
def State.closeWindow (w : WinId) (s : State) : State :=
  let s := (s.onPit fun p =>
    { p with openWin := p.openWin &&& ~~~ (1#32 <<< w.val), admitWin := p.admitWin &&& ~~~ (1#32 <<< w.val) }).applyReserves
  let s := s.forAll (s.windowPins w.val) fun n t => t.drivePin n t.now false
  if s.flt.safe then s else (s.rtOver w.val).beginDeferred

/-- WINDOW_OPEN at B_k + OPEN; no window opens after the instant at which a boundary not generated would have fallen (R694). -/
def execWindowOpen (w : WinId) (s : State) : Host.Outcome State Fault Refusal :=
  .next (if !s.serving || !s.pit.running then s
  else match s.pit.current.windows[w.val]? with
    | none => s
    | some x => if s.pit.openWin.getLsbD w.val || x.close ≤ s.offset then s else (s.reach (s.pit.bk + x.opn)).openWindow w)

/-- WINDOW_CLOSE at B_k + CLOSE. -/
def execWindowClose (w : WinId) (s : State) : Host.Outcome State Fault Refusal :=
  .next (if !s.started || !s.pit.openWin.getLsbD w.val then s
  else match s.pit.current.windows[w.val]? with
    | none => s
    | some x => (s.reach (s.pit.bk + x.close)).closeWindow w)

/-- ADMISSION_INTERVAL_OPEN at OPEN + GUARD: SC0 requests held for it are issued (R66, R322). -/
def execAdmissionIntervalOpen (w : WinId) (s : State) : Host.Outcome State Fault Refusal :=
  .next (if !s.serving || !s.pit.openWin.getLsbD w.val then s
  else match s.pit.current.windows[w.val]? with
    | none => s
    | some x =>
      let s := (s.reach (s.pit.bk + x.opn + x.guard)).onPit fun p => { p with admitWin := p.admitWin ||| (1#32 <<< w.val) }
      s.forAll allEngines fun e t => t.settleEngine e)

/-- TICK_OUT_PULSE_END: WIDTH after the start of the pulse that lasts on the pin (R52). -/
def execTickOutPulseEnd (n : Fin 4) (s : State) : Host.Outcome State Fault Refusal :=
  .next (match s.pit.pulses.find? fun x => x.1 = n.val with
  | none => s
  | some x =>
    if !s.started then s
    else
      let at_ := x.2 + s.rd R.TIK_OUT_WIDTH n.val
      let s := (s.reach at_).onPit fun p => { p with pulses := p.pulses.filter fun y => y.1 ≠ n.val }
      if s.rd R.TIK_OUT_MODE n.val = 3 then s else s.drivePin n.val at_ false)

/-! ### Records of a boundary (R534 to R537) -/

/-- A statistics record counted in PMC_SNAP when queued and in PMC_NOSTAT when its domain has no statistics ring. -/
def State.pmcRecord (d : Nat) (w : List Nat) (s : State) : State :=
  match s.statRing d with
  | none => s.bump R.PMC_NOSTAT_COUNT 0 1
  | some (n, r) =>
    let s := s.stat d w
    if r.state = .active && (s.ring n).any (fun x => x.state = .active && x.dropped = 0) then s.bump R.PMC_SNAP_COUNT 0 1 else s

/-- Queue the snapshot record of a counter whose value was latched at the boundary. -/
def State.snapRecord (key : Nat) (s : State) : State :=
  let c := Tab.get counterAt s.host.counters key
  match c.snapAt with
  | none => s
  | some v =>
    let d := key / 1024
    let delta := (v + 2 ^ 48 - c.snap) % 2 ^ 48
    let s := s.onHost fun h => { h with counters := Tab.set counterAt h.counters key { c with snap := v, snapAt := none } }
    s.pmcRecord d
      [1 + 0x0010 * 2 ^ 16 + key % 1024 * 2 ^ 32 + c.sel * 2 ^ 48 + (if c.level then 2 ^ 56 else 0),
       (s.pit.tick - 1) % 2 ^ 48 + d * 2 ^ 48, v, delta]

/-- COUNTER_SNAPSHOT. -/
def execCounterSnapshot (domain : Fin 4096) (index : Nat) (s : State) : Host.Outcome State Fault Refusal :=
  .next (if s.serving && index < 1024 then s.snapRecord (domain.val * 1024 + index) else s)

/-- Counters whose snapshot falls due at this boundary take their value; a boundary in FREEZE or in the pause of an image takes none
(R529, R534, R607). -/
def State.latchSnaps (s : State) : State :=
  if s.bit R.PMC_CTRL_FREEZE || s.img.hold then s
  else
    let k := s.pit.tick
    s.onHost fun h =>
      { h with counters := Tab.mapAll counterAt h.counters fun _ c =>
          if c.en && c.snapEn && c.snapDiv ≠ 0 && k % c.snapDiv = 0 then { c with snapAt := some c.value } else c }

/-- Byte count of a tick in 1/4,096 of the capacity of the configured width at MAX_RATE over `period` (R537). -/
def State.peakOf (s : State) (n bytes period : Nat) : Nat :=
  let cap := s.cfgLanes n * rate10 (s.rd R.PRT_CFG_MAX_RATE n) * period
  if cap = 0 then 0 else min 65535 (bytes * 4096 * 80 / cap)

/-- The tick that ends is added to a bandwidth window; a window not begun, or replaced by a later BW_WINDOW, begins at the boundary. -/
def State.bwTick (s : State) (n period : Nat) (b : BwWin) : BwWin :=
  let b := if b.ntick = 0 then b else
    { b with
        down := b.down || (s.portN n).bwDown, count := b.count + 1, rx := b.rx + b.rxTick, tx := b.tx + b.txTick
        rxPeak := max b.rxPeak (s.peakOf n b.rxTick period), txPeak := max b.txPeak (s.peakOf n b.txTick period) }
  let b := { b with rxTick := 0, txTick := 0 }
  if b.next ≠ 0 && (b.ntick = 0 || b.count < b.ntick) then
    { BwWin.none with ntick := b.next, start := s.pit.tick }
  else b

/-- Queue the record of a window that has run its ticks; the next one begins where it ended. -/
def State.bwRecord (n : Nat) (s : State) : State :=
  let b := Tab.get bwAt s.host.bw n
  if b.ntick = 0 || b.count < b.ntick then s
  else
    let len := if b.next = 0 then b.ntick else b.next
    let fresh : BwWin := { b with ntick := len, next := 0, start := s.pit.tick, count := 0, rx := 0, tx := 0, rxPeak := 0, txPeak := 0
                                  down := false }
    let s := s.onHost fun h => { h with bw := Tab.set bwAt h.bw n fresh }
    if s.img.hold then s
    else s.pmcRecord 0
      [1 + 0x0020 * 2 ^ 16 + n * 2 ^ 32 + (if b.down then 2 ^ 40 else 0), b.start % 2 ^ 48 + b.ntick * 2 ^ 48,
       b.rx % 2 ^ 48 + b.rxPeak * 2 ^ 48, b.tx % 2 ^ 48 + b.txPeak * 2 ^ 48]

/-- BW_WINDOW_CLOSE. -/
def execBwWindowClose (p : PortId) (s : State) : Host.Outcome State Fault Refusal :=
  .next (if s.serving then s.bwRecord p.val else s)

/-- Records of the last boundary that no command has queued yet. -/
def State.owedRecords (s : State) : State :=
  let s := s.forAll (s.host.counters.filter fun e => e.2.snapAt.isSome) fun e t => t.snapRecord e.1
  (s.forAll s.host.bw fun e t => t.bwRecord e.1).healthDue

/-! ### The boundary (R57) -/

/-- Pulses due at the boundary (step 1; R50 to R52). -/
def State.pulses (s : State) : State :=
  let k := s.pit.tick
  let resume : Bool := s.pit.outStop && s.pit.tstate = .locked && !s.pit.faultSeen
  let s := s.onPit fun p => { p with outStop := p.outStop && !resume }
  let go := s.pit.mayPulse && !s.flt.safe
  let s := s.onPit fun p => { p with outLast := false }
  if !go then s
  else s.forAll (s.outPins 1 ++ (s.outPins 2).filter fun n => k % s.rd R.TIK_OUT_DIV n = 0) fun n t =>
    (t.onPit fun p => { p with pulses := p.pulses.filter (fun y => y.1 ≠ n) ++ [(n, t.now)] }).drivePin n t.now true

/-- Step 1: FTIME is latched as B_k, with the step that acts there, and the tick counter becomes k. -/
def State.latchBoundary (f : FixedB) (s : State) : State :=
  let s := s.onPit fun p =>
    let step (x : Nat) : Nat := ((x : Int) + f.delta).toNat % 2 ^ 64
    { p with
        -- instants of the outside are counted on: an edge keeps its place although FTIME steps (R46)
        pulses := p.pulses.map fun x => (x.1, step x.2), ppsAt := p.ppsAt.map step
        ftime := step p.ftime, bk := f.at % 2 ^ 64, tick := f.k % 2 ^ 48, period := f.period, fixed := p.fixed.drop 1, admitWin := 0, openWin := 0 }
  let s := s.when f.step.isSome fun s => s.capture 0x09 0 0 16 [s.pit.rate]
  s.pulses

/-- Step 2: engines are free; a work item that a fence has not stopped is stopped here (R343). -/
def State.confirmFence (s : State) : State :=
  s.forAll allEngines fun e t => match t.item e with
    | some _ => t.stopOverrun e
    | none => t

/-- Step 3: the committed plan becomes current, its spares and takeovers are determined anew, and queued descriptors of slots that no live
plan holds are shed (R86, R87, R331). -/
def State.switchPlan (p : Plan) (h : Option Hdr) (s : State) : State :=
  let old := s.pit.current.slots
  let spares := s.sparesFor p.spares
  let s := s.onPit fun x => { x with current := p }
  let s := s.onEng fun g =>
    { g with
        place := p.place.map some, lost := []
        engs := Vector.ofFn fun (e : Fin 64) => { g.engs[e.val] with spare := spares.contains e.val } }
  let dead := (List.range p.place.length).filter fun j => match s.placeOf j with
    | some e => !(s.eng.engs.toList.getD e Engine.init).healthy
    | none => false
  let s := if dead = [] then s else s.takeovers dead none 64
  let kept := s.livePlans.flatMap Plan.slots
  let s := s.shedSlots fun n => old.contains n && !kept.contains n
  (s.fc0 0x14 0x0141 0 p.tag s.pit.tick).tell h {}

/-- Steps 2 and 3. -/
def State.enterPlan (f : FixedB) (s : State) : State :=
  let s := s.confirmFence
  match f.plan with
  | some p => s.switchPlan p f.switch
  | none => s.reassignLost

/-- Step 4: the account of tick k − 1 is closed and that of tick k opened (R453). -/
def State.turnAccount (s : State) : State := s.closeAccount.openInterval 0

/-- The account record of the tick that ends; none while an image pauses (R474, R607). -/
def State.accountRecord (s : State) : List (Nat × List Nat) :=
  if s.img.hold then [] else [(0, s.bel.account (s.pit.tick - 1) s.bel.defers)]

/-- Step 12: the records of steps 4 and 6 are queued. -/
def State.queueRecords (l : List (Nat × List Nat)) (s : State) : State := s.forAll l fun x t => t.stat x.1 x.2

/-- Step 5: snapshots and bandwidth windows. -/
def State.turnCounters (period : Nat) (s : State) : State :=
  let s := s.latchSnaps
  let s := s.onHost fun h => { h with bw := Tab.mapAll bwAt h.bw fun n b => s.bwTick n period b }
  s.forAll s.host.bw fun e t => t.onPortN e.1 fun p => { p with bwDown := false }

/-- Step 8: windows whose OPEN is 0. -/
def State.openFirst (s : State) : State :=
  s.forAll (List.finRange 32) fun w t => match t.pit.current.windows[w.val]? with
    | some x => if x.opn = 0 then t.openWindow w else t
    | none => t

/-- Step 9: entries with offset 0, in plan order. -/
def State.dispatchFirst (s : State) : State :=
  let s := s.onEng fun g => { g with ran := 0 }
  s.forAll (List.range s.pit.current.disp.length) fun j t => match t.entry j with
    | some d => if d.offset = 0 then t.dispatchDue j else t
    | none => t

/-- Step 10: doorbells read each tick (R491). -/
def State.tickDoorbells (s : State) : State :=
  let each (isEvq : Bool) (l : Tab (Option Ring)) (s : State) : State :=
    s.forAll l fun e t => match e.2 with
      | some r => if r.dbMode = 2 then t.readDoorbell e.1 isEvq else t
      | none => t
  each true s.host.evqs (each false s.host.rings s)

/-- What is counted per tick starts anew: refusal records, drop notices (R407, R497). -/
def State.freshTick (s : State) : State :=
  s.onHost fun h =>
    { h with
        refTick := []
        rings := Tab.mapAll noneAt h.rings fun _ o => o.map fun r =>
          if r.kind = .cq then { r with dropped := 0, dropTold := false } else r }

/-- The boundary whose fixing is `f`: the steps of R57. In the safe state only the Pitch pipe, Bellows and the fault scan act. -/
def State.boundary (f : FixedB) (s : State) : State :=
  let s := s.reach f.due
  let s := s.forAll (List.finRange 32) fun w t => if t.pit.openWin.getLsbD w.val then t.closeWindow w else t
  let s := if s.serving then s.owedRecords.recBoundary else s
  let old := s.pit.period
  let s := (s.closeInterval (s.now - s.bel.start)).latchBoundary f
  let s := match s.pit.srcWait with
    | some x => s.selectSource x
    | none => s
  if s.serving then
    let s := s.freshTick.enterPlan f
    let owed := s.accountRecord
    let s := s.turnAccount.turnCounters old
    let owed := owed ++ s.shaperRecords
    let s := (s.restartShapers.openFirst.dispatchFirst.tickDoorbells.faultScan).queueRecords owed
    match f.step with
    | some w => s.tell w.hdr {}
    | none => s
  else
    let s := match f.plan with
      | some p => s.onPit fun x => { x with current := p }
      | none => s
    s.turnAccount.faultScan

/-- TICK_BOUNDARY: the boundary fixed first falls. -/
def execTickBoundary (s : State) : Host.Outcome State Fault Refusal :=
  .next (match s.pit.fixed with
  | f :: _ => if s.started && s.pit.running && (s.rec_.st ≠ .replay || f.at ≤ s.now) then s.boundary f else s
  | [] => s)

end Sys2Proof.Machine
end

