-- ==== Sys2Proof/Machine/Trial.lean ====
section
/-! DEFINITION. The health criteria of an image on trial, and the start of a fallback (R608 to R611). -/

namespace Sys2Proof.Machine

/-- Lowest-numbered criterion of 1 to 4 that has failed in the trial (R608, R609). -/
def State.failedNow (s : State) : Option Nat :=
  match s.img.act, s.img.health with
  | some a, some h =>
    if h.mgr && (a.unready || !s.bit R.GLB_MRING_STATUS_READY) then some 1
    else if h.noFc3 && a.fc3 then some 2
    else if h.maxMiss ≠ 0xFFFF && h.maxMiss < a.miss then some 3
    else if h.maxCapx ≠ 0xFFFF && a.capx0 + h.maxCapx < s.rd R.BLW_CAPX_COUNT then some 4
    else none
  | _, _ => none

/-- Lowest-numbered criterion that fails at the end of the window or at a confirmation. -/
def State.failedAtEnd (s : State) : Option Nat :=
  match s.failedNow, s.img.health with
  | some n, _ => some n
  | none, some h =>
    if h.tickLock && s.pit.tstate ≠ .locked && s.pit.tstate ≠ .free then some 5
    else if (bitsOf h.ports).any (fun n => !s.isActive (s.lowest n)) then some 6
    else none
  | none, none => none

/-- The fallback starts: IMAGE_ACTIVATE completes, and PREV is to be activated (R610, R611). -/
def State.fallBack (st : Status) (code : Nat) (s : State) : State :=
  match s.img.act with
  | none => s
  | some a =>
    let s := (s.onImg fun g =>
      { g with phase := .fallback, code := code, act := some { a with hdr := none, slot := a.prev, tick := s.pit.tick + 1, cold := false, paused := false, tries := 0 } }).bump
      R.IMG_FALLBACK_COUNT 0 1
    match a.hdr with
    | some h => s.complete h { status := st, code := code }
    | none => s

/-- A criterion of 1 to 4 that has failed triggers the fallback at once (R609). -/
def State.trialWatch (s : State) : State :=
  if s.img.phase = .trial then
    match s.failedNow with
    | some n => s.fallBack .denied (0x20 + n)
    | none => s
  else s

end Sys2Proof.Machine
end

