-- ==== Sys2Proof/Machine/Setup.lean ====
section
/-! DEFINITION. Writes to the setup space by BAR0, the I3C target and manager commands, and what each written field brings about
(R7 to R13, R475, R641, R664 to R677, R692, R693). -/

namespace Sys2Proof.Machine

/-- The path serves writes at this stage (R641): registers that survive without the core are read-only, so nothing is written before step 6. -/
def State.pathServes (s : State) (p : Path) : Bool :=
  s.sys.corePower && !s.sys.jtagHold && (match p with
    | .i3c => 6 ≤ s.rd R.GLB_START_PHASE_STEP
    | .bar0 => 8 ≤ s.rd R.GLB_START_PHASE_STEP && (s.portN s.mgrPort).state.linked)

/-- The expert enable of a block (R7). -/
def State.expert (s : State) (off : Nat) : Bool := flag (s.rd R.GLB_EXPERT_EN) (blockOf off)

/-! ### One field -/

/-- What a write does to one field: nothing, since it carries the current value or the field is read-only (R693); it takes effect; or it is
discarded with a cause. -/
inductive FieldAct where
  | keep
  | take
  | drop (cause : Nat)
  deriving DecidableEq, Repr

/-- Fields that another field's value closes to writes: the manager ring's while EN is set (R504), the arbiter's under a preset (R245), and
one-time actions refused by their own rule (R616, R630, R640). -/
def State.closedField (s : State) (off : Nat) (f : Field) (new : Nat) : Bool :=
  let en := s.bit R.GLB_MRING_CTRL_EN
  (en && 0x100 ≤ off && off ≤ 0x120) || (en && off = 0x128 && f.lo ≠ 0 && f.lo ≠ 24)
    || ((off = R.XBR_ALPHA_A0.base || off = R.XBR_DWRR_W2.base) && s.rd R.XBR_CTRL_PRESET ≠ 3)
    || (off = R.GLB_RESET_KEY.base && new ≠ 0xC01D)
    || (off = R.IMG_FUSE_CMD_GO.base && f.lo = 0 && new = 1 && s.rd R.GLB_STRAP_BOOT_SEL ≠ 3)
    || (off = R.GLB_RCV_DATA_DATA.base && (!s.sys.rcvLenSet || s.rd R.GLB_RCV_CTRL_LEN < s.sys.rcvPos + 8))

/-- Current value of a field as its instance reads it (R669). -/
def State.fieldNow (s : State) (off n : Nat) (f : Field) : Nat :=
  if f.inInstance (s.isLowest n) n then getBits (s.reg off) f.lo f.width else 0

/-- R7, R669, R672, R693 for one field. -/
def State.fieldAct (s : State) (off n : Nat) (expert : Bool) (v : Word) (f : Field) : FieldAct :=
  let new := getBits v f.lo f.width
  if f.acc = .ro then .keep
  else if f.acc = .wo then (if s.closedField off f new then .drop 6 else .take)
  else if new = s.fieldNow off n f then .keep
  else if !f.inInstance (s.isLowest n) n then .drop 3
  else if s.closedField off f new then .drop 6
  else if f.acc = .rwx && !expert then .drop 0
  else if (f.acc = .rwl && s.fieldNow off n f = 1) || (off = R.GLB_EXPERT_EN.base && s.bit R.GLB_EXPERT_LOCK) then .drop 1
  else .take

/-- A field takes a value outside the range its table states (R692). -/
def State.outOfRange (s : State) (off n : Nat) (v : Word) (f : Field) : Bool :=
  let new := getBits v f.lo f.width
  f.acc ≠ .ro && new ≠ s.fieldNow off n f && f.inInstance (s.isLowest n) n && (match f.range with
    | some (lo, hi) => new < lo || hi < new
    | none => false)

/-- The register with the fields of `v` that satisfy `p` in place of its own. -/
def mergeFields (fields : List Field) (p : Field → Bool) (v old : Word) : Word :=
  (fields.filter fun f => p f && f.acc ≠ .wo).foldl (fun w f => setBits w f.lo f.width (getBits v f.lo f.width)) old

/-- Ranges that hold only beside another field's value: DIV of a TICK_OUT in mode 2, CLASS with ALL set (R692, R544). -/
def State.pairRefused (s : State) (off : Nat) (v : Word) : Bool :=
  (0x020048 ≤ off && off ≤ 0x020060 && v.toNat % 4 = 2 && getBits v 24 8 = 0 && v ≠ s.reg off)
    || (off = R.FLT_CLR_INDEX.base && getBits v 16 1 = 1 && !(1 ≤ getBits v 24 3 && getBits v 24 3 ≤ 4))

/-- BLW registers whose change R84 may refuse. -/
def energyReg (off : Nat) : Bool := off = R.BLW_CAP_CAP_W.base || off = R.BLW_RT_SHARE_PCT.base || off = R.BLW_THERM_D105_PCT.base

/-- R84 refuses the register value. -/
def State.energyRefused (s : State) (off : Nat) (w : Word) : Bool :=
  energyReg off && !s.energyChangeOk (s.setReg off w).energyIn

/-! ### What a written field brings about -/

/-- α codes and DWRR quanta of a preset (R244): a code k stands for α = 2^(k − 6). -/
def presetAlpha (p : Nat) : List Nat :=
  if p = 1 then [9, 7, 6, 7, 4, 3, 5, 3] else if p = 2 then [9, 6, 4, 5, 6, 5, 7, 3] else [9, 7, 5, 6, 5, 4, 6, 3]

def presetDwrr (p : Nat) : List Nat :=
  if p = 1 then [12, 12, 2, 1, 4, 1] else if p = 2 then [4, 4, 8, 4, 12, 1] else [8, 8, 4, 2, 8, 1]

/-- Digits of `w` bits, lowest first. -/
def packBits (w : Nat) : List Nat → Nat
  | [] => 0
  | x :: t => x + 2 ^ w * packBits w t

/-- XBR_ALPHA and XBR_DWRR take the values of the preset (R244). -/
def State.applyPreset (s : State) : State :=
  let p := s.rd R.XBR_CTRL_PRESET
  if p = 3 then s
  else (s.setReg R.XBR_ALPHA_A0.base (BitVec.ofNat 64 (packBits 4 (presetAlpha p)))).setReg R.XBR_DWRR_W2.base
    (BitVec.ofNat 64 (packBits 8 (presetDwrr p)))

/-- ENABLE has been cleared: no boundary after those fixed (R694). -/
def State.stopTicks (s : State) : State := s.onPit fun p => { p with stopAfter := true, resumeAt := none }

/-- ENABLE has been set: the grid of boundaries resumes at the first of its instants at least LEAD_NS ahead (R694). -/
def State.resumeTicks (s : State) : State :=
  if !s.pit.stopAfter then s
  else
    let period := max 1 s.lastPeriod
    let t : Nat := ((s.now + s.rd R.TIK_LEAD_LEAD_NS : Nat) + s.stepsAhead : Int).toNat
    let at_ := s.lastB + period * max 1 (ceilDiv (t - s.lastB) period)
    s.onPit fun p => { p with stopAfter := false, resumeAt := some at_ }

/-- A TICK_OUT pin after a change of its mode or window: off is low, a window that is open is high, a pulse waits for its boundary (R52). -/
def State.settlePin (n : Nat) (s : State) : State :=
  let w := s.rd R.TIK_OUT_DIV n % 32
  s.drivePin n s.now (s.rd R.TIK_OUT_MODE n = 3 && s.pit.openWin.getLsbD w && s.pit.mayPulse && !s.flt.safe)

/-- A port that is OFF takes a new role at once: PERST_N of an upstream port is released, a downstream port with a partner present
powers up (R104, R637). -/
def State.applyRole (n : Nat) (s : State) : State :=
  if s.started && s.isLowest n then s.comeUp n else s

/-- GLB_RESET: the device stops as at a fall of PWR_OK and starts cold 50 µs later (R630). -/
def State.globalReset (s : State) : State := s.powerFall.onSys fun y => { y with coldDue := some 4 }

/-- The key hash fuses take the key written, once (R616): RESULT 1 done, 2 already programmed, 3 failed. -/
def State.programKey (blown : Bool) (s : State) : State :=
  s.onImg fun g =>
    if g.keyset then { g with fuseRes := 2 } else if blown then { g with keyset := true, keyHash := g.key, fuseRes := 1 } else { g with fuseRes := 3 }

/-- The recovery buffer is empty and takes an image of LEN bytes (R640). -/
def State.recoveryStart (s : State) : State :=
  (s.wr R.GLB_RCV_CTRL_STATUS 0 0).onSys fun y => { y with rcvPos := 0, rcvLenSet := true, rcvData := [] }

/-- Effects of a write to a register beside the register's own new value: `old` the value before, `v` the value written. -/
def State.afterWrite (off : Nat) (old v : Word) (s : State) : State :=
  let changed (f : FRef) : Bool := getBits old f.lo f.width ≠ getBits (s.reg off) f.lo f.width
  let bitNow (f : FRef) : Bool := getBits (s.reg off) f.lo f.width = 1
  let prt := 0x040000 ≤ off && off < 0x060000
  if off = R.GLB_RESET_KEY.base then s.globalReset
  else if off = R.GLB_RCV_CTRL_LEN.base then (if changed R.GLB_RCV_CTRL_LEN then s.recoveryStart else s)
  else if off = R.GLB_RCV_DATA_DATA.base then s.onSys fun y => { y with rcvPos := y.rcvPos + 8, rcvData := v :: y.rcvData }
  else if off = R.GLB_MRING_CTRL_EN.base then
    (if changed R.GLB_MRING_CTRL_EN then (if bitNow R.GLB_MRING_CTRL_EN then s.mringOn else s.mringOff.trialWatch) else s)
  else if R.IMG_FUSE_KEY_KEY.base ≤ off && off < R.IMG_FUSE_KEY_KEY.base + 48 then
    s.onImg fun g => { g with key := g.key.set ((off - R.IMG_FUSE_KEY_KEY.base) / 8) v }
  else if off = R.IMG_FUSE_CMD_GO.base then
    (if getBits v 0 1 = 1 then s.nextFree.programKey (Config.freeNat s.free % 2 = 0) else s)
  else if off = R.TIK_CTRL_SRC.base then
    let s := if changed R.TIK_CTRL_SRC && s.pit.running then s.writeSource (BitVec.ofNat 2 (getBits (s.reg off) 0 2)) else s
    if changed R.TIK_CTRL_ENABLE && s.pit.running then (if bitNow R.TIK_CTRL_ENABLE then s.resumeTicks else s.stopTicks) else s
  else if R.TIK_OUT_MODE.base ≤ off && off ≤ R.TIK_OUT_MODE.base + 24 then
    (if changed R.TIK_OUT_MODE || changed R.TIK_OUT_DIV then s.settlePin ((off - R.TIK_OUT_MODE.base) / 8) else s)
  else if prt && (off - 0x040000) % 2048 = 0 then
    (if changed R.PRT_CFG_ROLE then s.applyRole ((off - 0x040000) / 2048) else s)
  else if prt && (off - 0x040000) % 2048 = 8 then
    let q := (off - 0x040008) / 2048 / 4
    let m := getBits v 0 2
    (s.onTool fun t => { t with quadWait := Tab.set noneAt t.quadWait q (some m) }).settleQuad q
  else if off = R.XBR_CTRL_PRESET.base then s.applyPreset
  else if off = R.FLT_CTRL_THRESH.base then s.driveFaultN
  else if off = R.FLT_CLR_INDEX.base then
    (if getBits v 16 1 = 1 then s.clearFltClass (getBits v 24 3) else s.clearFlt (getBits v 0 8))
  else s

/-- PRT_QUAD.MODE is not written at once: it is applied when every slice of the quad is OFF (R93). -/
def heldField (off : Nat) (f : Field) : Bool := 0x040000 ≤ off && off < 0x060000 && (off - 0x040000) % 2048 = 8 && f.lo = 0

/-- Fields of a register that satisfy `p` take their values; a CFG item tells it (R564, R667, R668). -/
def State.takeFields (off : Nat) (r : RegRow) (p : Field → Bool) (v : Word) (s : State) : State :=
  if r.fields.any p then
    let old := s.reg off
    let s := s.setReg off (mergeFields r.fields (fun f => p f && !heldField off f) v old)
    (s.captureCfg (Config.sideCode 7).toNat off [(s.reg off).toNat]).afterWrite off old v
  else s

/-! ### Setup writes -/

/-- A write of one register by BAR0 or I3C: field by field, with one count where any field is discarded (R666, R693). -/
def State.writeFields (path off n : Nat) (r : RegRow) (v : Word) (s : State) : State :=
  let act := s.fieldAct off n (s.expert off) v
  let drops := r.fields.filterMap fun f => match act f with
    | .drop c => some c
    | _ => none
  let s' := s.takeFields off r (fun f => act f = .take) v
  match drops with
  | c :: _ => s'.discard path c off v.toNat
  | [] => s'

/-- Registers that accept writes in the drain and pause of an activation (R676). -/
def drainReg (off : Nat) : Bool :=
  off = R.GLB_RESET_KEY.base || off = R.GLB_SCRATCH_DATA.base || off = R.FLT_CTRL_THRESH.base || off = R.FLT_CLR_INDEX.base

/-- A setup write (R665 to R669, R672, R692). A write that carries only current values writes nothing and is not discarded. -/
def State.setupWrite (path : Path) (off size : Nat) (v : Word) (s : State) : State :=
  let drop (c : Nat) : State := s.discard (Path.code path) c off v.toNat
  let open_ : Bool := blockOf off = 0 || blockOf off = 13
  if !s.pathServes path then s
  else if size ≠ 8 || off % 8 ≠ 0 then drop 2
  else match findReg off with
    | none => if s.flt.safe && !open_ then drop 7 else drop 3
    | some (r, n) =>
      if r.fields.all fun f => s.fieldAct off n (s.expert off) v f = .keep then s
      else if s.flt.safe && !open_ then drop 7
      else if s.img.hold && !drainReg off then drop 5
      else if (s.bit R.GLB_CTRL_SEAL && !open_) || (path = .i3c && !s.bit R.GLB_CTRL_I3C_WR) then drop 4
      else if r.fields.any (s.outOfRange off n v) || s.pairRefused off v
        || s.energyRefused off (mergeFields r.fields (fun _ => true) v (s.reg off)) then drop 6
      else s.writeFields (Path.code path) off n r v

/-- A setup write that changes one field and carries the current value of the others. -/
def State.writeField (path : Path) (f : FRef) (i v : Nat) (s : State) : State :=
  s.setupWrite path (f.off i) 8 (setBits (s.reg (f.off i)) f.lo f.width v)

/-- SETUP_WRITE. -/
def execSetupWrite (path : Path) (off : BitVec 24) (size : Nat) (value : Word) (s : State) : Host.Outcome State Fault Refusal :=
  .next (s.setupWrite path off.toNat size value)

/-- TIK_FTIME_LOW_READ: the low half is returned and the high half latched (R665). -/
def execTikFtimeLowRead (s : State) : Host.Outcome State Fault Refusal :=
  .next (if s.sys.corePower then
    (s.onPit fun p => { p with ftimeHigh := p.ftime / 2 ^ 32 }).emit (.readData (s.pit.ftime % 2 ^ 32))
  else s)

/-- TICK_ENABLE_CLEAR (R694). -/
def execTickEnableClear (path : Path) (s : State) : Host.Outcome State Fault Refusal := .next (s.writeField path R.TIK_CTRL_ENABLE 0 0)

/-- TICK_ENABLE_SET (R694). -/
def execTickEnableSet (path : Path) (s : State) : Host.Outcome State Fault Refusal := .next (s.writeField path R.TIK_CTRL_ENABLE 0 1)

/-- TIME_SOURCE_SELECT (R91). -/
def execTimeSourceSelect (path : Path) (src : BitVec 2) (s : State) : Host.Outcome State Fault Refusal :=
  .next (s.writeField path R.TIK_CTRL_SRC 0 src.toNat)

/-- QUAD_MODE_WRITE (R93). -/
def execQuadModeWrite (path : Path) (quad : Fin 16) (mode : BitVec 2) (s : State) : Host.Outcome State Fault Refusal :=
  .next (s.writeField path R.PRT_QUAD_MODE (4 * quad.val) mode.toNat)

/-- XBR_PRESET_WRITE (R244, R245). -/
def execXbrPresetWrite (path : Path) (preset : BitVec 2) (s : State) : Host.Outcome State Fault Refusal :=
  .next (s.writeField path R.XBR_CTRL_PRESET 0 preset.toNat)

/-- PMC_FREEZE_SET (R529). -/
def execPmcFreezeSet (path : Path) (s : State) : Host.Outcome State Fault Refusal := .next (s.writeField path R.PMC_CTRL_FREEZE 0 1)

/-- PMC_FREEZE_CLEAR (R529). -/
def execPmcFreezeClear (path : Path) (s : State) : Host.Outcome State Fault Refusal := .next (s.writeField path R.PMC_CTRL_FREEZE 0 0)

/-- FLT_THRESH_WRITE (R549). -/
def execFltThreshWrite (path : Path) (thresh : BitVec 2) (s : State) : Host.Outcome State Fault Refusal :=
  .next (s.writeField path R.FLT_CTRL_THRESH 0 thresh.toNat)

/-- FLT_CLR_INDEX (R544). -/
def execFltClrIndex (path : Path) (index : Byte) (s : State) : Host.Outcome State Fault Refusal :=
  .next (s.setupWrite path R.FLT_CLR_INDEX.base 8 (index.setWidth 64))

/-- FLT_CLR_ALL (R544). -/
def execFltClrAll (path : Path) (cls : BitVec 3) (s : State) : Host.Outcome State Fault Refusal :=
  .next (s.setupWrite path R.FLT_CLR_INDEX.base 8 (BitVec.ofNat 64 (2 ^ 16 + cls.toNat * 2 ^ 24)))

/-- MRING_ENABLE (R504). -/
def execMringEnable (path : Path) (s : State) : Host.Outcome State Fault Refusal := .next (s.writeField path R.GLB_MRING_CTRL_EN 0 1)

/-- MRING_DISABLE (R504, R609). -/
def execMringDisable (path : Path) (s : State) : Host.Outcome State Fault Refusal := .next (s.writeField path R.GLB_MRING_CTRL_EN 0 0)

/-- FUSE_KEY_PROGRAM: a write of IMG_FUSE_CMD.GO; `blown` tells whether the fuses took (R616). Outside BOOT_SEL 0b11 the write is
discarded. -/
def execFuseKeyProgram (path : Path) (blown : Bool) (s : State) : Host.Outcome State Fault Refusal :=
  .next (if s.pathServes path && s.rd R.GLB_STRAP_BOOT_SEL = 3 && !s.flt.safe && !s.img.hold && !s.bit R.GLB_CTRL_SEAL
      && (path = .bar0 || s.bit R.GLB_CTRL_I3C_WR) then s.programKey blown
  else s.setupWrite path R.IMG_FUSE_CMD_GO.base 8 1)

/-- SPI_RELEASE_WRITE: RELEASE acts under BOOT_SEL 0b11 only, on the pins alone (R644). -/
def execSpiReleaseWrite (path : Path) (release : Bool) (s : State) : Host.Outcome State Fault Refusal :=
  .next (s.writeField path R.GLB_SPI_RELEASE 0 (boolNat release))

/-- GLB_RESET_WRITE (R630). -/
def execGlbResetWrite (path : Path) (key : BitVec 16) (s : State) : Host.Outcome State Fault Refusal :=
  .next (s.setupWrite path R.GLB_RESET_KEY.base 8 (key.setWidth 64))

/-- RECOVERY_LEN_WRITE (R640). -/
def execRecoveryLenWrite (len : BitVec 23) (s : State) : Host.Outcome State Fault Refusal :=
  .next (s.writeField .i3c R.GLB_RCV_CTRL_LEN 0 len.toNat)

/-- RECOVERY_DATA_WRITE (R640). -/
def execRecoveryDataWrite (path : Path) (data : Word) (s : State) : Host.Outcome State Fault Refusal :=
  .next (s.setupWrite path R.GLB_RCV_DATA_DATA.base 8 data)

/-! ### Register values that commands carry (R475, R693) -/

/-- A command refused for a field value: it completes, and is counted as a discarded write of path 3. -/
def State.refuseValue (h : Hdr) (c : Cpl) (cause off : Nat) (v : Word) (s : State) : State :=
  (s.discard 3 cause off v.toNat).complete h c

/-- A command writes the register at `off` with the value of its ENTRY. -/
def State.commandWrite (h : Hdr) (off : Nat) (v : Word) (s : State) : State :=
  match findReg off with
  | none => s.bad h 0x10
  | some (r, n) =>
    match r.fields.find? (s.outOfRange off n v) with
    | some f => s.refuseValue h { status := .badDesc, code := 0x20 + f.lo / 8 } 6 off v
    | none =>
      let act := s.fieldAct off n (s.expert off) v
      if r.fields.any fun f => act f = .drop 0 then s.refuseValue h { status := .denied } 0 off v
      else if s.energyRefused off (mergeFields r.fields (fun f => act f = .take) v (s.reg off)) then
        s.refuseValue h { status := .denied, code := 6 } 6 off v
      else (s.takeFields off r (fun f => act f = .take) v).done h .ok

/-- BLW_SET (R475): INDEX is the offset of one BLW register from 0x000 to 0x038. -/
def execBlwSet (h : Hdr) (index : Word32) (value : Word) (s : State) : Host.Outcome State Fault Refusal :=
  .next (s.manager h [] (firstBad [(0x38 < index.toNat || index.toNat % 8 ≠ 0, 0x10)]) fun s =>
    s.commandWrite h (0x110000 + index.toNat) value)

/-- DBG_SET (R412). -/
def execDbgSet (h : Hdr) (value : Word) (s : State) : Host.Outcome State Fault Refusal :=
  .next (s.manager h [bits value.toNat 16 12] none fun s => s.commandWrite h R.DBG_CTRL_EN.base value)

end Sys2Proof.Machine
end

