-- ==== Sys2Proof/Machine/ColdStart.lean ====
section
/-! DEFINITION. The cold start: what it keeps and what it loses (R629 to R631, R556). -/

namespace Sys2Proof.Machine

/-- Registers of the VDD_AON domain (R620). -/
def aonRegs : List Nat := [R.FLT_LAST_CAUSE.base, R.FLT_FC4_MASK_MASK.base, R.GLB_START_CAUSE.base]

/-- A port of which only the levels of its input pins remain. -/
def Port.pins (p : Port) : Port := { Port.init with prsntRaw := p.prsntRaw, prsnt := p.prsnt, pwrgd := p.pwrgd }

/-- Fuses and flash, which no reset changes (R631). -/
def Img.kept (g : Img) : Img :=
  { Img.init with
      slotA := g.slotA, slotB := g.slotB, sels := g.sels, fused := g.fused, keyset := g.keyset, keyHash := g.keyHash }

/-- Supplies and pins as they stand; everything else at reset. -/
def Sys.kept (y : Sys) : Sys :=
  { Sys.init with
      vddAon := y.vddAon, pwrOk := y.pwrOk, rstN := y.rstN, jtagHold := y.jtagHold, jtagIr := y.jtagIr, tcrN := y.tcrN
      corePower := true }

/-- The device loses its state, all but what R631 keeps. `aon` tells whether the VDD_AON registers are kept. -/
def State.loseAll (aon : Bool) (s : State) : State :=
  { State.reset with
      pending := s.pending, free := s.free, out := s.out
      regs := if aon then s.regs.filter fun e => aonRegs.contains e.1 else []
      sys := s.sys.kept, ports := s.ports.map Port.pins, img := s.img.kept }

/-- A cold start begins (R629): its trigger is recorded and counted, and step 2 of R636 waits for the straps. FAULT_N is low until
step 6 ends (R654). -/
def State.coldStart (cause : Nat) (s : State) : State :=
  ((((s.loseAll (cause ≠ 1)).wr R.GLB_START_CAUSE 0 cause).bump R.GLB_START_COLD_CNT 0 1).wr R.GLB_START_PHASE_STEP 0 2).driveFaultN

end Sys2Proof.Machine
end

