-- ==== Sys2Proof/Machine/Loader.lean ====
section
/-! DEFINITION. The configuration loader: checks of an image, the slot selector, and how an image sets fields, tables, domains,
coefficients and the plan (R591 to R599, R604, R614, R692). -/

namespace Sys2Proof.Machine

/-! ### Checks (R599, R601, R614, R616) -/

/-- Why an image is refused: the byte offset of the first failing field, a security version below the fused one, a signature that
is required and absent or failing. -/
def State.imageFails (s : State) (w : List Word) : Option Cpl :=
  match imageBad w with
  | some off => some { status := .badDesc, code := off }
  | none =>
    if svnOf (readImage w) < s.img.fused then some { status := .denied, code := 2 }
    else if s.img.keyset && (imageFmt w ≠ 2 || !signatureOk w s.img.keyHash) then some { status := .denied, code := 3 }
    else none

/-- The same for what a slot holds; an erased slot fails at its first byte. -/
def State.slotFails (s : State) (slot : Nat) : Option Cpl :=
  match s.img.bytesOf slot with
  | some w => s.imageFails w
  | none => some { status := .badDesc, code := 0 }

/-- The slot is good (R600). -/
def State.good (s : State) (slot : Nat) : Bool := (s.slotFails slot).isNone

/-! ### The slot selector (R594, R595) -/

/-- The slot of a source code of IMG_STATUS, 2 for the factory values and for a recovery image. -/
def slotOfSrc (src : Nat) : Nat := if src = 1 then 0 else if src = 2 then 1 else 2

def srcOfSlot (slot : Nat) : Nat := if slot = 0 then 1 else if slot = 1 then 2 else 0

/-- The record that a flash without a valid copy begins with (log 43). -/
def Img.firstSelector (g : Img) : Selector :=
  { seq := 0, active := slotOfSrc g.src, prev := slotOfSrc g.src, trial := false, armed := false, trialS := 0, validA := false
    validB := false, hours := 0, whoursA := 0, whoursB := 0, verA := 0, verB := 0 }

/-- Flash address of a slot (R593). -/
def slotAddr (slot : Nat) : Nat := 0x100000 + slot * 0x400000

/-- The 64 bytes of a selector record (R594). -/
def Selector.words (x : Selector) : List Nat :=
  let b (n : Nat) : Nat := n % 2 ^ 32
  let w := [0x50534C53 + b x.seq * 2 ^ 32,
    x.active % 4 + x.prev % 4 * 2 ^ 2 + boolNat x.trial * 2 ^ 4 + boolNat x.armed * 2 ^ 5 + boolNat x.validA * 2 ^ 8 + boolNat x.validB * 2 ^ 9
      + 2 ^ 16 + x.trialS % 2 ^ 10 * 2 ^ 32,
    b x.hours + b x.whoursA * 2 ^ 32, b x.whoursB, b x.verA + b x.verB * 2 ^ 32, 0, 0]
  w ++ [crc32c w]

/-- Change the selector: the copy that does not govern is erased and takes the new record. -/
def State.writeSelector (f : Selector → Selector) (s : State) : State :=
  let old := s.img.sel.getD s.img.firstSelector
  let new := { f old with seq := (old.seq + 1) % 2 ^ 32 }
  let copy := match s.img.selCopy with
    | some 0 => 1
    | _ => 0
  (s.onImg fun g => { g with sels := g.sels.set copy (some new) }).emit (.flash (copy * 0x10000) new.words)

/-- The record with the VALID bit of a slot. -/
def Selector.mark (x : Selector) (slot : Nat) (valid : Bool) : Selector :=
  if slot = 0 then { x with validA := valid } else { x with validB := valid }

def Selector.valid (x : Selector) (slot : Nat) : Bool := if slot = 0 then x.validA else x.validB

/-- WHOURS and VER of a slot just written. -/
def Selector.stamp (x : Selector) (slot version : Nat) : Selector :=
  if slot = 0 then { x with whoursA := x.hours, verA := version } else { x with whoursB := x.hours, verB := version }

/-- Hours since a slot was written. -/
def Selector.age (x : Selector) (slot : Nat) : Nat := x.hours - if slot = 0 then x.whoursA else x.whoursB

def State.putSlot (slot : Nat) (i : Option (List Word)) (s : State) : State :=
  s.onImg fun g => if slot = 0 then { g with slotA := i } else { g with slotB := i }

/-! ### Fields (R11, R591, R592, R692) -/

/-- The value that an image gives a field: that of its last record for the register, or the factory value. -/
def imageField (i : Option Image) (off : Nat) (f : Field) : Nat :=
  match (i.map fun x => x.setup).bind fun l => l.reverse.find? fun r => r.1.toNat = off with
  | some r => getBits r.2 f.lo f.width
  | none => f.reset

/-- Fields of a register that an image sets (R597). -/
def RegRow.starred (r : RegRow) : List Field := r.fields.filter fun f => f.img

/-- One register as the new image has it: a record with a starred value out of range is discarded whole; a field takes the value when it
differs from the running image's; a locked field keeps its value (R592). Discards carry PATH 2. -/
def State.loadRegister (old new : Option Image) (off : Nat) (s : State) : State :=
  match findReg off with
  | none => s.discard 2 3 off ((imageWord new off).toNat)
  | some (r, n) =>
    let word := imageWord new off
    let fields := r.starred
    if fields.any (s.outOfRange off n word) then s.discard 2 6 off word.toNat
    else
      let changed := fields.filter fun f => imageField new off f ≠ imageField old off f
      let act (f : Field) : FieldAct := s.fieldAct off n true (setBits word f.lo f.width (imageField new off f)) f
      let takes := changed.filter fun f => act f = .take
      let v := takes.foldl (fun w f => setBits w f.lo f.width (imageField new off f)) (s.reg off)
      let s' := s.takeFields off r (fun f => takes.contains f) v
      match changed.find? fun f => act f ≠ .take && act f ≠ .keep with
      | some f => s'.discard 2 (match act f with
          | .drop c => c
          | _ => 0) off word.toNat
      | none => s'
where
  /-- VALUE of the last record for a register, the factory values of its starred fields without one. -/
  imageWord (i : Option Image) (off : Nat) : Word :=
    match (i.map fun x => x.setup).bind fun l => l.reverse.find? fun r => r.1.toNat = off with
    | some r => r.2
    | none => regDefault off

/-- Offsets that the records of an image name, in order. -/
def setupOffsets (i : Option Image) : List Nat := ((i.map fun x => x.setup).getD []).map fun r => r.1.toNat

/-- Registers that the new image sets, then those that only the old one set. -/
def loadOffsets (old new : Option Image) : List Nat :=
  let a := (setupOffsets new).eraseDups
  a ++ (setupOffsets old).eraseDups.filter fun o => !a.contains o

/-- Registers with a starred field that the new image changes. -/
def changedRegisters (old new : Option Image) : Nat :=
  ((loadOffsets old new).filter fun off => match findReg off with
    | some (r, _) => r.starred.any fun f => imageField new off f ≠ imageField old off f
    | none => false).length

def State.loadSetup (old new : Option Image) (s : State) : State := s.forAll (loadOffsets old new) fun off t => t.loadRegister old new off

/-! ### Tables (R597, R604) -/

/-- The place that a record writes. -/
def recPlace (r : TabRec) : Nat × Bool × Nat × Nat × Nat :=
  (r.table.toNat, r.table = 2 && r.part, (if r.table = 4 || r.table = 5 then r.domain.toNat else 0), r.index.toNat,
    if r.table = 6 then r.aux.toNat % 16 else if r.table = 7 then r.aux.toNat / 2 ^ 24 % 32 else 0)

/-- Eight targets of a record. -/
def recTargets (r : TabRec) : List Word32 := (List.range 8).map fun i => r.entry.extractLsb' (32 * i) 32

/-- A target list with one half replaced; a list of zeros is no list. -/
def halfList (old : List Word32) (part : Bool) (half : List Word32) : List Word32 :=
  let at_ (i : Nat) : Word32 := old.getD i 0
  let lo := (List.range 8).map at_
  let hi := (List.range 8).map fun i => at_ (8 + i)
  let l := if part then lo ++ half else half ++ hi
  if l.all fun x => x = 0 then [] else l

/-- The write of a record, or of its removal; none: its command would refuse it for a field out of range or a slot beyond its domain's
allocation. -/
def State.recWrite (s : State) (r : TabRec) (clear : Bool) : Option TabWrite :=
  let i := r.index.toNat; let d := r.domain.toNat
  let ifOk (bad : Bool) (w : TabWrite) : Option TabWrite := if bad then none else some w
  match r.table.toNat with
  | 1 => if clear then ifOk (16384 ≤ i) (.win i none) else ifOk (16384 ≤ i || (winBad r.entry).isSome) (.win i (some (winOf r.entry)))
  | 2 =>
    let half := if clear then List.replicate 8 0 else recTargets r
    ifOk (1024 ≤ i || (tlistBad half).isSome) (.tlist i (halfList (Tab.get tlistAt s.tabs.tlists i) r.part half))
  | 3 =>
    let e := r.entry.toNat % 65536
    if clear then ifOk (4096 ≤ i) (.pbr i 0) else ifOk (4096 ≤ i || flag e 7 || 256 ≤ e) (.pbr i e)
  | 4 =>
    let key := ruleKey d i
    let out : Bool := (s.domain d).rules ≤ i
    if clear then ifOk out (.rule key none)
    else ifOk (out || (ruleBad r.entry s.isUpstream).isSome) (.rule key (if ruleValid r.entry then some (ruleOf r.entry) else none))
  | 5 =>
    let out : Bool := (s.domain d).buckets ≤ i
    if clear then ifOk out (.bucket d i none)
    else ifOk (out || (bucketBad r.entry).isSome) (.bucket d i (if bucketValid r.entry then some (bucketOf r.entry) else none))
  | 6 =>
    let w := r.entry.extractLsb' 0 64
    let key := i * 16 + r.aux.toNat % 16
    if clear then ifOk (64 ≤ i) (.rid key RidEnt.none) else ifOk (64 ≤ i || (ridBad w).isSome) (.rid key (ridOf w))
  | 7 =>
    let b : Bind := ⟨(r.aux.extractLsb' 16 6).toNat, d⟩
    ifOk (64 ≤ i || (bindBad r.aux).isSome) (.bind (bindKey r.index r.aux) (if clear || r.aux.getLsbD 29 then none else some b))
  | _ => none

/-- A write that changes nothing: removing what is not there. -/
def State.idleWrite (s : State) : TabWrite → Bool
  | .win i none => (s.winAt i).isNone
  | .bind key none => (Tab.get noneAt s.tabs.binds key).isNone
  | .bucket d slot none => match s.bucket d slot with
    | some b => b.cleared.isSome
    | none => true
  | _ => false

/-- An RT window whose lines are still to be loaded (R283). -/
def State.newRt (s : State) : TabWrite → Option DWin
  | .win i (some w) => if w.rt && s.newUnits i w ≠ [] then some w else none
  | _ => none

/-- Domains that a record names (check 5 of R486). -/
def recDomains (r : TabRec) : List Nat :=
  if r.table = 1 then [(winOf r.entry).domain] else if r.table = 6 then [(ridOf (r.entry.extractLsb' 0 64)).domain] else [r.domain.toNat]

/-- Make one table write of an image; none: its command would refuse it. An RT window waits for its load, at a cold start for its ports
as well (log 41). -/
def State.loadRecord (cold : Bool) (r : TabRec) (clear : Bool) (s : State) : Option State :=
  if s.anyResetting (recDomains r) then none
  else match s.recWrite r clear with
    | none => none
    | some x =>
      if s.idleWrite x then some s
      else match s.newRt x with
        | some w =>
          if (if cold then s.winClash r.index.toNat w else s.winRefused r.index.toNat w).isSome then none
          else some (s.onTabs fun t => { t with rtLoads := t.rtLoads ++ [⟨none, r.index.toNat, w⟩] })
        | none => if (s.refuses x).isSome then none else some (s.put x)

/-- Tables of an image. -/
def tablesOf (i : Option Image) : List TabRec := (i.map fun x => x.tables).getD []

/-- Records to clear: those of the old image whose place the new one does not write. -/
def recordsGone (old new : Option Image) : List TabRec :=
  (tablesOf old).filter fun r => (tablesOf new).all fun x => recPlace x ≠ recPlace r

/-- Records to write: those that the old image does not hold as they are. -/
def recordsNew (old new : Option Image) : List TabRec := (tablesOf new).filter fun r => !(tablesOf old).contains r

/-! ### Domains (R389, R604) -/

def domainsOf (i : Option Image) : List (BitVec 16 × List Word) := (i.map fun x => x.domains).getD []

/-- Words at 0x10, 0x18 and 0x20 of a DOMAIN_CREATE descriptor. -/
def domainWords (w : List Word) : Nat × Nat × Nat := (wordAt w 2, wordAt w 3, wordAt w 4)

def recDomain (w : List Word) : Domain := domainOf (domainWords w).1 (domainWords w).2.1 (domainWords w).2.2

/-- The domain exists with another allocation (code 4). -/
def State.domainDiffers (s : State) (r : BitVec 16 × List Word) : Bool :=
  let x := s.domain r.1.toNat
  x.st ≠ .free && { x with st := DState.active } ≠ recDomain r.2

/-- A record of DOMAINS is a DOMAIN_CREATE descriptor with TAG 0, whose reserved fields are 0 (R485, R500, R597). -/
def domainRecBad (w : List Word) : Bool :=
  let a := wordAt w 0
  bits a 0 16 ≠ 0x0101 || !(bits a 16 8 = 1 || bits a 16 8 = 2) || bits a 24 40 ≠ 0 || bits (wordAt w 1) 16 48 ≠ 0
    || [5, 6, 7].any fun k => wordAt w k ≠ 0

/-- Create a domain of an image; none: DOMAIN_CREATE would refuse it. -/
def State.loadDomain (r : BitVec 16 × List Word) (s : State) : Option State :=
  let n := r.1.toNat
  if (s.domain n).st ≠ .free then some s
  else if n = 0 || 4095 < n || domainRecBad r.2 || (domainBad (domainWords r.2).1 (domainWords r.2).2.2).isSome || s.poolLacks (recDomain r.2) then none
  else some ((s.setDomain n (recDomain r.2)).zeroScratches n)

def domainsNew (old new : Option Image) : List (BitVec 16 × List Word) := (domainsOf new).filter fun r => !(domainsOf old).contains r

/-! ### The whole image -/

/-- Coefficients that an image gives. -/
def imageCoef (i : Option Image) : List Nat :=
  match i.bind fun x => x.coef with
  | some t => coefOf t
  | none => Bel.factoryCoef

def coefRefused (i : Option Image) : Bool := match i.bind fun x => x.coef with
  | some t => (coefBad t).isSome
  | none => false

/-- The coefficients change when the two images give different ones (R591). -/
def State.loadCoef (old new : Option Image) (s : State) : State :=
  if imageCoef old = imageCoef new || coefRefused new then s else s.onBel fun b => { b with coef := imageCoef new }

/-- A PLAN that passes becomes the pending plan, switched at the first boundary not fixed yet (R602). -/
def State.loadPlan (p : Plan) (s : State) : State :=
  let k := s.firstUnfixed
  (s.setPending p).onPit fun x => { x with switches := x.switches ++ [⟨none, k, 0⟩] }

/-- The plan object that the new image brings, when it differs from the old one's. -/
def planNew (old new : Option Image) : Option (List Word) :=
  let p (i : Option Image) : Option (List Word) := i.bind fun x => x.plan
  if p old = p new then none else p new

/-- SH windows that the new image changes or removes, each as it stands now (R604, R612). -/
def State.shChanged (s : State) (old new : Option Image) : List DWin :=
  let same (a b : DWin) : Bool := { a with epoch := 0 } = { b with epoch := 0 }
  (recordsGone old new ++ recordsNew old new).filterMap fun r =>
    if r.table.toNat ≠ 1 then none
    else match s.winAt r.index.toNat with
      | some w =>
        if w.kind && !((recordsNew old new).any fun x => x.table.toNat = 1 && x.index = r.index && same (winOf x.entry) w) then some w else none
      | none => none

/-- A line with a directory entry or an OLC way lies in the window's FA range. -/
def State.holdsLine (s : State) (w : DWin) : Bool := (s.linesIn (w.faRange.1 * mib2) (w.faRange.2 * mib2)) ≠ []

/-- What a warm load comes to: refused with a code, or the state with the new values. -/
inductive Loaded where
  | refused (code : Nat)
  | done (s : State)
  deriving DecidableEq, Repr

/-- Fold a load that may be refused. -/
def State.tryAll {α : Type} (l : List α) (f : α → State → Option State) (s : State) : Option State :=
  l.foldl (fun o a => o.bind (f a)) (some s)

/-- Every write of a warm load but fields and plan; none: a command would refuse one of them (code 5). -/
def State.loadTables (old new : Option Image) (s : State) : Option State :=
  match s.openEpoch.tryAll (domainsNew old new) fun r t => t.loadDomain r with
  | none => none
  | some s =>
    match s.tryAll (recordsGone old new) fun r t => t.loadRecord false r true with
    | none => none
    | some s => s.tryAll (recordsNew old new) fun r t => t.loadRecord false r false

/-- The checks of R604 in the order of their codes, and the load. The check of R84 takes P_static,105 with the port roles and rates as
they stand before the fields of the image are written (DESIGN CHOICE, log 81). -/
def State.warmLoad (old new : Option Image) (s : State) : Loaded :=
  if (s.shChanged old new).any s.holdsLine then .refused 1
  else if (domainsNew old new).any s.domainDiffers then .refused 4
  else
    match s.loadTables old new with
    | none => .refused 5
    | some t =>
      let t := (t.loadSetup old new).loadCoef old new
      if coefRefused new || !s.energyChangeOk t.energyIn then .refused 6
      else match planNew old new with
        | none => .done t
        | some w =>
          match t.admitPlan w with
          | .bad _ => .refused 0x11
          | .refused c => .refused (0x10 + c)
          | .admitted p => .done (t.loadPlan p)

/-- The load of a cold start over the factory values: a record that its command would refuse is left out (log 41). -/
def State.coldLoad (new : Option Image) (s : State) : State :=
  let skip {α : Type} (f : α → State → Option State) (a : α) (t : State) : State := (f a t).getD t
  let s := (s.loadSetup none new).loadCoef none new
  let s := s.forAll (domainsOf new) (skip fun r t => t.loadDomain r)
  let s := s.forAll (tablesOf new) (skip fun r t => t.loadRecord true r false)
  match planNew none new with
  | none => s
  | some w => match s.admitPlan w with
    | .admitted p => s.loadPlan p
    | _ => s

/-- Records that a warm load writes (R603). -/
def recordsWritten (old new : Option Image) : Nat :=
  changedRegisters old new + (domainsNew old new).length + (recordsGone old new).length + (recordsNew old new).length

end Sys2Proof.Machine
end

