-- ==== Sys2Proof/Machine/Replay.lean ====
section
/-! DEFINITION. Replay of a record on a lab unit (R579, R586 to R590): its CCLK edges hold at what is not read yet. -/

namespace Sys2Proof.Machine

/-! ### Loading CONFIG (R577, R587) -/

/-- The table record that a CFG item stands for (R564, R597). -/
def itemRec (table index : Nat) (e : Entry) : TabRec :=
  let r (d i aux : Nat) : TabRec := ⟨BitVec.ofNat 8 table, table = 2 && index % 2 = 1, BitVec.ofNat 12 d, BitVec.ofNat 32 i, BitVec.ofNat 32 aux, e⟩
  match table with
  | 2 => r 0 (index / 2) 0
  | 4 => r (index / 4096) (index % 4096) 0
  | 5 => r (index / 1024) (index % 1024) 0
  | 6 => r 0 (index / 16) (index % 16)
  | 7 => r (entWord e 0 / 2 ^ 16) (index / 32) (index % 32 * 2 ^ 24 + entWord e 0 % 64 * 2 ^ 16)
  | _ => r 0 index 0

/-- The write of a CFG item of a table; rules and buckets stand whatever their domain's allocation is on this unit. An entry of zeros is no
entry. -/
def State.cfgWrite (s : State) (table index : Nat) (e : Entry) : Option TabWrite :=
  let r := itemRec table index e
  if table = 4 then some (.rule index (if ruleValid e then some (ruleOf e) else none))
  else if table = 5 then some (.bucket r.domain.toNat r.index.toNat (if bucketValid e then some (bucketOf e) else none))
  else s.recWrite r (table ≠ 6 && table ≠ 2 && e = 0)

/-- A setup register takes the recorded value of its fields that are not read-only. -/
def State.cfgRegister (off : Nat) (v : Word) (s : State) : State :=
  match findReg off with
  | some (r, _) => s.setReg off (mergeFields r.fields (fun f => f.acc ≠ .ro) v (s.reg off))
  | none => s

/-- A CFG item acts. -/
def State.takeCfg (i : RecItem) (s : State) : State :=
  let w (k : Nat) : Nat := i.words.getD k 0
  let table := bits (w 0) 0 8
  let index := bits (w 0) 8 32
  match s.cfgWrite table index (entryOf (w 1) (w 2) (w 3) (w 4)) with
  | some x => s.put x
  | none => if table = setupCode then s.cfgRegister index (BitVec.ofNat 64 (w 1)) else s

/-- Tables, coefficients, setup fields and plans are those of the record. -/
def State.loadConfig (w : List Word) (s : State) : State :=
  let x := configOf w
  let s := s.onTabs fun t => { Tabs.init with refresh := t.refresh }
  let s := s.onDom fun d => { d with rules := [], rids := [] }
  let s := s.forAll x.1 State.takeCfg
  let s := s.onBel fun b => { b with coef := coefOf x.2.1.coef }
  let s := s.forAll x.2.2 State.takeCfg
  let placed (p : Plan) : Plan := { p with place := (s.placePlan p).getD [] }
  let now := placed (planOf x.2.1.current)
  let s := s.onPit fun p => { p with current := now, pendingPlan := x.2.1.next.map fun w => placed (planOf w) }
  s.onEng fun g => { g with place := now.place.map some }

/-! ### Loading STATE -/

/-- State of a port, and of an engine, by its code. -/
def portOfCode (c : Nat) : PState :=
  [PState.off, .powerUp, .training, .up, .active, .quiesce, .flush, .flushWait, .released].getD c .off

def engineOfCode (c : Nat) : EState := [EState.idle, .running, .loading, .failed, .retired].getD c .idle

/-- The ways of the directory, and those of the OLC with their set, that the recorded sets hold. -/
def recordDir (b : List Nat) : List (Nat × DirEnt) :=
  (readSets homeSets 0 b).1.flatMap fun e => e.2.1.map fun y => (16 * e.1 + y.1, dirOf e.1 y.2)

@[inherit_doc recordDir] def recordTags (b : List Nat) : List (Nat × Nat × Nat) :=
  (readSets homeSets 0 b).1.flatMap fun e => e.2.2.1.map fun y => (16 * e.1 + y.1, e.1, y.2)

/-- The data of the recorded line `la`: an RTDATA section holds those of the resident lines in order of FA; the others stand in no record
and are free values (log 3). -/
def recordData (tags : List (Nat × Nat × Nat)) (rt : List Nat) (f la : Nat) : Line :=
  let las := ((tags.map fun e => olcOf e.2.1 e.2.2 0).filter OlcEnt.rt).map OlcEnt.la |>.mergeSort fun a b => Nat.ble a b
  match (List.range las.length).find? fun i => las.getD i 0 = la && 64 * i + 64 ≤ 8 * rt.length with
  | some i => BitVec.ofNat 512 (((rt.drop (8 * i)).take 8).foldr (fun w a => w + 2 ^ 64 * a) 0)
  | none => Config.freeLine f

/-- The ways of the OLC as recorded. -/
def recordOlc (b rt : List Nat) (f : Nat) : List (Nat × OlcEnt) :=
  let tags := recordTags b
  (List.zip tags (List.range tags.length)).map fun e =>
    (e.1.1, olcOf e.1.2.1 e.1.2.2 (recordData tags rt (f + e.2) (olcOf e.1.2.1 e.1.2.2 0).la))

/-- A table of the listed entries. -/
def tabOf {α : Type} [DecidableEq α] (d : Nat → α) (l : List (Nat × α)) : Tab α := l.foldl (fun t e => Tab.set d t e.1 e.2) []

/-- The directory, the OLC and their ages as recorded. -/
def State.loadHome (b rt : List Nat) (s : State) : State :=
  let ages (k : List Nat × List Nat → List Nat) : Tab (List Nat) :=
    tabOf agesAt ((readSets homeSets 0 b).1.map fun e => (e.1, k e.2.2.2))
  (s.onHome fun h =>
    { h with
        dir := tabOf noneAt ((recordDir b).map fun e => (e.1, some e.2))
        olc := tabOf noneAt ((recordOlc b rt s.free).map fun e => (e.1, some e.2))
        dirAge := ages Prod.fst, olcAge := ages Prod.snd }).takeFree (recordTags b).length

/-- The switch core as recorded. -/
def Fab.loaded (x : FixedPart) (g : Fab) : Fab :=
  { g with
      arbs := Vector.ofFn fun (i : Fin 88) => { g.arbs[i.val] with rrs := x.arbRr.getD i.val [], deficit := x.deficit.getD i.val [] }
      columns := Vector.ofFn fun (i : Fin 88) => { g.columns[i.val] with rr := x.colRr.getD i.val 0 }
      flowSeq := tabOf natAt x.flowSeq, expect := tabOf natAt x.expect, epoch := x.epoch % 65536, used := false }

/-- The program of handle and words `h` of a domain, from the bytes at the front, and the bytes that follow. -/
def takeProgram (domain : Nat) (c : Eng × List Nat) (h : Nat × Nat) : Eng × List Nat :=
  let code := (packWords (c.2.take (8 * h.2))).map (BitVec.ofNat 64)
  ({ c.1 with progs := Tab.set noneAt c.1.progs (domain * 4096 + h.1) (some ⟨code, 0, 0, ⟨0, 0, 0⟩, 0, 0⟩) }, c.2.drop (8 * h.2))

/-- The scratch page of an engine and a domain, and the bytes that follow. -/
def takeScratch (page bytes : Nat) (c : Eng × List Nat) : Eng × List Nat :=
  let m := (List.range bytes).foldl (fun m i => Memory.writeByte m (page * 2 ^ 18 + i) (BitVec.ofNat 8 (c.2.getD i 0))) c.1.scratch
  ({ c.1 with scratch := m }, c.2.drop bytes)

/-- The programs and scratch pages of an engine's domain from the bytes at the front, and the bytes that follow. -/
def takePages (x : Nat × Nat × List (Nat × Nat) × Nat) (a : Eng × List Nat) : Eng × List Nat :=
  takeScratch (x.1 * 4096 + x.2.1) x.2.2.2 (x.2.2.1.foldl (takeProgram x.2.1) a)

/-- STATE is loaded: its fixed part, the homes when the record has them, the pages of the scoped engines (R577). -/
def State.loadState (w rt : List Word) (homes : Bool) (s : State) : State :=
  let x := Config.fixedPart (w.take fixedWords)
  let b := unpackWords ((w.drop fixedWords).map BitVec.toNat)
  let s := s.onFab (Fab.loaded x)
  let s := s.forAll x.tokens fun e t => t.onBucket e.1 fun b => { b with tokens := e.2, load := false }
  let s := s.onBel fun b => { b with g := x.g, u := x.u, kappa := x.kappa, idx := x.idx }
  let s := s.onPorts fun v => Vector.ofFn fun (i : Fin 64) => match x.ports[i.val]? with
    | some e => { v[i.val] with gen := e.1, state := portOfCode e.2 }
    | none => v[i.val]
  let s := s.onEng fun g =>
    { g with
        engs := Vector.ofFn fun (i : Fin 64) => match x.engines[i.val]? with
          | some c => { g.engs[i.val] with st := engineOfCode c, item := none }
          | none => g.engs[i.val] }
  let s := if homes then s.loadHome b (rt.map BitVec.toNat) else s
  let pages := if homes then (readSets homeSets 0 b).2 else b
  s.onEng fun g => (x.pages.foldl (fun a p => takePages p a) (g, pages)).1

/-! ### REC_REPLAY (R586, R587) -/

/-- The record wrapped: what follows its STATE or RTDATA section is not the epoch of its quiesce point (R581). -/
def recordWrapped (w : List Word) (l : List RecSection) : Bool :=
  flag (wordAt w 1) 17 && match l.find? fun x => x.type = 0x10, l.head? with
    | some e, some c => e.tick ≠ c.tick || e.cont
    | _, _ => false

/-- A GAP stands before the first EPOCH section. -/
def gapFirst (l : List RecSection) : Bool := ((l.find? fun x => x.type = 0x10 || x.type = 0x11).map RecSection.type) = some 0x11

/-- R579 and R586 refuse the record. -/
def State.replayRefused (s : State) (w : List Word) : Bool :=
  let l := sectionsOf w
  field w 4 32 ≠ 0x544C4F44 || field w 0 8 ≠ 1 || l.any (fun x => x.fmt ≠ 1) || field w 2 16 ≠ s.rd R.GLB_ID_DEVICE
    || field w 1 8 ≠ s.rd R.GLB_ID_STEP || gapFirst l || recordWrapped w l
    || (s.portEndpoints (s.lowest s.mgrPort)).any (fun e => flag (wordAt w 2) e)
    || (List.range 64).any fun n => s.isLowest n && n ≠ s.lowest s.mgrPort && (s.portN n).state ≠ .off

/-- What a record presents to the core: the items of its EPOCH sections and its gaps, up to END. -/
def feedAll (start : Nat) (l : List RecSection) : List Feed :=
  l.flatMap fun x =>
    -- the tick whose low 32 bits the header holds
    let tick := start + (x.tick + 2 ^ 32 - start % 2 ^ 32) % 2 ^ 32
    if x.type = 0x10 then feedOf x.body.length tick (x.off + 32) x.body
    else if x.type = 0x11 then [⟨tick, x.off, none⟩] else []

/-- The scope that the record's header names. -/
def recordScope (h : Hdr) (w : List Word) : RecCfg :=
  { hdr := h, ports := BitVec.ofNat 64 (wordAt w 2), engs := BitVec.ofNat 64 (wordAt w 3), base := 0, len := 0, full := flag (wordAt w 1) 16
    wrap := flag (wordAt w 1) 17, homes := flag (wordAt w 1) 18, domain := 0, offset := 0, wins := [], tick := bits (wordAt w 4) 0 48 }

/-- The record is loaded: CONFIG, STATE, FTIME of B_s, and the core stands at Q. -/
def State.loadRecordOf (h : Hdr) (w : List Word) (report : Nat) (s : State) : State :=
  let l := sectionsOf w
  let c := recordScope h w
  let period := max 1 (field w 0x30 22)
  let ns := field w 0x34 32 * 5 / 8
  let b0 := wordAt w 5
  let n := ns / period
  let s := (s.loadConfig (bodyOfType l 1)).loadState (bodyOfType l 2) (bodyOfType l 3) c.homes
  let s := s.onPit fun p =>
    { p with
        ftime := b0 + ns, frac := 0, bk := b0 + n * period, tick := c.tick + n, period := period, fixed := [], switches := [], steps := []
        stopAfter := false }
  s.onRec fun r =>
    { r with
        st := .replay, cfg := some c, id := field w 0x0C 32, replay := some h, replayed := 0, report := report, span := ns % period / 2560
        digests := [], rdy := [], feed := feedAll c.tick l, fed := 0, want := [], spanOff := none }

/-- REC_REPLAY: the record is loaded, and the unit replays it from its quiesce point. -/
def execRecReplay (h : Hdr) (addr : Word) (length : Nat) (rec : List Word) (report : Word) (s : State) : Host.Outcome State Fault Refusal :=
  .next (s.manager h [] none fun s =>
    let at_ (a : Word) : HRef := ⟨1, Fin.ofNat 64 s.mgrPort, a⟩
    s.withObject h (at_ addr) length needR fun s => s.withObject h (at_ report) 64 needW fun s =>
      let w := rec.take (length / 8)
      if !recordSound w then s.bad h 0xFC
      else if s.replayRefused w then s.denied h 0
      else if s.rec_.st ≠ .idle then s.done h .busy
      else s.loadRecordOf h w report.toNat)

/-! ### One CCLK of a replay (R587, R588) -/

/-- The whole device is in scope: Bellows is computed, and its GOV items are checked. -/
def State.replayWhole (s : State) : Bool :=
  match s.rec_.cfg with
  | some c => c.ports = BitVec.allOnes 64 && c.engs = BitVec.allOnes 64 && c.homes
  | none => false

/-- The message of an IN item, as its slice hands it to L1. -/
def itemMsg (s : State) (i : RecItem) : InMsg :=
  let head : BitVec 320 := BitVec.ofNat 320 ((i.words.drop 4).foldr (fun w a => w % 2 ^ 64 + 2 ^ 64 * a) 0)
  { Config.headMessage head with
      src := .port (Fin.ofNat 64 i.unit), head := head, rdy := bits (i.words.getD 1 0) 20 4 = 0, body := [], poison := false, cu := 0
      sc0 := flag (i.words.getD 1 0) 62 && 1 ≤ (s.portN (s.lowest i.unit)).negVer }

/-- The message of an ADM item, as it stands before its column. -/
def State.admMsg (s : State) (i : RecItem) : Msg :=
  let x := itemMsg s i
  let a := i.words.getD 1 0; let b := i.words.getD 2 0; let c := i.words.getD 3 0
  let dst := bits a 7 7
  let n := bits a 20 4
  { id := s.fab.nextId, src := bits a 0 7, dst := dst, cls := bits a 14 3, proto := bits a 17 3, ncell := n, domain := bits a 24 12
    epoch := bits a 36 16, gen := bits a 52 8, sf := flag a 60, sh := flag a 61, sc0a := flag a 62, addr := bits b 0 46 * 64, seq := bits b 46 16
    np := flag c 32, stamp := bits c 0 32, hs := bits c 39 4, win := bits c 43 5, head := x.head, body := List.replicate n ⟨0, false⟩
    input := bits a 0 7, port := if dst < 64 then s.lowest dst else dst, ld := x.ld, pbr := none, kind := x.kind, tag := x.tag, status := .ok
    owed := none, flush := false, last := n = 0, bad := false, skip := false, held := false, queued := false, since := 0, started := false
    restarts := 0, safIn := flag a 60, from_ := if bits a 0 7 < 64 then .port (Fin.ofNat 64 (bits a 0 7)) else .recorder, bytes := x.len
    final := x.final, waited := false, ch := chanOf x.kind, group := s.fab.nextId, units := 0 }

/-- An ADM item: its message is admitted. -/
def State.takeAdm (i : RecItem) (s : State) : State :=
  let m := s.admMsg i
  (s.onFab fun f => { f with msgs := f.msgs ++ [m], nextId := f.nextId + 1 }).ledgerAdd m.epoch |>.admitMsg m

/-- A TAIL item: the message that it names has its cells. -/
def State.takeTail (i : RecItem) (s : State) : State :=
  let a := i.words.getD 0 0
  match s.fab.msgs.find? fun m => !m.last && (m.input = i.unit || m.dst = i.unit) && m.seq % 2 ^ 16 = bits a 0 16 && m.src = bits a 16 7 && m.cls = bits a 23 3 with
  | none => s
  | some m =>
    let cell (k : Nat) : Cell :=
      ⟨BitVec.ofNat 512 (((i.words.drop (1 + 8 * k)).take 8).foldr (fun w a => w % 2 ^ 64 + 2 ^ 64 * a) 0), flag a (27 + k)⟩
    s.onMsg m.id fun x => { x with last := true, bad := flag a 35, body := (List.range m.ncell).map cell }

/-- A SIDE item: the state of a link or of a pin that it reports, by its SUB code (log 3). -/
def State.takeSide (i : RecItem) (s : State) : State :=
  let v := bits (i.words.getD 0 0) 8 24
  let n := i.unit
  let is (k : Nat) : Bool := bits (i.words.getD 0 0) 0 8 = (Config.sideCode k).toNat
  if is 0 then s.onPortN n fun p => { p with prsnt := v ≠ 0, prsntRaw := v ≠ 0 }
  else if is 1 then s.onPortN n fun p => { p with pwrgd := v ≠ 0 }
  else if is 3 then
    if v ≠ 0 then s.onPortN n fun p => { p with state := if p.state.linked then p.state else .up }
    else if (s.portN n).canFall then s.declareDown n 1 false else s
  else if is 4 then s.onPortN n fun p => { p with width := v % 16, trained := v % 16, rate := v / 16 }
  else if is 5 then s.onPortN n fun p => { p with width := v }
  else s

/-- An ECC item: the error that a check found, by its CHECKER (R558). -/
def State.takeEcc (i : RecItem) (s : State) : State :=
  let a := i.words.getD 0 0
  let c := bits a 0 8
  let unc := flag a 40
  if 3 ≤ c && c ≤ 7 then s.homeError (Fin.ofNat 16 i.unit) c (i.unit * 32768 + bits a 8 32) unc
  else if c = 2 && unc then s.columnFault i.unit
  else if c = 1 && unc then
    match s.reading i.unit with
    | some m => s.cellError m 0
    | none => s
  else s

/-- A GOV item: Bellows is as recorded, or, where it is computed, an item that differs ends the replay (R587). -/
def State.takeGov (i : RecItem) (s : State) : State :=
  let a := i.words.getD 0 0
  let same : Bool := s.bel.g = bits a 0 5 && s.bel.slack = flag a 8
  if s.replayWhole then (if same then s else s.onRec fun r => { r with want := i :: r.want })
  else s.onBel fun b => { b with g := bits a 0 5, slack := flag a 8 }

/-- A SENS item: T is the highest of the temperatures of one sample (R448). -/
def State.takeSens (i : RecItem) (s : State) : State :=
  let t := (BitVec.ofNat 64 (i.words.getD 0 0)).toInt
  if !s.replayWhole || 20 ≤ i.unit then s
  else s.onBel fun b => { b with temp := if i.unit = 0 then t else max b.temp t }

/-- An item of the record acts in its CCLK (R587). -/
def State.takeItem (i : RecItem) (s : State) : State :=
  match i.kind with
  | 0x01 => s.takeIn (itemMsg s i)
  | 0x02 => s.takeAdm i
  | 0x03 => s.takeTail i
  | 0x04 => s.onRec fun r => { r with rdy := Tab.set natAt r.rdy i.unit (bits (i.words.getD 0 0) 0 8) }
  | 0x05 => s.takeGov i
  | 0x06 => s.takeSens i
  | 0x07 => s.takeSide i
  | 0x08 => s.takeEcc i
  | 0x09 => s.onPit fun p => { p with rate := i.words.getD 0 0 }
  | 0x0A => s.takeCfg i
  | 0x0C => s.onRec fun r => { r with want := r.want ++ [i] }
  | _ => s

/-- An entry of the record belongs to a CCLK that has come. -/
def State.feedDue (s : State) (x : Feed) : Bool :=
  x.tick < s.pit.tick || (x.tick = s.pit.tick && match x.item with
    | some i => i.cclk ≤ s.cclkInTick
    | none => true)

/-- The digest span in progress has ended, and its digests are still to be compared. -/
def State.spanOver (s : State) : Bool := 4096 * (s.rec_.span + 1) ≤ s.cclkInTick

/-- Entries of the record that belong to the CCLK that has come. -/
def State.feedNow (s : State) : List Feed := s.rec_.feed.takeWhile s.feedDue

/-- The items of the next CCLK are read: an entry behind them is, or all of the record (R588). -/
def State.feedRead (s : State) : Bool := s.feedNow.length < s.rec_.fed || s.rec_.feed.length ≤ s.rec_.fed

/-- The items of the CCLK act. -/
def State.presentItems (s : State) : State :=
  let l := s.feedNow
  let first := (l.head?.map Feed.off).getD 0
  let s := s.onRec fun r =>
    { r with
        feed := r.feed.drop l.length, fed := r.fed - l.length
        spanOff := if l = [] then r.spanOff else some (r.spanOff.getD first) }
  s.forAll (l.filterMap Feed.item) State.takeItem

/-- The core is held: nothing is replayed, a span's digests are still to be compared, items are not read, or a gap stands (R588, R589). -/
def State.replayHeld (s : State) : Bool :=
  s.rec_.replay.isNone || s.spanOver || !s.feedRead || s.feedNow.any fun x => x.item.isNone

/-- A CCLK of the replay passes. -/
def State.replayCclk (s : State) : State :=
  ((s.passCclk 1).onPit Pitch.edge).onRec fun r => { r with scan := r.scan + 1, replayed := r.replayed + 1 }

/-- One edge of CCLK in a replay: more of the record is read, a free amount of it; the core is held while the items of the next CCLK are not
read (R588), at a gap, and while the digests of a span that has ended are still to be compared (R589). -/
def State.replayEdge (s : State) : State :=
  let s := (s.onRec fun r => { r with fed := min r.feed.length (r.fed + Config.freeNat s.free) }).nextFree
  if s.replayHeld then s else s.presentItems.replayCclk

/-! ### The end of a span (R589, R590) -/

/-- The first endpoint whose digest differs from the record's, with the recorded and the observed one; a GOV item that differs counts
before them. -/
def State.spanDiff (s : State) : Option (Nat × Digest × Digest) :=
  let wanted (e : Nat) : Option Digest :=
    (s.rec_.want.find? fun i => i.kind = 0x0C && i.unit = e && bits (i.words.getD 0 0) 48 16 = s.rec_.span % 2 ^ 16).map fun i =>
      ⟨bits (i.words.getD 0 0) 0 32, bits (i.words.getD 0 0) 32 16⟩
  let seen (e : Nat) : Option Digest := (s.rec_.digests.find? fun d => d.1 = e).map fun d => ⟨d.2.crc, d.2.count % 65536⟩
  if s.rec_.want.any fun i => i.kind = 0x05 then some (0, ⟨0, 0⟩, ⟨0, 0⟩)
  else ((List.range 88).find? fun e => wanted e ≠ seen e).map fun e => (e, (wanted e).getD ⟨0, 0⟩, (seen e).getD ⟨0, 0⟩)

/-- OUTCOME, when the replay stops here, with what its report says: a gap, a digest that differs, is missing or in surplus, the end of
the record (R589). -/
def State.replayOutcome (s : State) : Option (Nat × Nat × Digest × Digest) :=
  let none_ : Nat × Digest × Digest := (0, ⟨0, 0⟩, ⟨0, 0⟩)
  match s.spanDiff with
  | some d => some (1, d)
  | none =>
    if (s.feedNow.any fun x => x.item.isNone) then some (2, none_) else if s.rec_.feed = [] then some (0, none_) else none

/-- The report of R590. -/
def State.replayReport (s : State) (outcome unit : Nat) (want seen : Digest) : List Nat :=
  [1 + outcome * 2 ^ 8 + 0x0050 * 2 ^ 16 + s.rec_.id % 2 ^ 32 * 2 ^ 32,
   s.pit.tick % 2 ^ 48 + s.rec_.span % 2 ^ 16 * 2 ^ 48,
   seen.crc + want.crc * 2 ^ 32,
   unit + seen.count * 2 ^ 32 + want.count * 2 ^ 48,
   s.rec_.replayed, s.rec_.spanOff.getD 0, 0, 0]

/-- REPLAY_SPAN_END: a span has ended, or the record has. Its digests are compared; at a difference, at a gap and at the end of the
record the replay stops and reports. -/
def execReplaySpanEnd (s : State) : Host.Outcome State Fault Refusal :=
  .next (match s.rec_.st, s.rec_.replay with
  | .replay, some h =>
    if !(s.spanOver || s.rec_.feed = [] || s.feedNow.any fun x => x.item.isNone) then s
    else
      match s.replayOutcome with
      | none => s.onRec fun r => { r with span := r.span + 1, digests := [], want := [], spanOff := none }
      | some o =>
        let s := s.emit (.hostWrite 1 s.mgrPort s.rec_.report (s.replayReport o.1 o.2.1 o.2.2.1 o.2.2.2))
        (s.onRec fun r => { r with st := .replayEnded, replay := none, feed := [] }).complete h { status := .ok, result := o.1 }
  | _, _ => s)

end Sys2Proof.Machine
end

