-- ==== Sys2Proof/Machine/Clock.lean ====
section
/-! DEFINITION. One edge of CCLK: what a step does when no command waits (R37, R349, R373; log 6). -/

namespace Sys2Proof.Machine

/-- CCLK runs: core power is up, start-up has passed the lock of the core PLL (step 4 of R636) and the core is not held in
reset. -/
def State.cclkRuns (s : State) : Bool :=
  s.sys.corePower && !s.sys.jtagHold && 5 ≤ s.rd R.GLB_START_PHASE_STEP

/-- One CCLK edge. -/
def State.cclkEdge (s : State) : State :=
  if s.rec_.st = .replay then (if s.cclkRuns then s.replayEdge else s)
  else if s.cclkRuns then
    ((s.passCclk 1).onPit Pitch.edge).onRec fun r => { r with scan := r.scan + 1 }
  else s

end Sys2Proof.Machine
end

