-- ==== Sys2Proof/Machine/Image.lean ====
section
/-! DEFINITION. Configuration images in operation: staging, activation, drain and pause, trial, confirmation and fallback, and the care
of the flash (R600 to R619, R676, R677). -/

namespace Sys2Proof.Machine

/-- No staging, activation, trial or refresh is under way. -/
def State.imageIdle (s : State) : Bool := s.img.phase = .idle

/-- The slot that the device runs from, 2 for none. -/
def State.runSlot (s : State) : Nat := slotOfSrc s.img.src

/-! ### Staging (R601) -/

/-- IMAGE_STAGE: `img` holds the words that the device reads at HADDR, as many as the header's LENGTH says. -/
def execImageStage (h : Hdr) (index : Word32) (o : HRef) (img : List Word) (s : State) : Host.Outcome State Fault Refusal :=
  .next (s.manager h [] (firstBad (indexBad index 2 :: o.bad)) fun s =>
    let slot := index.toNat
    if slot = s.runSlot || !s.imageIdle then s.done h .busy
    else s.withObject h o (imageSpan img) needR fun s =>
      match s.imageFails img with
      | some c => (s.onImg fun g => { g with code := c.code % 256 }).complete h c
      | none =>
        ((s.writeSelector fun x => x.mark slot false).putSlot slot none).onImg fun g =>
          { g with phase := .staging, stage := some (h, slot, img) })

/-- STAGE_PROGRAM_END: `ok` tells whether the read-back matches. -/
def execStageProgramEnd (ok : Bool) (s : State) : Host.Outcome State Fault Refusal :=
  .next (s.whenServing fun s =>
    match s.img.stage with
    | none => s
    | some (h, slot, i) =>
      let s := s.onImg fun g => { g with phase := .idle, stage := none }
      if ok then
        (((s.putSlot slot (some i)).emit (.flash (slotAddr slot) (i.map BitVec.toNat))).writeSelector fun x =>
          (x.mark slot true).stamp slot (field i 12 32)).done h .ok
      else (s.onImg fun g => { g with code := 9 }).denied h 9)

/-! ### Activation: verify (R602, R612) -/

/-- The body of IMAGE_ACTIVATE: byte offset of the first failing field. -/
def activateBad (w10 w18 : Nat) : Option Nat :=
  firstBad
    [(bits w10 48 8 ≠ 0, 0x16), (bits w10 56 7 ≠ 0, 0x17), (bits w18 22 2 ≠ 0, 0x1A), (bits w18 24 8 ≠ 0, 0x1B), (600 < bits w18 32 10, 0x1C),
     (bits w18 42 6 ≠ 0, 0x1D), (bits w18 49 7 ≠ 0, 0x1E), (bits w18 57 7 ≠ 0, 0x1F)]

/-- Seconds of a trial: those of the command, else of the image's HEALTH section, else 30 (R602, R608). -/
def trialSeconds (cmd : Nat) (i : Option Image) : Nat :=
  let own := ((i.bind fun x => x.health).map fun h => h.windowS).getD 0
  if cmd ≠ 0 then cmd else if own ≠ 0 then own else 30

/-- An activation begins with its Verify phase. A SLOT that is the running one's is no other slot (log 44). -/
def State.activate (h : Hdr) (w10 w18 : Nat) (s : State) : State :=
  s.manager h [] (activateBad w10 w18) fun s =>
    let slot := bits w18 56 1
    if !s.imageIdle then s.done h .busy
    else if slot = s.runSlot then s.bad h 0x1F
    else
      let tick := if flag w10 63 then s.pit.tick + 1 else bits w10 0 48
      s.onImg fun g =>
        { g with
            phase := .verify
            act := some
              { hdr := some h, slot := slot, tick := tick, offset := bits w18 0 22, windowS := bits w18 32 10, cold := flag w18 48
                started := s.now, prev := s.runSlot, tries := 0, paused := false, pauseAt := 0, capx0 := 0, miss := 0, trialAt := 0
                fc3 := false, unready := false, evict := [] } }

/-- IMAGE_ACTIVATE. -/
def execImageActivate (h : Hdr) (w10 w18 : Word) (s : State) : Host.Outcome State Fault Refusal :=
  .next (s.activate h w10.toNat w18.toNat)

/-- IMAGE_ACTIVATE_COLD: the same command with COLD set (R612). -/
def execImageActivateCold (h : Hdr) (w10 w18 : Word) (s : State) : Host.Outcome State Fault Refusal :=
  .next (s.activate h w10.toNat (w18 ||| BitVec.ofNat 64 (2 ^ 48)).toNat)

/-- The activation ends before its trial: nothing has changed, and IMAGE_ACTIVATE completes. -/
def State.endActivation (c : Cpl) (s : State) : State :=
  let h := s.img.act.bind fun a => a.hdr
  (s.onImg fun g => { g with phase := .idle, act := none, hold := false, code := c.code % 256 }).tell h c

/-- The image of the slot that an activation names. -/
def State.nextImage (s : State) : Option Image := s.img.act.bind fun a => s.img.slotOf a.slot

/-- Nanoseconds that the flash takes to give an image at 400 MB/s (R593). -/
def readNs (i : Option Image) : Nat := ((i.map fun x => x.length).getD 0) * 5 / 2

/-- ACTIVATE_VERIFY_END: the drain is scheduled, or the activation refused. -/
def execActivateVerifyEnd (s : State) : Host.Outcome State Fault Refusal :=
  .next (s.whenServing fun s =>
    match s.img.act with
    | none => s
    | some a =>
      if s.img.phase ≠ .verify then s
      else
        let s := s.reach (a.started + readNs s.nextImage)
        match s.slotFails a.slot with
        | some c => s.endActivation c
        | none => s.onImg fun g => { g with phase := .drain })

/-! ### Drain (R602, R606, R607) -/

/-- The drain begins: a recording stops, and new messages, dispatch and fetching are held. -/
def State.beginDrain (s : State) : State :=
  let s := if s.rec_.st.captures then s.recClose 3 else if s.rec_.st = .quiesce then s.quiesceFails else s
  s.onImg fun g => { g with hold := true, act := g.act.map fun a => { a with started := s.now, paused := false } }

/-- An activation or a fallback waits for its drain. -/
def State.drainOwed (s : State) : Bool := (s.img.phase = .drain || s.img.phase = .fallback) && !s.img.hold

/-- ACTIVATE_DRAIN_START: at B_s + OFFSET, or at once when that lies in the past. A fallback's repeated drain is FALLBACK_DRAIN_RETRY. -/
def execActivateDrainStart (s : State) : Host.Outcome State Fault Refusal :=
  .next (s.whenServing fun s =>
    match s.img.act with
    | none => s
    | some a =>
      if !s.drainOwed || a.tries ≠ 0 || s.pit.tick < a.tick then s
      else (if s.pit.tick = a.tick then s.reach (s.pit.bk + a.offset) else s).beginDrain)

/-- No live message is in the core but those held at L5, no home slice has work, every column is empty. -/
def State.drained (s : State) : Bool :=
  s.homesQuiet && s.columnsEmpty && s.fab.msgs.all fun m => s.pauseHolds m && !m.queued

/-- Standing entries due in the hold write their records, fed ones keep their queues; then messages, dispatch and fetching go on. -/
def State.endImageHold (s : State) : State :=
  let s := s.dispatchAllDue.onImg fun g => { g with hold := false }
  s.forAll allEngines fun e t => t.settleEngine e

/-- The windows that a cold activation empties first. -/
def State.coldWindows (s : State) : List DWin := s.shChanged s.img.running s.nextImage

/-- Step 1 of R612: the lines of the changed windows leave, resident and watched ones too. -/
def State.evictChanged (s : State) : State :=
  let ranges := s.coldWindows.map fun w => (w.faRange.1 * mib2, w.faRange.2 * mib2)
  let lines := (ranges.flatMap fun e => s.linesIn e.1 e.2).eraseDups
  let s := s.onImg fun g => { g with act := g.act.map fun a => { a with evict := ranges } }
  (s.forAll lines fun la t => t.unbindLine la).settle

/-- Lines of the ranges of step 1 of R612 are still in the directory or the OLC. -/
def State.evicting (a : Act) (s : State) : Bool := a.evict.any fun e => !(s.linesIn e.1 e.2).isEmpty

/-- ACTIVATE_DRAINED: the pause begins. -/
def execActivateDrained (s : State) : Host.Outcome State Fault Refusal :=
  .next (s.whenServing fun s =>
    match s.img.act with
    | none => s
    | some a =>
      if !s.img.hold || a.paused || !s.drained || !(s.img.phase = .drain || s.img.phase = .fallback) then s
      else
        let s := s.onImg fun g =>
          { g with
              phase := if g.phase = .drain then .pause else g.phase, drainUs := (s.now - a.started) / 1000
              act := some { a with paused := true, pauseAt := s.now } }
        if a.cold && s.img.phase = .pause then s.evictChanged else s)

/-- The drain has lasted 2 ms. -/
def State.reachDrainEnd (a : Act) (s : State) : State := s.reach (a.started + 2000000)

/-- ACTIVATE_DRAIN_TIMEOUT: 2 ms have passed. An activation ends BUSY; a fallback waits for the next tick. -/
def execActivateDrainTimeout (s : State) : Host.Outcome State Fault Refusal :=
  .next (s.whenServing fun s =>
    match s.img.act with
    | none => s
    | some a =>
      if !s.img.hold || a.paused then s
      else
        let s := s.reachDrainEnd a
        if s.img.phase = .drain then s.endImageHold.endActivation { status := .busy }
        else if s.img.phase = .fallback then
          s.endImageHold.onImg fun g => { g with act := some { a with tries := a.tries + 1, tick := s.pit.tick + 1 } }
        else s)

/-- FALLBACK_DRAIN_RETRY: the drain is repeated at B + OFFSET of the next tick; after 64 failed ones the device starts cold (R611). -/
def execFallbackDrainRetry (s : State) : Host.Outcome State Fault Refusal :=
  .next (s.whenServing fun s =>
    match s.img.act with
    | none => s
    | some a =>
      if s.img.phase ≠ .fallback || s.img.hold || a.tries = 0 then s
      else if 64 ≤ a.tries then
        (s.writeSelector fun x => { x with active := a.slot, trial := false, armed := false }).coldStart 6
      else if s.pit.tick < a.tick then s
      else (if s.pit.tick = a.tick then s.reach (s.pit.bk + a.offset) else s).beginDrain)

/-! ### Pause and resume (R602 to R605, R677) -/

/-- The new image runs from its slot. -/
def State.runFrom (slot : Nat) (i : Option Image) (s : State) : State :=
  s.onImg fun g =>
    { g with
        running := i, src := srcOfSlot slot, alt := false, refreshDue := false
        health := i.bind fun x => x.health }

/-- The trial begins (R608): what its criteria compare with is noted. -/
def State.beginTrial (windowS : Nat) (s : State) : State :=
  let capx := s.rd R.BLW_CAPX_COUNT
  let unready := !s.bit R.GLB_MRING_STATUS_READY
  (s.onImg fun g =>
    { g with
        phase := .trial
        act := g.act.map fun a =>
          { a with windowS := windowS, capx0 := capx, miss := 0, fc3 := false, unready := unready, trialAt := s.now, paused := false } }).trialWatch

/-- Resume: hold ends, the selector tells the slot, and the trial begins, or the fallback is complete. -/
def State.resume (a : Act) (i : Option Image) (s : State) : State :=
  let us := (s.now - a.pauseAt) / 1000
  let s := (s.runFrom a.slot i).onImg fun g => { g with pauseUs := us }
  if s.img.phase = .fallback then
    let s := s.writeSelector fun x => { x with active := a.slot, trial := false, armed := false }
    (s.onImg fun g => { g with phase := .idle, act := none }).endImageHold
  else
    let s := s.writeSelector fun x => { x with active := a.slot, prev := a.prev, trial := true, armed := false }
    let s := (s.bump R.IMG_ACT_COUNT 0 1).endImageHold
    s.beginTrial (trialSeconds a.windowS i)

/-- The changes that a pause makes, or why it refuses them. -/
def State.pauseLoad (a : Act) (s : State) : Cpl ⊕ State :=
  let new := s.img.slotOf a.slot
  match (if a.slot = 2 then none else s.slotFails a.slot) with
  | some c => .inl c
  | none => match s.warmLoad s.img.running new with
    | .refused c => .inl { status := .denied, code := c }
    | .done t => .inr t

/-- A fallback that cannot be loaded starts cold, and R600 selects PREV (log 45); when what stands against it are the live lines of
the windows that it changes, they leave first (R35). -/
def State.fallBackCold (a : Act) (s : State) : State :=
  if a.evict = [] && s.coldWindows.any s.holdsLine then s.evictChanged
  else if s.evicting a then s
  else (s.writeSelector fun x => { x with active := a.slot, trial := false, armed := false }).coldStart 6

/-- ACTIVATE_PAUSE_END: checks and writes are done. A cold activation waits until its windows hold no line, then arms the trial and
starts cold. -/
def execActivatePauseEnd (s : State) : Host.Outcome State Fault Refusal :=
  .next (s.whenServing fun s =>
    match s.img.act with
    | none => s
    | some a =>
      if !a.paused || !(s.img.phase = .pause || s.img.phase = .fallback) then s
      else if a.cold && s.img.phase = .pause then
        if s.evicting a then s
        else
          let n := trialSeconds a.windowS s.nextImage
          (s.writeSelector fun x => { x with active := a.slot, prev := a.prev, trial := true, armed := true, trialS := n }).coldStart 5
      else
        let new := s.nextImage
        if a.evict ≠ [] then s.fallBackCold a
        else
        let s := s.reach (a.pauseAt + readNs new + 5 * recordsWritten s.img.running new)
        match s.pauseLoad a with
        | .inl c =>
          if s.img.phase = .pause then s.endImageHold.endActivation c
          else s.fallBackCold a
        | .inr t => t.resume a new)

/-! ### Trial (R608 to R611, R615) -/

/-- The trial is confirmed: fuses are blown where the image asks for it, then the selector written. -/
def State.confirm (s : State) : State :=
  let f := match s.img.running with
    | some i => if i.svnCommit then svnOf i else 0
    | none => 0
  let h := s.img.act.bind fun a => a.hdr
  let s := s.reach (s.now + 20000 * (f - s.img.fused))
  let s := s.onImg fun g => { g with fused := max g.fused f, phase := .idle, act := none }
  (s.writeSelector fun x => { x with trial := false, armed := false }).tell h {}

/-- TRIAL_WINDOW_END (R609, R610). -/
def execTrialWindowEnd (s : State) : Host.Outcome State Fault Refusal :=
  .next (s.whenServing fun s =>
    match s.img.act with
    | none => s
    | some a =>
      if s.img.phase ≠ .trial then s
      else if s.failedNow.isSome then s.trialWatch
      else
        let s := s.reach (a.trialAt + a.windowS * 1000000000)
        let self : Bool := match s.img.health with
          | some h => h.self
          | none => false
        if self && s.failedAtEnd.isNone then s.confirm else s.fallBack .timeout 0)

/-- IMAGE_CONFIRM (R610). -/
def execImageConfirm (h : Hdr) (s : State) : Host.Outcome State Fault Refusal :=
  .next (s.manager h [] none fun s =>
    if s.img.phase ≠ .trial then s.denied h 0
    else match s.failedAtEnd with
      | some n => s.denied h (0x20 + n)
      | none => s.confirm.done h .ok)

/-! ### Care of the flash (R617 to R619) -/

/-- A day of power has passed at `at_`: HOURS takes one more. -/
def State.dayOfPower (at_ : Nat) (s : State) : State :=
  ((s.reach at_).onImg fun g => { g with hoursAt := at_ }).writeSelector fun x => { x with hours := (x.hours + 1) % 2 ^ 32 }

/-- POWERED_HOURS: after every 24 powered hours HOURS takes one more (log 46). -/
def execPoweredHours (s : State) : Host.Outcome State Fault Refusal :=
  .next (if s.started then s.dayOfPower (s.multipleDue s.img.hoursAt dayNs) else s)

/-- The words of an image with one bit lost, so that it fails its checks: the lowest bit of CRC turns. -/
def spoiled (w : List Word) : List Word := if (imageBad w).isSome then w else w.set 3 (w.getD 3 0 ^^^ 1)

/-- A slot whose content fails its CRC from now on. -/
def State.spoil (slot : Nat) (s : State) : State := s.putSlot slot ((s.img.bytesOf slot).map spoiled)

/-- One valid slot is checked: its content fails, or has failed before. -/
def State.checkSlot (slot : Nat) (bad : Bool) (s : State) : State :=
  let valid : Bool := match s.img.sel with
    | some x => x.valid slot
    | none => false
  if !(bad || (s.img.bytesOf slot).any fun w => (imageBad w).isSome) || !valid then s
  else
    let s := (s.spoil slot).bump R.IMG_RET_ERR_COUNT 0 1
    if slot = s.runSlot then s.onImg fun g => { g with retErr := true } else s.writeSelector fun x => x.mark slot false

/-- One copy of the selector is checked: a copy that fails is valid no more. -/
def State.checkCopy (copy : Nat) (bad : Bool) (s : State) : State :=
  if bad && (s.img.sels.getD copy none).isSome then
    (s.onImg fun g => { g with sels := g.sels.set copy none }).bump R.IMG_RET_ERR_COUNT 0 1
  else s

/-- RETENTION_CHECK: at cold start, and after every CHECK_H powered hours while RET_EN is set; the operands tell what the CRCs find
(R618). -/
def execRetentionCheck (sel0Bad sel1Bad aBad bBad : Bool) (s : State) : Host.Outcome State Fault Refusal :=
  .next (if !s.serving || (s.img.checked && !s.bit R.IMG_CTRL_RET_EN) || s.img.phase = .staging then s
  else
    let s := if s.img.checked then s.reach (s.img.checkAt + s.rd R.IMG_CTRL_CHECK_H * 3600000000000) else s
    let s := s.onImg fun g => { g with checked := true, checkAt := s.now }
    (((s.checkCopy 0 sel0Bad).checkCopy 1 sel1Bad).checkSlot 0 aBad).checkSlot 1 bBad)

/-- A valid slot has reached the refresh age. -/
def State.aged (s : State) (slot : Nat) : Bool :=
  match s.img.sel with
  | some x => x.valid slot && s.rd R.IMG_RET_REFRESH_H ≤ x.age slot
  | none => false

/-- SLOT_REFRESH: the rewrite of an aged slot that is not running begins; REFRESH_DUE tells the age of the running one (R619). -/
def execSlotRefresh (s : State) : Host.Outcome State Fault Refusal :=
  .next (s.whenServing fun s =>
    let run := s.runSlot
    let s := if run < 2 && s.aged run then s.onImg fun g => { g with refreshDue := true } else s
    match [0, 1].find? fun i => i ≠ run && s.aged i with
    | some i => if s.imageIdle then s.onImg fun g => { g with phase := .refresh, refresh := some i } else s
    | none => s)

/-- SLOT_REFRESH_END. -/
def execSlotRefreshEnd (s : State) : Host.Outcome State Fault Refusal :=
  .next (s.whenServing fun s =>
    match s.img.refresh with
    | none => s
    | some i =>
      let v := ((s.img.slotOf i).map fun x => x.version.toNat).getD 0
      let s := (s.onImg fun g => { g with phase := .idle, refresh := none }).emit (.flash (slotAddr i) (((s.img.bytesOf i).getD []).map BitVec.toNat))
      (s.writeSelector fun x => x.stamp i v).bump R.IMG_REFRESH_COUNT 0 1)

end Sys2Proof.Machine
end

