-- ==== Sys2Proof/Machine/Inject.lean ====
section
/-! DEFINITION. Fault injection (R557 to R562). -/

namespace Sys2Proof.Machine

/-- Units, words, 1-bit cause and 2-bit cause of a checker (R558); a 2-bit cause 0: none. -/
def checkerRow (c : Nat) : Option (Nat × Nat × Nat × Nat) :=
  match c with
  | 0x01 => some (88, 65536, 0x103, 0x20C)
  | 0x02 => some (88, 8192, 0x103, 0x309)
  | 0x03 => some (16, 32768, 0x105, 0x30B)
  | 0x04 => some (16, 32768, 0x105, 0x30B)
  | 0x05 => some (16, 262144, 0x105, 0x204)
  | 0x06 => some (16, 5120, 0x105, 0x30B)
  | 0x07 => some (16, 2048, 0x105, 0)
  | 0x08 => some (64, 8192, 0x106, 0x30C)
  | 0x09 => some (64, 32768, 0x106, 0x30C)
  | 0x0A => some (64, 96, 0x106, 0x30C)
  | 0x0B => some (1, 262144, 0x107, 0x20A)
  | 0x0C => some (130, 1, 0x30D, 0)
  | 0x0D => some (1, 512, 0x10C, 0x403)
  | _ => none

/-- The body of FAULT_INJECT (R557). -/
structure InjectBody where
  checker : Nat
  unit    : Nat
  count   : Nat
  two     : Bool
  live    : Bool
  word    : Nat
  deriving DecidableEq, Repr

def injectOf (w : Nat) : InjectBody := ⟨bits w 0 8, bits w 8 8, bits w 16 8, bits w 24 2 = 2, flag w 28, bits w 32 32⟩

/-- Byte offset of the first failing field of the body (R558). Test parts of checker 0x0C take no words, so its COUNT is not bounded by
them. -/
def injectBad (w : Nat) : Option Nat :=
  let b := injectOf w
  match checkerRow b.checker with
  | none => some 0x10
  | some (units, words, _, two) =>
    firstBad
      [(units ≤ b.unit, 0x11), (b.count = 0, 0x12), (bits w 24 2 = 0 || bits w 24 2 = 3 || (b.two && two = 0), 0x13),
       (bits w 26 2 ≠ 0 || bits w 29 3 ≠ 0, 0x13), (words ≤ b.word || (b.checker ≠ 0x0C && words < b.word + b.count), 0x14)]

/-- The rule slot that holds a word of the rule store: the allocations of the live domains stand in order of domain number (log 50). -/
def State.ruleAt (s : State) (word : Nat) : Option Nat :=
  (s.liveDomains.foldl (fun (x : Nat × Option Nat) d =>
    match x.2 with
    | some _ => x
    | none =>
      let n := (s.domain d).rules
      if x.1 < n then (0, some (ruleKey d x.1)) else (x.1 - n, none)) (word / 4, none)).2

/-- Cause of a detection: the 2-bit one of a locked rule is LOCKED_RULE. -/
def State.injectCause (s : State) (b : InjectBody) (word : Nat) : Nat :=
  match checkerRow b.checker with
  | some (_, _, one, two) =>
    if !b.two then one
    else if b.checker = 0x0B && (s.ruleAt word).any s.ruleLocked then 0x401
    else two
  | none => 0

/-- CHECK mode: the detection enters the collector with INJ; nothing is contained (R560). -/
def State.detectCheck (b : InjectBody) (word : Nat) (s : State) : State := s.collectAs (s.injectCause b word) b.unit true 0 0

/-- An uncorrectable error in a rule (R417). -/
def State.ruleUnc (key : Nat) (s : State) : State :=
  if s.ruleLocked key then s.fc4 0x401 0 0
  else
    let s := match s.rule key with
      | some r => s.onDom fun g => { g with rules := Tab.set noneAt g.rules key (some { r with dead := true }) }
      | none => s
    (s.bump R.DOM_RULE_UNC_COUNT 0 1).fc2 (key / 4096) 0x20A 0

/-- An uncorrectable payload error in a column: the message whose cell holds the word is marked poisoned (R238, R214). Which message of the
column that is, if any, is free (log 3). -/
def State.columnPoison (ep : Nat) (s : State) : State :=
  let l := ((s.fab.msgs.filter fun m => m.queued && m.dst = ep).map fun m => (List.range m.ncell).map fun i => (m, i)).flatten
  match l[Config.freeNat s.free % (l.length + 1)]? with
  | some x => s.nextFree.cellError x.1 x.2
  | none => s.nextFree.fc2 0 0x20C 0

/-- LIVE mode: the detection takes full effect (R561). -/
def State.detectLive (b : InjectBody) (word : Nat) (s : State) : State :=
  let home : SliceId := Fin.ofNat 16 b.unit
  let way : Nat := b.unit * 32768 + (if b.checker = 5 then word / 8 else if b.checker = 7 then word * 16 else word % 32768)
  let eng : EngineId := Fin.ofNat 64 b.unit
  match b.checker with
  | 0x01 => if b.two then s.columnPoison b.unit else (s.bump R.XBR_COL_ECC_COUNT b.unit 1).fault 0x103 b.unit
  | 0x02 => if b.two then s.columnFault b.unit else (s.bump R.XBR_COL_ECC_COUNT b.unit 1).fault 0x103 b.unit
  | 0x0B => if b.two then (match s.ruleAt word with
      | some key => s.ruleUnc key
      | none => (s.bump R.DOM_RULE_UNC_COUNT 0 1).fc2 0 0x20A 0)
    else (s.bump R.DOM_RULE_CORR_COUNT 0 1).fault 0x107 0
  | 0x0C => s.cuFail b.unit 1
  | 0x0D => if b.two then s.fc4 0x403 0 0 false else s.fault 0x10C 0
  | c =>
    if 3 ≤ c && c ≤ 7 then (if (s.slice home).failed then s else s.homeError home c way b.two)
    else if b.two then (s.bump R.ENG_ECC_UNC_COUNT b.unit 1).failEngine eng (c - 7)
    else (s.bump R.ENG_ECC_CORR_COUNT b.unit 1).fault 0x106 b.unit

/-- Check bits stay inverted in LIVE mode. -/
def State.keepInverted (b : InjectBody) (s : State) : State :=
  s.onFlt fun f => { f with inverted := f.inverted ++ (List.range b.count).map fun i => ⟨b.checker, b.unit, b.word + i, b.two⟩ }

/-- The injection itself: `detected` and `corrected` are what the checker reports. -/
def State.inject (h : Hdr) (b : InjectBody) (detected corrected : Nat) (s : State) : State :=
  let det := min detected b.count
  let cor := min corrected b.count
  let words := (List.range det).map (b.word + ·)
  let s := s.bump R.FLT_INJ_CNT_COUNT 0 b.count
  let s := if b.live then (s.keepInverted b).forAll words fun w t => t.detectLive b w else s.forAll words fun w t => t.detectCheck b w
  let s := if det < b.count || (!b.two && cor < b.count) then s.fault 0x310 b.unit 0 b.checker else s
  if s.flt.safe then s else s.complete h { status := .ok, result := det + cor * 65536 }

/-- Checkers 0x08 to 0x0A act only on an IDLE engine (R559). -/
def State.injectBusy (s : State) (b : InjectBody) : Bool :=
  0x08 ≤ b.checker && b.checker ≤ 0x0A && (s.engine (Fin.ofNat 64 b.unit)).st ≠ .idle

/-- FAULT_INJECT in either mode. -/
def State.runInject (h : Hdr) (w detected corrected : Nat) (s : State) : State :=
  s.manager h [] (injectBad w) fun s =>
    let b := injectOf w
    if b.live && !s.bit R.FLT_CTRL_INJ_LIVE then s.denied h 0
    else if s.injectBusy b then s.done h .busy
    else s.inject h b detected corrected

/-- FAULT_INJECT. -/
def execFaultInject (h : Hdr) (w10 : Word) (detected corrected : BitVec 16) (s : State) : Host.Outcome State Fault Refusal :=
  .next (s.runInject h w10.toNat detected.toNat corrected.toNat)

/-- FAULT_INJECT_LIVE: the same command with LIVE set. -/
def execFaultInjectLive (h : Hdr) (w10 : Word) (detected corrected : BitVec 16) (s : State) : Host.Outcome State Fault Refusal :=
  .next (s.runInject h (w10 ||| BitVec.ofNat 64 (2 ^ 28)).toNat detected.toNat corrected.toNat)

end Sys2Proof.Machine
end

