-- ==== Sys2Proof/Machine/Startup.lean ====
section
/-! DEFINITION. Supplies, resets and the start-up sequence, and the management buses: I3C, JTAG, the Marionette (R411 to R414, R600,
R620 to R644, R654). -/

namespace Sys2Proof.Machine

/-- The pins let the core run: PWR_OK and RST_N are high. -/
def State.pinsUp (s : State) : Bool := s.sys.pwrOk && s.sys.rstN

/-- The start-up sequence waits in a step: the core has power, nothing holds it, no fault has ended the start. -/
def State.inStep (s : State) (n : Nat) : Bool :=
  s.rd R.GLB_START_PHASE_STEP = n && s.pinsUp && s.sys.corePower && !s.sys.jtagHold && !s.flt.safe

def State.toStep (n : Nat) (s : State) : State := s.wr R.GLB_START_PHASE_STEP 0 n

/-! ### Supplies and resets (R623, R629, R630, R643) -/

/-- VDD_AON_RISE: cause 1; step 1 of R636. The straps wait for the other rails and PWR_OK. -/
def execVddAonRise (s : State) : Host.Outcome State Fault Refusal :=
  .next (if s.sys.pwrOk then s
  else
    let s := (s.onSys fun y => { y with vddAon := true, jtagHold := false }).coldStart 1
    (s.toStep 1).onSys fun y => { y with corePower := false })

/-- PWR_OK_RISE: after a fall, a cold start of cause 2; the first one since VDD_AON rose lets that start go on. -/
def execPwrOkRise (s : State) : Host.Outcome State Fault Refusal :=
  .next (if s.sys.pwrOk || !s.sys.vddAon then s
  else
    let s := s.onSys fun y => { y with pwrOk := true }
    if !s.sys.rstN then s.driveFaultN
    else if s.sys.lowSince then s.coldStart 2
    else ((s.onSys fun y => { y with corePower := true }).toStep 2).driveFaultN)

/-- PWR_OK_FALL (R623). -/
def execPwrOkFall (s : State) : Host.Outcome State Fault Refusal :=
  .next (if s.sys.pwrOk then s.powerFall.onSys fun y => { y with pwrOk := false, coldDue := none } else s)

/-- RST_N_ASSERT: RST_N low acts on a running device as a fall of PWR_OK. -/
def execRstNAssert (s : State) : Host.Outcome State Fault Refusal :=
  .next (if !s.sys.rstN then s
  else
    let s := s.onSys fun y => { y with rstN := false, coldDue := none }
    if s.sys.corePower then s.powerFall else s)

/-- RST_N_RELEASE after at least 10 µs low: cause 3, once PWR_OK is high. -/
def execRstNRelease (s : State) : Host.Outcome State Fault Refusal :=
  .next (if s.sys.rstN then s
  else
    let s := s.onSys fun y => { y with rstN := true }
    if s.sys.pwrOk then s.coldStart 3 else s)

/-- COLD_START_DELAY_EXPIRE: 50 µs after the key of GLB_RESET (R630). -/
def execColdStartDelayExpire (s : State) : Host.Outcome State Fault Refusal :=
  .next (match s.sys.coldDue with
  | some c => if s.pinsUp then s.coldStart c else s
  | none => s)

/-- JTAG_INSTRUCTION: a test instruction holds the core in reset with the effects of R623; the return from it starts cold, but for
BOOT_SEL 0b11, under which neither changes anything. -/
def execJtagInstruction (ir : JtagIr) (s : State) : Host.Outcome State Fault Refusal :=
  .next (if !s.sys.vddAon then s
  else
    let s := s.onSys fun y => { y with jtagIr := ir }
    if s.rd R.GLB_STRAP_BOOT_SEL = 3 then s
    else if ir = .test then
      if s.sys.jtagHold then s else (if s.sys.corePower then s.powerFall else s).onSys fun y => { y with jtagHold := true }
    else if s.sys.jtagHold then
      let s := s.onSys fun y => { y with jtagHold := false }
      if s.pinsUp then s.coldStart 3 else s
    else s)

/-! ### Steps 2 to 5 (R634, R626, R636, R639) -/

/-- STRAP_SAMPLE: the straps are held, the fuses sensed (step 3), and the PLL started. Slot 0 of D0's rules admits the manager port's I/O
space (R392). -/
def execStrapSample (bootSel : BitVec 2) (mgrSel : BitVec 6) (s : State) : Host.Outcome State Fault Refusal :=
  .next (if !s.inStep 2 then s
  else
    let s := (s.wr R.GLB_STRAP_BOOT_SEL 0 bootSel.toNat).wr R.GLB_STRAP_MGR_SEL 0 mgrSel.toNat
    (s.onDom fun _ => Dom.init mgrSel.toNat).toStep 4)

/-- PLL_LOCK: CCLK runs, and step 5 begins. Which SD_REFCLK inputs toggle is free (log 3). -/
def execPllLock (s : State) : Host.Outcome State Fault Refusal :=
  .next (if !s.inStep 4 then s
  else
    let s := (s.wr R.GLB_CLK_PLL_LOCK 0 1).wr R.GLB_CLK_SD_PRESENT 0 (Config.freeNat s.free % 16)
    (s.nextFree.onSys fun y => { y with oscOnly := false }).toStep 5)

/-- PLL_LOCK_TIMEOUT: 1 ms has passed without lock (R626). -/
def execPllLockTimeout (s : State) : Host.Outcome State Fault Refusal :=
  .next (if !s.inStep 4 then s else (s.onSys fun y => { y with oscOnly := true }).fc4 0x404 0 0)

/-! ### The choice of the image (R600) -/

/-- Start from a slot, or from the factory values. -/
def State.startFrom (slot : Nat) (alt : Bool) (s : State) : State :=
  (s.runFrom slot (s.img.slotOf slot)).onImg fun g => { g with alt := alt }

/-- The candidate when it is good, else the other slot when that is good, else the factory values. -/
def State.startCandidate (cand : Nat) (s : State) : State :=
  if 2 ≤ cand then s.startFrom 2 false
  else if s.good cand then s.startFrom cand false
  else if s.good (1 - cand) then s.startFrom (1 - cand) true
  else s.startFrom 2 false

/-- select() of R600. -/
def State.selectImage (s : State) : State :=
  let boot := s.rd R.GLB_STRAP_BOOT_SEL
  if boot = 1 || boot = 3 then s.startFrom 2 false
  else if boot = 2 then s
  else match s.img.sel with
    | none => if s.good 0 then s.startFrom 0 false else if s.good 1 then s.startFrom 1 false else s.startFrom 2 false
    | some x =>
      if x.trial then
        if x.armed then (s.writeSelector fun x => { x with armed := false }).startCandidate x.active
        else (s.writeSelector fun x => { x with active := x.prev, trial := false }).startCandidate x.prev
      else s.startCandidate x.active

/-- SELFTEST_DONE: failed units are fenced, the factory values stand, FAULT_N follows R547, and the start values are chosen. -/
def execSelftestDone (us : Nat) (homes : List SliceId) (engines : List EngineId) (cus : List CuId) (s : State) :
    Host.Outcome State Fault Refusal :=
  .next (if !s.inStep 5 then s
  else
    let s := s.wr R.GLB_START_PHASE_SELFTEST_US 0 (min 65535 us)
    let s := s.forAll homes fun h t => t.failHome h 5
    let s := s.forAll engines fun e t => t.failEngine e 6
    let s := s.forAll cus fun u t => t.cuFail u.val 3
    if s.flt.safe then s else ((s.toStep 7).driveFaultN).selectImage)

/-! ### Recovery (R640) -/

/-- RECOVERY_GO: the image in the buffer is checked; accepted, the start goes on with its records. A refused one empties the buffer
(log 48). Outside step 7 of a recovery start GO has no effect beyond a setup write. -/
def execRecoveryGo (s : State) : Host.Outcome State Fault Refusal :=
  .next (if s.inStep 7 && s.rd R.GLB_STRAP_BOOT_SEL = 2 && s.img.running.isNone && s.bit R.GLB_CTRL_I3C_WR && !s.bit R.GLB_CTRL_SEAL then
    match s.imageFails s.sys.rcvData.reverse with
    | some c => ((s.wr R.GLB_RCV_CTRL_STATUS 0 2).wr R.GLB_RCV_CTRL_CODE 0 c.code).onSys fun y => { y with rcvPos := 0, rcvData := [] }
    | none =>
      let img := readImage s.sys.rcvData.reverse
      (s.wr R.GLB_RCV_CTRL_STATUS 0 1).onImg fun g => { g with running := some img, src := 3, health := img.health }
  else s.writeField .i3c R.GLB_RCV_CTRL_GO 0 1)

/-! ### Steps 7 to 9 (R635 to R637, R100, R40, R613) -/

/-- Under BOOT_SEL 0b01 and 0b11 the manager port is upstream, on a quad of four x4 ports, at 64 GT/s. -/
def State.forceManagerPort (s : State) : State :=
  if s.rd R.GLB_STRAP_BOOT_SEL = 1 || s.rd R.GLB_STRAP_BOOT_SEL = 3 then
    let n := s.mgrPort
    (((s.wr R.PRT_QUAD_MODE (n / 4 * 4) 0).wr R.PRT_CFG_ROLE n 1).wr R.PRT_CFG_MAX_RATE n 6)
  else s

/-- The Pitch pipe starts from the source that SRC names (R40); with ENABLE clear it generates no boundary (R694). -/
def State.startPitch (s : State) : State :=
  let s := s.onPit fun p => { p with running := true, stopAfter := !s.bit R.TIK_CTRL_ENABLE }
  s.selectSource (BitVec.ofNat 2 (s.rd R.TIK_CTRL_SRC))

/-- Step 9: PERST_N of upstream ports is released, downstream ports with a partner present join the power-up order. The PRSNT_N levels
have long settled. -/
def State.startPorts (s : State) : State :=
  let s := s.onPorts fun v => v.map fun p => { p with prsnt := p.prsntRaw }
  s.forAll (List.range 64) fun n t =>
    if t.isLowest n then t.comeUp n else t

/-- The trial of an image that R600 started in TRIAL (R613): it has no command to complete. -/
def State.startTrial (s : State) : State :=
  match s.img.sel with
  | some x =>
    if x.trial && x.active < 2 && x.active = s.runSlot then
      let a : Act :=
        { hdr := none, slot := x.active, tick := 0, offset := 0, windowS := x.trialS, cold := false, started := s.now, prev := x.prev
          tries := 0, paused := false, pauseAt := 0, capx0 := 0, miss := 0, trialAt := 0, fc3 := false, unready := false, evict := [] }
      (s.onImg fun g => { g with act := some a }).beginTrial x.trialS
    else s
  | none => s

/-- The image or the recovery image is there to be loaded. -/
def State.loadReady (s : State) : Bool := s.rd R.GLB_STRAP_BOOT_SEL ≠ 2 || s.img.running.isSome

/-- IMAGE_LOAD_END: the records are written; MGR_SEL is checked; the Pitch pipe and the ports start. -/
def execImageLoadEnd (s : State) : Host.Outcome State Fault Refusal :=
  .next (if !s.inStep 7 || !s.loadReady then s
  else
    let s := ((s.coldLoad s.img.running).forceManagerPort).toStep 8
    if s.isLowest s.mgrPort && s.cfgRole s.mgrPort = 1 then (s.startPitch.toStep 10).startPorts.startTrial
    else s.fc4 0x400 0 0)

/-! ### Pins that follow the state (R628, R644, R652, R653) -/

/-- REFO_Qn carries its SD_REFCLK: not in reset, not in the safe state, and with REFO_EN of PS4n set. -/
def State.refo (s : State) (quad : Fin 16) : Bool := s.started && !s.flt.safe && s.bit R.PRT_CLKM_REFO_EN (4 * quad.val)

/-- The octal-SPI pins are tri-stated: while PWR_OK is low, or while RELEASE is set under BOOT_SEL 0b11. -/
def State.spiReleased (s : State) : Bool := !s.sys.pwrOk || (s.bit R.GLB_SPI_RELEASE && s.rd R.GLB_STRAP_BOOT_SEL = 3)

/-- OSPI_RST_N: low until step 6, high from then on, in the safe state as well. -/
def State.spiRstN (s : State) : Bool := s.pinsUp && 6 ≤ s.rd R.GLB_START_PHASE_STEP

/-! ### Management buses (R641 to R643, R411 to R414) -/

/-- DYNAMIC_ADDRESS_ASSIGN (R642). -/
def execDynamicAddressAssign (mctp : Bool) (addr : BitVec 7) (s : State) : Host.Outcome State Fault Refusal :=
  .next (if !s.sys.vddAon then s else s.onSys fun y => if mctp then { y with i3cMctp := addr } else { y with i3cSetup := addr })

/-- FM_API_MESSAGE: the answer belongs to the FM API, which the spec names and does not give: a free payload (log 49). -/
def execFmApiMessage (msg : List Byte) (s : State) : Host.Outcome State Fault Refusal :=
  .next (if s.serving && msg ≠ [] then s.nextFree.emit (.mctp [Config.freeNat s.free]) else s)

/-- The Marionette may act: EN is set, DOMAIN names an ACTIVE debug domain, and its check unit has not failed (R412, R415). -/
def State.marionetteOpen (s : State) : Bool :=
  let d := s.domain (s.rd R.DBG_CTRL_DOMAIN)
  s.bit R.DBG_CTRL_EN && d.debug && d.st = .active && s.rd R.DOM_CU_STATUS_FENCED 128 ≠ 1

/-- A part of a Marionette write: the bytes of its line that [fa, fa + len) covers. -/
def marionetteLine (fa : Nat) (data : List Byte) (la : Nat) : Line × BitVec 64 :=
  (List.range 64).foldl (fun x i =>
    let a := 64 * la + i
    if fa ≤ a && a < fa + data.length then
      (x.1 ||| BitVec.ofNat 512 ((data.getD (a - fa) 0).toNat * 2 ^ (8 * i)), x.2 ||| BitVec.ofNat 64 (2 ^ i))
    else x) (0, 0)

/-- One allowed part travels as a request of its own. -/
def State.marionettePart (write : Bool) (fa : Nat) (data : List Byte) (a : Nat) (s : State) : State :=
  let x := marionetteLine fa data (a / 64)
  s.sendCore
    { src := .mar, dst := (s.faEndpoint a).getD 0, kind := if write then .memWr else .memRdU, cls := 2, fa := a, tag := 0
      epoch := none, data := if write then x.1 else 0, poison := false, status := .ok, code := 0, be := if write then x.2 else 0, atom := none }

/-- What a read returns: all ones in every refused part, and what the fabric answers, a free value here, in the others (log 3). -/
def marionetteData (ds : List (Nat × Decision)) (fa len f : Nat) : List Nat :=
  (List.range (len / 8)).map fun i =>
    if (refusedParts ds).any fun x => x.1 / 64 = (fa + 8 * i) / 64 then 2 ^ 64 - 1 else (Config.freeWord (f + i)).toNat

/-- MARIONETTE_ACCESS. -/
def execMarionetteAccess (write : Bool) (fa : Word) (len : Nat) (data : List Byte) (s : State) : Host.Outcome State Fault Refusal :=
  .next (let a := fa.toNat
    if !s.serving || s.sys.jtagIr ≠ .marionette || len < 8 || 4096 < len || len % 8 ≠ 0 || a % 8 ≠ 0 || (write && data.length ≠ len) then s
    else if !s.marionetteOpen then s.emit (.jtag .denied a [])
    else
      let d := s.rd R.DBG_CTRL_DOMAIN
      let need := if write then needW else needR
      let parts := partsOf a len
      let mapped (x : Nat) : Bool := (s.window 64 x).isSome
      let known := s.decide d 0 0 need (parts.filter mapped)
      let ds := parts.map fun x => (x, if mapped x then decidePart s d 0 0 x need else Decision.refused)
      let s := s.countParts 128 d none (72 + homeOf a + 7 * 2 ^ 14 + d * 2 ^ 20) known
      let s := s.forAll (parts.filter fun x => !mapped x) fun _ t => t.countMiss 128
      let s := s.reportAcc 128 d (RefAcc.join none 0 need.kind known)
      let s := match refusedParts ds with
        | [] => s
        | x :: _ => (s.bump R.DBG_REFUSE_COUNT 0 1).bump R.DBG_LOCKED_COUNT 0 (boolNat x.2.isLock)
      let s := s.forAll (ds.filter fun x => x.2 = .allowed) fun x t => t.marionettePart write a data x.1
      let out := if write then [] else marionetteData ds a len s.free
      (s.emit (.jtag (accessStatus ds) (firstRefused ds) out)).takeFree (len / 8))

end Sys2Proof.Machine
end

