-- ==== Sys2Proof/Machine/Waiting.lean ====
section
/-! DEFINITION. Table changes that wait for a ledger slot (R206). -/

namespace Sys2Proof.Machine

/-- The state that a meaning leaves; a stop leaves it as it was. -/
def State.after (o : Host.Outcome State Fault Refusal) (s : State) : State :=
  match o with
  | .next t => t
  | _ => s

/-- Make the table change of a command that waited. Its checks are made again, since other commands have run meanwhile; a target list has
been read already. -/
def State.runWaiting (c : Instr) (s : State) : State :=
  match c with
  | .windowBind h i e => s.after (execWindowBind h i e s)
  | .windowUnbind h i => s.after (execWindowUnbind h i s)
  | .tlistWrite h i o l => s.tableCommand h (.tlistWrite h i o l) (.tlist i.toNat (l.take 16)) id
  | .pbrWrite h i e => s.after (execPbrWrite h i e s)
  | .ldBind h i a => s.after (execLdBind h i a s)
  | .ldUnbind h i a => s.after (execLdUnbind h i a s)
  | .portRidmap h i n e => s.after (execPortRidmap h i n e s)
  | .ruleWrite h i r e => s.after (execRuleWrite h i r e s)
  | .ruleClear h i r => s.after (execRuleClear h i r s)
  | .bucketWrite h i e => s.after (execBucketWrite h i e s)
  | .bucketClear h i => s.after (execBucketClear h i s)
  | .domainReset h q => s.after (execDomainReset h q s)
  | .domainDestroy h => s.after (execDomainDestroy h s)
  | _ => s

/-- EPOCH_SLOT_FREE: the slot that the oldest waiting change needs counts no live message any more. -/
def execEpochSlotFree (s : State) : Host.Outcome State Fault Refusal :=
  .next (match s.fab.wait with
  | [] => s
  | c :: l => if !s.serving || s.slotBusy then s else (s.onFab fun g => { g with wait := l }).runWaiting c)

end Sys2Proof.Machine
end

