-- ==== Sys2Proof/Machine/Dispatch.lean ====
section
/-! DEFINITION. One arm per command: a direct call of its meaning. -/

namespace Sys2Proof.Machine

def exec (i : Instr) (s : State) : Host.Outcome State Fault Refusal :=
  match i with
  | .vddAonRise => Sys2Proof.Machine.execVddAonRise s
  | .pwrOkRise => Sys2Proof.Machine.execPwrOkRise s
  | .pwrOkFall => Sys2Proof.Machine.execPwrOkFall s
  | .rstNAssert => Sys2Proof.Machine.execRstNAssert s
  | .rstNRelease => Sys2Proof.Machine.execRstNRelease s
  | .strapSample bootSel mgrSel => Sys2Proof.Machine.execStrapSample bootSel mgrSel s
  | .pllLock => Sys2Proof.Machine.execPllLock s
  | .pllLockTimeout => Sys2Proof.Machine.execPllLockTimeout s
  | .clockMonitorLoss => Sys2Proof.Machine.execClockMonitorLoss s
  | .supplyMonitorFault => Sys2Proof.Machine.execSupplyMonitorFault s
  | .selftestDone us homes engines cus => Sys2Proof.Machine.execSelftestDone us homes engines cus s
  | .imageLoadEnd => Sys2Proof.Machine.execImageLoadEnd s
  | .recoveryLenWrite len => Sys2Proof.Machine.execRecoveryLenWrite len s
  | .recoveryDataWrite path data => Sys2Proof.Machine.execRecoveryDataWrite path data s
  | .recoveryGo => Sys2Proof.Machine.execRecoveryGo s
  | .glbResetWrite path key => Sys2Proof.Machine.execGlbResetWrite path key s
  | .setupWrite path off size value => Sys2Proof.Machine.execSetupWrite path off size value s
  | .tikFtimeLowRead => Sys2Proof.Machine.execTikFtimeLowRead s
  | .recBufRead => Sys2Proof.Machine.execRecBufRead s
  | .tickEnableClear path => Sys2Proof.Machine.execTickEnableClear path s
  | .tickEnableSet path => Sys2Proof.Machine.execTickEnableSet path s
  | .timeSourceSelect path src => Sys2Proof.Machine.execTimeSourceSelect path src s
  | .quadModeWrite path quad mode => Sys2Proof.Machine.execQuadModeWrite path quad mode s
  | .xbrPresetWrite path preset => Sys2Proof.Machine.execXbrPresetWrite path preset s
  | .pmcFreezeSet path => Sys2Proof.Machine.execPmcFreezeSet path s
  | .pmcFreezeClear path => Sys2Proof.Machine.execPmcFreezeClear path s
  | .fltThreshWrite path thresh => Sys2Proof.Machine.execFltThreshWrite path thresh s
  | .fltClrIndex path index => Sys2Proof.Machine.execFltClrIndex path index s
  | .fltClrAll path cls => Sys2Proof.Machine.execFltClrAll path cls s
  | .mringEnable path => Sys2Proof.Machine.execMringEnable path s
  | .mringDisable path => Sys2Proof.Machine.execMringDisable path s
  | .fuseKeyProgram path blown => Sys2Proof.Machine.execFuseKeyProgram path blown s
  | .spiReleaseWrite path release => Sys2Proof.Machine.execSpiReleaseWrite path release s
  | .functionLevelReset p => Sys2Proof.Machine.execFunctionLevelReset p s
  | .configRequest p r => Sys2Proof.Machine.execConfigRequest p r s
  | .ideKmRequest p r => Sys2Proof.Machine.execIdeKmRequest p r s
  | .jtagInstruction ir => Sys2Proof.Machine.execJtagInstruction ir s
  | .marionetteAccess write fa len data => Sys2Proof.Machine.execMarionetteAccess write fa len data s
  | .fmApiMessage msg => Sys2Proof.Machine.execFmApiMessage msg s
  | .prsntNEdge p high => Sys2Proof.Machine.execPrsntNEdge p high s
  | .prsntFilterExpire p => Sys2Proof.Machine.execPrsntFilterExpire p s
  | .portPowerUpStart p => Sys2Proof.Machine.execPortPowerUpStart p s
  | .dischLeadExpire p => Sys2Proof.Machine.execDischLeadExpire p s
  | .pwrgdRise p => Sys2Proof.Machine.execPwrgdRise p s
  | .perstHoldExpire p => Sys2Proof.Machine.execPerstHoldExpire p s
  | .pwrgdFall p => Sys2Proof.Machine.execPwrgdFall p s
  | .pwrgdTimeout p => Sys2Proof.Machine.execPwrgdTimeout p s
  | .linkTrained p width rate offer isSwitch => Sys2Proof.Machine.execLinkTrained p width rate offer isSwitch s
  | .trainModeTimeout p => Sys2Proof.Machine.execTrainModeTimeout p s
  | .dllUp p => Sys2Proof.Machine.execDllUp p s
  | .meradOfferRepeat p => Sys2Proof.Machine.execMeradOfferRepeat p s
  | .meradOfferRx p verMap respNs tie => Sys2Proof.Machine.execMeradOfferRx p verMap respNs tie s
  | .meradAcceptRx p ver respNs => Sys2Proof.Machine.execMeradAcceptRx p ver respNs s
  | .meradConfirmRx p ver => Sys2Proof.Machine.execMeradConfirmRx p ver s
  | .meradWaitExpire p => Sys2Proof.Machine.execMeradWaitExpire p s
  | .autoRebind p => Sys2Proof.Machine.execAutoRebind p s
  | .retrainStart p forced => Sys2Proof.Machine.execRetrainStart p forced s
  | .retrainEnd p width rate => Sys2Proof.Machine.execRetrainEnd p width rate s
  | .l0pRequestRx p width => Sys2Proof.Machine.execL0pRequestRx p width s
  | .l0pWidenTimer p w => Sys2Proof.Machine.execL0pWidenTimer p w s
  | .l0pWidthChangeEnd p => Sys2Proof.Machine.execL0pWidthChangeEnd p s
  | .l0pProtectStart p w => Sys2Proof.Machine.execL0pProtectStart p w s
  | .linkDown p cause => Sys2Proof.Machine.execLinkDown p cause s
  | .flushEnd p => Sys2Proof.Machine.execFlushEnd p s
  | .lostPortWalkEnd h p => Sys2Proof.Machine.execLostPortWalkEnd h p s
  | .hotResetRx p kind => Sys2Proof.Machine.execHotResetRx p kind s
  | .ideCheckFail p stream => Sys2Proof.Machine.execIdeCheckFail p stream s
  | .flitReceived p fecCorrected fecBad crcOk seq tl uses => Sys2Proof.Machine.execFlitReceived p fecCorrected fecBad crcOk seq tl uses s
  | .ackTimerExpire p => Sys2Proof.Machine.execAckTimerExpire p s
  | .ackReceived p seq => Sys2Proof.Machine.execAckReceived p seq s
  | .nakReceived p seq selective => Sys2Proof.Machine.execNakReceived p seq selective s
  | .replayTimerExpire p => Sys2Proof.Machine.execReplayTimerExpire p s
  | .flitTransmit p flit => Sys2Proof.Machine.execFlitTransmit p flit s
  | .creditUpdateRx p ch data limit infinite => Sys2Proof.Machine.execCreditUpdateRx p ch data limit infinite s
  | .creditUpdateTimer p ch => Sys2Proof.Machine.execCreditUpdateTimer p ch s
  | .ptmDialogue => Sys2Proof.Machine.execPtmDialogue s
  | .ptmResponseRx failed err => Sys2Proof.Machine.execPtmResponseRx failed err s
  | .ppsInEdge => Sys2Proof.Machine.execPpsInEdge s
  | .timeSourceLoss why => Sys2Proof.Machine.execTimeSourceLoss why s
  | .holdoverLimitExpire => Sys2Proof.Machine.execHoldoverLimitExpire s
  | .boundaryFix => Sys2Proof.Machine.execBoundaryFix s
  | .tickBoundary => Sys2Proof.Machine.execTickBoundary s
  | .tickOutPulseEnd n => Sys2Proof.Machine.execTickOutPulseEnd n s
  | .windowOpen w => Sys2Proof.Machine.execWindowOpen w s
  | .windowClose w => Sys2Proof.Machine.execWindowClose w s
  | .counterSnapshot domain index => Sys2Proof.Machine.execCounterSnapshot domain index s
  | .bwWindowClose p => Sys2Proof.Machine.execBwWindowClose p s
  | .columnAudit upsets => Sys2Proof.Machine.execColumnAudit upsets s
  | .auditReclaimEnd ep => Sys2Proof.Machine.execAuditReclaimEnd ep s
  | .dispatchDue index => Sys2Proof.Machine.execDispatchDue index s
  | .budgetSpent e => Sys2Proof.Machine.execBudgetSpent e s
  | .engineFence e => Sys2Proof.Machine.execEngineFence e s
  | .engineResponse e tag status data => Sys2Proof.Machine.execEngineResponse e tag status data s
  | .engineFailure e cause => Sys2Proof.Machine.execEngineFailure e cause s
  | .spareLoadEnd e => Sys2Proof.Machine.execSpareLoadEnd e s
  | .progCopyEnd domain handle => Sys2Proof.Machine.execProgCopyEnd domain handle s
  | .add e x => Sys2Proof.Machine.execAdd e x s
  | .sub e x => Sys2Proof.Machine.execSub e x s
  | .and e x => Sys2Proof.Machine.execAnd e x s
  | .or e x => Sys2Proof.Machine.execOr e x s
  | .xor e x => Sys2Proof.Machine.execXor e x s
  | .shl e x => Sys2Proof.Machine.execShl e x s
  | .shr e x => Sys2Proof.Machine.execShr e x s
  | .sar e x => Sys2Proof.Machine.execSar e x s
  | .mul e x => Sys2Proof.Machine.execMul e x s
  | .min e x => Sys2Proof.Machine.execMin e x s
  | .max e x => Sys2Proof.Machine.execMax e x s
  | .movi e x => Sys2Proof.Machine.execMovi e x s
  | .rdt e x => Sys2Proof.Machine.execRdt e x s
  | .br e x => Sys2Proof.Machine.execBr e x s
  | .loop e x => Sys2Proof.Machine.execLoop e x s
  | .waito e x => Sys2Proof.Machine.execWaito e x s
  | .waitoExpire e => Sys2Proof.Machine.execWaitoExpire e s
  | .fence e x => Sys2Proof.Machine.execFence e x s
  | .end_ e x => Sys2Proof.Machine.execEnd e x s
  | .lds e x => Sys2Proof.Machine.execLds e x s
  | .sts e x => Sys2Proof.Machine.execSts e x s
  | .lls e x => Sys2Proof.Machine.execLls e x s
  | .sls e x => Sys2Proof.Machine.execSls e x s
  | .lext e x => Sys2Proof.Machine.execLext e x s
  | .lins e x => Sys2Proof.Machine.execLins e x s
  | .lop e x => Sys2Proof.Machine.execLop e x s
  | .lzero e x => Sys2Proof.Machine.execLzero e x s
  | .ldl e x => Sys2Proof.Machine.execLdl e x s
  | .stl e x => Sys2Proof.Machine.execStl e x s
  | .stlm e x => Sys2Proof.Machine.execStlm e x s
  | .cpy e x => Sys2Proof.Machine.execCpy e x s
  | .pub e x => Sys2Proof.Machine.execPub e x s
  | .red e x => Sys2Proof.Machine.execRed e x s
  | .pubh e x => Sys2Proof.Machine.execPubh e x s
  | .atom32 e x => Sys2Proof.Machine.execAtom32 e x s
  | .atom64 e x => Sys2Proof.Machine.execAtom64 e x s
  | .crcl e x => Sys2Proof.Machine.execCrcl e x s
  | .crcs e x => Sys2Proof.Machine.execCrcs e x s
  | .messageIngress m => Sys2Proof.Machine.execMessageIngress m s
  | .ingressHoldRelease id => Sys2Proof.Machine.execIngressHoldRelease id s
  | .columnAdmit ep input cls => Sys2Proof.Machine.execColumnAdmit ep input cls s
  | .arbiterChoose ep ecc cell => Sys2Proof.Machine.execArbiterChoose ep ecc cell s
  | .egressRestart id => Sys2Proof.Machine.execEgressRestart id s
  | .ageLimitExpire id => Sys2Proof.Machine.execAgeLimitExpire id s
  | .reseqTimeout src dst cls => Sys2Proof.Machine.execReseqTimeout src dst cls s
  | .epochSlotFree => Sys2Proof.Machine.execEpochSlotFree s
  | .barrierComplete => Sys2Proof.Machine.execBarrierComplete s
  | .rds r => Sys2Proof.Machine.execRds r s
  | .rdx r => Sys2Proof.Machine.execRdx r s
  | .upg r => Sys2Proof.Machine.execUpg r s
  | .rdu r => Sys2Proof.Machine.execRdu r s
  | .wru r => Sys2Proof.Machine.execWru r s
  | .atomic r op w64 operand compare => Sys2Proof.Machine.execAtomic r op w64 operand compare s
  | .wb r => Sys2Proof.Machine.execWb r s
  | .cev r => Sys2Proof.Machine.execCev r s
  | .biconflict p fa => Sys2Proof.Machine.execBiconflict p fa s
  | .rspi p fa => Sys2Proof.Machine.execRspi p fa s
  | .rsps p fa => Sys2Proof.Machine.execRsps p fa s
  | .fwdData p tag fa data => Sys2Proof.Machine.execFwdData p tag fa data s
  | .fwdNack p tag fa => Sys2Proof.Machine.execFwdNack p tag fa s
  | .memd fa data poison => Sys2Proof.Machine.execMemd fa data poison s
  | .bisnpFromBacking h p fa => Sys2Proof.Machine.execBisnpFromBacking h p fa s
  | .retryDue h => Sys2Proof.Machine.execRetryDue h s
  | .snoopTimeout p fa => Sys2Proof.Machine.execSnoopTimeout p fa s
  | .watchRecall fa => Sys2Proof.Machine.execWatchRecall fa s
  | .writebackIssue h => Sys2Proof.Machine.execWritebackIssue h s
  | .writebackComplete fa => Sys2Proof.Machine.execWritebackComplete fa s
  | .scrubStep h errs => Sys2Proof.Machine.execScrubStep h errs s
  | .rtLoadEnd index => Sys2Proof.Machine.execRtLoadEnd index s
  | .unbindWalkStart => Sys2Proof.Machine.execUnbindWalkStart s
  | .wbDone => Sys2Proof.Machine.execWbDone s
  | .revokeDone => Sys2Proof.Machine.execRevokeDone s
  | .domainResetDrained => Sys2Proof.Machine.execDomainResetDrained s
  | .domainResetWalkEnd => Sys2Proof.Machine.execDomainResetWalkEnd s
  | .domainResetDone => Sys2Proof.Machine.execDomainResetDone s
  | .bellowsInterval => Sys2Proof.Machine.execBellowsInterval s
  | .tempSample quarters => Sys2Proof.Machine.execTempSample quarters s
  | .regulatorReading mv ma => Sys2Proof.Machine.execRegulatorReading mv ma s
  | .shaperRefresh => Sys2Proof.Machine.execShaperRefresh s
  | .bucketSlotRelease domain slot => Sys2Proof.Machine.execBucketSlotRelease domain slot s
  | .tcrNFall g => Sys2Proof.Machine.execTcrNFall g s
  | .toolReleaseRequest g => Sys2Proof.Machine.execToolReleaseRequest g s
  | .toolDrainEnd p => Sys2Proof.Machine.execToolDrainEnd p s
  | .toolDrainCut p => Sys2Proof.Machine.execToolDrainCut p s
  | .proofSample p reading => Sys2Proof.Machine.execProofSample p reading s
  | .proofDeadline p => Sys2Proof.Machine.execProofDeadline p s
  | .tcrNRise g => Sys2Proof.Machine.execTcrNRise g s
  | .doorbellPoll ring evq => Sys2Proof.Machine.execDoorbellPoll ring evq s
  | .doorbellReadComplete ring evq word => Sys2Proof.Machine.execDoorbellReadComplete ring evq word s
  | .descriptorFetch ring desc => Sys2Proof.Machine.execDescriptorFetch ring desc s
  | .descriptorStart ring => Sys2Proof.Machine.execDescriptorStart ring s
  | .nop h => Sys2Proof.Machine.execNop h s
  | .barrier h => Sys2Proof.Machine.execBarrier h s
  | .tableRead h table index sub o => Sys2Proof.Machine.execTableRead h table index sub o s
  | .domainCreate h w10 w18 w20 => Sys2Proof.Machine.execDomainCreate h w10 w18 w20 s
  | .domainDestroy h => Sys2Proof.Machine.execDomainDestroy h s
  | .domainReset h squash => Sys2Proof.Machine.execDomainReset h squash s
  | .windowBind h index entry => Sys2Proof.Machine.execWindowBind h index entry s
  | .windowUnbind h index => Sys2Proof.Machine.execWindowUnbind h index s
  | .tlistWrite h index o targets => Sys2Proof.Machine.execTlistWrite h index o targets s
  | .pbrWrite h index entry => Sys2Proof.Machine.execPbrWrite h index entry s
  | .ldBind h index aux => Sys2Proof.Machine.execLdBind h index aux s
  | .ldUnbind h index aux => Sys2Proof.Machine.execLdUnbind h index aux s
  | .portRidmap h index sub entry => Sys2Proof.Machine.execPortRidmap h index sub entry s
  | .ruleWrite h index revoke entry => Sys2Proof.Machine.execRuleWrite h index revoke entry s
  | .ruleClear h index revoke => Sys2Proof.Machine.execRuleClear h index revoke s
  | .planLoad h o plan => Sys2Proof.Machine.execPlanLoad h o plan s
  | .planSwitch h tick next => Sys2Proof.Machine.execPlanSwitch h tick next s
  | .timeStep h delta => Sys2Proof.Machine.execTimeStep h delta s
  | .engineRetire h index => Sys2Proof.Machine.execEngineRetire h index s
  | .progLoad h index o image => Sys2Proof.Machine.execProgLoad h index o image s
  | .progUnload h index => Sys2Proof.Machine.execProgUnload h index s
  | .workSubmit h w10 w18 args => Sys2Proof.Machine.execWorkSubmit h w10 w18 args s
  | .bucketWrite h index entry => Sys2Proof.Machine.execBucketWrite h index entry s
  | .bucketClear h index => Sys2Proof.Machine.execBucketClear h index s
  | .blwSet h index value => Sys2Proof.Machine.execBlwSet h index value s
  | .blwCoefLoad h o table => Sys2Proof.Machine.execBlwCoefLoad h o table s
  | .portBind h index => Sys2Proof.Machine.execPortBind h index s
  | .portDown h index => Sys2Proof.Machine.execPortDown h index s
  | .ideKey h index aux key => Sys2Proof.Machine.execIdeKey h index aux key s
  | .evqCreate h w10 w18 w20 w28 w30 w38 => Sys2Proof.Machine.execEvqCreate h w10 w18 w20 w28 w30 w38 s
  | .evqDestroy h index => Sys2Proof.Machine.execEvqDestroy h index s
  | .sourceMap h index entry => Sys2Proof.Machine.execSourceMap h index entry s
  | .sourceMapRead h index => Sys2Proof.Machine.execSourceMapRead h index s
  | .counterCfg h index entry => Sys2Proof.Machine.execCounterCfg h index entry s
  | .bwWindow h index nTick => Sys2Proof.Machine.execBwWindow h index nTick s
  | .counterRead h index => Sys2Proof.Machine.execCounterRead h index s
  | .recStart h w10 w18 w20 w28 w30 w38 wlist => Sys2Proof.Machine.execRecStart h w10 w18 w20 w28 w30 w38 wlist s
  | .recQuiesceStart => Sys2Proof.Machine.execRecQuiesceStart s
  | .recQuiescePoint => Sys2Proof.Machine.execRecQuiescePoint s
  | .recSectionsDone => Sys2Proof.Machine.execRecSectionsDone s
  | .recQlimitExpire => Sys2Proof.Machine.execRecQlimitExpire s
  | .digestSpanEnd => Sys2Proof.Machine.execDigestSpanEnd s
  | .spillWriteComplete status => Sys2Proof.Machine.execSpillWriteComplete status s
  | .recMarkRx p value tag => Sys2Proof.Machine.execRecMarkRx p value tag s
  | .recStop h => Sys2Proof.Machine.execRecStop h s
  | .recReplay h addr length rec report => Sys2Proof.Machine.execRecReplay h addr length rec report s
  | .replaySpanEnd => Sys2Proof.Machine.execReplaySpanEnd s
  | .imageStage h index o img => Sys2Proof.Machine.execImageStage h index o img s
  | .stageProgramEnd ok => Sys2Proof.Machine.execStageProgramEnd ok s
  | .imageActivate h w10 w18 => Sys2Proof.Machine.execImageActivate h w10 w18 s
  | .imageActivateCold h w10 w18 => Sys2Proof.Machine.execImageActivateCold h w10 w18 s
  | .activateVerifyEnd => Sys2Proof.Machine.execActivateVerifyEnd s
  | .activateDrainStart => Sys2Proof.Machine.execActivateDrainStart s
  | .activateDrained => Sys2Proof.Machine.execActivateDrained s
  | .activateDrainTimeout => Sys2Proof.Machine.execActivateDrainTimeout s
  | .activatePauseEnd => Sys2Proof.Machine.execActivatePauseEnd s
  | .trialWindowEnd => Sys2Proof.Machine.execTrialWindowEnd s
  | .fallbackDrainRetry => Sys2Proof.Machine.execFallbackDrainRetry s
  | .imageConfirm h => Sys2Proof.Machine.execImageConfirm h s
  | .poweredHours => Sys2Proof.Machine.execPoweredHours s
  | .retentionCheck sel0Bad sel1Bad aBad bBad => Sys2Proof.Machine.execRetentionCheck sel0Bad sel1Bad aBad bBad s
  | .slotRefresh => Sys2Proof.Machine.execSlotRefresh s
  | .ageingSample age margin => Sys2Proof.Machine.execAgeingSample age margin s
  | .healthRecord => Sys2Proof.Machine.execHealthRecord s
  | .ringCreate h w10 w18 w20 w28 w30 => Sys2Proof.Machine.execRingCreate h w10 w18 w20 w28 w30 s
  | .ringDestroy h index => Sys2Proof.Machine.execRingDestroy h index s
  | .ringReset h index w18 => Sys2Proof.Machine.execRingReset h index w18 s
  | .ringDoorbell h index w20 w28 => Sys2Proof.Machine.execRingDoorbell h index w20 w28 s
  | .ringStatus h index => Sys2Proof.Machine.execRingStatus h index s
  | .faultClear h index => Sys2Proof.Machine.execFaultClear h index s
  | .faultClearAll h cls => Sys2Proof.Machine.execFaultClearAll h cls s
  | .faultInject h w10 detected corrected => Sys2Proof.Machine.execFaultInject h w10 detected corrected s
  | .faultInjectLive h w10 detected corrected => Sys2Proof.Machine.execFaultInjectLive h w10 detected corrected s
  | .faultnHoldExpire => Sys2Proof.Machine.execFaultnHoldExpire s
  | .dbgSet h value => Sys2Proof.Machine.execDbgSet h value s
  | .timeClkReturn => Sys2Proof.Machine.execTimeClkReturn s
  | .admissionIntervalOpen w => Sys2Proof.Machine.execAdmissionIntervalOpen w s
  | .coldStartDelayExpire => Sys2Proof.Machine.execColdStartDelayExpire s
  | .slotRefreshEnd => Sys2Proof.Machine.execSlotRefreshEnd s
  | .dynamicAddressAssign mctp addr => Sys2Proof.Machine.execDynamicAddressAssign mctp addr s

end Sys2Proof.Machine
end

