-- ==== Sys2Proof/Safety.lean ====
section
/-! DEFINITION. What counts as a safe run, in the terms the claims use: the parts of the state and what a command leaves alone, the
canonical form of every table, and what no command takes back. -/

namespace Sys2Proof.Machine

/-! ### Frames -/

/-- The parts of State, one for each field. -/
inductive Part where
  | pending | free | out | regs | sys | pit | host | flt | eng | dom | ports | tool | fab | tabs | home | bel | recorder | img
  deriving DecidableEq, Repr

/-- The part is the same in both states. -/
def Part.same : Part → State → State → Prop
  | .pending, s, t => t.pending = s.pending
  | .free, s, t => t.free = s.free
  | .out, s, t => t.out = s.out
  | .regs, s, t => t.regs = s.regs
  | .sys, s, t => t.sys = s.sys
  | .pit, s, t => t.pit = s.pit
  | .host, s, t => t.host = s.host
  | .flt, s, t => t.flt = s.flt
  | .eng, s, t => t.eng = s.eng
  | .dom, s, t => t.dom = s.dom
  | .ports, s, t => t.ports = s.ports
  | .tool, s, t => t.tool = s.tool
  | .fab, s, t => t.fab = s.fab
  | .tabs, s, t => t.tabs = s.tabs
  | .home, s, t => t.home = s.home
  | .bel, s, t => t.bel = s.bel
  | .recorder, s, t => t.rec_ = s.rec_
  | .img, s, t => t.img = s.img

/-- Only the listed parts may differ. -/
def Only (l : List Part) (s t : State) : Prop := ∀ p : Part, p ∉ l → p.same s t

/-- The command completes: exec answers a next state, of which `post` holds. -/
def Next (c : Instr) (s : State) (post : State → Prop) : Prop := ∃ t, exec c s = .next t ∧ post t

/-! ### What a command may change -/

/-- What an event, a completion or a fault of a command moves: counters, rings and queues, the collector, a trial's account. -/
def reports : List Part := [.regs, .host, .flt, .img, .out, .free]

/-- The parts of the state that a command may change. No command changes the queue. -/
def commandParts : Instr → List Part
  | .slotRefresh => [.img]
  | .prsntNEdge .. | .lostPortWalkEnd .. | .ackReceived .. => [.ports]
  | .dynamicAddressAssign .. => [.sys]
  | .bucketSlotRelease .. => [.tabs]
  | .fmApiMessage .. => [.out, .free]
  | .tikFtimeLowRead => [.pit, .out]
  | .autoRebind .. => [.ports, .fab]
  | .meradOfferRx .. | .meradAcceptRx .. | .meradConfirmRx .. | .l0pRequestRx .. | .flitTransmit .. => [.ports, .out]
  | .recBufRead => [.recorder, .out]
  | .strapSample .. => [.regs, .dom]
  | .creditUpdateRx .. => [.regs, .ports]
  | .recMarkRx .. => [.regs, .recorder]
  | .tcrNFall .. => [.sys, .tool]
  | .configRequest .. => [.host, .out, .free]
  | .ideKmRequest .. => [.ports, .out, .free]
  | .egressRestart .. | .bisnpFromBacking .. => [.regs, .fab, .out]
  | .slotRefreshEnd => [.regs, .img, .out]
  | .pwrgdRise .. | .l0pWidthChangeEnd .. => [.regs, .ports, .recorder]
  | .pllLock => [.regs, .sys, .free]
  | .portPowerUpStart .. => [.sys, .ports, .out]
  | .biconflict .. => [.regs, .fab, .home, .out]
  | .ppsInEdge | .timeClkReturn => [.regs, .pit, .recorder, .free]
  | .dllUp .. => [.regs, .ports, .recorder, .out]
  | .flushEnd .. => [.regs, .sys, .ports, .tool]
  | .counterSnapshot .. | .bwWindowClose .. | .doorbellReadComplete .. | .descriptorFetch .. | .descriptorStart .. | .nop ..
    | .sourceMap .. | .sourceMapRead .. | .counterCfg .. | .bwWindow .. | .counterRead .. | .stageProgramEnd .. | .imageActivate ..
    | .imageActivateCold .. | .ringReset .. | .ringStatus .. => reports
  | .tableRead .. | .blwCoefLoad .. | .imageStage .. => .bel :: reports
  | .progUnload .. | .workSubmit .. => .eng :: reports
  | .auditReclaimEnd .. | .barrierComplete | .barrier .. => .fab :: reports
  | .ideKey .. => .ports :: reports
  | .recStop .. | .replaySpanEnd => .recorder :: reports
  | .planSwitch .. | .timeStep .. => .pit :: reports
  | .pwrOkFall | .rstNAssert => [.regs, .sys, .eng, .fab, .bel, .recorder, .out]
  | .healthRecord => .sys :: reports
  | .recStart .. | .spillWriteComplete .. => .bel :: .recorder :: reports
  | .progLoad .. => .eng :: .bel :: reports
  | .domainCreate .. => .eng :: .dom :: reports
  | .marionetteAccess .. => .fab :: .bel :: reports
  | .portBind .. => .ports :: .fab :: reports
  | .linkTrained .. => .ports :: .recorder :: reports
  | .ptmResponseRx .. => .pit :: .recorder :: reports
  | .engineResponse .. => .eng :: .fab :: .recorder :: reports
  | .writebackIssue .. => .fab :: .home :: .bel :: reports
  | .bucketWrite .. | .bucketClear .. => .fab :: .tabs :: .recorder :: reports
  | .planLoad .. => .pit :: .eng :: .bel :: reports
  | .regulatorReading .. => .sys :: .bel :: .recorder :: reports
  | .windowBind .. | .windowUnbind .. | .pbrWrite .. | .ldBind .. | .ldUnbind .. | .portRidmap ..
    => .dom :: .fab :: .tabs :: .recorder :: reports
  | .engineFailure .. | .engineRetire .. => .eng :: .fab :: .bel :: .recorder :: reports
  | .functionLevelReset .. | .rds .. | .rdx .. | .upg .. | .rdu .. | .wru .. | .atomic .. | .wb .. | .cev .. | .rspi .. | .rsps ..
    | .fwdData .. | .fwdNack .. | .memd .. | .writebackComplete .. | .evqCreate .. | .evqDestroy .. | .activateDrained | .ringCreate ..
    | .ringDoorbell .. => .fab :: .home :: .bel :: .recorder :: reports
  | .columnAdmit .. => .ports :: .fab :: .bel :: .recorder :: reports
  | .ingressHoldRelease .. => .ports :: .fab :: .tabs :: .recorder :: reports
  | .trainModeTimeout .. | .ptmDialogue | .holdoverLimitExpire | .boundaryFix | .budgetSpent .. | .spareLoadEnd .. | .progCopyEnd ..
    | .add .. | .sub .. | .and .. | .or .. | .xor .. | .shl .. | .shr .. | .sar .. | .mul .. | .min .. | .max .. | .movi .. | .rdt ..
    | .br .. | .loop .. | .waito .. | .waitoExpire .. | .fence .. | .lop .. | .lzero .. | .wbDone | .shaperRefresh | .doorbellPoll ..
    | .activateVerifyEnd | .trialWindowEnd | .imageConfirm .. | .poweredHours | .retentionCheck .. | .faultnHoldExpire
    => .pit :: .eng :: .tabs :: .bel :: reports
  | .faultClear .. | .faultClearAll .. => .sys :: .pit :: .ports :: .tool :: reports
  | .domainResetDrained => .dom :: .fab :: .home :: .bel :: .recorder :: reports
  | .tlistWrite .. => .dom :: .fab :: .tabs :: .bel :: .recorder :: reports
  | .domainDestroy .. | .domainReset .. => .eng :: .dom :: .ports :: .fab :: .recorder :: reports
  | .ringDestroy .. => .eng :: .fab :: .home :: .bel :: .recorder :: reports
  | .rtLoadEnd .. | .unbindWalkStart => .fab :: .tabs :: .home :: .bel :: .recorder :: reports
  | .revokeDone | .domainResetWalkEnd => .pit :: .eng :: .dom :: .tabs :: .bel :: reports
  | .reseqTimeout .. => .pit :: .eng :: .fab :: .tabs :: .bel :: reports
  | .meradOfferRepeat .. | .meradWaitExpire .. | .l0pWidenTimer .. | .l0pProtectStart .. | .ackTimerExpire .. | .creditUpdateTimer ..
    | .proofDeadline .. => .pit :: .eng :: .ports :: .tabs :: .bel :: reports
  | .timeSourceLoss .. | .end_ .. | .lds .. | .sts .. | .lls .. | .sls .. | .lext .. | .lins .. | .pubh .. | .crcl .. | .crcs ..
    | .recQuiescePoint | .digestSpanEnd => .pit :: .eng :: .tabs :: .bel :: .recorder :: reports
  | .pllLockTimeout | .clockMonitorLoss => .sys :: .eng :: .fab :: .bel :: .recorder :: reports
  | .tickOutPulseEnd .. | .ageingSample .. => .sys :: .pit :: .eng :: .tabs :: .bel :: reports
  | .ruleWrite .. | .ruleClear .. => .dom :: .fab :: .tabs :: .home :: .bel :: .recorder :: reports
  | .dispatchDue .. | .engineFence .. | .ldl .. | .stl .. | .stlm .. | .cpy .. | .pub .. | .red .. | .atom32 .. | .atom64 ..
    | .recSectionsDone | .recQlimitExpire | .activateDrainStart | .activateDrainTimeout | .admissionIntervalOpen ..
    => .pit :: .eng :: .fab :: .tabs :: .bel :: .recorder :: reports
  | .ageLimitExpire .. => .pit :: .eng :: .ports :: .fab :: .tabs :: .bel :: reports
  | .bellowsInterval => .pit :: .eng :: .ports :: .tabs :: .bel :: .recorder :: reports
  | .windowOpen .. => .sys :: .pit :: .eng :: .fab :: .tabs :: .bel :: reports
  | .dischLeadExpire .. | .perstHoldExpire .. => .sys :: .pit :: .eng :: .ports :: .tabs :: .bel :: reports
  | .domainResetDone => .eng :: .dom :: .fab :: .tabs :: .home :: .bel :: .recorder :: reports
  | .retryDue .. | .watchRecall .. | .scrubStep .. | .recQuiesceStart
    => .pit :: .eng :: .fab :: .tabs :: .home :: .bel :: .recorder :: reports
  | .retrainStart .. | .retrainEnd .. | .linkDown .. | .hotResetRx .. | .ideCheckFail .. | .flitReceived .. | .nakReceived ..
    | .toolDrainEnd .. | .portDown .. => .sys :: .ports :: .fab :: .tabs :: .home :: .bel :: .recorder :: reports
  | .supplyMonitorFault | .tempSample .. => .sys :: .pit :: .eng :: .fab :: .tabs :: .bel :: .recorder :: reports
  | .windowClose .. => .sys :: .pit :: .eng :: .ports :: .fab :: .tabs :: .bel :: reports
  | .epochSlotFree => .eng :: .dom :: .ports :: .fab :: .tabs :: .home :: .bel :: .recorder :: reports
  | .columnAudit .. | .arbiterChoose .. => .sys :: .eng :: .ports :: .fab :: .tabs :: .home :: .bel :: .recorder :: reports
  | .pwrgdFall .. => .sys :: .ports :: .tool :: .fab :: .tabs :: .home :: .bel :: .recorder :: reports
  | .tickBoundary => .sys :: .pit :: .eng :: .ports :: .fab :: .tabs :: .bel :: .recorder :: reports
  | .toolReleaseRequest .. | .proofSample .. | .tcrNRise ..
    => .sys :: .pit :: .eng :: .ports :: .tool :: .tabs :: .bel :: .recorder :: reports
  | .recReplay .. => .pit :: .eng :: .dom :: .ports :: .fab :: .tabs :: .home :: .bel :: .recorder :: reports
  | .selftestDone .. | .messageIngress .. => .sys :: .eng :: .ports :: .tool :: .fab :: .tabs :: .home :: .bel :: .recorder :: reports
  | .replayTimerExpire .. | .snoopTimeout .. | .toolDrainCut ..
    => .sys :: .pit :: .eng :: .ports :: .fab :: .tabs :: .home :: .bel :: .recorder :: reports
  | .recoveryLenWrite .. | .recoveryDataWrite .. | .recoveryGo | .glbResetWrite .. | .setupWrite .. | .tickEnableClear ..
    | .tickEnableSet .. | .timeSourceSelect .. | .quadModeWrite .. | .xbrPresetWrite .. | .pmcFreezeSet .. | .pmcFreezeClear ..
    | .fltThreshWrite .. | .fltClrIndex .. | .fltClrAll .. | .mringEnable .. | .mringDisable .. | .fuseKeyProgram ..
    | .spiReleaseWrite .. | .blwSet .. | .dbgSet ..
    => .sys :: .pit :: .eng :: .ports :: .tool :: .fab :: .home :: .bel :: .recorder :: reports
  | .faultInject .. | .faultInjectLive ..
    => .sys :: .eng :: .dom :: .ports :: .tool :: .fab :: .tabs :: .home :: .bel :: .recorder :: reports
  | .prsntFilterExpire .. | .pwrgdTimeout ..
    => .sys :: .pit :: .eng :: .ports :: .tool :: .fab :: .tabs :: .home :: .bel :: .recorder :: reports
  | .vddAonRise | .pwrOkRise | .rstNRelease | .imageLoadEnd | .jtagInstruction .. | .activatePauseEnd | .fallbackDrainRetry
    | .coldStartDelayExpire => .sys :: .pit :: .eng :: .dom :: .ports :: .tool :: .fab :: .tabs :: .home :: .bel :: .recorder :: reports

/-- The header of a command that a ring carries. -/
def commandHeader : Instr → Option Hdr
  | .nop h | .barrier h | .tableRead h .. | .domainCreate h .. | .domainDestroy h | .domainReset h .. | .windowBind h ..
    | .windowUnbind h .. | .tlistWrite h .. | .pbrWrite h .. | .ldBind h .. | .ldUnbind h .. | .portRidmap h .. | .ruleWrite h ..
    | .ruleClear h .. | .planLoad h .. | .planSwitch h .. | .timeStep h .. | .engineRetire h .. | .progLoad h ..
    | .progUnload h .. | .workSubmit h .. | .bucketWrite h .. | .bucketClear h .. | .blwSet h .. | .blwCoefLoad h ..
    | .portBind h .. | .portDown h .. | .ideKey h .. | .evqCreate h .. | .evqDestroy h .. | .sourceMap h .. | .sourceMapRead h ..
    | .counterCfg h .. | .bwWindow h .. | .counterRead h .. | .recStart h .. | .recStop h | .recReplay h .. | .imageStage h ..
    | .imageActivate h .. | .imageActivateCold h .. | .imageConfirm h | .ringCreate h .. | .ringDestroy h .. | .ringReset h ..
    | .ringDoorbell h .. | .ringStatus h .. | .faultClear h .. | .faultClearAll h .. | .faultInject h .. | .faultInjectLive h ..
    | .dbgSet h .. => some h
  | .vddAonRise | .pwrOkRise | .pwrOkFall | .rstNAssert | .rstNRelease | .strapSample .. | .pllLock | .pllLockTimeout
    | .clockMonitorLoss | .supplyMonitorFault | .selftestDone .. | .imageLoadEnd | .recoveryLenWrite .. | .recoveryDataWrite ..
    | .recoveryGo | .glbResetWrite .. | .setupWrite .. | .tikFtimeLowRead | .recBufRead | .tickEnableClear .. | .tickEnableSet ..
    | .timeSourceSelect .. | .quadModeWrite .. | .xbrPresetWrite .. | .pmcFreezeSet .. | .pmcFreezeClear .. | .fltThreshWrite ..
    | .fltClrIndex .. | .fltClrAll .. | .mringEnable .. | .mringDisable .. | .fuseKeyProgram .. | .spiReleaseWrite ..
    | .functionLevelReset .. | .configRequest .. | .ideKmRequest .. | .jtagInstruction .. | .marionetteAccess ..
    | .fmApiMessage .. | .prsntNEdge .. | .prsntFilterExpire .. | .portPowerUpStart .. | .dischLeadExpire .. | .pwrgdRise ..
    | .perstHoldExpire .. | .pwrgdFall .. | .pwrgdTimeout .. | .linkTrained .. | .trainModeTimeout .. | .dllUp ..
    | .meradOfferRepeat .. | .meradOfferRx .. | .meradAcceptRx .. | .meradConfirmRx .. | .meradWaitExpire .. | .autoRebind ..
    | .retrainStart .. | .retrainEnd .. | .l0pRequestRx .. | .l0pWidenTimer .. | .l0pWidthChangeEnd .. | .l0pProtectStart ..
    | .linkDown .. | .flushEnd .. | .lostPortWalkEnd .. | .hotResetRx .. | .ideCheckFail .. | .flitReceived ..
    | .ackTimerExpire .. | .ackReceived .. | .nakReceived .. | .replayTimerExpire .. | .flitTransmit .. | .creditUpdateRx ..
    | .creditUpdateTimer .. | .ptmDialogue | .ptmResponseRx .. | .ppsInEdge | .timeSourceLoss .. | .holdoverLimitExpire
    | .boundaryFix | .tickBoundary | .tickOutPulseEnd .. | .windowOpen .. | .windowClose .. | .counterSnapshot ..
    | .bwWindowClose .. | .columnAudit .. | .auditReclaimEnd .. | .dispatchDue .. | .budgetSpent .. | .engineFence ..
    | .engineResponse .. | .engineFailure .. | .spareLoadEnd .. | .progCopyEnd .. | .add .. | .sub .. | .and .. | .or ..
    | .xor .. | .shl .. | .shr .. | .sar .. | .mul .. | .min .. | .max .. | .movi .. | .rdt .. | .br .. | .loop .. | .waito ..
    | .waitoExpire .. | .fence .. | .end_ .. | .lds .. | .sts .. | .lls .. | .sls .. | .lext .. | .lins .. | .lop .. | .lzero ..
    | .ldl .. | .stl .. | .stlm .. | .cpy .. | .pub .. | .red .. | .pubh .. | .atom32 .. | .atom64 .. | .crcl .. | .crcs ..
    | .messageIngress .. | .ingressHoldRelease .. | .columnAdmit .. | .arbiterChoose .. | .egressRestart .. | .ageLimitExpire ..
    | .reseqTimeout .. | .epochSlotFree | .barrierComplete | .rds .. | .rdx .. | .upg .. | .rdu .. | .wru .. | .atomic ..
    | .wb .. | .cev .. | .biconflict .. | .rspi .. | .rsps .. | .fwdData .. | .fwdNack .. | .memd .. | .bisnpFromBacking ..
    | .retryDue .. | .snoopTimeout .. | .watchRecall .. | .writebackIssue .. | .writebackComplete .. | .scrubStep ..
    | .rtLoadEnd .. | .unbindWalkStart | .wbDone | .revokeDone | .domainResetDrained | .domainResetWalkEnd | .domainResetDone
    | .bellowsInterval | .tempSample .. | .regulatorReading .. | .shaperRefresh | .bucketSlotRelease .. | .tcrNFall ..
    | .toolReleaseRequest .. | .toolDrainEnd .. | .toolDrainCut .. | .proofSample .. | .proofDeadline .. | .tcrNRise ..
    | .doorbellPoll .. | .doorbellReadComplete .. | .descriptorFetch .. | .descriptorStart .. | .recQuiesceStart
    | .recQuiescePoint | .recSectionsDone | .recQlimitExpire | .digestSpanEnd | .spillWriteComplete .. | .recMarkRx ..
    | .replaySpanEnd | .stageProgramEnd .. | .activateVerifyEnd | .activateDrainStart | .activateDrained | .activateDrainTimeout
    | .activatePauseEnd | .trialWindowEnd | .fallbackDrainRetry | .poweredHours | .retentionCheck .. | .slotRefresh
    | .ageingSample .. | .healthRecord | .faultnHoldExpire | .timeClkReturn | .admissionIntervalOpen .. | .coldStartDelayExpire
    | .slotRefreshEnd | .dynamicAddressAssign .. => none

/-! ### The canonical form of the state's tables -/

def Sys.wf (y : Sys) : Prop := Tab.wf natAt y.life.temps = true

def HostIf.wf (h : HostIf) : Prop :=
  Tab.wf noneAt h.rings = true ∧ Tab.wf noneAt h.evqs = true ∧ Tab.wf sourceAt h.sources = true
    ∧ Tab.wf counterAt h.counters = true ∧ Tab.wf bwAt h.bw = true ∧ Tab.wf msixAt h.msix = true ∧ Tab.wf natAt h.cmdReg = true
    ∧ Tab.wf pairAt h.bridgeMem = true ∧ Tab.wf pairAt h.bridgeBus = true ∧ Tab.wf natAt h.bridgeEvt = true
    ∧ Tab.wf natAt h.refTick = true ∧ Tab.wf natAt h.refSupp = true

def Flt.wf (f : Flt) : Prop := Tab.wf noneAt f.entries = true

def Eng.wf (g : Eng) : Prop :=
  Tab.wf noneAt g.progs = true ∧ Tab.wf noneAt g.loads = true ∧ g.scratch.wf = true ∧ Tab.wf slotAt g.slots = true

def Dom.wf (g : Dom) : Prop :=
  Tab.wf domainAt g.doms = true ∧ Tab.wf noneAt g.rules = true ∧ Tab.wf ridAt g.rids = true

def Tool.wf (x : Tool) : Prop := Tab.wf natAt x.tcrAt = true ∧ Tab.wf noneAt x.quadWait = true

def Fab.wf (g : Fab) : Prop := Tab.wf natAt g.flowSeq = true ∧ Tab.wf natAt g.expect = true ∧ Tab.wf natAt g.ledger = true

def Tabs.wf (x : Tabs) : Prop :=
  Tab.wf noneAt x.wins = true ∧ Tab.wf tlistAt x.tlists = true ∧ Tab.wf natAt x.pbr = true ∧ Tab.wf noneAt x.binds = true
    ∧ Tab.wf noneAt x.buckets = true

def Home.wf (g : Home) : Prop :=
  Tab.wf noneAt g.dir = true ∧ Tab.wf noneAt g.olc = true ∧ Tab.wf agesAt g.dirAge = true ∧ Tab.wf agesAt g.olcAge = true
    ∧ Tab.wf noneAt g.trk = true

def Bel.wf (b : Bel) : Prop := Tab.wf natAt b.winPj = true ∧ Tab.wf regDefault b.regs = true ∧ Tab.wf trafficAt b.traffic = true

def Rec.wf (r : Rec) : Prop := Tab.wf digestAt r.digests = true ∧ Tab.wf natAt r.rdy = true

/-- Every table of the state is in its canonical form: equal contents are equal data. -/
def State.wf (s : State) : Prop :=
  Tab.wf regDefault s.regs = true ∧ s.sys.wf ∧ s.host.wf ∧ s.flt.wf ∧ s.eng.wf ∧ s.dom.wf ∧ s.tool.wf ∧ s.fab.wf ∧ s.tabs.wf
    ∧ s.home.wf ∧ s.bel.wf ∧ s.rec_.wf

/-! ### When a command acts -/

/-- A setup write by the path may take effect (R641, R666, R672, R676). -/
structure Served (p : Path) (s : State) : Prop where
  opened   : s.pathServes p = true
  live     : s.flt.safe = false
  steady   : s.img.hold = false
  unsealed : s.rd R.GLB_CTRL_SEAL = 0
  i3c      : p = .i3c → s.rd R.GLB_CTRL_I3C_WR = 1

/-- A command of the manager ring passes the checks of R486 that stand before its own: the device serves, the header is well-formed, and
no domain that it names is RESETTING. -/
structure Admitted (h : Hdr) (ds : List Nat) (s : State) : Prop where
  serving : s.serving = true
  fmt     : h.fmt = 1 ∧ h.nocpl = false ∨ h.fmt = 2
  ring    : h.ring.val = 0
  domain  : h.domain.toNat ≤ 4095
  live    : s.anyResetting (h.domain.toNat :: ds) = false

/-- As `Admitted`, for a command that the rings of the domain in its header may submit too. -/
structure Permitted (h : Hdr) (s : State) : Prop where
  serving : s.serving = true
  fmt     : h.fmt = 1 ∧ h.nocpl = false ∨ h.fmt = 2
  domain  : h.domain.toNat ≤ 4095
  owner   : h.ring.val = 0 ∨ h.domain.toNat = s.ringDomain h.ring.val
  live    : s.anyResetting [h.domain.toNat] = false

/-- A command has its effect, of which `post` holds, and then its completion `x` is written. -/
def Completes (c : Instr) (h : Hdr) (x : Cpl) (s : State) (post : State → Prop) : Prop := Next c s fun t => ∃ u, post u ∧ t = u.complete h x

/-- The doorbell of a ring needs no new watched line (R491). -/
def WatchReady (r : Ring) (s : State) : Prop := s.watchOk r = true ∧ ∀ la, r.watchLine = some la → s.isWatched la = true

/-- The host object of a command may be read or written: every part of it passes the checks of R477, and one in fabric space lies in a
decode window. -/
def ObjectOk (h : Hdr) (o : HRef) (len : Nat) (need : Need) (s : State) : Prop :=
  refusedParts (s.decide (s.ringDomain h.ring.val) o.space.toNat o.port.val need (partsOf o.addr.toNat len)) = []
    ∧ (o.space = 0 → ∀ a ∈ partsOf o.addr.toNat len, s.window 64 a ≠ none)

/-- The state after the checks of the host object's parts have been counted. -/
def State.objectRead (h : Hdr) (o : HRef) (len : Nat) (need : Need) (s : State) : State :=
  s.countParts (s.ringPort h.ring.val) (s.ringDomain h.ring.val) none
    (72 + homeOf o.addr.toNat + 7 * 2 ^ 14 + s.ringDomain h.ring.val * 2 ^ 20)
    (s.decide (s.ringDomain h.ring.val) o.space.toNat o.port.val need (partsOf o.addr.toNat len))

/-- A table command lands: it completes OK, its one entry is written at the epoch the change opens, of which `post` holds, and nothing but
the tables, the epoch and what records the write has moved. -/
def Lands (c : Instr) (h : Hdr) (s : State) (post : State → Prop) : Prop :=
  Completes c h {} s fun u => u.fab = s.openEpoch.fab ∧ Only [.tabs, .dom, .regs, .recorder, .fab] s u ∧ post u

/-- No transient is open; no pin waits for a way, no conflict for its acknowledgement, no eviction for a tracker; no check bit of a way stands
inverted (R561). -/
structure HomeQuiet (s : State) : Prop where
  trk   : s.home.trk = []
  pins  : s.home.pins = []
  confs : s.home.confs = []
  owed  : s.home.owed = []
  whole : s.flt.inverted = []

/-- The home hands the core a message of which `post` holds, ahead of anything else that it hands over. -/
def Sends (post : CoreMsg → Prop) (s t : State) : Prop := ∃ m l, post m ∧ t.fab.inbox = s.fab.inbox ++ m :: l

/-- No work item runs, and the plan dispatches none. -/
structure EnginesRest (s : State) : Prop where
  disp  : s.pit.current.disp = []
  items : ∀ e, s.item e = none

/-- A request reaches a home slice that works and is quiet, for a line of window `w`, which is neither an RT window nor one of kind U. It is
no CXL.io request and not the recall of a watched line, and its lookup meets no error. -/
structure AtHome (r : HReq) (w : DWin) (s : State) : Prop where
  serving : s.serving = true
  taken   : s.takes r = true
  works   : (s.slice (sliceOf r.la)).failed = false
  mapped  : s.lineWin r.la = some w
  plain   : w.rt = false ∧ w.u = false
  quiet   : HomeQuiet s
  own     : r.tag ≠ recallTag ∧ r.io = false ∧ r.errs = []
  watched : s.isWatched r.la = false

/-! ### What an engine's instruction may change -/

/-- An engine after `n` cycles of one more instruction (R340, R362). -/
def Engine.charged (n : Nat) (g : Engine) : Engine :=
  { g with used := min (2 ^ 24 - 1) (g.used + n), item := g.item.map fun i => { i with instrs := i.instrs + 1 } }

/-- An engine that has one more request outstanding, to address `a`. -/
def Engine.asking (r : EReq) (a : Nat) (g : Engine) : Engine :=
  { g with nextTag := g.nextTag + 1, lastFa := a, item := g.item.map fun i => { i with reqs := i.reqs ++ [r] } }

/-- Engine `e` has become `g`, and nothing else of the engines, their programs, scratch, slots or plan has moved; outside them only what
counts, reports and pays for the instruction. -/
def EngineNow (e : EngineId) (g : Engine) (s t : State) : Prop :=
  t.eng = (s.onEngine e fun _ => g).eng ∧ Only [.eng, .regs, .host, .flt, .bel, .img, .out, .free] s t

/-- As `EngineNow`, and the engine has handed the core a message of which `post` holds. -/
def EngineAsks (e : EngineId) (g : Engine) (post : CoreMsg → Prop) (s t : State) : Prop :=
  t.eng = (s.onEngine e fun _ => g).eng ∧ Only [.eng, .regs, .host, .flt, .bel, .img, .out, .free, .fab] s t ∧ Sends post s t

/-- Engine `e` runs this instruction now, and none of the registers in `ss` and `ls` is pending: the running item (R362, R363). -/
structure Runs (e : EngineId) (op : Nat) (x : Fields) (ss : List (Fin 32)) (ls : List (Fin 8)) (i : Item) (s : State) : Prop where
  runs    : s.runs e op x = some i
  scalars : ∀ d ∈ ss, i.pendS d = false
  lines   : ∀ l ∈ ls, i.pendL l = false

/-- The eleven register operations of R366 by opcode, with cycles and result of the two operands. -/
def aluRows (e : EngineId) (x : Fields) : List (Instr × Nat × Nat × (Word → Word → Word)) :=
  [(.add e x, 0x01, 1, fun a b => a + b), (.sub e x, 0x02, 1, fun a b => a - b), (.and e x, 0x03, 1, fun a b => a &&& b),
   (.or e x, 0x04, 1, fun a b => a ||| b), (.xor e x, 0x05, 1, fun a b => a ^^^ b),
   (.shl e x, 0x06, 1, fun a b => a <<< (b.toNat % 64)), (.shr e x, 0x07, 1, fun a b => a >>> (b.toNat % 64)),
   (.sar e x, 0x08, 1, fun a b => a.sshiftRight (b.toNat % 64)), (.mul e x, 0x09, 3, fun a b => a * b),
   (.min e x, 0x0A, 1, fun a b => if (if x.f.getLsbD 1 then b.slt a else b.ult a) then b else a),
   (.max e x, 0x0B, 1, fun a b => if (if x.f.getLsbD 1 then a.slt b else a.ult b) then b else a)]

/-! ### What no command takes back -/

/-- The fuses: the security version never falls, and a programmed key stays (R603, R604, R631). -/
def Img.fusesKept (a b : Img) : Prop := a.fused ≤ b.fused ∧ (a.keyset = true → b.keyset = true)

/-- `t` tells the outside everything that `s` told, and perhaps more. -/
def State.tells (s t : State) : Prop := s.out <:+ t.out

end Sys2Proof.Machine
end

