-- ==== Sys2Proof/WellFormed.lean ====
section
/-! DEFINITION. Which commands are well formed: operands have the sizes of the objects that the spec lays out. -/

namespace Sys2Proof

/-- FMT of a descriptor is a byte (R485). -/
def hdrOk (h : Hdr) : Bool := h.fmt < 256

/-- A plan object is a 1,600-byte head and 32 bytes for each dispatch entry, of which there are at most 256 (R63). -/
def planOk (p : List Word) : Bool := 200 ≤ p.length && p.length ≤ 1224 && (p.length - 200) % 4 = 0

/-- The host's memory gives every byte of an image that the device reads from it, 4 MiB at most (R596, R601). -/
def imageOk (w : List Word) : Bool := 8 * w.length = (imageSpan w + 7) / 8 * 8

/-- The command is well formed. -/
def Instr.wellFormed : Instr → Bool
  | .marionetteAccess write fa len data => 8 ≤ len && len ≤ 4096 && len % 8 = 0 && fa.toNat % 8 = 0 && (!write || data.length = len)
  | .flitReceived _ _ _ _ seq _ _ => seq < 4096
  | .ackReceived _ seq => seq < 4096
  | .nakReceived _ seq _ => seq < 4096
  | .counterSnapshot _ index => index < 1024
  | .columnAudit observed => (observed.map Prod.fst).Nodup
  | .dispatchDue index => index < 256
  | .messageIngress m => m.len ≤ 4096 && m.ld < 32
  | .tempSample quarters => quarters.length = 20
  | .bucketSlotRelease _ slot => slot < 1024
  | .descriptorFetch _ desc => desc.all fun d => d.length = 4 || d.length = 8
  | .tlistWrite h _ _ targets => hdrOk h && targets.length = 16
  | .planLoad h _ plan => hdrOk h && planOk plan
  | .progLoad h _ _ image => hdrOk h && 8 ≤ image.length
  | .blwCoefLoad h _ table => hdrOk h && table.length = 64
  | .recStart h _ _ _ _ _ _ wlist => hdrOk h && wlist.length ≤ 65
  | .recReplay h _ n w _ => hdrOk h && n % 64 = 0 && n ≤ 8 * w.length
  | .imageStage h _ _ img => hdrOk h && imageOk img
  | .ageingSample age margin => age.length = 24 && margin.length = 24
  | .nop h | .barrier h | .tableRead h _ _ _ _ | .domainCreate h _ _ _ | .domainDestroy h | .domainReset h _
  | .windowBind h _ _ | .windowUnbind h _ | .pbrWrite h _ _ | .ldBind h _ _ | .ldUnbind h _ _ | .portRidmap h _ _ _
  | .ruleWrite h _ _ _ | .ruleClear h _ _ | .planSwitch h _ _ | .timeStep h _ | .engineRetire h _ | .progUnload h _
  | .workSubmit h _ _ _ | .bucketWrite h _ _ | .bucketClear h _ | .blwSet h _ _ | .portBind h _ | .portDown h _
  | .ideKey h _ _ _ | .evqCreate h _ _ _ _ _ _ | .evqDestroy h _ | .sourceMap h _ _ | .sourceMapRead h _ | .counterCfg h _ _
  | .bwWindow h _ _ | .counterRead h _ | .recStop h | .imageActivate h _ _ | .imageActivateCold h _ _ | .imageConfirm h
  | .ringCreate h _ _ _ _ _ | .ringDestroy h _ | .ringReset h _ _ | .ringDoorbell h _ _ _ | .ringStatus h _ | .faultClear h _
  | .faultClearAll h _ | .faultInject h _ _ _ | .faultInjectLive h _ _ _ | .dbgSet h _ => hdrOk h
  | .vddAonRise | .pwrOkRise | .pwrOkFall | .rstNAssert | .rstNRelease | .strapSample _ _ | .pllLock | .pllLockTimeout
  | .clockMonitorLoss | .supplyMonitorFault | .selftestDone _ _ _ _ | .imageLoadEnd | .recoveryLenWrite _
  | .recoveryDataWrite _ _ | .recoveryGo | .glbResetWrite _ _ | .setupWrite _ _ _ _ | .tikFtimeLowRead | .recBufRead
  | .tickEnableClear _ | .tickEnableSet _ | .timeSourceSelect _ _ | .quadModeWrite _ _ _ | .xbrPresetWrite _ _
  | .pmcFreezeSet _ | .pmcFreezeClear _ | .fltThreshWrite _ _ | .fltClrIndex _ _ | .fltClrAll _ _ | .mringEnable _
  | .mringDisable _ | .fuseKeyProgram _ _ | .spiReleaseWrite _ _ | .functionLevelReset _ | .configRequest _ _
  | .ideKmRequest _ _ | .jtagInstruction _ | .fmApiMessage _ | .prsntNEdge _ _ | .prsntFilterExpire _ | .portPowerUpStart _
  | .dischLeadExpire _ | .pwrgdRise _ | .perstHoldExpire _ | .pwrgdFall _ | .pwrgdTimeout _ | .linkTrained _ _ _ _ _
  | .trainModeTimeout _ | .dllUp _ | .meradOfferRepeat _ | .meradOfferRx _ _ _ _ | .meradAcceptRx _ _ _ | .meradConfirmRx _ _
  | .meradWaitExpire _ | .autoRebind _ | .retrainStart _ _ | .retrainEnd _ _ _ | .l0pRequestRx _ _ | .l0pWidenTimer _ _
  | .l0pWidthChangeEnd _ | .l0pProtectStart _ _ | .linkDown _ _ | .flushEnd _ | .lostPortWalkEnd _ _ | .hotResetRx _ _
  | .ideCheckFail _ _ | .ackTimerExpire _ | .replayTimerExpire _ | .flitTransmit _ _ | .creditUpdateRx _ _ _ _ _
  | .creditUpdateTimer _ _ | .ptmDialogue | .ptmResponseRx _ _ | .ppsInEdge | .timeSourceLoss _ | .holdoverLimitExpire
  | .boundaryFix | .tickBoundary | .tickOutPulseEnd _ | .windowOpen _ | .windowClose _ | .bwWindowClose _ | .auditReclaimEnd _
  | .budgetSpent _ | .engineFence _ | .engineResponse _ _ _ _ | .engineFailure _ _ | .spareLoadEnd _ | .progCopyEnd _ _
  | .add _ _ | .sub _ _ | .and _ _ | .or _ _ | .xor _ _ | .shl _ _ | .shr _ _ | .sar _ _ | .mul _ _ | .min _ _ | .max _ _
  | .movi _ _ | .rdt _ _ | .br _ _ | .loop _ _ | .waito _ _ | .waitoExpire _ | .fence _ _ | .end_ _ _ | .lds _ _ | .sts _ _
  | .lls _ _ | .sls _ _ | .lext _ _ | .lins _ _ | .lop _ _ | .lzero _ _ | .ldl _ _ | .stl _ _ | .stlm _ _ | .cpy _ _ | .pub _ _
  | .red _ _ | .pubh _ _ | .atom32 _ _ | .atom64 _ _ | .crcl _ _ | .crcs _ _ | .ingressHoldRelease _ | .columnAdmit _ _ _
  | .arbiterChoose _ _ _ | .egressRestart _ | .ageLimitExpire _ | .reseqTimeout _ _ _ | .epochSlotFree | .barrierComplete
  | .rds _ | .rdx _ | .upg _ | .rdu _ | .wru _ | .atomic _ _ _ _ _ | .wb _ | .cev _ | .biconflict _ _ | .rspi _ _ | .rsps _ _
  | .fwdData _ _ _ _ | .fwdNack _ _ _ | .memd _ _ _ | .bisnpFromBacking _ _ _ | .retryDue _ | .snoopTimeout _ _
  | .watchRecall _ | .writebackIssue _ | .writebackComplete _ | .scrubStep _ _ | .rtLoadEnd _ | .unbindWalkStart | .wbDone
  | .revokeDone | .domainResetDrained | .domainResetWalkEnd | .domainResetDone | .bellowsInterval | .regulatorReading _ _
  | .shaperRefresh | .tcrNFall _ | .toolReleaseRequest _ | .toolDrainEnd _ | .toolDrainCut _ | .proofSample _ _
  | .proofDeadline _ | .tcrNRise _ | .doorbellPoll _ _ | .doorbellReadComplete _ _ _ | .descriptorStart _ | .recQuiesceStart
  | .recQuiescePoint | .recSectionsDone | .recQlimitExpire | .digestSpanEnd | .spillWriteComplete _ | .recMarkRx _ _ _
  | .replaySpanEnd | .stageProgramEnd _ | .activateVerifyEnd | .activateDrainStart | .activateDrained | .activateDrainTimeout
  | .activatePauseEnd | .trialWindowEnd | .fallbackDrainRetry | .poweredHours | .retentionCheck _ _ _ _ | .slotRefresh
  | .healthRecord | .faultnHoldExpire | .timeClkReturn | .admissionIntervalOpen _ | .coldStartDelayExpire | .slotRefreshEnd
  | .dynamicAddressAssign _ _ => true

end Sys2Proof
end

