-- ==== Sys2Proof/Certificates/Slice0/Obligations.lean ====
section
/-! DEFINITION. The statements of this row for the provers. `Next` says that a command answers a next state, `Completes` that it does and
writes its completion, `Only` what may differ; they, and the conditions on states, stand in Safety. -/

open Sys2Proof Sys2Proof.Machine

/-! ### The whole machine -/

/-- A step takes the command at the front of the queue and runs it with the queue's rest (log 1). With an empty queue one CCLK edge passes
(log 6): it changes no table, no port and no register but what counts time, and FTIME advances by the rate word (R37). In a replay more of
the record is read, and the core stands while it is held; else the items of the CCLK act and it passes (R588). -/
def Obligations.StepRunsFront : Prop :=  (∀ (c : Instr) (l : List Instr) (s : State), step { s with pending := c :: l } = exec c { s with pending := l })
  ∧ (∀ s : State, s.pending = [] → s.rec_.st ≠ .replay →
    ∃ t, step s = .next t ∧ Only (.pit :: .eng :: .bel :: .recorder :: .tabs :: reports) s t
      ∧ (s.cclkRuns = true → (t.pit.ftime * 2 ^ 32 + t.pit.frac) % 2 ^ 96 = (s.pit.ftime * 2 ^ 32 + s.pit.frac + s.pit.rate) % 2 ^ 96))
  ∧ ∀ s : State, s.pending = [] → s.rec_.st = .replay →
    (s.cclkRuns = false → step s = .next s)
    ∧ (s.cclkRuns = true → ∃ n : Nat, n ≤ s.rec_.feed.length ∧
      let u : State := { s with rec_ := { s.rec_ with fed := n }, free := s.free + 1 }
      (u.replayHeld = true → step s = .next u) ∧ (u.replayHeld = false → step s = .next u.presentItems.replayCclk))

/-- The state before power: every table in its form and nothing waiting; the supplies are off, no port has a partner, no message is in the
core, the recorder is idle. The values that the spec does not state for it are the model's own (log 5, log 10). -/
def Obligations.ResetState : Prop :=  State.reset.wf ∧ State.reset.pending = [] ∧ State.reset.out = [] ∧ State.reset.sys.vddAon = false ∧ State.reset.sys.pwrOk = false
    ∧ State.reset.sys.corePower = false ∧ (∀ p : PortId, (State.reset.port p).prsnt = false) ∧ State.reset.fab.msgs = []
    ∧ State.reset.rec_.st = .idle ∧ State.reset.serving = false ∧ ∀ e : EngineId, State.reset.item e = none

/-- What a command may change: nothing outside its parts, the queue never. -/
def Obligations.CommandFrames : Prop := ∀ (c : Instr) (s t : State), exec c s = .next t → Only (commandParts c) s t

/-- From every state whose tables are in their canonical form a step answers a next state, no fault and no refusal, and its tables are in
their canonical form again: equal contents stay equal data. -/
def Obligations.StepKeepsForm : Prop := ∀ s : State, s.wf → ∃ t, step s = .next t ∧ t.wf

/-- Every command keeps what cannot be taken back: programmed fuses, what the outside has been told, free values already taken (R603, R631).
-/
def Obligations.StepTakesNothingBack : Prop :=  ∀ s t : State, step s = .next t → s.img.fusesKept t.img ∧ s.tells t ∧ s.free ≤ t.free

/-- A command of a ring is checked in the order of R486: an FMT other than 1 or 2 is UNSUPPORTED, then NOCPL in format 1 and a DOMAIN above
4,095 are BAD_DESC; while the device does not serve, no command has an effect. -/
def Obligations.CommandChecks : Prop :=  ∀ (c : Instr) (h : Hdr) (s : State), commandHeader c = some h →
    (s.serving = false → exec c s = .next s)
    ∧ (s.serving = true → h.fmt ≠ 1 → h.fmt ≠ 2 → Completes c h { status := .unsupported } s (· = s))
    ∧ (s.serving = true → h.fmt = 1 → h.nocpl = true → Completes c h { status := .badDesc, code := 3 } s (· = s))
    ∧ (s.serving = true → h.fmt = 2 → 4095 < h.domain.toNat → Completes c h { status := .badDesc, code := 8 } s (· = s))

/-- A completion of a descriptor (R495, R497): its record takes the next entry of the ring's CQ and the reservation made at the fetch; in
format 2 with NOCPL and status OK no record is written and the reservation goes back. No other ring but its own and its CQ moves. -/
def Obligations.CompletionWritten : Prop :=  ∀ (h : Hdr) (x : Cpl) (s : State) (r q : Ring), s.ring h.ring.val = some r → r.state ≠ .error → s.cqOf h.ring.val ≠ h.ring.val →
    s.ring (s.cqOf h.ring.val) = some q → q.reserved ≠ 0 → s.ringServes (s.cqOf h.ring.val) = true →
    (h.fmt = 2 → h.nocpl = true → x.status = .ok →
      (s.complete h x).ring (s.cqOf h.ring.val) = some { q with reserved := q.reserved - 1 } ∧ (s.complete h x).out = s.out)
    ∧ ((h.nocpl = false ∨ x.status ≠ .ok) → s.hostAllows q.domain q.space q.port (q.base + 32 * (q.prod % 2 ^ q.log2n)) needW = true → q.evqEn = false →
      (s.complete h x).ring (s.cqOf h.ring.val) = some { q with reserved := q.reserved - 1, prod := (q.prod + 1) % 2 ^ 32 }
        ∧ (∃ rec : CplRec, .cpl (s.cqOf h.ring.val) q.prod rec.words ∈ (s.complete h x).out ∧ rec.sq = h.ring.val ∧ rec.status = x.status ∧ rec.tag = h.tag.toNat)
        ∧ (s.complete h x).ring h.ring.val = some (r.finish h.tag.toNat)
        ∧ ∀ n, n ≠ h.ring.val → n ≠ s.cqOf h.ring.val → (s.complete h x).ring n = s.ring n)

/-- The decision of a check unit (R400, R402): a lock of another domain over the part refuses it, whatever else stands; else a rule of the
domain that covers the part and permits the access allows it; else it is refused. An access is cut into 64-byte parts that cover it. -/
def Obligations.RegionDecision : Prop :=  (∀ (s : State) (d space port a : Nat) (n : Need),
    let locked : Prop := ∃ k r, (k, some r) ∈ s.dom.rules ∧ r.lock = true ∧ r.covers space port a = true ∧ ruleDomain k ≠ d
    let ruled : Prop := ∃ k r, (k, some r) ∈ s.dom.rules ∧ ruleDomain k = d ∧ r.covers space port a = true ∧ r.permits n = true
    (locked ↔ ∃ tag, decidePart s d space port a n = .refusedLock tag)
      ∧ (¬ locked ∧ ruled ↔ decidePart s d space port a n = .allowed)
      ∧ (¬ locked ∧ ¬ ruled ↔ decidePart s d space port a n = .refused))
  ∧ (∀ a len : Nat, 0 < len → (∀ x ∈ partsOf a len, a ≤ x ∧ x < a + len) ∧ ∀ b, a ≤ b → b < a + len → ∃ x ∈ partsOf a len, x / 64 = b / 64)

/-- R541: an occurrence whose key matches a valid entry adds 1 to that entry's COUNT, which saturates, and raises no further event. -/
def Obligations.RepeatedFaults : Prop :=  ∀ (s : State) (cause unit detail addr i : Nat) (inj : Bool) (e : FltEntry), s.findFlt cause unit = some (i, e) →
    (s.collectAs cause unit inj detail addr).fltEntry i = some { e with count := min 65535 (e.count + 1) }
      ∧ (∀ j, j ≠ i → (s.collectAs cause unit inj detail addr).fltEntry j = s.fltEntry j)
      ∧ (s.collectAs cause unit inj detail addr).out = s.out ∧ (s.collectAs cause unit inj detail addr).host = s.host

/-- R359: S0 reads as 0 and every write to it is discarded; each of the other registers keeps the 64 bits written to it, and no write to one
reaches another. -/
def Obligations.ZeroRegister : Prop :=  ∀ (g : Engine) (d f : Fin 32) (v : Word), g.getS 0 = 0 ∧ g.setS 0 v = g ∧ (d ≠ 0 → (g.setS d v).getS d = v)
    ∧ (f ≠ d → (g.setS d v).getS f = g.getS f)

/-- R207: an epoch e is older than the current epoch E when (E − e) modulo 65,536 lies between 1 and 255. -/
def Obligations.OlderEpochs : Prop :=  ∀ e f : Nat, e < 65536 → f < 65536 → (olderEpoch e f = true ↔ 1 ≤ ((f : Int) - e) % 65536 ∧ ((f : Int) - e) % 65536 ≤ 255)

/-- R391: D0 is ACTIVE from cold start, and DOMAIN_RESET and DOMAIN_DESTROY naming D0 are DENIED. -/
def Obligations.FirstDomain : Prop :=  (∀ (s : State) (cause : Nat), ((s.coldStart cause).domain 0).st = .active)
  ∧ ∀ (h : Hdr) (q : Bool) (s : State), Admitted h [] s → h.domain = 0 →
    Completes (.domainReset h q) h { status := .denied } s (· = s) ∧ Completes (.domainDestroy h) h { status := .denied } s (· = s)

/-! ### Start, power, management (spec 18) -/

/-- The rows that start the device cold or power it down (R623, R629, R630). -/
def Obligations.ColdStarts : Prop :=  (∀ s : State, s.sys.pwrOk = false →
    Next .vddAonRise s fun t => t.sys.vddAon = true ∧ t.sys.corePower = false ∧ t.rd R.GLB_START_CAUSE = 1
      ∧ t.rd R.GLB_START_PHASE_STEP = 1 ∧ t.pit = Pitch.init ∧ t.ports = s.ports.map Port.pins)
  ∧ (∀ s : State, s.sys.vddAon = true → s.sys.pwrOk = false → s.sys.rstN = true → s.sys.lowSince = true →
    Next .pwrOkRise s fun t => t.sys.pwrOk = true ∧ t.sys.corePower = true ∧ t.rd R.GLB_START_CAUSE = 2
      ∧ t.rd R.GLB_START_PHASE_STEP = 2 ∧ t.img.fused = s.img.fused ∧ t.img.slotA = s.img.slotA)
  ∧ (∀ s : State, s.sys.rstN = false → s.sys.pwrOk = true →
    Next .rstNRelease s fun t => t.sys.rstN = true ∧ t.rd R.GLB_START_CAUSE = 3 ∧ t.rd R.GLB_START_PHASE_STEP = 2)
  ∧ (∀ (s : State) (c : Nat), s.sys.coldDue = some c → c < 8 → s.sys.pwrOk = true → s.sys.rstN = true →
    Next .coldStartDelayExpire s fun t => t.sys.coldDue = none ∧ t.rd R.GLB_START_CAUSE = c % 8 ∧ t.rd R.GLB_START_PHASE_STEP = 2
     )

/-- A fall of PWR_OK, and what acts as one: the outputs and the core go down in one step (R623, R643). -/
def Obligations.PowerFalls : Prop :=  let down (s t : State) : Prop :=
    t.sys.perstN = 0 ∧ t.sys.pwren = 0 ∧ t.sys.disch = BitVec.allOnes 64 ∧ t.sys.corePower = false ∧ t.sys.lowSince = true
      ∧ t.fab.msgs = [] ∧ t.bel.pBal = s.bel.prevDyn ∧ t.rec_.frozen = true ∧ Only [.fab, .eng, .sys, .bel, .regs, .recorder, .out] s t
  (∀ s : State, s.sys.pwrOk = true → Next .pwrOkFall s fun t => t.sys.pwrOk = false ∧ down s t)
  ∧ (∀ s : State, s.sys.rstN = true → s.sys.corePower = true → Next .rstNAssert s fun t => t.sys.rstN = false ∧ down s t)
  ∧ (∀ s : State, s.sys.vddAon = true → s.rd R.GLB_STRAP_BOOT_SEL ≠ 3 → s.sys.jtagHold = false → s.sys.corePower = true →
    Next (.jtagInstruction .test) s fun t => t.sys.jtagHold = true ∧ t.sys.jtagIr = .test ∧ down s t)
  ∧ (∀ (s : State) (ir : JtagIr), s.sys.vddAon = true → s.rd R.GLB_STRAP_BOOT_SEL = 3 →
    exec (.jtagInstruction ir) s = .next { s with sys := { s.sys with jtagIr := ir } })

/-- Steps 2 to 5 of the start: straps, PLL, self-test (R626, R634, R636, R639). Steps 6 to 10: the recovery image, and the end of the load
(R640, R636, R40). A recovery image that passes the checks runs; one that fails them empties the buffer, which is the model's choice (log
48). -/
def Obligations.StartSteps : Prop :=
  ((∀ (s : State) (b : BitVec 2) (m : BitVec 6), s.inStep 2 = true →
      Next (.strapSample b m) s fun t => t.rd R.GLB_STRAP_BOOT_SEL = b.toNat ∧ t.rd R.GLB_STRAP_MGR_SEL = m.toNat
        ∧ t.rd R.GLB_START_PHASE_STEP = 4 ∧ t.dom = Dom.init m.toNat ∧ Only [.regs, .dom] s t)
    ∧ (∀ s : State, s.inStep 4 = true →
      Next .pllLock s fun t => t.rd R.GLB_CLK_PLL_LOCK = 1 ∧ t.rd R.GLB_START_PHASE_STEP = 5
        ∧ t.sys = { s.sys with oscOnly := false } ∧ Only [.regs, .sys, .free] s t)
    ∧ (∀ s : State, s.inStep 4 = true →
      Next .pllLockTimeout s fun t => t.flt.safe = true ∧ t.rd R.FLT_LAST_CAUSE = 0x404 ∧ t.sys.oscOnly = true ∧ t.rec_.frozen = true
        ∧ t.fab.msgs = [] ∧ Only [.regs, .sys, .flt, .eng, .fab, .bel, .recorder, .out] s t)
    ∧ (∀ (s : State) (us : Nat), s.inStep 5 = true → s.rd R.GLB_STRAP_BOOT_SEL = 1 →
      Next (.selftestDone us [] [] []) s fun t => t.rd R.GLB_START_PHASE_STEP = 7 ∧ t.rd R.GLB_START_PHASE_SELFTEST_US = min 65535 us
        ∧ t.img = { s.img with running := none, src := 0, alt := false, refreshDue := false, health := none }
        ∧ Only [.regs, .flt, .img, .out] s t))
  ∧ ((∀ s : State, s.inStep 7 = true → s.rd R.GLB_STRAP_BOOT_SEL = 2 → s.img.running = none →
      s.rd R.GLB_CTRL_I3C_WR = 1 → s.rd R.GLB_CTRL_SEAL = 0 →
      (s.imageFails s.sys.rcvData.reverse = none → Next .recoveryGo s fun t => t.rd R.GLB_RCV_CTRL_STATUS = 1
        ∧ t.img = { s.img with running := some (readImage s.sys.rcvData.reverse), src := 3, health := (readImage s.sys.rcvData.reverse).health }
        ∧ Only [.regs, .img] s t)
      ∧ (∀ c, s.imageFails s.sys.rcvData.reverse = some c → Next .recoveryGo s fun t => t.rd R.GLB_RCV_CTRL_STATUS = 2
        ∧ t.sys.rcvPos = 0 ∧ t.sys.rcvData = [] ∧ t.img.running = none ∧ Only [.regs, .sys] s t))
    ∧ (∀ s u : State, s.inStep 7 = true → s.loadReady = true → u = ((s.coldLoad s.img.running).forceManagerPort).toStep 8 →
      u.isLowest u.mgrPort = true → u.cfgRole u.mgrPort = 1 → Next .imageLoadEnd s fun t => t.pit.running = true))

/-- Management buses: I3C addresses, the FM API, the Marionette (R411, R642). The answer of the FM API is a free value (log 49). -/
def Obligations.ManagementBuses : Prop :=  (∀ (s : State) (a : BitVec 7), s.sys.vddAon = true →
    exec (.dynamicAddressAssign true a) s = .next { s with sys := { s.sys with i3cMctp := a } }
    ∧ exec (.dynamicAddressAssign false a) s = .next { s with sys := { s.sys with i3cSetup := a } })
  ∧ (∀ (s : State) (m : List Byte), s.serving = true → m ≠ [] →
    exec (.fmApiMessage m) s = .next { s with free := s.free + 1, out := .mctp [Config.freeNat s.free] :: s.out })
  ∧ (∀ (s : State) (write : Bool) (fa : Word) (len : Nat) (data : List Byte), s.serving = true → s.sys.jtagIr = .marionette →
    (Instr.marionetteAccess write fa len data).wellFormed = true →
    (s.marionetteOpen = true → Next (.marionetteAccess write fa len data) s fun t =>
      ∃ st a d, t.out.head? = some (.jtag st a d) ∧ d.length = (if write then 0 else len / 8))
    ∧ (s.marionetteOpen = false → exec (.marionetteAccess write fa len data) s
      = .next { s with out := .jtag .denied fa.toNat [] :: s.out }))

/-! ### The setup space (spec 20) -/

/-- Setup writes that nothing stands against take their value: GLB_SCRATCH, PMC_CTRL.FREEZE, FLT_CTRL.THRESH, XBR_CTRL.PRESET with the α
codes and quanta of the preset (R244, R529, R549, R667). The PRESET registers hold the values of presets 0 to 2. -/
def Obligations.SetupValuesTaken : Prop :=  ∀ (p : Path) (s : State), Served p s →
    (∀ v : Word, Next (.setupWrite p 0x000030 8 v) s fun t => t.reg 0x000030 = v ∧ Only [.regs, .recorder] s t)
    ∧ Next (.pmcFreezeSet p) s (fun t => t.rd R.PMC_CTRL_FREEZE = 1 ∧ Only [.regs, .recorder] s t)
    ∧ Next (.pmcFreezeClear p) s (fun t => t.rd R.PMC_CTRL_FREEZE = 0 ∧ Only [.regs, .recorder] s t)
    ∧ (∀ th : BitVec 2, th ≠ 3 → Next (.fltThreshWrite p th) s fun t => t.rd R.FLT_CTRL_THRESH = th.toNat
        ∧ Only [.regs, .recorder, .flt] s t)
    ∧ (∀ pr : BitVec 2, Next (.xbrPresetWrite p pr) s fun t => t.rd R.XBR_CTRL_PRESET = pr.toNat ∧ Only [.regs, .recorder] s t
        ∧ (pr ≠ 3 → s.rd R.XBR_CTRL_PRESET ≠ pr.toNat →
            t.reg R.XBR_ALPHA_A0.base = BitVec.ofNat 64 (packBits 4 (presetAlpha pr.toNat))
            ∧ t.reg R.XBR_DWRR_W2.base = BitVec.ofNat 64 (packBits 8 (presetDwrr pr.toNat))))

/-- TIK_CTRL by its two paths: ENABLE stops and resumes the boundaries, SRC waits for the next boundary while ticks run (R91, R694). Writes
that reach further than one register: the quad mode once every slice is OFF, the pins of SPI_RELEASE, the key fuses, GLB_RESET (R93, R616,
R630, R644). RELEASE is an expert field of block 0. -/
def Obligations.SetupActions : Prop :=
  (∀ (p : Path) (s : State), Served p s →
      Next (.tickEnableClear p) s (fun t => t.rd R.TIK_CTRL_ENABLE = 0 ∧ Only [.regs, .recorder, .pit] s t
        ∧ (s.rd R.TIK_CTRL_ENABLE = 1 → s.pit.running = true → t.pit.stopAfter = true ∧ t.pit.fixed = s.pit.fixed))
      ∧ Next (.tickEnableSet p) s (fun t => t.rd R.TIK_CTRL_ENABLE = 1 ∧ Only [.regs, .recorder, .pit] s t
        ∧ (s.rd R.TIK_CTRL_ENABLE = 0 → s.pit.running = true → t.pit.stopAfter = false ∧ t.pit.fixed = s.pit.fixed))
      ∧ (∀ src : BitVec 2, src ≠ 3 → Next (.timeSourceSelect p src) s fun t => t.rd R.TIK_CTRL_SRC = src.toNat
        ∧ (s.rd R.TIK_CTRL_SRC ≠ src.toNat → s.pit.running = true → s.ticksRun = true →
            t.pit = { s.pit with srcWait := if src = s.pit.source then none else some src })))
  ∧ (∀ (p : Path) (s : State), Served p s →
      (∀ (q : Fin 16) (m : BitVec 2), ((List.range 4).all fun i => (s.portN (4 * q.val + i)).state = .off) = true →
        Tab.get noneAt s.tool.quadWait q.val = none →
        Next (.quadModeWrite p q m) s fun t => t.rd R.PRT_QUAD_MODE (4 * q.val) = m.toNat
          ∧ Only [.regs, .recorder, .tool, .ports, .sys] s t)
      ∧ (∀ r : Bool, s.rd R.GLB_EXPERT_EN % 2 = 1 → Next (.spiReleaseWrite p r) s fun t => t.rd R.GLB_SPI_RELEASE = boolNat r
          ∧ Only [.regs, .recorder] s t)
      ∧ (∀ b : Bool, s.rd R.GLB_STRAP_BOOT_SEL = 3 → Next (.fuseKeyProgram p b) s fun t => Only [.img] s t
          ∧ t.img.fuseRes = (if s.img.keyset then 2 else if b then 1 else 3) ∧ t.img.keyset = (s.img.keyset || b)
          ∧ t.img.key = s.img.key)
      ∧ Next (.glbResetWrite p 0xC01D) s (fun t => t.sys.coldDue = some 4 ∧ t.sys.corePower = false ∧ t.sys.perstN = 0 ∧ t.sys.pwren = 0
          ∧ t.fab.msgs = [] ∧ t.rec_.frozen = true))

/-- The recovery buffer by I3C: a new LEN empties it, each DATA write that LEN leaves room for adds eight bytes (R640). Reads that move
something: the high half of FTIME is latched by a read of the low half; a read of the recorder's frozen buffer takes its next eight bytes
(R665, R583). -/
def Obligations.BufferReads : Prop :=
  (∀ s : State, Served .i3c s →
      (∀ n : BitVec 23, n.toNat ≠ s.rd R.GLB_RCV_CTRL_LEN → Next (.recoveryLenWrite n) s fun t =>
        t.rd R.GLB_RCV_CTRL_LEN = n.toNat ∧ t.rd R.GLB_RCV_CTRL_STATUS = 0
          ∧ t.sys = { s.sys with rcvPos := 0, rcvLenSet := true, rcvData := [] } ∧ Only [.regs, .sys, .recorder] s t)
      ∧ (∀ d : Word, s.sys.rcvLenSet = true → s.sys.rcvPos + 8 ≤ s.rd R.GLB_RCV_CTRL_LEN → Next (.recoveryDataWrite .i3c d) s fun t =>
        t.sys = { s.sys with rcvPos := s.sys.rcvPos + 8, rcvData := d :: s.sys.rcvData } ∧ Only [.regs, .sys, .recorder] s t))
  ∧ ((∀ s : State, s.sys.corePower = true → Next .tikFtimeLowRead s fun t => t.pit = { s.pit with ftimeHigh := s.pit.ftime / 2 ^ 32 }
      ∧ t.out = .readData (s.pit.ftime % 2 ^ 32) :: s.out ∧ Only [.pit, .out] s t)
    ∧ (∀ (s : State) (w : Nat) (l : List Nat), s.rec_.frozen = true → s.rec_.buf = w :: l →
      Next .recBufRead s fun t => t.rec_ = { s.rec_ with buf := l } ∧ t.out = .readData w :: s.out ∧ Only [.recorder, .out] s t)
    ∧ (∀ s : State, (s.rec_.frozen = false ∨ s.rec_.buf = []) → Next .recBufRead s fun t => t.out = .readData 0 :: s.out ∧ Only [.out] s t))

/-- Clears of the fault collector by a setup write: one entry, or all of a class; FAULT_N and what hangs on the cause follow (R544, R545).
The manager ring by EN: set with good bases the three rings serve and READY is set; cleared, READY and ERR are clear and what was read of
the rings is dropped (R504, R609). -/
def Obligations.FaultAndRingControl : Prop :=
  (∀ (p : Path) (s : State), Served p s →
      (∀ (i : Byte) (e : FltEntry), s.fltEntry i.toNat = some e → e.cause ≠ 0x307 → Next (.fltClrIndex p i) s fun t =>
        t.fltEntry i.toNat = none ∧ (∀ j, j ≠ i.toNat → t.fltEntry j = s.fltEntry j) ∧ Only [.regs, .recorder, .flt, .pit] s t)
      ∧ (∀ c : BitVec 3, 1 ≤ c.toNat → c.toNat ≤ 4 → Next (.fltClrAll p c) s fun t =>
        ∀ j, j < 256 → t.fltEntry j = none ∨ ∃ e, t.fltEntry j = some e ∧ s.fltEntry j = some e ∧ causeClass e.cause ≠ c.toNat))
  ∧ (∀ (p : Path) (s : State), Served p s →
      (s.rd R.GLB_MRING_CTRL_EN = 0 → (s.wr R.GLB_MRING_CTRL_EN 0 1).mringOk = true → (∀ n, n < 256 → (s.source n).cnt = 0) →
        Next (.mringEnable p) s fun t => t.rd R.GLB_MRING_CTRL_EN = 1 ∧ t.rd R.GLB_MRING_STATUS_READY = 1
          ∧ (t.ring 0).isSome = true ∧ (t.ring 1).isSome = true ∧ (t.evq 0).isSome = true)
      ∧ (s.rd R.GLB_MRING_CTRL_EN = 1 → s.img.phase ≠ .trial →
        Next (.mringDisable p) s fun t => t.rd R.GLB_MRING_CTRL_EN = 0 ∧ t.rd R.GLB_MRING_STATUS_READY = 0 ∧ t.rd R.GLB_MRING_STATUS_ERR = 0))

/-! ### Ports (spec 03) -/

/-- The level of PRSNT_N: taken at the pin, and by the device once it has held 1 µs; a partner that arrives at a downstream port without
power makes it wait for its turn, and one that leaves ends what it finds (R123, R124, R127, R131). Power-up of a port, and a power fault
before training ends: a ramp place, DISCH and PERST_N low, PWREN high after 100 µs, the place kept to the rise of PWRGD, PERST_N released
into training; PWRGD falling or missing switches the port off with a fault (R124, R125, R151, R470, R471, R659). -/
def Obligations.PortPower : Prop :=
  ((∀ (s : State) (p : PortId) (high : Bool), Next (.prsntNEdge p high) s fun t =>
      t.port p = (if (s.port p).prsntRaw = high then s.port p else { s.port p with prsntRaw := high, prsntAt := s.now })
        ∧ (∀ q, q ≠ p → t.port q = s.port q) ∧ Only [.ports] s t)
    ∧ (∀ (s u : State) (p : PortId), s.serving = true → s.isLowest p.val = true → (s.port p).prsntRaw = false → (s.port p).prsnt = true →
      u = s.reach ((s.port p).prsntAt + 1000) → u.flt.safe = false → u.isDownstream p.val = true → u.groupHeld p.val = false →
      (s.port p).state = .off → (s.port p).fenced = false → s.powered p.val = false →
      Next (.prsntFilterExpire p) s fun t => t.port p = { s.port p with prsnt := false, upWait := true }
        ∧ (∀ q, q ≠ p → t.port q = s.port q) ∧ Only [.ports, .regs, .recorder] u t)
    ∧ (∀ (s u : State) (p : PortId), s.serving = true → s.isLowest p.val = true → (s.port p).prsntRaw = true → (s.port p).prsnt = false →
      u = s.reach ((s.port p).prsntAt + 1000) → u.flt.safe = false → (s.port p).state = .training → (s.port p).rate = 0 →
      Tab.get noneAt s.tool.quadWait (p.val / 4) = none →
      Next (.prsntFilterExpire p) s fun t => (t.port p).prsnt = true ∧ (t.port p).state = .off
        ∧ t.sys.pwren.getLsbD p.val = false ∧ t.sys.disch.getLsbD p.val = true ∧ Only [.ports, .regs, .recorder, .sys, .tool] u t))
  ∧ ((∀ (s : State) (p : PortId), s.serving = true → s.mayRamp p.val = true → Next (.portPowerUpStart p) s fun t =>
      t.port p = { s.port p with
          state := .powerUp, upWait := false, ramping := true, powerAt := s.now, role := s.cfgRole p.val,
          maxRate := s.rd R.PRT_CFG_MAX_RATE p.val, flit := s.rd R.PRT_CFG_FLIT p.val, lopt := s.bit R.PRT_CFG_LOPT p.val,
          clkMode := s.rd R.PRT_CLKM_MODE p.val }
        ∧ t.sys.disch.getLsbD p.val = false ∧ t.sys.perstN.getLsbD p.val = false
        ∧ (∀ i, i ≠ p.val → t.sys.disch.getLsbD i = s.sys.disch.getLsbD i ∧ t.sys.perstN.getLsbD i = s.sys.perstN.getLsbD i)
        ∧ (∀ q, q ≠ p → t.port q = s.port q) ∧ Only [.ports, .sys, .out] s t)
    ∧ (∀ (s u : State) (p : PortId), s.serving = true → (s.port p).state = .powerUp → s.powered p.val = false →
      s.sys.disch.getLsbD p.val = false → u = s.reach ((s.port p).powerAt + 100000) →
      Next (.dischLeadExpire p) s fun t => t.sys.pwren.getLsbD p.val = true ∧ t.port p = { s.port p with powerAt := u.now }
        ∧ (∀ i, i ≠ p.val → t.sys.pwren.getLsbD i = s.sys.pwren.getLsbD i) ∧ Only [.ports, .sys] u t)
    ∧ (∀ (s : State) (p : PortId), s.isLowest p.val = true → (s.port p).pwrgd = false → Next (.pwrgdRise p) s fun t =>
      t.port p = (if s.powered p.val then { s.port p with pwrgd := true, ramping := false, powerAt := s.now } else { s.port p with pwrgd := true })
        ∧ (∀ q, q ≠ p → t.port q = s.port q) ∧ Only [.ports, .regs, .recorder] s t)
    ∧ (∀ (s u : State) (p : PortId), s.serving = true → (s.port p).state = .powerUp → s.powered p.val = true → (s.port p).pwrgd = true →
      u = s.reach ((s.port p).powerAt + 100000000) →
      Next (.perstHoldExpire p) s fun t => (t.port p).state = .training ∧ (t.port p).role = u.cfgRole p.val
        ∧ t.sys.perstN.getLsbD p.val = true ∧ Only [.ports, .sys] u t)
    ∧ (∀ (s : State) (p : PortId), s.isLowest p.val = true → (s.port p).pwrgd = true → s.serving = true → s.powered p.val = true →
      (((s.port p).state = .powerUp ∨ (s.port p).state = .training ∧ (s.port p).rate = 0) →
        Tab.get noneAt s.tool.quadWait (p.val / 4) = none → Next (.pwrgdFall p) s fun t =>
          (t.port p).pwrgd = false ∧ (t.port p).state = .off ∧ (t.port p).ramping = false ∧ t.sys.pwren.getLsbD p.val = false)
      ∧ ((s.port p).canFall = true → Next (.pwrgdFall p) s fun t => (t.port p).pwrgd = false ∧ (t.port p).state = .flush))
    ∧ (∀ (s u : State) (p : PortId), s.serving = true → s.powered p.val = true → (s.port p).pwrgd = false → (s.port p).ramping = true →
      (s.port p).state = .powerUp → Tab.get noneAt s.tool.quadWait (p.val / 4) = none →
      u = s.reach ((s.port p).powerAt + (2 * s.rd R.BLW_PORT_LOAD_RAMP_MS p.val + 5) * 1000000) → u.flt.safe = false →
      Next (.pwrgdTimeout p) s fun t => (t.port p).state = .off ∧ (t.port p).ramping = false ∧ t.sys.pwren.getLsbD p.val = false))

/-- Training: the negotiated width, rate and mode, by the configuration that the training took, and a fresh link layer; no mode within the
time is a fault; the data link layer brings the port up, and the handshake begins with the side that leads (R98, R103, R109 to R111, R129,
R151, R166 to R171). -/
def Obligations.PortTraining : Prop :=  (∀ (s : State) (p : PortId) (w : Fin 6) (r : Fin 7) (o : FlitOffer) (sw : Bool) (m : Nat) (q : Port), s.serving = true →
    s.mayTrain p.val = true → q = (if (s.port p).state = .off then s.startTraining p.val else s).port p →
    1 ≤ w.val → w.val ≤ widthCode (s.cfgLanes p.val) → 1 ≤ r.val → r.val ≤ q.maxRate → q.modeOf r.val o = some m →
    Next (.linkTrained p w r o sw) s fun t => (t.port p).state = q.state ∧ (t.port p).width = w.val ∧ (t.port p).trained = w.val
      ∧ (t.port p).rate = r.val ∧ (t.port p).mode = m ∧ (t.port p).role = q.role ∧ (t.port p).partnerSwitch = sw
      ∧ (t.port p).link.yoyo = [] ∧ (t.port p).link.rxNext = Link.init.rxNext ∧ (∀ n, n ≠ p → t.port n = s.port n))
  ∧ (∀ (s : State) (p : PortId), s.serving = true → (s.port p).state = .training → (s.port p).rate = 0 →
    exec (.trainModeTimeout p) s = .next ((s.reach ((s.port p).trainAt + 100000000)).fault 0x302 p.val))
  ∧ (∀ (s : State) (p : PortId), s.serving = true → (s.port p).rate ≠ 0 → (s.port p).dll = false →
    (s.port p).state = .training ∨ (s.port p).state = .flush → Next (.dllUp p) s fun t => (t.port p).dll = true ∧ (t.port p).negVer = 0
      ∧ (t.port p).state = (if (s.port p).flushing then .flushWait else .up) ∧ (t.port p).meradAt = s.now
      ∧ ((s.port p).leads = true → (t.port p).merad = .leading 1
          ∧ ∃ tie, t.out = .port p.val (.offer (s.verMap p.val) 0 tie) :: s.out)
      ∧ ((s.port p).leads = false → (t.port p).merad = .waitOffer ∧ t.out = s.out)
      ∧ (∀ q, q ≠ p → t.port q = s.port q) ∧ Only [.ports, .regs, .recorder, .out] s t)

/-- The Merad handshake: three offers, each PRT_MERAD.WAIT_MS after the last, the highest common version, CONFIRM, the ends without a
partner, an offer after the end (log 70); and the rebinding of a port whose handshake is over (R105, R107 to R112). The RESP_NS that the
device declares is 0 (log 71). Retrain and L0p: the state of the link is kept, the width moves; a narrowing of a protected port is declined,
of two equal requests that of the downstream side stands, and an asked width comes into force when its change ends (R115 to R122, R165). -/
def Obligations.LinkTerms : Prop :=
  ((∀ (s u : State) (p : PortId) (k : Nat), s.serving = true → (s.port p).merad = .leading k → u = s.reach (s.meradDue p.val) →
      (k < 3 → Next (.meradOfferRepeat p) s fun t => t.port p = { s.port p with merad := .leading (k + 1), meradAt := u.now }
        ∧ (∃ tie, t.out = .port p.val (.offer (u.verMap p.val) 0 tie) :: u.out) ∧ Only [.ports, .out] u t)
      ∧ (3 ≤ k → Next (.meradOfferRepeat p) s fun t => t.port p = { s.port p with merad := .ended, negVer := 0 } ∧ Only [.ports] u t))
    ∧ (∀ (s : State) (p : PortId) (vm : Byte) (ns : BitVec 16) (tie : Option Word), s.serving = true →
      let ver := commonVer (s.verMap p.val) vm.toNat
      (((s.port p).merad = .waitOffer ∨ (∃ k, (s.port p).merad = .accepted k)
          ∨ ((∃ k, (s.port p).merad = .leading k) ∧ ∀ x, tie = some x → x.toNat ≤ State.tieValue p.val)) →
        Next (.meradOfferRx p vm ns tie) s fun t =>
          t.port p = { s.port p with merad := .accepted ver, meradAt := s.now, respNs := ns.toNat }
            ∧ t.out = .port p.val (.accept ver 0) :: s.out ∧ Only [.ports, .out] s t)
      ∧ (∀ x k, tie = some x → (s.port p).merad = .leading k → State.tieValue p.val < x.toNat → exec (.meradOfferRx p vm ns tie) s = .next s)
      ∧ ((s.port p).merad = .ended ∨ (s.port p).merad = .closed →
        exec (.meradOfferRx p vm ns tie) s = .next { s with out := .port p.val (.accept (s.port p).negVer 0) :: s.out }))
    ∧ (∀ (s : State) (p : PortId) (k : Nat) (v : Fin 4) (ns : BitVec 16), s.serving = true → (s.port p).merad = .leading k →
      Next (.meradAcceptRx p v ns) s fun t => (t.port p).merad = .ended ∧ (t.port p).negVer = v.val ∧ (t.port p).respNs = ns.toNat
        ∧ (v.val = 0 → t.out = .port p.val (.confirm 0) :: s.out)
        ∧ (v.val ≠ 0 → t.out = .port p.val (.creditInit 0 (s.port p).link.sc0Adv.1 (s.port p).link.sc0Adv.2)
            :: .port p.val (.confirm v.val) :: s.out) ∧ Only [.ports, .out] s t)
    ∧ (∀ (s : State) (p : PortId) (k : Nat) (v : Fin 4), s.serving = true → (s.port p).merad = .accepted k →
      Next (.meradConfirmRx p v) s fun t => (t.port p).merad = .ended ∧ (t.port p).negVer = v.val
        ∧ (v.val = 0 → t.out = s.out) ∧ Only [.ports, .out] s t)
    ∧ (∀ (s : State) (p : PortId), s.serving = true → (s.port p).merad = .waitOffer ∨ (∃ k, (s.port p).merad = .accepted k) →
      Next (.meradWaitExpire p) s fun t => t.port p = { s.port p with merad := .closed, negVer := 0 }
        ∧ Only [.ports] (s.reach (s.meradDue p.val)) t)
    ∧ (∀ (s : State) (p : PortId), s.serving = true → (s.port p).bindable = true → p.val = s.mgrPort →
      Next (.autoRebind p) s fun t => t.port p = { s.port p with state := .active, wasBound := true, waitBind := false, outNp := 0 }
        ∧ (∀ q, q ≠ p → t.port q = s.port q) ∧ Only [.ports, .fab] s t))
  ∧ ((∀ (s : State) (p : PortId), s.started = true → (s.port p).state.linked = true → (s.port p).retrain = false →
      Next (.retrainStart p false) s (fun t => (t.port p).retrain = true ∧ (t.port p).state = (s.port p).state
        ∧ (t.port p).link = (s.port p).link ∧ t.out = .port p.val .ts1 :: s.out ∧ Only [.ports, .out] s t)
      ∧ (1 + ((s.port p).link.retrains.filter fun x => s.now < x + 1000000000).length ≤ s.rd R.PRT_LNK_RETRY_RETRAIN_MAX p.val →
        Next (.retrainStart p true) s fun t => (t.port p).retrain = true ∧ (t.port p).state = (s.port p).state
          ∧ (t.port p).link.yoyo = (s.port p).link.yoyo ∧ Only [.ports, .out, .regs] s t))
    ∧ (∀ (s : State) (p : PortId) (w : Fin 6) (r : Fin 7), s.started = true → (s.port p).state.linked = true → (s.port p).retrain = true →
      1 ≤ w.val → 1 ≤ r.val → (s.port p).link.replays ≠ 3 ∨ (s.port p).link.yoyo = [] →
      Next (.retrainEnd p w r) s fun t => (t.port p).retrain = false ∧ (t.port p).width = w.val ∧ (t.port p).trained = w.val
        ∧ (t.port p).rate = r.val ∧ (t.port p).state = (s.port p).state ∧ (∃ l, (t.port p).link.yoyo = (s.port p).link.yoyo ++ l)
        ∧ Only [.ports, .out, .regs, .recorder] s t)
    ∧ (∀ (s : State) (p : PortId) (w : Fin 6), s.serving = true → (s.port p).state.linked = true → w.val ≠ 0 →
      w.val ≤ widthCode (s.cfgLanes p.val) →
      (w.val < (s.port p).width → s.protectedPort p.val = true →
        exec (.l0pRequestRx p w) s = .next { s with out := .port p.val .l0pDecline :: s.out })
      ∧ ((s.port p).width ≤ w.val ∨ s.protectedPort p.val = false →
        ((s.port p).l0pAsk = none → Next (.l0pRequestRx p w) s fun t =>
          t.port p = { s.port p with l0pAsk := some w.val } ∧ t.out = .port p.val (.l0pAccept w.val) :: s.out ∧ Only [.ports, .out] s t)
        ∧ ((s.port p).l0pAsk = some w.val → (s.port p).leads = true → exec (.l0pRequestRx p w) s = .next s)))
    ∧ (∀ (s u : State) (p : PortId) (w : WinId) (x : Nat), s.serving = true → (s.port p).state.linked = true →
      (s.port p).width < widthCode (s.cfgLanes p.val) → (s.port p).l0pAsk ≠ some (widthCode (s.cfgLanes p.val)) →
      s.beforeOpen p.val w.val (2000 + 1000 * s.rd R.PRT_L0P_WIDEN_US p.val) = some x → u = s.reach x →
      Next (.l0pWidenTimer p w) s fun t => t.port p = { s.port p with l0pAsk := some (widthCode (s.cfgLanes p.val)) }
        ∧ t.out = .port p.val (.l0pRequest (widthCode (s.cfgLanes p.val))) :: u.out ∧ Only [.ports, .out] u t)
    ∧ (∀ (s : State) (p : PortId) (w : Nat), s.started = true → (s.port p).state.linked = true → (s.port p).l0pAsk = some w →
      Next (.l0pWidthChangeEnd p) s fun t => t.port p = { s.port p with width := w, l0pAsk := none } ∧ Only [.ports, .regs, .recorder] s t)
    ∧ (∀ (s u : State) (p : PortId) (w : WinId) (x : Nat), s.serving = true → (s.port p).state.linked = true → (s.port p).lateAt ≠ some x →
      s.beforeOpen p.val w.val 2000 = some x → u = (s.reach x).onPort p (fun y => { y with lateAt := some x }) →
      ((s.port p).width ≠ widthCode (u.cfgLanes p.val) →
        exec (.l0pProtectStart p w) s = .next (u.fc0 0x13 0x0131 p.val w.val (s.port p).width))
      ∧ ((s.port p).width = widthCode (u.cfgLanes p.val) → exec (.l0pProtectStart p w) s = .next u)))

/-- Link-down and its end: the port flushes with a new generation, its walks are owed by all sixteen slices; when cells, walks and owed
completions are done a downstream port without a partner is OFF again, and an upstream port trains. A hot reset from upstream and a failed
integrity check bring the link down too (R127 to R132, R142, R632, R637). -/
def Obligations.LinkDowns : Prop :=  let downed (n : Nat) (s t : State) : Prop :=
    (t.portN n).state = .flush ∧ (t.portN n).dll = false ∧ (t.portN n).flushing = true ∧ (t.portN n).walks = BitVec.allOnes 16
      ∧ (t.portN n).gen = (s.portN n).gen + 1 ∧ (t.portN n).width = 0 ∧ (t.portN n).merad = .none ∧ (t.portN n).keys = []
      ∧ (t.portN n).link.yoyo = []
  (∀ (s : State) (p : PortId) (c : DownCause), s.started = true → s.lowest p.val = p.val → (s.port p).canFall = true →
    Next (.linkDown p c) s fun t => downed p.val s t)
  ∧ (∀ (s : State) (p : PortId) (k : HotReset), s.serving = true → s.lowest p.val = p.val → (s.port p).state.linked = true →
    (s.port p).role = (if k = .secondaryBus then 2 else 1) → Next (.hotResetRx p k) s fun t => downed p.val s t)
  ∧ (∀ (s : State) (p : PortId) (k : Fin 9), s.serving = true → (s.port p).canFall = true → (s.port p).secure.getLsbD k.val = true →
    Next (.ideCheckFail p k) s fun t => downed p.val s t ∧ (t.port p).insecure.getLsbD k.val = true ∧ (t.port p).secure = 0)
  ∧ (∀ (s : State) (p : PortId), s.started = true → (s.port p).flushing = true → (s.port p).flushOwed = 0 → (s.port p).state = .flush →
    (s.port p).release ≠ .flushing → (s.fab.msgs.any fun m => m.port = p.val && m.queued) = false →
    Tab.get noneAt s.tool.quadWait (p.val / 4) = none →
    (s.cfgRole p.val = 2 → (s.port p).prsnt = true → Next (.flushEnd p) s fun t =>
      (t.port p).state = .off ∧ (t.port p).flushing = false)
    ∧ (s.cfgRole p.val = 1 → (s.port p).fenced = false → s.groupHeld p.val = false → s.flt.safe = false →
      Next (.flushEnd p) s fun t => (t.port p).state = .training ∧ (t.port p).flushing = false ∧ t.sys.perstN.getLsbD p.val = true))
  ∧ (∀ (s : State) (h : SliceId) (p : PortId), s.serving = true → Next (.lostPortWalkEnd h p) s fun t =>
    (t.port p).walks.getLsbD h.val = false ∧ (∀ i, i ≠ h.val → (t.port p).walks.getLsbD i = (s.port p).walks.getLsbD i)
      ∧ (∀ q, q ≠ p → t.port q = s.port q) ∧ Only [.ports] s t)

/-- Requests of the bound hierarchy: the key slots and streams of IDE, the virtual bridges and their hot-plug status, the command register,
MSI-X, the DOE mailbox toward a partner, a PTM request, and what the device declines. What the standards answer is a free value (log 3;
R101, R102, R106, R132, R143, R144, R403). -/
def Obligations.HierarchyRequests : Prop :=  (∀ (s : State) (p : PortId) (k : Fin 9) (rx : Bool) (sub : Fin 3) (slot : Bool) (key : Entry), s.serving = true →
    (s.port p).state.linked = true → (s.port p).role = 1 →
    (Next (.ideKmRequest p (.keyProg k rx sub slot key)) s fun t =>
      (⟨k.val, rx, sub.val, slot, key⟩ : IdeKeySlot) ∈ (t.port p).keys ∧ Only [.ports, .out, .free] s t)
    ∧ ((s.port p).keyed k.val = true → Next (.ideKmRequest p (.setGo k)) s fun t =>
      (t.port p).secure.getLsbD k.val = true ∧ (t.port p).insecure.getLsbD k.val = false ∧ Only [.ports, .out, .free] s t)
    ∧ (Next (.ideKmRequest p (.setStop k)) s fun t => (t.port p).secure.getLsbD k.val = false ∧ Only [.ports, .out, .free] s t))
  ∧ (∀ (s : State) (p : PortId), s.servesConfig p.val = true →
    (∀ off, Next (.configRequest p (.dvsecRead off)) s fun t => t.out = .port p.val (.config [s.dvsecWord p.val off.toNat]) :: s.out
      ∧ Only [.out, .free] s t)
    ∧ (∀ (ds : PortId) (ld : Fin 16), s.hasBridge p.val ds.val ld.val = true →
      (∀ (pref : Bool) (b l : Word), Next (.configRequest p (.bridgeMem ds ld pref b l)) s fun t =>
        Tab.get pairAt t.host.bridgeMem ((ds.val * 32 + ld.val) * 2 + boolNat pref) = (b.toNat, l.toNat) ∧ Only [.host, .out, .free] s t)
      ∧ (∀ a b : Byte, Next (.configRequest p (.bridgeBus ds ld a b)) s fun t =>
        Tab.get pairAt t.host.bridgeBus (ds.val * 32 + ld.val) = (a.toNat, b.toNat) ∧ Only [.host, .out, .free] s t)
      ∧ (∀ c : BitVec 16, Next (.configRequest p (.slotStatus ds ld c)) s fun t =>
        t.out = .port p.val (.config [Tab.get natAt s.host.bridgeEvt (ds.val * 32 + ld.val)]) :: s.out ∧ Only [.host, .out] s t))
    ∧ (∀ v : BitVec 16, (s.port p).role = 1 → Next (.configRequest p (.command v)) s fun t =>
      Tab.get natAt t.host.cmdReg p.val = v.toNat ∧ Only [.host, .out, .free] s t)
    ∧ (∀ (k : Fin 2048) (a : Word) (d : Word32) (m : Bool), (s.port p).role = 1 → Next (.configRequest p (.msix k a d m)) s fun t =>
      (Tab.get msixAt t.host.msix (p.val * 2048 + k.val)).mask = m ∧ Only [.host, .out, .free] s t)
    ∧ (∀ (ds : PortId) (pr : Byte) (pl : List Word32), p.val ∈ (s.bridgesOf ds.val).map Prod.fst → (s.port ds).state.linked = true →
      pl.length ≤ 1024 → Next (.configRequest p (.doe (some ds) pr pl)) s fun t =>
        .port ds.val (.doe pr.toNat pl) ∈ t.out ∧ Only [.out, .free] s t)
    ∧ (p.val ≠ s.rd R.TIK_PTM_PORT →
      exec (.configRequest p .ptm) s = .next { s with out := .port p.val (.ptmResponse s.now) :: s.out })
    ∧ exec (.configRequest p (.lowPower true)) s = .next { s with out := .port p.val .pmNak :: s.out }
    ∧ exec (.configRequest p (.lowPower false)) s = .next s
    ∧ (∀ f, exec (.configRequest p (.absent f)) s = .next { s with out := .port p.val (.unsupportedRequest 0) :: s.out })
    ∧ (∀ pr pl, Next (.configRequest p (.doe none pr pl)) s fun t => Only [.out, .free] s t)
    ∧ (∀ l c, Next (.configRequest p (.margin l c)) s fun t => Only [.out, .free] s t)
    ∧ (∀ w off v, Next (.configRequest p (.other w off v)) s fun t => Only [.out, .free] s t))

/-! ### Link layer and tool change (spec 03, 04) -/

/-- A flit received: in sequence and covered by advertised credits it is accepted and moves the expected number, and one that they do not
cover is a receiver overflow that takes the link down; without content of the transaction layer it moves nothing; a duplicate is counted and
dropped; any other number is answered by a Nak; failed FEC, which only 256-byte flits have, or CRC ask for replay (R152 to R158, R162,
R177). Outside non-flit mode a failed CRC has no other effect. -/
def Obligations.FlitReceived : Prop :=  ∀ (s : State) (p : PortId) (seq : Nat) (uses : List ChUse), s.linkRuns p.val = true →
    (seqBehind (s.port p).mode seq (s.link p).rxNext = 0 → s.rxCovers p.val uses = true →
      (s.link p).sinceAck + 1 < s.rd R.PRT_LNK_CFG_ACK_FLITS p.val →
      Next (.flitReceived p false false true seq true uses) s fun t =>
        (t.link p).rxNext = ((s.link p).rxNext + 1) % seqSpace (s.port p).mode ∧ (t.link p).sinceAck = (s.link p).sinceAck + 1
          ∧ (t.port p).state = (s.port p).state ∧ (t.link p).yoyo = (s.link p).yoyo ∧ (∀ q, q ≠ p → t.port q = s.port q))
    ∧ (seqBehind (s.port p).mode seq (s.link p).rxNext = 0 → s.rxCovers p.val uses = true →
      s.rd R.PRT_LNK_CFG_ACK_FLITS p.val ≤ (s.link p).sinceAck + 1 →
      Next (.flitReceived p false false true seq true uses) s fun t =>
        (t.link p).rxNext = ((s.link p).rxNext + 1) % seqSpace (s.port p).mode ∧ (t.link p).sinceAck = 0
          ∧ t.out.head? = some (.port p.val (.ack (((s.link p).rxNext + 1) % seqSpace (s.port p).mode))))
    ∧ (seqBehind (s.port p).mode seq (s.link p).rxNext = 0 → s.rxCovers p.val uses = false →
      Next (.flitReceived p false false true seq true uses) s fun t => (t.port p).state = .flush ∧ (t.port p).dll = false)
    ∧ exec (.flitReceived p false false true seq false uses) s = .next s
    ∧ (0 < seqBehind (s.port p).mode seq (s.link p).rxNext → seqBehind (s.port p).mode seq (s.link p).rxNext ≤ dupRange (s.port p).mode →
      Next (.flitReceived p false false true seq true uses) s fun t =>
        t.rd R.PRT_LNK_DUP_COUNT p.val = min (2 ^ 48 - 1) (s.rd R.PRT_LNK_DUP_COUNT p.val + 1) ∧ Only [.regs] s t)
    ∧ (dupRange (s.port p).mode < seqBehind (s.port p).mode seq (s.link p).rxNext →
      Next (.flitReceived p false false true seq true uses) s fun t => t.out = .port p.val (.nak (s.link p).rxNext) :: s.out
        ∧ t.rd R.PRT_LNK_NAK_TX_COUNT p.val = min (2 ^ 48 - 1) (s.rd R.PRT_LNK_NAK_TX_COUNT p.val + 1) ∧ Only [.regs, .out] s t)
    ∧ (∀ crc tl, 2 ≤ (s.port p).mode → Next (.flitReceived p false true crc seq tl uses) s fun t =>
        t.out = .port p.val (.nak (s.link p).rxNext) :: s.out
        ∧ t.rd R.PRT_LNK_FEC_UNC_COUNT p.val = min (2 ^ 48 - 1) (s.rd R.PRT_LNK_FEC_UNC_COUNT p.val + 1) ∧ Only [.regs, .out] s t)
    ∧ (∀ fc fb crc tl, (s.port p).mode < 2 → exec (.flitReceived p fc fb crc seq tl uses) s = exec (.flitReceived p false false crc seq tl uses) s)
    ∧ (∀ tl, (s.port p).mode ≠ 0 → Next (.flitReceived p false false false seq tl uses) s fun t =>
        t.out = .port p.val (.nak (s.link p).rxNext) :: s.out
          ∧ t.rd R.PRT_LNK_CRC_ERR_COUNT p.val = min (2 ^ 48 - 1) (s.rd R.PRT_LNK_CRC_ERR_COUNT p.val + 1) ∧ Only [.regs, .out] s t)

/-- Acknowledgement and replay. The acknowledgement timer acknowledges what was accepted, ACK_NS after the oldest (R162). An acknowledgement
frees the flit of its number and every one before it, and one of a number that the Yo-yo does not hold frees none (R160). A standard Nak
frees what lies before its number and transmits again from there on, a selective one that flit alone (R157); the replay timer, REPLAY_NS
after its start, transmits all of the Yo-yo again (R163), and the fourth replay of a flit forces a retrain or takes the link down (R164,
R165). -/
def Obligations.AckAndReplay : Prop :=  (∀ (s u : State) (p : PortId), s.linkRuns p.val = true → 0 < (s.link p).sinceAck →
    u = s.reach ((s.link p).ackFrom + s.rd R.PRT_LNK_CFG_ACK_NS p.val) → Next (.ackTimerExpire p) s fun t =>
      t.out = .port p.val (.ack (s.link p).rxNext) :: u.out ∧ t.port p = { s.port p with link := { s.link p with sinceAck := 0 } }
        ∧ (∀ q, q ≠ p → t.port q = s.port q) ∧ Only [.ports, .out] u t)
  ∧ (∀ (s : State) (p : PortId) (seq : Nat), s.linkRuns p.val = true →
    (∀ (a b : List YoFlit) (y : YoFlit), (s.link p).yoyo = a ++ y :: b → (∀ z ∈ a, z.seq ≠ seq) → y.seq = seq →
      Next (.ackReceived p seq) s fun t =>
        t.port p = { s.port p with link := { s.link p with yoyo := b, replays := 0, replayFrom := s.now } }
          ∧ (∀ q, q ≠ p → t.port q = s.port q) ∧ Only [.ports] s t)
    ∧ ((∀ z ∈ (s.link p).yoyo, z.seq ≠ seq) → exec (.ackReceived p seq) s = .next s))
  ∧ (∀ (s : State) (p : PortId) (seq : Nat), s.linkRuns p.val = true →
    (∀ (a b : List YoFlit) (y : YoFlit), (s.link p).yoyo = a ++ y :: b → (∀ z ∈ a, z.seq ≠ seq) → y.seq = seq → a ≠ [] ∨ (s.link p).replays < 3 →
      Next (.nakReceived p seq false) s fun t =>
        (t.link p).yoyo = y :: b ∧ (t.link p).replays = (if a = [] then (s.link p).replays + 1 else 1)
          ∧ (∀ z ∈ y :: b, .port p.val (.replay z.seq z.returns) ∈ t.out) ∧ (t.port p).state = (s.port p).state
          ∧ t.rd R.PRT_LNK_NAK_RX_COUNT p.val = min (2 ^ 48 - 1) (s.rd R.PRT_LNK_NAK_RX_COUNT p.val + 1) ∧ Only [.ports, .regs, .out] s t)
    ∧ ((∀ z ∈ (s.link p).yoyo, z.seq ≠ seq) → ∀ sel, Next (.nakReceived p seq sel) s fun t =>
      t.rd R.PRT_LNK_NAK_RX_COUNT p.val = min (2 ^ 48 - 1) (s.rd R.PRT_LNK_NAK_RX_COUNT p.val + 1) ∧ t.out = s.out
        ∧ (t.link p).yoyo = (if sel = false ∧ seq = (s.link p).txSeq then [] else (s.link p).yoyo) ∧ Only [.ports, .regs] s t)
    ∧ (∀ y ∈ (s.link p).yoyo, y.seq = seq → (s.link p).replays < 3 → Next (.nakReceived p seq true) s fun t =>
      .port p.val (.replay seq y.returns) ∈ t.out ∧ (t.link p).yoyo = (s.link p).yoyo ∧ Only [.ports, .regs, .out] s t))
  ∧ (∀ (s u : State) (p : PortId) (y : YoFlit) (l : List YoFlit), s.linkRuns p.val = true → (s.link p).yoyo = y :: l →
    u = s.reach ((s.link p).replayFrom + s.rd R.PRT_LNK_CFG_REPLAY_NS p.val) →
    ((s.link p).replays < 3 → Next (.replayTimerExpire p) s fun t => (t.link p).replays = (s.link p).replays + 1 ∧ (t.link p).yoyo = y :: l
      ∧ (t.link p).replayFrom = u.now ∧ (∀ z ∈ y :: l, .port p.val (.replay z.seq z.returns) ∈ t.out)
      ∧ t.rd R.PRT_LNK_REPLAY_TO_COUNT p.val = min (2 ^ 48 - 1) (u.rd R.PRT_LNK_REPLAY_TO_COUNT p.val + 1) ∧ Only [.ports, .regs, .out] u t)
    ∧ ((s.link p).replays = 3 → Next (.replayTimerExpire p) s fun t => (t.port p).retrain = true ∨ (t.port p).state = .flush))

/-- Transmission and credits: a flit that the partner's credits and the Yo-yo cover takes the next number, waits in the Yo-yo and takes the
credit returns of R181 along; one that they do not cover stalls (R161, R174). Updates move the limits, stale ones are counted (R178 to
R180). The timer reports what is owed by DLLPs 0x30, by the standard's UpdateFC, or in a flit (R181 to R183). -/
def Obligations.TransmitAndCredit : Prop :=  (∀ (s : State) (p : PortId) (f : TxFlit), s.linkRuns p.val = true → (s.port p).dll = true → s.channelsOk p.val f = true →
    (f.tl = true → s.yoyoRoom p.val f = true → s.txCovers p.val f = true → Next (.flitTransmit p f) s fun t =>
      (t.link p).txSeq = ((s.link p).txSeq + 1) % seqSpace (s.port p).mode
        ∧ (t.link p).yoyo = (s.link p).yoyo ++ [⟨(s.link p).txSeq, f, s.returnsDue p.val⟩] ∧ (t.link p).stall = none
        ∧ t.out = .port p.val (.flit (s.link p).txSeq (s.returnsDue p.val)) :: s.out ∧ (∀ q, q ≠ p → t.port q = s.port q)
        ∧ Only [.ports, .out] s t)
    ∧ (f.tl = false → s.txCovers p.val f = true → Next (.flitTransmit p f) s fun t =>
      (t.link p).txSeq = (s.link p).txSeq ∧ (t.link p).yoyo = (s.link p).yoyo ∧ t.out = .port p.val (.flit (s.link p).txSeq []) :: s.out
        ∧ Only [.ports, .out] s t)
    ∧ ((f.tl = true ∧ s.yoyoRoom p.val f = false ∨ s.txCovers p.val f = false) → Next (.flitTransmit p f) s fun t =>
      t.port p = { s.port p with link := { s.link p with stall := some f } } ∧ (∀ q, q ≠ p → t.port q = s.port q) ∧ Only [.ports] s t))
  ∧ (∀ (s : State) (p : PortId) (ch : Fin 16) (v : BitVec 16), s.linkRuns p.val = true → ch.val ≠ 0 ∨ (s.port p).negVer ≠ 0 →
    (∀ k, newLimit (s.credit p.val ch.val).dLim v.toNat (2 ^ 16) (s.incremental p.val ch.val) = some k →
      Next (.creditUpdateRx p ch true v false) s fun t => (t.credit p.val ch.val).dLim = k
        ∧ (t.credit p.val ch.val).hLim = (s.credit p.val ch.val).hLim ∧ (∀ q, q ≠ p → t.port q = s.port q) ∧ Only [.ports] s t)
    ∧ (∀ d : Bool, newLimit (if d then (s.credit p.val ch.val).dLim else (s.credit p.val ch.val).hLim) v.toNat (if d then 2 ^ 16 else 2 ^ 12)
        (s.incremental p.val ch.val) = none →
      Next (.creditUpdateRx p ch d v false) s fun t =>
        t.rd R.PRT_LNK_STALE_COUNT p.val = min (2 ^ 48 - 1) (s.rd R.PRT_LNK_STALE_COUNT p.val + 1) ∧ Only [.regs] s t)
    ∧ (∀ k, newLimit (s.credit p.val ch.val).hLim v.toNat (2 ^ 12) (s.incremental p.val ch.val) = some k →
      Next (.creditUpdateRx p ch false v false) s fun t => (t.credit p.val ch.val).hLim = k
        ∧ (t.credit p.val ch.val).dLim = (s.credit p.val ch.val).dLim ∧ Only [.ports] s t)
    ∧ (∀ d : Bool, Next (.creditUpdateRx p ch d v true) s fun t =>
      (if d then (t.credit p.val ch.val).dInf else (t.credit p.val ch.val).hInf) = true ∧ Only [.ports] s t))
  ∧ (∀ (s u : State) (p : PortId) (ch : Fin 16) (x : Nat), s.linkRuns p.val = true → (s.port p).dll = true →
    ch.val ≠ 0 ∨ (s.port p).negVer ≠ 0 → s.creditDue p.val ch.val = some x → u = s.reach x →
    let c := s.credit p.val ch.val
    (s.incremental p.val ch.val = false → Next (.creditUpdateTimer p ch) s fun t =>
      (t.credit p.val ch.val).rxHTold = c.rxHLim ∧ (t.credit p.val ch.val).rxDTold = c.rxDLim ∧ (t.credit p.val ch.val).sentAt = u.now
        ∧ (ch.val < 13 → t.out = .port p.val (.creditDllp [0x30, 32 + ch.val, c.rxDLim / 256, c.rxDLim % 256])
            :: .port p.val (.creditDllp [0x30, 16 + ch.val, c.rxHLim / 256, c.rxHLim % 256]) :: u.out)
        ∧ (13 ≤ ch.val → t.out = .port p.val (.updateFc ch.val c.rxHLim c.rxDLim) :: u.out) ∧ Only [.ports, .out] u t)
    ∧ (s.incremental p.val ch.val = true → u.yoyoRoom p.val ⟨[], true, false, [], 0⟩ = true → Next (.creditUpdateTimer p ch) s fun t =>
      (t.link p).yoyo = (s.link p).yoyo ++ [⟨(s.link p).txSeq, ⟨[], true, false, [], 0⟩, s.returnsDue p.val⟩] ∧ Only [.ports, .out] u t))
  ∧ (∀ (s : State) (p : PortId) (ch : Fin 16), s.creditDue p.val ch.val = none → exec (.creditUpdateTimer p ch) s = .next s)

/-! ### Crosspoint core and shaping (spec 05, 11) -/

/-- A request of a tool-change group: after 2 µs low the ports of the group drain, or wait for CLOSE; a drained link is disabled; samples
within the limit prove a port; with every port proven TCOK goes high; the end of the request takes it low (R133 to R141, R472, R473). A
group without a port gets none (log 79). -/
def Obligations.ToolChange : Prop :=  (∀ (s : State) (g : GroupId), Next (.tcrNFall g) s fun t => t.sys.tcrN.getLsbD g.val = false
    ∧ (s.sys.tcrN.getLsbD g.val = true → Tab.get natAt t.tool.tcrAt g.val = s.now)
    ∧ (∀ i, i ≠ g.val → t.sys.tcrN.getLsbD i = s.sys.tcrN.getLsbD i) ∧ Only [.sys, .tool] s t)
  ∧ (∀ (s u : State) (g : GroupId), s.serving = true → s.sys.tcrN.getLsbD g.val = false → s.tool.tcrLow.getLsbD g.val = false →
    u = s.tcrFiltered g.val →
    (u.groupPorts g.val = [] → Next (.toolReleaseRequest g) s fun t => t.tool.tcrLow.getLsbD g.val = true ∧ t.ports = s.ports
      ∧ Only [.tool] u t)
    ∧ (∀ p : PortId, u.groupPorts g.val = [p.val] → (s.port p).release = .none → u.gate p.val = 0 → (s.port p).state = .up →
      Next (.toolReleaseRequest g) s fun t => t.tool.tcrLow.getLsbD g.val = true ∧ (t.port p).state = .quiesce
        ∧ (t.port p).release = .draining ∧ (∀ q, q ≠ p → t.port q = s.port q)))
  ∧ (∀ (s : State) (p : PortId), s.serving = true → s.draining p.val = true → s.outstanding p.val = 0 →
    Next (.toolDrainEnd p) s fun t => (t.port p).state = .flush ∧ (t.port p).release = .flushing ∧ .port p.val .disableLink ∈ t.out)
  ∧ (∀ (s : State) (p : PortId), s.serving = true → s.draining p.val = true → 0 < s.outstanding p.val →
    Next (.toolDrainCut p) s fun t => (t.port p).state = .flush ∧ (t.port p).release = .flushing ∧ .port p.val .disableLink ∈ t.out)
  ∧ (∀ (s u : State) (p : PortId) (r : Option (BitVec 16)) (due : Nat), s.serving = true → s.sampleDue p.val = some due →
    s.servedNext p.val due = true → u = s.reach (max due s.tool.busFree) →
    let ok := u.provable p.val && u.withinLimit (u.sampleEnergy p.val r) && !(s.port p).pwrgd
    Next (.proofSample p r) s fun t => (t.port p).samples.head? = some (u.now, u.sampleEnergy p.val r, ok)
      ∧ (ok = true → ((s.port p).samples.head?.map fun x => x.2.2) = some true → (t.port p).proofPass = true)
      ∧ (ok = false → (t.port p).proofPass = (s.port p).proofPass))
  ∧ (∀ (s : State) (p : PortId), s.serving = true → (s.port p).release = .proving → (s.port p).proofPass = false →
    (s.port p).proofFail = false → Next (.proofDeadline p) s fun t => (t.port p).proofFail = true ∧ (t.port p).state = (s.port p).state
      ∧ (∀ q, q ≠ p → t.port q = s.port q))
  ∧ (∀ (s u : State) (g : GroupId), s.serving = true → s.tool.tcrLow.getLsbD g.val = true → s.sys.tcrN.getLsbD g.val = false →
    u = ((s.tcrEdge g.val).onSys fun y => { y with tcrN := y.tcrN ||| BitVec.ofNat 16 (2 ^ g.val) }).tcrFiltered g.val →
    u.flt.safe = false → u.groupPorts g.val = [] →
    Next (.tcrNRise g) s fun t => t.sys.tcrN.getLsbD g.val = true ∧ t.tool.tcrLow.getLsbD g.val = false ∧ t.sys.tcok.getLsbD g.val = false)

/-- A message enters the core, and one that was held there goes on: it takes the next number of its flow, at the epoch and the stamp of its
entry (R202, R205, R228, R430, R434). Shown for what a home slice sends to an endpoint that is no port. -/
def Obligations.MessagesEnter : Prop :=  (∀ (s : State) (m : InMsg) (h : SliceId) (ep : Endpoint) (c : CoreMsg), s.serving = true → m.src = .home h → s.handed m = some c →
    m.target = some ep → 64 ≤ ep.val →
    m.kind.need = none → m.kind.sort = .resp → (s.column ep).down = false → (∀ y ∈ s.fab.msgs, y.id < s.fab.nextId) →
    (∀ y ∈ s.fab.msgs, y.held = true → y.src ≠ 72 + h.val) →
    Next (.messageIngress m) s fun t => t.fab.nextId = s.fab.nextId + 1 ∧ ∃ x, t.msg s.fab.nextId = some x ∧ x.dst = ep.val
      ∧ x.src = 72 + h.val ∧ x.held = false ∧ x.queued = false ∧ x.seq = Tab.get natAt s.fab.flowSeq x.flow ∧ x.stamp = s.now % 2 ^ 32
      ∧ x.epoch = c.epoch.getD s.fab.epoch
      ∧ Tab.get natAt t.fab.flowSeq x.flow = (Tab.get natAt s.fab.flowSeq x.flow + 1) % 65536)
  ∧ (∀ (s : State) (id : Nat) (m : Msg), s.serving = true → s.msg id = some m → m.held = true → 64 ≤ m.port →
    (s.fab.msgs.find? fun y => y.held && y.src = m.src && y.cls = m.cls) = some m → s.pauseHolds m = false → s.ingressBuckets m = [] →
    Next (.ingressHoldRelease id) s fun t => ∃ x, t.msg id = some x ∧ x.held = false ∧ x.seq = Tab.get natAt s.fab.flowSeq m.flow
      ∧ Tab.get natAt t.fab.flowSeq m.flow = (Tab.get natAt s.fab.flowSeq m.flow + 1) % 65536)

/-- A column takes a message that it may take in its turn, and counts one that it refuses or has no place for in this CCLK; the arbiter lets
a message that is whole leave; an uncorrectable error in a header cell takes the column down, one in a data cell poisons that cell; a
message whose next cell is late starts again (R213, R217 to R226, R238, R239, R243). Messages too old, numbers that never come, epochs that
have drained, cells that are lost (R205 to R209, R230, R231, R240 to R242). -/
def Obligations.ColumnsAndAges : Prop :=
  ((∀ (s : State) (ep i : Endpoint) (c : Fin 8) (m : Msg), s.serving = true → s.inputHead i.val c.val = some m → m.dst = ep.val →
      (s.writing.any fun w => w.1 = i.val) = false →
      (s.columnGrants ep.val i.val (c.val = 0) = true → s.staleGen m = false →
        (s.admissible m = true → Next (.columnAdmit ep i c) s fun t => (∃ x, t.msg m.id = some x ∧ x.queued = true)
          ∧ (∀ j : Endpoint, j ≠ ep → t.column j = s.column j) ∧ (t.column ep).rr = m.input
          ∧ (t.column ep).free = (s.column ep).free - m.cells ∧ (t.column ep).np = (s.column ep).np + (if m.np then 1 else 0))
        ∧ (s.admissible m = false → Next (.columnAdmit ep i c) s fun t => t.fab = s.fab ∧ t.ports = s.ports))
      ∧ (s.columnGrants ep.val i.val (c.val = 0) = false → Next (.columnAdmit ep i c) s fun t =>
        t.rd R.XBR_COL_GRANTLOSS_COUNT ep.val = min (2 ^ 48 - 1) (s.rd R.XBR_COL_GRANTLOSS_COUNT ep.val + 1) ∧ Only [.regs] s t))
    ∧ (∀ (s : State) (ep : Endpoint) (a : Nat) (m : Msg) (cell : Fin 8), s.serving = true → 64 ≤ ep.val → (s.column ep).down = false →
      (s.arb ep).busy = some a → s.msg a = some m →
      (m.last = true → m.port = ep.val → Next (.arbiterChoose ep 0 cell) s fun t => t.msg m.id = none
        ∧ .egress m m.kind.vdm false ∈ t.out)
      ∧ (m.last = false → cell.val < m.ncell → Next (.arbiterChoose ep 2 cell) s fun t => t.msg m.id = some (m.poisonCell cell.val))
      ∧ (72 ≤ ep.val → Next (.arbiterChoose ep 3 cell) s fun t => (t.column ep).down = true))
    ∧ (∀ (s : State) (id : Nat) (m : Msg), s.serving = true → s.msg id = some m → m.started = true → m.last = false → m.port < 64 →
      Next (.egressRestart id) s fun t => (∃ x, t.msg id = some x ∧ x.started = false ∧ x.restarts = m.restarts + 1)
        ∧ t.out = .egress m m.kind.vdm true :: s.out
        ∧ t.rd R.XBR_COL_RESTART_COUNT m.dst = min (2 ^ 48 - 1) (s.rd R.XBR_COL_RESTART_COUNT m.dst + 1) ∧ Only [.fab, .regs, .out] s t))
  ∧ ((∀ (s : State) (id : Nat) (m : Msg), s.serving = true → s.msg id = some m → m.queued = true → m.skip = false → m.started = false →
      Next (.ageLimitExpire id) s fun t => ∀ x ∈ t.fab.msgs, x.id = id → x.skip = true)
    ∧ (∀ (s : State) (src : Fin 88) (dst : Endpoint) (c : Fin 8), s.serving = true → 64 ≤ dst.val →
      let flow := flowKey src.val dst.val c.val
      let ahead (m : Msg) : Nat := (m.seq + 65536 - Tab.get natAt s.fab.expect flow) % 65536
      (∃ m ∈ s.fab.msgs, m.queued = true ∧ m.flow = flow ∧ 0 < ahead m ∧ ahead m < 32768) →
      (∀ m ∈ s.fab.msgs, m.skip = false ∧ (m.queued = true → m.flow = flow → ahead m ≠ 0)) →
      Next (.reseqTimeout src dst c) s fun t => t.fab.msgs = s.fab.msgs
        ∧ Tab.get natAt t.fab.expect flow = (Tab.get natAt s.fab.expect flow + 1) % 65536)
    ∧ (∀ s : State, s.serving = true → Next .barrierComplete s fun t =>
      t.fab = { s.fab with barriers := s.fab.barriers.filter fun b => !s.drainedTo b.2 })
    ∧ (∀ (s u : State) (ups : List (Endpoint × Int)), s.serving = true → s.flt.scans ≠ s.fab.auditAt →
      s.flt.scans % max 1 (s.rd R.XBR_AUDIT_TICKS) = 0 →
      u = (s.onFab fun f => { f with auditAt := s.flt.scans }).forAll ups (fun x t =>
        t.onColumnN x.1.val fun c => { c with free := ((c.free : Int) - x.2).toNat }) →
      (∀ ep : Endpoint, 0 ≤ u.auditD ep.val) →
      Next (.columnAudit ups) s fun t => Only [.fab] s t ∧ t.fab.msgs = s.fab.msgs ∧ t.fab.auditAt = s.flt.scans ∧ ∀ ep : Endpoint,
        t.column ep = if (u.column ep).walk then u.column ep
          else { u.column ep with leakD := (u.auditD ep.val).toNat, walk := (u.column ep).leakD ≠ 0 && u.auditD ep.val ≠ 0 })
    ∧ (∀ (s : State) (ep : Endpoint), s.started = true → (s.column ep).walk = true → Next (.auditReclaimEnd ep) s fun t =>
      (t.column ep).free = (s.column ep).free + (s.column ep).leakD ∧ (t.column ep).leakD = 0 ∧ (t.column ep).walk = false
        ∧ (∀ j, j ≠ ep → t.column j = s.column j) ∧ t.fab.msgs = s.fab.msgs))

/-! ### Home (spec 06, 07) -/

/-- Token buckets: a refresh adds what the rate gives and no more than the burst; a write loads the slot at an epoch of its own, a clear
marks it, and it goes once no older message lives (R431 to R438). -/
def Obligations.Buckets : Prop :=  (∀ s u : State, s.serving = true → s.pit.running = true → 128 * s.tabs.refresh < s.pit.period →
    u = s.reach (s.pit.bk + 128 * s.tabs.refresh) →
    Next .shaperRefresh s fun t => t.tabs.refresh = u.tabs.refresh + 1 ∧ Only [.tabs] u t
      ∧ t.tabs.buckets = Tab.mapAll noneAt u.tabs.buckets fun _ o =>
          o.map fun b => b.refill u.bel.g (min 128 (u.pit.period - 128 * s.tabs.refresh)) (u.gate b.port ≠ 0))
  ∧ (∀ (h : Hdr) (i : Word32) (e : Entry) (s : State), Admitted h [] s → bucketValid e = true → bucketBad e = none →
    s.bucketSlotBad h i = false → ((s.bucket h.domain.toNat i.toNat).bind Bucket.cleared) = none →
    s.bucketCrowd h.domain.toNat i.toNat (bucketOf e) = false → s.slotBusy = false →
    Next (.bucketWrite h i e) s fun t => (∃ b, t.bucket h.domain.toNat i.toNat = some b ∧ b.load = true ∧ b.cleared = none
        ∧ b.rate = (bucketOf e).rate ∧ b.burst = (bucketOf e).burst ∧ b.port = (bucketOf e).port ∧ b.cls = (bucketOf e).cls
        ∧ b.tokens = ((s.bucket h.domain.toNat i.toNat).map Bucket.tokens).getD (bucketOf e).tokens)
      ∧ (∀ k, k ≠ bucketKey h.domain.toNat i.toNat → Tab.get noneAt t.tabs.buckets k = Tab.get noneAt s.tabs.buckets k)
      ∧ t.fab.epoch = s.openEpoch.fab.epoch)
  ∧ (∀ (h : Hdr) (i : Word32) (b : Bucket) (s : State), Admitted h [] s → s.bucketSlotBad h i = false →
    s.bucket h.domain.toNat i.toNat = some b → b.cleared = none → s.slotBusy = false → Next (.bucketClear h i) s fun t =>
      t.bucket h.domain.toNat i.toNat = some { b with cleared := some s.openEpoch.fab.epoch }
        ∧ (∀ k, k ≠ bucketKey h.domain.toNat i.toNat → Tab.get noneAt t.tabs.buckets k = Tab.get noneAt s.tabs.buckets k))
  ∧ (∀ (d : Fin 4096) (i e : Nat) (s : State), (s.bucket d.val i).bind Bucket.cleared = some e → s.started = true → s.drainedTo e = true →
    Next (.bucketSlotRelease d i) s fun t => t.bucket d.val i = none ∧ Only [.tabs] s t
      ∧ (∀ k, k ≠ bucketKey d.val i → Tab.get noneAt t.tabs.buckets k = Tab.get noneAt s.tabs.buckets k))

/-- Reads at the home (R253, R257, R259, R276): RdS of a shared line adds the requester as a sharer; RdX and RdS of a line that nobody holds
begin a transient that reads backing memory; RdX of a line another port holds in M snoops its owner; Upg of a line only the requester shares
makes it the owner; RdU changes no entry. Writes and evictions at the home (R253, R259, R280, R298): a full WrU of a line that nobody holds
lands in the OLC; an atomic merges there and answers with the prior value; the owner's Wb leaves the line to the home; a CEv of a clean
owner frees the entry. -/
def Obligations.HomeRequests : Prop :=
  (∀ (r : HReq) (w : DWin) (s : State), AtHome r w s →
      (∀ k d, s.findDir r.la = some (k, d) → d.st = .s → Next (.rds r) s fun t =>
        t.findDir r.la = some (k, ({ d with shr := d.shr ||| s.reqBit r, owner := noOwner, olcv := false, trk := 0 } : DirEnt).coded)
          ∧ t.home.reads = s.home.reads ++ [⟨r.la, some r, 0, 1⟩] ∧ Sends (fun m => m.kind = .memRdU ∧ m.fa = 64 * r.la) s t
          ∧ t.home.olc = s.home.olc ∧ t.home.trk = [])
      ∧ (∀ k, s.findDir r.la = none → s.holdsOlc r.la = false → s.dirRoom r.la = .inl k → Next (.rds r) s fun t =>
        (∃ d, t.findDir r.la = some (k, d) ∧ d.st = .ieD) ∧ (∃ u, t.trkOf r.la = some u ∧ u.req = some r ∧ u.awaitMem = true)
          ∧ t.home.olc = s.home.olc)
      ∧ (∀ k, s.findDir r.la = none → s.holdsOlc r.la = false → s.dirRoom r.la = .inl k → Next (.rdx r) s fun t =>
        (∃ d, t.findDir r.la = some (k, d) ∧ d.st = .imD) ∧ (∃ u, t.trkOf r.la = some u ∧ u.req = some r ∧ u.awaitMem = true)
          ∧ t.home.olc = s.home.olc)
      ∧ (∀ k d, s.findDir r.la = some (k, d) → d.st = .m → (s.hostOf r).getD noOwner ≠ d.owner → d.owner < 64 → Next (.rdx r) s fun t =>
        (∃ e, t.findDir r.la = some (k, e) ∧ e.st = .mmA) ∧ (∃ u, t.trkOf r.la = some u ∧ u.await = portBit d.owner ∧ u.owner0 = d.owner)
          ∧ Sends (fun m => m.kind = .biSnp ∧ m.dst.val = d.owner ∧ m.code = 0) s t)
      ∧ (∀ k d p, s.findDir r.la = some (k, d) → d.st = .s → s.hostOf r = some p → d.shr = shrBit p → shrBit p ≠ 0 → Next (.upg r) s fun t =>
        t.findDir r.la = some (k, ({ d with st := .m, shr := 0, owner := p, olcv := false, trk := 0 } : DirEnt).coded) ∧ t.home.trk = []
          ∧ Sends (fun m => m.kind = .memNdr ∧ m.code = 2 ∧ m.dst = s.answerTo r) s t)
      ∧ (s.findDir r.la = none → s.holdsOlc r.la = false → Next (.rdu r) s fun t => t.findDir r.la = none ∧ t.home.dir = s.home.dir
          ∧ t.home.olc = s.home.olc ∧ t.home.reads = s.home.reads ++ [⟨r.la, some r, 3, 0⟩]))
  ∧ (∀ (r : HReq) (w : DWin) (s : State), AtHome r w s →
      (s.findDir r.la = none → s.findOlc r.la = none → s.olcFree r.la ≠ [] → r.full = true → Next (.wru r) s fun t =>
        (∃ k o, t.findOlc r.la = some (k, o) ∧ o.data = r.data ∧ o.poison = r.poison ∧ o.dirty = true) ∧ t.findDir r.la = none
          ∧ Sends (fun m => m.kind = .memNdr ∧ m.status = .ok ∧ m.dst = s.answerTo r) s t)
      ∧ (∀ (op : AtomOp) (w64 : Bool) (a b : Word) k o, s.findDir r.la = none → s.findOlc r.la = some (k, o) → o.ev = false →
        Next (.atomic r op w64 a b) s fun t =>
          t.olcData r.la = some (writeValue r (some (op, w64, a, b)) (o.data, o.poison)).1 ∧ t.findDir r.la = none
            ∧ Sends (fun m => m.kind = .memDrs ∧ (m.data, m.poison) = (writeValue r (some (op, w64, a, b)) (o.data, o.poison)).2) s t)
      ∧ (∀ k d p, s.findDir r.la = some (k, d) → d.st = .m → s.hostOf r = some p → d.owner = p → d.rt = false → d.watch = false → r.full = true →
        r.mv = .i → s.findOlc r.la = none → s.olcFree r.la ≠ [] → Next (.wb r) s fun t =>
          t.dirAt k = none ∧ (∃ j o, t.findOlc r.la = some (j, o) ∧ o.data = r.data ∧ o.dirty = true)
            ∧ Sends (fun m => m.kind = .memNdr ∧ m.status = .ok ∧ m.dst = s.answerTo r) s t)
      ∧ (∀ k d p, s.findDir r.la = some (k, d) → d.st = .e → s.hostOf r = some p → d.owner = p → d.rt = false → d.watch = false →
        Next (.cev r) s fun t => t.dirAt k = none ∧ t.home.olc = s.home.olc
          ∧ Sends (fun m => m.kind = .memNdr ∧ m.status = .ok ∧ m.dst = s.answerTo r) s t))

/-- What holders and backing memory answer (R251, R253, R261 to R263, R276, R277): the one open transient of the device takes each awaited
item, and stays open while it awaits another. -/
def Obligations.HomeAnswers : Prop :=  (∀ (s : State) (p y : PortId) (fa : BitVec 52) (t : Trk), s.serving = true → s.home.trk = [(fa.toNat / 64, some t)] → s.home.pins = [] →
    s.home.confs = [] → s.home.owed = [] → s.lowest p.val = p.val → t.await.getLsbD p.val = true → y ≠ p → t.await.getLsbD y.val = true →
    (Next (.rspi p fa) s fun u => u.trkOf (fa.toNat / 64) = some { t with await := t.await &&& ~~~ portBit p.val } ∧ u.home.dir = s.home.dir)
    ∧ (t.inv = false → Next (.rsps p fa) s fun u => u.trkOf (fa.toNat / 64)
        = some { t with await := t.await &&& ~~~ portBit p.val, rsps := t.rsps ||| portBit p.val } ∧ u.home.dir = s.home.dir))
  ∧ (∀ (s : State) (p y : PortId) (tag : BitVec 16) (fa : BitVec 52) (t : Trk) (k : Nat) (d : DirEnt) (x : Line), s.serving = true →
    s.home.trk = [(fa.toNat / 64, some t)] → s.home.pins = [] → s.home.confs = [] → s.home.owed = [] → s.findDir (fa.toNat / 64) = some (k, d) →
    t.awaitFwd = true → t.owner0 = s.lowest p.val → d.trk = tag.toNat → t.await.getLsbD y.val = true →
    (Next (.fwdData p tag fa x) s fun u => u.trkOf (fa.toNat / 64) = some { t with awaitFwd := false, fwd := some x, awaitWb := false })
    ∧ (Next (.fwdNack p tag fa) s fun u => u.trkOf (fa.toNat / 64)
        = some { t with awaitFwd := false, fwd := none, awaitWb := !t.wbTaken }))
  ∧ (∀ (s : State) (fa : BitVec 52) (x : Line) (b : Bool) (o : RdOut) (r : HReq), s.serving = true → HomeQuiet s →
    s.home.reads.find? (fun o => o.la = fa.toNat / 64) = some o → o.req = some r → r.io = false → r.tag ≠ recallTag →
    Next (.memd fa x b) s fun u => u.home.reads = s.home.reads.erase o ∧ u.home.dir = s.home.dir ∧ u.home.olc = s.home.olc
      ∧ Sends (fun m => m.kind = .memDrs ∧ m.data = x ∧ m.poison = b ∧ m.dst = s.answerTo r) s u)
  ∧ (∀ (s : State) (p : PortId) (fa : BitVec 52), s.serving = true → HomeQuiet s → (∀ o ∈ s.home.reads, o.la ≠ fa.toNat / 64) →
    Next (.biconflict p fa) s fun u => u.home = s.home ∧ Sends (fun m => m.kind = .memNdr ∧ m.code = 3 ∧ m.dst.val = s.lowest p.val) s u
      ∧ Only [.regs, .out, .fab] s u)
  ∧ (∀ (s : State) (h : SliceId) (p : PortId) (fa : BitVec 52), s.serving = true → Next (.bisnpFromBacking h p fa) s fun u =>
    Sends (fun m => m.kind = .biRspI ∧ m.src = .home h ∧ m.fa = 64 * (fa.toNat / 64)) s u
      ∧ u.rd R.HOM_STALE_COUNT h.val = min (2 ^ 48 - 1) (s.rd R.HOM_STALE_COUNT h.val + 1) ∧ Only [.regs, .out, .fab] s u)

/-! ### Tick engines (spec 08, 09) -/

/-- What falls due at the home by itself (R270, R272, R273, R279, R301, R304, R306, R307, R313). Walks of the home slices for unbound ranges
and revocations, and their ends (R308, R410). -/
def Obligations.HomeByItself : Prop :=
  ((∀ (s : State) (h : SliceId) (q : Retry) (w : DWin), s.serving = true → HomeQuiet s → s.nextRetry h = some q → s.sc0Waits h = false →
      s.trackerFree q.req = true → q.req.errs = [] → sliceOf q.req.la = h → (s.slice h).failed = false → s.lineWin q.req.la = some w → w.rt = false → w.u = false → q.kind = 3 →
      s.findDir q.req.la = none → s.holdsOlc q.req.la = false → Next (.retryDue h) s fun t =>
        (t.slice h).retry = (s.slice h).retry.erase q ∧ t.home.reads = s.home.reads ++ [⟨q.req.la, some q.req, 3, 0⟩]
          ∧ t.home.dir = s.home.dir ∧ t.now = (s.reach ((q.due + 2 ^ 32 - 1) / 2 ^ 32)).now)
    ∧ (∀ (s : State) (p : PortId) (fa : BitVec 52) (k : Nat) (d : DirEnt) (u : Trk), s.serving = true → s.lowest p.val = p.val →
      s.findDir (fa.toNat / 64) = some (k, d) → s.trkOf (fa.toNat / 64) = some u → u.awaits p.val = true → (s.port p).state.linked = true →
      Next (.snoopTimeout p fa) s fun t => (t.port p).state = .flush ∧ (t.port p).dll = false
        ∧ t.now = (s.reach (u.sent + 1000 * s.rd R.HOM_SNP_TSNP_US)).now)
    ∧ (∀ (s : State) (fa : BitVec 52) (e : Nat × Nat) (w : DWin) (k : Nat) (d : DirEnt), s.serving = true → HomeQuiet s →
      s.home.recalls.find? (fun e => e.1 = fa.toNat / 64) = some e → s.lineWin (fa.toNat / 64) = some w → w.rt = false →
      w.u = false → (s.slice (sliceOf (fa.toNat / 64))).failed = false → s.findDir (fa.toNat / 64) = some (k, d) → d.watch = true → d.st = .m →
      d.owner < 64 → Next (.watchRecall fa) s fun t => t.home.recalls = s.home.recalls.erase e
        ∧ (∃ x, t.findDir (fa.toNat / 64) = some (k, x) ∧ x.st = .msA ∧ x.watch = true)
        ∧ Sends (fun m => m.kind = .biSnp ∧ m.dst.val = d.owner ∧ m.code = 1) s t ∧ t.now = (s.reach e.2).now)
    ∧ (∀ (s : State) (h : SliceId) (k : Nat) (o : OlcEnt), s.serving = true → HomeQuiet s → (s.slice h).failed = false →
      s.wbUsed h < s.rd R.HOM_WB_RATE → s.wbNext h true = some k → s.olcAt k = some o → sliceOf o.la = h →
      Next (.writebackIssue h) s fun t => t.olcAt k = some ({ o with wb := true, ev := false, dirty := false } : OlcEnt).coded
        ∧ (t.slice h).wbFlight = (s.slice h).wbFlight + 1 ∧ (t.slice h).wbPtr = (k / 16 % 2048 + 1) % 2048
        ∧ t.home.wbOut = o.la :: s.home.wbOut ∧ t.wbUsed h = s.wbUsed h + 1
        ∧ Sends (fun m => m.kind = .memWr ∧ m.data = o.data ∧ m.poison = o.poison ∧ m.fa = 64 * o.la) s t ∧ t.home.dir = s.home.dir)
    ∧ (∀ (s : State) (fa : BitVec 52) (k : Nat) (o : OlcEnt), s.serving = true → HomeQuiet s → fa.toNat / 64 ∈ s.home.wbOut →
      (s.slice (sliceOf (fa.toNat / 64))).retry = [] → s.findOlc (fa.toNat / 64) = some (k, o) → o.wb = true → o.dirty = true →
      Next (.writebackComplete fa) s fun t => t.olcAt k = some ({ o with wb := false, ev := false } : OlcEnt).coded ∧ t.home.dir = s.home.dir
        ∧ t.home.wbOut = s.home.wbOut.erase (fa.toNat / 64)
        ∧ (t.slice (sliceOf (fa.toNat / 64))).wbFlight = (s.slice (sliceOf (fa.toNat / 64))).wbFlight - 1)
    ∧ (∀ (s u : State) (h : SliceId), s.serving = true → (s.slice h).failed = false → s.rd R.HOM_SCRUB_EN = 1 → s.sc0Waits h = false →
      s.flt.inverted = [] → u = s.reach (s.multipleDue (s.slice h).scrubAt (s.rd R.HOM_SCRUB_STEP_NS)) →
      (Next (.scrubStep h []) s fun t => (t.slice h).scrubPtr = ((s.slice h).scrubPtr + 1) % 32768
        ∧ (t.slice h).scrubAt = s.multipleDue (s.slice h).scrubAt (s.rd R.HOM_SCRUB_STEP_NS) ∧ t.home.dir = s.home.dir
        ∧ t.home.olc = s.home.olc ∧ Only [.home, .regs] u t)
      ∧ (∀ o, s.olcAt (h.val * 32768 + (s.slice h).scrubPtr) = some o → Next (.scrubStep h [(5, true)]) s fun t =>
        t.olcAt (h.val * 32768 + (s.slice h).scrubPtr) = some ({ o with poison := true, dirty := true } : OlcEnt).coded
          ∧ t.home.dir = s.home.dir)))
  ∧ ((∀ (s : State) (u : Unbind), s.serving = true → HomeQuiet s →
      s.tabs.unbinds.find? (fun u => !u.walking && s.drainedTo u.epoch && !s.retriesIn (u.base * mib2) (u.limit * mib2)) = some u →
      s.linesIn (u.base * mib2) (u.limit * mib2) = [] → Next .unbindWalkStart s fun t =>
        t.tabs.unbinds = s.tabs.unbinds.map (fun v => if v = u then { v with walking := true, walkAt := s.now } else v) ∧ t.home = s.home)
    ∧ (∀ (s : State) (u : Unbind), s.serving = true →
      s.tabs.unbinds.find? (fun u => u.walking && (s.linesIn (u.base * mib2) (u.limit * mib2)).isEmpty) = some u →
      Next .wbDone s fun t => t.tabs.unbinds = s.tabs.unbinds.erase u ∧ t.tabs.wins = s.tabs.wins ∧ t.home = s.home
        ∧ t.now = (s.reach (u.walkAt + walkNs)).now)
    ∧ (∀ (s : State) (r : Revoke), s.serving = true → s.dom.revokes.find? (fun r => !s.revoking r) = some r →
      Next .revokeDone s fun t => t.dom = { s.dom with revokes := s.dom.revokes.erase r } ∧ t.home = s.home
        ∧ t.now = (s.reach (r.walkAt + walkNs)).now))

/-- The eleven register operations (R339, R365, R366), `u` being the state once the item's first instruction may issue: the result of S[A]
and of S[B] or IMM goes to S[D], S0 discards it; the cycles are charged, and the next instruction follows. -/
def Obligations.EngineAlu : Prop :=  ∀ (e : EngineId) (x : Fields) (i : Item) (s u : State), u = s.reach i.firstAt → ∀ row ∈ aluRows e x, Runs e row.2.1 x x.aluRegs [] i s →
    Next row.1 s (EngineNow e ((((u.engine e).charged row.2.2.1).setS x.d
      (row.2.2.2 ((u.engine e).getS x.a) ((u.engine e).operand x))).advance (i.pc + 1)) u)

/-- MOVI, RDT, BR, LOOP (R366 to R369). LOOP of no iteration passes its body over. FENCE, WAITO and its end, END (R370, R371): a wait
already over costs one cycle; END with nothing outstanding frees the engine, and waits for the outstanding requests otherwise. -/
def Obligations.EngineControl : Prop :=
  (∀ (e : EngineId) (x : Fields) (i : Item) (s u : State), u = s.reach i.firstAt →
      (Runs e 0x0C x [x.d] [] i s → Next (.movi e x) s (EngineNow e ((((u.engine e).charged 1).setS x.d
        (if x.f.getLsbD 3 then x.imm ++ ((u.engine e).getS x.d).extractLsb' 0 32 else if x.f.getLsbD 2 then x.imm.setWidth 64
          else x.imm.signExtend 64)).advance (i.pc + 1)) u))
      ∧ (Runs e 0x0D x [x.d] [] i s → Next (.rdt e x) s (EngineNow e ((((u.engine e).charged 2).setS x.d
        (BitVec.ofNat 64 (u.rdtValue e i (x.imm.toNat % 16)))).advance (i.pc + 1)) u))
      ∧ (Runs e 0x10 x [x.a, x.b] [] i s → Next (.br e x) s (EngineNow e
        (if brTaken x.f.toNat ((u.engine e).getS x.a) ((u.engine e).getS x.b) then ((u.engine e).charged 2).advance (i.pc + 1 + x.imm.toNat)
          else ((u.engine e).charged 1).advance (i.pc + 1)) u))
      ∧ (∀ n, n = min ((u.engine e).getS x.a).toNat (x.imm.toNat / 2 ^ 16 % 2 ^ 16) → Runs e 0x11 x [x.d, x.a] [] i s →
        (n = 0 → Next (.loop e x) s (EngineNow e
          (((u.engine e).charged 2).advanceFrom (i.pc + x.imm.toNat % 2 ^ 16) (i.pc + x.imm.toNat % 2 ^ 16 + 1)) u))
        ∧ (n ≠ 0 → Next (.loop e x) s fun t => (t.engine e).getS x.d = 0 ∧ t.item e = some
          { i with
              instrs := i.instrs + 1, pc := i.pc + 1, stalled := false,
              loops := ⟨i.pc + 1, i.pc + x.imm.toNat % 2 ^ 16, x.d, 0, n⟩ :: i.loops })))
  ∧ (∀ (e : EngineId) (x : Fields) (i : Item) (s u : State), u = s.reach i.firstAt →
      (Runs e 0x13 x [] [] i s → i.reqs.length ≤ x.imm.toNat % 64 →
        Next (.fence e x) s (EngineNow e (((u.engine e).charged 1).advance (i.pc + 1)) u))
      ∧ (Runs e 0x12 x [x.a] [] i s → i.bk + ((u.engine e).getS x.a).toNat + x.imm.toNat ≤ u.now →
        Next (.waito e x) s (EngineNow e (((u.engine e).charged 1).advance (i.pc + 1)) u))
      ∧ (Runs e 0x12 x [x.a] [] i s → u.now < i.bk + ((u.engine e).getS x.a).toNat + x.imm.toNat →
        Next (.waito e x) s fun t => t.item e = some
          { i with
              instrs := i.instrs + 1, stalled := false, waitUntil := some (i.bk + ((u.engine e).getS x.a).toNat + x.imm.toNat) })
      ∧ (∀ n v, s.item e = some i → i.waitUntil = some n → s.flt.safe = false → n < s.fenceAt → i.loops = [] → v = s.reach n →
        Next (.waitoExpire e) s (EngineNow e
          { v.engine e with item := some { i with waitUntil := none, pc := i.pc + 1, stalled := false, multi := false } } v))
      ∧ (Runs e 0x1F x [] [] i s → i.reqs = [] → Next (.end_ e x) s fun t => t.item e = none ∧ (t.engine e).st = .idle)
      ∧ (Runs e 0x1F x [] [] i s → i.reqs ≠ [] → Next (.end_ e x) s fun t => t.item e = some
          { i with instrs := i.instrs + 1, ending := some (x.imm.toNat % 2 ^ 16), stalled := false }))

/-- Scratch and line registers (R372, R373, R376, R377, R382): loads and stores of the domain's scratch within its bound, line elements,
line operations, CRC. A scratch access out of its bound ends the work item. Line registers and CRC: an element out of a line and into it,
the element-wise operation, zero, CRC-32C of a line and of scratch (R373, R376, R382). LEXT and CRCL need an unpoisoned line; LINS keeps
POISON. -/
def Obligations.EngineScratchAndLines : Prop :=
  (∀ (e : EngineId) (x : Fields) (i : Item) (s u : State), u = s.reach i.firstAt → ∀ a, a = ((u.engine e).getS x.a + x.imm.signExtend 64).toNat →
      (Runs e 0x20 x [x.d, x.a] [] i s → u.scratchOk i a x.size = true → Next (.lds e x) s (EngineNow e ((((u.engine e).charged 2).setS x.d
        (BitVec.ofNat 64 (Memory.read u.eng.scratch (scratchKey e i.disp.domain a) x.size))).advance (i.pc + 1)) u))
      ∧ (Runs e 0x20 x [x.d, x.a] [] i s → u.scratchOk i a x.size = false → Next (.lds e x) s fun t => t.item e = none
        ∧ (t.engine e).st = .idle ∧ t.eng.scratch = u.eng.scratch)
      ∧ (Runs e 0x21 x [x.a, x.b] [] i s → u.scratchOk i a x.size = true → Next (.sts e x) s fun t =>
        t.eng.scratch = Memory.write u.eng.scratch (scratchKey e i.disp.domain a) ((u.engine e).getS x.b).toNat x.size
          ∧ t.engine e = ((u.engine e).charged 2).advance (i.pc + 1) ∧ ∀ f, f ≠ e → t.engine f = u.engine f)
      ∧ (Runs e 0x22 x [x.a] [lineReg x.d] i s → u.scratchOk i a 64 = true → Next (.lls e x) s (EngineNow e ((((u.engine e).charged 4).setL
        (lineReg x.d) (BitVec.ofNat 512 (Memory.read u.eng.scratch (scratchKey e i.disp.domain a) 64), false)).advance (i.pc + 1)) u))
      ∧ (Runs e 0x23 x [x.a] [lineReg x.d] i s → u.scratchOk i a 64 = true → ((u.engine e).getL (lineReg x.d)).2 = false →
        Next (.sls e x) s fun t =>
          t.eng.scratch = Memory.write u.eng.scratch (scratchKey e i.disp.domain a) ((u.engine e).getL (lineReg x.d)).1.toNat 64
            ∧ t.engine e = ((u.engine e).charged 4).advance (i.pc + 1) ∧ ∀ f, f ≠ e → t.engine f = u.engine f))
  ∧ (∀ (e : EngineId) (x : Fields) (i : Item) (s u : State), u = s.reach i.firstAt →
      (Runs e 0x28 x [x.d] [lineReg x.a] i s → x.imm.toNat % 64 + x.size ≤ 64 → ((u.engine e).getL (lineReg x.a)).2 = false →
        Next (.lext e x) s (EngineNow e ((((u.engine e).charged 1).setS x.d (BitVec.ofNat 64
          (((u.engine e).getL (lineReg x.a)).1.toNat / 2 ^ (8 * (x.imm.toNat % 64)) % 2 ^ (8 * x.size)))).advance (i.pc + 1)) u))
      ∧ (Runs e 0x29 x [x.b] [lineReg x.d] i s → x.imm.toNat % 64 + x.size ≤ 64 → Next (.lins e x) s fun t =>
        (∀ k, k < 512 → ((t.engine e).getL (lineReg x.d)).1.getLsbD k =
          (if 8 * (x.imm.toNat % 64) ≤ k ∧ k < 8 * (x.imm.toNat % 64 + x.size) then ((u.engine e).getS x.b).getLsbD (k - 8 * (x.imm.toNat % 64))
            else ((u.engine e).getL (lineReg x.d)).1.getLsbD k))
          ∧ ((t.engine e).getL (lineReg x.d)).2 = ((u.engine e).getL (lineReg x.d)).2)
      ∧ (Runs e 0x2A x [] [lineReg x.d, lineReg x.a, lineReg x.b] i s → Next (.lop e x) s (EngineNow e ((((u.engine e).charged 2).setL
        (lineReg x.d) (lineOp (x.imm.toNat % 256) ((u.engine e).getL (lineReg x.a)) ((u.engine e).getL (lineReg x.b)))).advance (i.pc + 1)) u))
      ∧ (Runs e 0x2B x [] [lineReg x.d] i s →
        Next (.lzero e x) s (EngineNow e ((((u.engine e).charged 1).setL (lineReg x.d) (0, false)).advance (i.pc + 1)) u))
      ∧ (Runs e 0x3C x [x.d] [lineReg x.a] i s → 1 ≤ x.imm.toNat % 128 → x.imm.toNat % 128 ≤ 64 → ((u.engine e).getL (lineReg x.a)).2 = false →
        Next (.crcl e x) s (EngineNow e ((((u.engine e).charged 4).setS x.d (crcStep ((u.engine e).getS x.d)
          ((u.engine e).getL (lineReg x.a)).1.toNat (x.imm.toNat % 128))).advance (i.pc + 1)) u))
      ∧ (∀ n a, n = ((u.engine e).getS x.b).toNat → a = ((u.engine e).getS x.a).toNat → Runs e 0x3D x [x.d, x.a, x.b] [] i s → 1 ≤ n →
        n ≤ 4096 → a + n ≤ u.scratchSize i.disp.domain → Next (.crcs e x) s (EngineNow e ((((u.engine e).charged (2 + (n + 15) / 16)).setS x.d
          (crcStep ((u.engine e).getS x.d) (Memory.read u.eng.scratch (scratchKey e i.disp.domain a) n) n)).advance (i.pc + 1)) u)))

/-- Fabric requests of single instructions (R321, R363, R374, R380, R381): one request is outstanding with its destination, one message is
handed to the check unit, and the next instruction follows. CPY, PUB, RED and PUBH (R377 to R380): the lines of a multi-line instruction are
all either outstanding or still to be issued; a publish hint goes to each port of its mask that takes hints. -/
def Obligations.EngineFabric : Prop :=
  (∀ (e : EngineId) (x : Fields) (i : Item) (s u : State), u = s.reach i.firstAt → ∀ a, a = ((u.engine e).getS x.a + x.imm.signExtend 64).toNat →
      u.mayIssue i (a / 64) = true →
      let asks (n : Nat) (d : EDest) : Engine :=
        (((u.engine e).charged n).asking ⟨(u.engine e).nextTag, a / 64, u.itemSc0 i, d, i.pc, (u.engine e).nextTag, false⟩ a).advance (i.pc + 1)
      let told (k : MKind) (m : CoreMsg) : Prop := m.src = .engine e ∧ m.kind = k ∧ m.fa = a ∧ m.tag = (u.engine e).nextTag
        ∧ m.cls = if u.itemSc0 i then 0 else 2
      let line := (u.engine e).getL (lineReg x.d)
      (Runs e 0x30 x [x.a] [lineReg x.d] i s → u.faFault a 64 false = none →
        Next (.ldl e x) s (EngineAsks e (asks 1 (.line (lineReg x.d))) (told .memRdU) u))
      ∧ (Runs e 0x31 x [x.a] [lineReg x.d] i s → u.faFault a 64 false = none →
        Next (.stl e x) s (EngineAsks e (asks 2 .write)
          (fun m => told .memWr m ∧ m.be = BitVec.allOnes 64 ∧ m.data = line.1 ∧ m.poison = line.2) u))
      ∧ (Runs e 0x32 x [x.a, x.c] [lineReg x.d] i s → u.faFault a 64 false = none → Next (.stlm e x) s (EngineAsks e (asks 2 .write)
        (fun m => told .memWr m ∧ m.be = (u.engine e).getS x.c ∧ m.data = line.1 ∧ m.poison = line.2) u))
      ∧ (∀ o, atomOp x.f.toNat = some o →
        Runs e 0x38 x (if x.f = 5 then [x.d, x.a, x.b, x.c] else [x.d, x.a, x.b]) [] i s → u.faFault a 4 true = none →
        Next (.atom32 e x) s (EngineAsks e (asks 2 (.scalar x.d false))
          (fun m => told .ioAtomic m ∧ m.atom = some (o, false, (u.engine e).getS x.b, (u.engine e).getS x.c)) u))
      ∧ (∀ o, atomOp x.f.toNat = some o →
        Runs e 0x39 x (if x.f = 5 then [x.d, x.a, x.b, x.c] else [x.d, x.a, x.b]) [] i s → u.faFault a 8 true = none →
        Next (.atom64 e x) s (EngineAsks e (asks 2 (.scalar x.d true))
          (fun m => told .ioAtomic m ∧ m.atom = some (o, true, (u.engine e).getS x.b, (u.engine e).getS x.c)) u)))
  ∧ (∀ (e : EngineId) (x : Fields) (i : Item) (s u : State), u = s.reach i.firstAt → ∀ n, n = ((u.engine e).getS x.c).toNat →
      let spread (t : State) : Prop := ∃ j, t.item e = some j ∧ j.todo.length + j.reqs.length = n + i.reqs.length ∧ j.instrs = i.instrs + 1
      (Runs e 0x33 x [x.d, x.a, x.c] [] i s → x.f = 0 → 1 ≤ n → n ≤ 4096 →
        overlap ((u.engine e).getS x.a).toNat ((u.engine e).getS x.d).toNat n = false →
        u.faFaults (linesFrom ((u.engine e).getS x.a).toNat n ++ linesFrom ((u.engine e).getS x.d).toNat n) = none →
        Next (.cpy e x) s fun t => spread t ∧ ∃ j, t.item e = some j ∧ j.multi = true ∧ j.pc = i.pc)
      ∧ (∀ as, Runs e 0x34 x [x.a, x.b, x.c] [lineReg x.d] i s → 1 ≤ n → n ≤ 256 → i.ending = none →
        u.tableAddrs e i ((u.engine e).getS x.a).toNat n ((u.engine e).getS x.b) = .inr as → u.faFaults as = none → Next (.pub e x) s spread)
      ∧ (∀ as, Runs e 0x35 x [x.a, x.b, x.c] [lineReg x.d] i s → 1 ≤ n → n ≤ 64 → redOp (x.imm.toNat % 256) = true →
        u.tableAddrs e i ((u.engine e).getS x.a).toNat n ((u.engine e).getS x.b) = .inr as → u.faFaults as = none → Next (.red e x) s spread)
      ∧ (∀ fa, fa = ((u.engine e).getS x.b).toNat / 64 % 2 ^ 46 * 64 → Runs e 0x36 x [x.a, x.b] [] i s →
        ((u.engine e).getS x.a).getLsbD 63 = false → u.itemHeld i = false → decidePart u i.disp.domain 0 0 fa needR = .allowed →
        Next (.pubh e x) s fun t => (∀ n ∈ u.hintPorts i.disp.domain ((u.engine e).getS x.a),
            .port n (.vdm 0x1F6B 1 0x38 (hintBytes fa x.imm.toNat i.tick) (u.itemSc0 i)) ∈ t.out)
          ∧ t.engine e = ((u.engine e).charged (1 + (u.hintPorts i.disp.domain ((u.engine e).getS x.a)).length)).advance (i.pc + 1)))

/-- A standing entry falls due on an idle engine; a budget runs out; the fence stops what runs; a response reaches its register (R337, R339,
R342, R343, R363). A response to nothing changes no engine. -/
def Obligations.EngineItems : Prop :=  (∀ (s u : State) (j n : Nat) (d : Disp) (e : EngineId), s.entry j = some d → s.placeOf j = some n → e.val = n → s.serving = true →
    s.pit.running = true → j < 256 → s.eng.ran.getLsbD j = false → s.rec_.hold = false → s.img.hold = false → s.domainHalted d.domain = false → d.fed = false →
    (s.engine e).healthy = true → u = s.reach (s.pit.bk + d.offset) → u.now < u.fenceAt → u.defers d n = false → (s.engine e).st = .idle →
    s.item e = none → s.waitsTurn j = false → (s.slot d.slot).wait = none → Next (.dispatchDue j) s fun t =>
      (∃ i, t.item e = some i ∧ i.disp = d ∧ i.pc = 0 ∧ i.args = (s.slot d.slot).args ∧ i.tick = s.pit.tick ∧ i.reqs = [] ∧ i.firstAt = u.now + 5)
        ∧ (t.engine e).st = .running ∧ (t.engine e).used = 0 ∧ (t.engine e).getS 1 = (s.slot d.slot).args.a0
        ∧ t.eng.ran.getLsbD j = true ∧ (∀ f, f ≠ e → t.engine f = u.engine f) ∧ Only [.eng, .regs] u t)
  ∧ (∀ (s u : State) (e : EngineId) (i : Item), s.item e = some i → Item.overran i = false →
    u = s.reach (s.now + (5 * (i.disp.budget - (s.engine e).used) + 7) / 8) → Next (.budgetSpent e) s fun t =>
      t.engine e = { u.engine e with used := max (u.engine e).used i.disp.budget, item := some { i with overran := true } }
        ∧ (∀ f, f ≠ e → t.engine f = u.engine f) ∧ t.now = u.now)
  ∧ (∀ (s u : State) (e : EngineId), s.serving = true → s.pit.running = true → u = s.reach s.fenceAt →
    Next (.engineFence e) s fun t => t.item e = none ∧ t.now = u.now ∧ ∀ f, f ≠ e → t.engine f = u.engine f)
  ∧ (∀ (s : State) (e : EngineId) (tag : Nat) (x : Line) (i : Item) (r : EReq) (l : Fin 8), s.item e = some i →
    i.reqs.find? (fun r => r.tag = tag) = some r → r.dest = .line l → i.todo = [] → i.multi = false → i.ending = none →
    Next (.engineResponse e tag .ok x) s fun t => (t.engine e).getL l = (x, false)
      ∧ t.item e = some { i with reqs := i.reqs.filter fun r => r.tag ≠ tag } ∧ ∀ f, f ≠ e → t.engine f = s.engine f)
  ∧ (∀ (s : State) (e : EngineId) (tag : Nat) (st : RspStatus) (x : Line), s.item e = none → Next (.engineResponse e tag st x) s fun t =>
    t.eng = s.eng)

/-! ### Host interface (spec 13, 14) -/

/-- Failure, takeover and retirement of an engine, and work submitted to a slot (R333 to R336, R350 to R354). -/
def Obligations.EngineFailures : Prop :=  (∀ (s : State) (e : EngineId) (c : Fin 8), s.started = true → 1 ≤ c.val → c.val ≤ 6 → c.val ≠ 5 → (s.engine e).healthy = true →
    Next (.engineFailure e c) s fun t => (t.engine e).st = .failed ∧ (t.engine e).cause = c.val ∧ t.item e = none)
  ∧ (∀ (s u : State) (e : EngineId) (l : LoadSt), (s.engine e).st = .loading → (s.engine e).load = some l → l.again = none →
    s.flt.safe = false → u = s.reach l.doneAt →
    Next (.spareLoadEnd e) s (EngineNow e { u.engine e with st := .idle, load := none } u))
  ∧ (∀ (s : State) (h : Hdr) (i : Word32) (e : EngineId), Admitted h [] s → i.toNat = e.val → (s.engine e).healthy = true →
    Next (.engineRetire h i) s fun t => (t.engine e).st = .retired ∧ t.item e = none)
  ∧ (∀ (s : State) (h : Hdr) (w10 w18 : Word) (a : Args) (slot : Nat), Permitted h s → slot = w10.toNat % 2 ^ 16 → w10.toNat / 2 ^ 16 % 2 ^ 48 = 0 →
    w18.toNat / 2 ^ 48 % 2 ^ 16 = 0 →
    (∀ j d, s.pit.current.slotEntry slot = some (j, d) → d.domain = h.domain.toNat → d.domain = s.ringDomain h.ring.val →
      (d.fed = true → (s.placeOf j).isSome = true → (s.slot slot).queue.length < 16 → Next (.workSubmit h w10 w18 a) s fun t =>
        t.slot slot = { s.slot slot with queue := (s.slot slot).queue ++ [⟨h, w18.toNat % 2 ^ 48, a⟩] }
          ∧ (∀ k, k ≠ slot → t.slot k = s.slot k) ∧ Only [.eng] s t)
      ∧ (d.fed = true → s.placeOf j = none →
        Completes (.workSubmit h w10 w18 a) h { status := .shed, result := workResult slot 0 } s fun u => u = s)
      ∧ (d.fed = false → Completes (.workSubmit h w10 w18 a) h {} s fun t =>
        t.slot slot = { s.slot slot with wait := some (w18.toNat % 2 ^ 48, a) } ∧ (∀ k, k ≠ slot → t.slot k = s.slot k)
          ∧ t.eng.engs = s.eng.engs ∧ Only [.eng] s t))
    ∧ (∀ j d, s.pit.current.slotEntry slot = some (j, d) → d.domain ≠ h.domain.toNat ∨ d.domain ≠ s.ringDomain h.ring.val →
      Completes (.workSubmit h w10 w18 a) h { status := .denied } s fun u => u = s))

/-- Doorbells (R490, R491): a polled doorbell is read at the next of its times in the tick, a watched one is not; the word read sets the
index that the ring goes by, if it carries the ring's GEN; a word of another GEN is counted and does nothing; a failed read puts the ring in
ERROR. Fetch and start of descriptors (R493, R494): a fetch takes the next descriptor of the ring whose turn it is and reserves an entry of
its CQ; the oldest fetched descriptor becomes live, and its command is completed at once if checks 1 to 5 refuse it. -/
def Obligations.QueuesIn : Prop :=
  (∀ (n : Fin 8192) (evq : Bool) (s : State) (r : Ring), s.serving = true → s.queueAt n.val evq = some r →
      (∀ u, u = s.reach (s.pollDue r) → r.dbMode = 1 →
        (s.pollDue r < s.pit.bk + s.pit.period → Next (.doorbellPoll n evq) s fun t =>
          t.out = .doorbellRead n.val evq :: u.out ∧ t.queueAt n.val evq = some { r with pollAt := some (s.pollDue r) }
            ∧ t.rd R.RNG_POLL_COUNT = min (2 ^ R.RNG_POLL_COUNT.width - 1) (u.rd R.RNG_POLL_COUNT + 1) ∧ Only [.regs, .host, .out] u t)
        ∧ (s.pit.bk + s.pit.period ≤ s.pollDue r → Next (.doorbellPoll n evq) s (· = s)))
      ∧ (r.dbMode ≠ 1 → Next (.doorbellPoll n evq) s (· = s))
      ∧ (r.state = .active → s.doorbellAllowed r = true →
        (∀ w : Word, bits w.toNat 32 8 = r.gen → r.kind = .sq → (bits w.toNat 0 32 + 2 ^ 32 - r.cons) % 2 ^ 32 ≤ 2 ^ r.log2n →
          Next (.doorbellReadComplete n evq (some w)) s (· = s.setQueue n.val evq (some { r with prod := bits w.toNat 0 32 })))
        ∧ (∀ w : Word, bits w.toNat 32 8 ≠ r.gen → Next (.doorbellReadComplete n evq (some w)) s fun t =>
          t.rd R.RNG_DB_STALE_COUNT = min (2 ^ R.RNG_DB_STALE_COUNT.width - 1) (s.rd R.RNG_DB_STALE_COUNT + 1) ∧ Only [.regs] s t)
        ∧ Next (.doorbellReadComplete n evq none) s fun t => ∃ q, t.queueAt n.val evq = some q ∧ q.state = .error ∧ q.prod = r.prod ∧ q.cons = r.cons))
  ∧ (∀ (n : Fin 8192) (s : State) (r : Ring), s.serving = true → s.ring n.val = some r →
      (∀ (d : List Word) (c : Ring), s.rec_.hold = false → s.img.hold = false → s.fetchTurn = some n.val → s.cqOf n.val ≠ n.val →
        s.ring (s.cqOf n.val) = some c → s.hostAllows r.domain r.space r.port (r.base + 64 * (r.cons % 2 ^ r.log2n)) needR = true →
        Next (.descriptorFetch n (some d)) s fun t => t.ring n.val = some { r with cons := (r.cons + 1) % 2 ^ 32, fetched := r.fetched ++ [d] }
          ∧ t.ring (s.cqOf n.val) = some { c with reserved := c.reserved + 1 } ∧ t.host.roundAt = n.val
            ∧ t.out = .fetch n.val r.cons :: s.out ∧ Only [.regs, .host, .out] s t)
      ∧ (∀ d : Option (List Word), s.fetchTurn ≠ some n.val → Next (.descriptorFetch n d) s (· = s))
      ∧ (∀ (d : List Word) (rest : List (List Word)), r.fetched = d :: rest → r.mayStart n.val (hdrOf n.val d) = true →
        (∀ k, cmdRow (bits (wordAt d 0) 0 16) = some k → descCheck d = none → Next (.descriptorStart n) s
          (· = s.setRing n.val (some { r with fetched := rest, live := r.live ++ [⟨(hdrOf n.val d).tag.toNat, k.bg⟩] })))
        ∧ (∀ x, descCheck d = some x → Completes (.descriptorStart n) (hdrOf n.val d) x s fun u => Only [.host] s u))
      ∧ (r.fetched = [] → Next (.descriptorStart n) s (· = s)))

/-- NOP and BARRIER, and what RING_STATUS and COUNTER_READ read: they change nothing but what their completion changes; a BARRIER whose
messages have not all left waits (R208, R502, R526). Counters and bandwidth windows (R523 to R528, R536): COUNTER_CFG sets one counter,
VALUE only with LOAD; the length of a bandwidth window counts from the next boundary, 0 ends it now. -/
def Obligations.HostReads : Prop :=
  (∀ (h : Hdr) (s : State), Permitted h s →
      Completes (.nop h) h {} s (· = s)
      ∧ (s.drainedTo s.fab.epoch = true → Completes (.barrier h) h {} s (· = s))
      ∧ (s.drainedTo s.fab.epoch = false → Next (.barrier h) s fun t =>
        t.fab = { s.fab with barriers := s.fab.barriers ++ [(h, s.fab.epoch)] } ∧ Only [.fab] s t)
      ∧ (∀ index : Word32, index.toNat ≤ 8191 → Completes (.ringStatus h index) h { result := ringResult (s.ring index.toNat) } s (· = s))
      ∧ (∀ index : Word32, index.toNat < (s.domain h.domain.toNat).counters → Completes (.counterRead h index) h
          { result := (Tab.get counterAt s.host.counters (h.domain.toNat * 1024 + index.toNat)).value } s (· = s)))
  ∧ (∀ (h : Hdr) (i : Word32) (s : State), Admitted h [] s →
      (∀ entry : Entry, counterBad entry = none → i.toNat < (s.domain h.domain.toNat).counters → h.domain.toNat = 0 →
        s.anyResetting (counterNames entry) = false →
        Completes (.counterCfg h i entry) h {} s fun u => Only [.host] s u
          ∧ (∃ k, Tab.get counterAt u.host.counters i.toNat = k ∧ k.sel = (counterOf entry).sel ∧ k.level = (counterOf entry).level
            ∧ k.value = if counterLoad entry then (counterOf entry).value else (Tab.get counterAt s.host.counters i.toNat).value)
          ∧ ∀ m, m ≠ i.toNat → Tab.get counterAt u.host.counters m = Tab.get counterAt s.host.counters m)
      ∧ (∀ x : BitVec 16, s.isLowest i.toNat = true → Completes (.bwWindow h i x) h {} s fun u => Only [.host] s u
          ∧ Tab.get bwAt u.host.bw i.toNat = (if x = 0 then BwWin.none else { Tab.get bwAt s.host.bw i.toNat with next := x.toNat })
          ∧ ∀ m, m ≠ i.toNat → Tab.get bwAt u.host.bw m = Tab.get bwAt s.host.bw m))

/-- Rings made and unmade (R502, R503): RING_CREATE puts the ring its body describes into the free slot and reads its doorbell; RING_DESTROY
frees the slot; RING_RESET sets the device's index and GEN; RING_DOORBELL sets where the doorbell is and reads it. -/
def Obligations.Rings : Prop :=  ∀ (h : Hdr) (s : State), Admitted h [] s →
    (∀ (w10 w18 w20 w28 w30 : Word) (r : Ring), r = ringOf h.domain.toNat w10.toNat w18.toNat w20.toNat w28.toNat w30.toNat 0 false →
      ringBad w10.toNat w18.toNat w20.toNat w28.toNat w30.toNat 0 false = none → 2 ≤ bits w10.toNat 0 13 → s.ring (bits w10.toNat 0 13) = none →
      (r.kind = .sq → ∃ q, s.ring r.pair = some q ∧ q.kind = .cq ∧ q.domain = h.domain.toNat) → (r.kind = .stat → s.statRing h.domain.toNat = none) →
      WatchReady r s → s.ringPortsOk r = true → (s.domain h.domain.toNat).debug = false → (s.domain h.domain.toNat).st ≠ .free →
      Completes (.ringCreate h w10 w18 w20 w28 w30) h {} s fun u => u.ring (bits w10.toNat 0 13) = some r
        ∧ (∀ m, m ≠ bits w10.toNat 0 13 → u.ring m = s.ring m) ∧ u.out = .doorbellRead (bits w10.toNat 0 13) false :: s.out
        ∧ Only [.host, .out] s u)
    ∧ (∀ (i : Word32) (r : Ring), 2 ≤ i.toNat → i.toNat ≤ 8191 → s.ring i.toNat = some r → s.ringNamed i.toNat = false → r.dbMode ≠ 0 →
      r.fetched = [] → r.live = [] → Completes (.ringDestroy h i) h {} s fun u => u.ring i.toNat = none
        ∧ (∀ m, m ≠ i.toNat → u.ring m = s.ring m) ∧ Only [.host, .fab, .eng] s u)
    ∧ (∀ (i : Word32) (w : Word) (r : Ring), i.toNat ≤ 8191 → bits w.toNat 40 24 = 0 → s.ring i.toNat = some r → r.kind ≠ .sq →
      Completes (.ringReset h i w) h {} s fun u => u.ring i.toNat = some
          { r with state := .active, gen := bits w.toNat 32 8, prod := bits w.toNat 0 32, reserved := 0, full := false }
        ∧ (∀ m, m ≠ i.toNat → u.ring m = s.ring m) ∧ Only [.host, .out] s u)
    ∧ (∀ (i : Word32) (w20 w28 : Word) (r : Ring), i.toNat ≤ 8191 → firstBad (doorbellChecks w20.toNat w28.toNat) = none → s.ring i.toNat = some r →
      r.dbMode ≠ 0 → bits w28.toNat 4 2 ≠ 0 → s.isUpstream (bits w28.toNat 16 6) = true →
      Completes (.ringDoorbell h i w20 w28) h {} s fun u => u.ring i.toNat = some
          { r with
              dbMode := bits w28.toNat 4 2, dbSpace := bits w28.toNat 2 2, dbPort := bits w28.toNat 16 6, dbAddr := w20.toNat / 8 * 8,
              poll := bits w28.toNat 24 8 } ∧ Only [.host, .out] s u)

/-- Event queues and sources (R511, R519, R522): EVQ_CREATE and EVQ_DESTROY make and unmake a queue; SOURCE_MAP maps a source of events to a
queue, and with READ, or as SOURCE_MAP_READ, tells its mapping. -/
def Obligations.EventQueues : Prop :=  ∀ (h : Hdr) (s : State),
    (∀ (w10 w18 w20 w28 w30 w38 : Word) (r : Ring), Admitted h [] s →
      r = ringOf h.domain.toNat w10.toNat w18.toNat w20.toNat w28.toNat w30.toNat w38.toNat true →
      ringBad w10.toNat w18.toNat w20.toNat w28.toNat w30.toNat w38.toNat true = none → bits w10.toNat 0 13 ≠ 0 → s.evq (bits w10.toNat 0 13) = none →
      s.evqsOf h.domain.toNat < (s.domain h.domain.toNat).evqs → s.isUpstream r.port = true → WatchReady r s →
      Completes (.evqCreate h w10 w18 w20 w28 w30 w38) h {} s fun u => u.evq (bits w10.toNat 0 13) = some r
        ∧ (∀ m, m ≠ bits w10.toNat 0 13 → u.evq m = s.evq m) ∧ Only [.host, .out] s u)
    ∧ (∀ (i : Word32) (r : Ring), Admitted h [] s → i.toNat ≠ 0 → i.toNat ≤ 8191 → s.evq i.toNat = some r → r.dbMode ≠ 0 →
      (∀ e ∈ s.host.rings, ∀ q, e.2 = some q → q.evq ≠ i.toNat) → Completes (.evqDestroy h i) h {} s fun u => u.evq i.toNat = none
        ∧ (∀ m, m ≠ i.toNat → u.evq m = s.evq m) ∧ u.host.sources = s.host.sources ∧ Only [.host] s u)
    ∧ (∀ (i : Word32) (entry : Word), Admitted h [i.toNat / 256] s → sourceBad i entry.toNat = none → flag entry.toNat 18 = false →
      flag entry.toNat 16 = false → s.evq (bits entry.toNat 0 13) = none → s.sourceActive i.toNat = true →
      Completes (.sourceMap h i entry) h {} s fun u =>
        u.source i.toNat = { s.source i.toNat with
          cnt := if flag entry.toNat 17 then 0 else (s.source i.toNat).cnt, evq := bits entry.toNat 0 13, en := false }
        ∧ (∀ m, m ≠ i.toNat → u.source m = s.source m) ∧ Only [.host] s u)
    ∧ (∀ (i : Word32) (entry : Word), Admitted h [i.toNat / 256] s → sourceBad i entry.toNat = none → flag entry.toNat 18 = true →
      Completes (.sourceMap h i entry) h { result := (s.source i.toNat).result } s (· = s))
    ∧ (∀ i : Word32, Admitted h [i.toNat / 256] s → sourceBad i 0 = none →
      Completes (.sourceMapRead h i) h { result := (s.source i.toNat).result } s (· = s))

/-! ### Tables, domains, plans, programs (spec 02, 05, 09, 10) -/

/-- Commands of a port (R127, R143, R144, R696) and its function-level reset (R633): a port already ACTIVE completes PORT_BIND at once; a
port whose link is not up has nothing to take down; a key is stored in its slot, of a downstream or a fabric port whose link is up; the
reset leaves the function's MSI-X table and command register as reset leaves them. -/
def Obligations.PortCommands : Prop :=  (∀ (h : Hdr) (i : Word32) (s : State), Admitted h [] s → s.isLowest i.toNat = true →
    ((s.portN i.toNat).state = .active → s.role i.toNat ≠ 0 → Completes (.portBind h i) h {} s (· = s))
    ∧ ((s.portN i.toNat).bindable = true → s.role i.toNat ≠ 0 → Next (.portBind h i) s fun t => (t.portN i.toNat).state = .active)
    ∧ (s.role i.toNat = 0 → Completes (.portBind h i) h { status := .denied } s (· = s))
    ∧ ((s.portN i.toNat).canFall = false → Completes (.portDown h i) h {} s (· = s))
    ∧ ((s.portN i.toNat).canFall = true → Next (.portDown h i) s fun t => (t.portN i.toNat).state = .flush
      ∧ (t.portN i.toNat).dll = false ∧ (t.portN i.toNat).gen = (s.portN i.toNat).gen + 1 ∧ (t.portN i.toNat).keys = [])
    ∧ (∀ (aux : Word32) (key : Entry), bits aux.toNat 0 4 ≤ 8 → bits aux.toNat 5 2 ≠ 3 → aux.toNat < 256 →
      (s.isDownstream i.toNat || s.isFabric i.toNat) = true →
      ((s.portN i.toNat).state.linked = false → Completes (.ideKey h i aux key) h { status := .denied } s (· = s))
      ∧ ((s.portN i.toNat).state.linked = true → Next (.ideKey h i aux key) s fun t => ∃ k ∈ (t.portN i.toNat).keys, k.stream = bits aux.toNat 0 4 ∧ k.rx = flag aux.toNat 4
        ∧ k.sub = bits aux.toNat 5 2 ∧ k.slot = flag aux.toNat 7 ∧ k.key = key)))
  ∧ (∀ (p : PortId) (s : State), s.started = true → s.role p.val = 1 → p.val ≠ s.mgrPort → Next (.functionLevelReset p) s fun t =>
    (∀ k, Tab.get msixAt t.host.msix k = if k / 2048 = p.val then MsixEnt.none else Tab.get msixAt s.host.msix k)
      ∧ Tab.get natAt t.host.cmdReg p.val = 0 ∧ (∀ q, q ≠ p.val → Tab.get natAt t.host.cmdReg q = Tab.get natAt s.host.cmdReg q)
      ∧ Only [.host] s t)

/-- Table commands (R203 to R206, R240 to R242, R283, R308, R396, R399): each writes its one entry at an epoch of its own. An RT window
waits for its lines; a change whose ledger slot still counts messages waits for the slot. -/
def Obligations.TableCommands : Prop :=  ∀ (h : Hdr) (i : Word32) (s : State),
    (∀ entry : Entry, Admitted h [(winOf entry).domain] s → i.toNat < 16384 → winBad entry = none → s.winRefused i.toNat (winOf entry) = none →
      ((winOf entry).rt = false → s.slotBusy = false → Lands (.windowBind h i entry) h s fun u =>
        u.winAt i.toNat = some { winOf entry with epoch := s.openEpoch.fab.epoch } ∧ ∀ j, j ≠ i.toNat → u.winAt j = s.winAt j)
      ∧ ((winOf entry).rt = true → s.newUnits i.toNat (winOf entry) ≠ [] → Next (.windowBind h i entry) s fun t =>
        t.tabs = { s.tabs with rtLoads := s.tabs.rtLoads ++ [⟨some h, i.toNat, winOf entry⟩] } ∧ Only [.tabs] s t))
    ∧ (Admitted h [] s → i.toNat < 16384 →
      (s.winAt i.toNat = none → Completes (.windowUnbind h i) h {} s (· = s))
      ∧ (s.slotBusy = false → (s.winAt i.toNat).isSome = true → s.watchedIn (s.unmapped i.toNat none) = false →
        Lands (.windowUnbind h i) h s fun u => u.winAt i.toNat = none ∧ ∀ j, j ≠ i.toNat → u.winAt j = s.winAt j))
    ∧ (∀ x : BitVec 16, Admitted h [] s → i.toNat < 4096 → x.toNat < 256 → x.getLsbD 7 = false →
      (s.slotBusy = false → Lands (.pbrWrite h i x) h s fun u => Tab.get natAt u.tabs.pbr i.toNat = x.toNat
        ∧ (∀ j, j ≠ i.toNat → Tab.get natAt u.tabs.pbr j = Tab.get natAt s.tabs.pbr j) ∧ u.tabs.wins = s.tabs.wins)
      ∧ (s.slotBusy = true → Next (.pbrWrite h i x) s fun t => t.fab = { s.fab with wait := s.fab.wait ++ [.pbrWrite h i x] } ∧ Only [.fab] s t))
    ∧ (∀ (o : HRef) (l : List Word32), Admitted h [] s → i.toNat < 1024 → firstBad o.bad = none → ObjectOk h o 64 needR s → tlistBad l = none →
      (s.objectRead h o 64 needR).slotBusy = false → Completes (.tlistWrite h i o l) h {} s fun u =>
        Tab.get tlistAt u.tabs.tlists i.toNat = l.take 16 ∧ u.tabs.wins = s.tabs.wins
          ∧ ∀ j, j ≠ i.toNat → Tab.get tlistAt u.tabs.tlists j = Tab.get tlistAt s.tabs.tlists j)
    ∧ (∀ aux : Word32, Admitted h [] s → bindBad aux = none → s.slotBusy = false → i.toNat ≤ 63 → s.isDownstream i.toNat = true →
      s.isUpstream (aux.extractLsb' 16 6).toNat = true →
      ((s.domain h.domain.toNat).debug = false → s.cachesBehindSwitch (bindKey i aux) ⟨(aux.extractLsb' 16 6).toNat, h.domain.toNat⟩ = false →
        Lands (.ldBind h i aux) h s fun u =>
        Tab.get noneAt u.tabs.binds (bindKey i aux) = some ⟨(aux.extractLsb' 16 6).toNat, h.domain.toNat⟩
          ∧ ∀ k, k ≠ bindKey i aux → Tab.get noneAt u.tabs.binds k = Tab.get noneAt s.tabs.binds k)
      ∧ (Tab.get noneAt s.tabs.binds (bindKey i aux) = none → Completes (.ldUnbind h i aux) h {} s (· = s))
      ∧ (Tab.get noneAt s.tabs.binds (bindKey i aux) ≠ none → Lands (.ldUnbind h i aux) h s fun u =>
        Tab.get noneAt u.tabs.binds (bindKey i aux) = none
          ∧ ∀ k, k ≠ bindKey i aux → Tab.get noneAt u.tabs.binds k = Tab.get noneAt s.tabs.binds k))
    ∧ (∀ (n : Fin 16) (w : Word), Admitted h [(ridOf w).domain] s → i.toNat < 64 → ridBad w = none → s.slotBusy = false →
      ((ridOf w).valid = true → (s.domain (ridOf w).domain).debug = false) → Lands (.portRidmap h i n w) h s fun u =>
        Tab.get ridAt u.dom.rids (i.toNat * 16 + n.val) = ridOf w
          ∧ ∀ k, k ≠ i.toNat * 16 + n.val → Tab.get ridAt u.dom.rids k = Tab.get ridAt s.dom.rids k)
    ∧ (∀ key, key = ruleKey h.domain.toNat i.toNat → Admitted h [] s → i.toNat < (s.domain h.domain.toNat).rules → s.slotBusy = false →
      s.ruleLocked key = false →
      (∀ entry : Entry, ruleBad entry s.isUpstream = none → Lands (.ruleWrite h i false entry) h s fun u =>
        u.rule key = (if ruleValid entry then some (ruleOf entry) else none) ∧ ∀ k, k ≠ key → u.rule k = s.rule k)
      ∧ (Lands (.ruleClear h i false) h s fun u => u.rule key = none ∧ ∀ k, k ≠ key → u.rule k = s.rule k)
      ∧ Next (.ruleClear h i true) s fun t => t.rule key = none ∧ ∀ k, k ≠ key → t.rule k = s.rule k)

/-- TABLE_READ writes the entry it names to the host object; the load of an RT window ends with the window in force; a waiting change is
made when its ledger slot is free (R206, R283, R498). A rule that carries LOCK stands against every command, and its refusal says so (R399,
R401). -/
def Obligations.TableReads : Prop :=
  ((∀ (h : Hdr) (i : Word32) (n : Fin 16) (o : HRef) (s : State) (w : List Nat), (∃ d, Admitted h d s) → firstBad o.bad = none → i.toNat < 4096 →
      s.tableEntry h.domain.toNat 3 i.toNat n.val = some w → ObjectOk h o (8 * w.length) needW s → (s.objectRead h o (8 * w.length) needW).out = s.out →
      Completes (.tableRead h 3 i n o) h {} s fun u => u.out = .hostWrite o.space.toNat o.port.val o.addr.toNat w :: s.out ∧ u.tabs = s.tabs)
    ∧ (∀ (i : Fin 16384) (h : Hdr) (w : DWin) (s : State), s.serving = true → s.tabs.rtLoads = [⟨some h, i.val, w⟩] →
      s.loadLines ⟨some h, i.val, w⟩ = [] → s.slotBusy = false → Completes (.rtLoadEnd i) h {} s fun u =>
        u.winAt i.val = some { w with epoch := s.openEpoch.fab.epoch } ∧ u.tabs.rtLoads = [])
    ∧ (∀ (i : Fin 16384) (s : State), (s.tabs.rtLoads.find? fun x => x.index = i.val) = none → Next (.rtLoadEnd i) s (· = s))
    ∧ (∀ (h : Hdr) (i : Word32) (x : BitVec 16) (l : List Instr) (s : State), Admitted h [] s → s.fab.wait = .pbrWrite h i x :: l → s.slotBusy = false →
      i.toNat < 4096 → x.toNat < 256 → x.getLsbD 7 = false → Next .epochSlotFree s fun t => t.fab.wait = l ∧ Tab.get natAt t.tabs.pbr i.toNat = x.toNat)
    ∧ (∀ s : State, s.fab.wait = [] → Next .epochSlotFree s (· = s)))
  ∧ (∀ (h : Hdr) (i : Word32) (r : Bool) (s : State), Admitted h [] s → i.toNat < (s.domain h.domain.toNat).rules →
      s.ruleLocked (ruleKey h.domain.toNat i.toNat) = true →
      Completes (.ruleClear h i r) h { status := .locked } s (· = s)
      ∧ ∀ entry : Entry, ruleBad entry s.isUpstream = none → Completes (.ruleWrite h i r entry) h { status := .locked } s (· = s))

/-- Domains (R388 to R394, R420 to R423): created with what its body describes, its scratch zeroed; reset, through draining, walk and write-
backs, back to ACTIVE; destroyed to FREE with its rules gone. -/
def Obligations.DomainLife : Prop :=  (∀ (h : Hdr) (w10 w18 w20 : Word) (s : State), Admitted h [] s → domainBad w10.toNat w20.toNat = none → h.domain.toNat ≠ 0 →
    (s.domain h.domain.toNat).st = .free → s.poolLacks (domainOf w10.toNat w18.toNat w20.toNat) = false →
    Completes (.domainCreate h w10 w18 w20) h {} s fun u => u.domain h.domain.toNat = domainOf w10.toNat w18.toNat w20.toNat
      ∧ (∀ d, d ≠ h.domain.toNat → u.domain d = s.domain d) ∧ Only [.dom, .eng] s u
      ∧ ∀ (e : EngineId) (a : Nat), w18.getLsbD e.val = true → a < 2 ^ 18 → Memory.readByte u.eng.scratch (scratchKey e h.domain.toNat a) = 0)
  ∧ (∀ (h : Hdr) (q : Bool) (s : State), Admitted h [] s → s.dom.reset = none → h.domain.toNat ≠ 0 → s.slotBusy = false →
    (s.domain h.domain.toNat).debug = false → (s.domain h.domain.toNat).st ≠ .free → Next (.domainReset h q) s fun t =>
      t.domain h.domain.toNat = { s.domain h.domain.toNat with st := .resetting } ∧ (∀ d, d ≠ h.domain.toNat → t.domain d = s.domain d)
        ∧ t.dom.reset = some ⟨h, h.domain.toNat, q, false, 4, s.openEpoch.fab.epoch, 0⟩
        ∧ ∀ e i, t.item e = some i → i.disp.domain ≠ h.domain.toNat)
  ∧ (∀ (h : Hdr) (s : State), Admitted h [] s → s.dom.reset = none → h.domain.toNat ≠ 0 → s.slotBusy = false → s.holdsLock h.domain.toNat = false →
    s.domainNamed h.domain.toNat = false → (s.domain h.domain.toNat).st ≠ .free → Next (.domainDestroy h) s fun t =>
      (t.domain h.domain.toNat).st = .resetting ∧ t.dom.reset = some ⟨h, h.domain.toNat, true, true, 4, s.openEpoch.fab.epoch, 0⟩)
  ∧ (∀ (s : State) (r : ResetRun), s.serving = true → s.dom.reset = some r →
    (r.step = 4 → s.drainedTo r.epoch = true → Next .domainResetDrained s fun t => t.dom = { s.dom with reset := some { r with step := 5, walkAt := s.now } })
    ∧ (r.step = 4 → s.drainedTo r.epoch = false → Next .domainResetDrained s (· = s))
    ∧ (∀ u, u = s.reach (r.walkAt + walkNs) → r.step = 5 → s.resetting r = false → Next .domainResetWalkEnd s fun t =>
      t.dom = { s.dom with reset := some { r with step := 6 } } ∧ Only [.dom] u t)
    ∧ (r.step = 5 → s.resetting r = true → Next .domainResetWalkEnd s (· = s))
    ∧ (r.step = 6 → (r.squash = true ∨ s.dirtyLines r.domain = false) → r.destroy = false → Next .domainResetDone s fun t =>
      t.dom.reset = none ∧ t.domain r.domain = { s.domain r.domain with st := .active } ∧ ∀ d, d ≠ r.domain → t.domain d = s.domain d)
    ∧ (r.step = 6 → r.squash = true → r.destroy = true → Next .domainResetDone s fun t =>
      t.dom.reset = none ∧ t.domain r.domain = Domain.none ∧ (∀ d, d ≠ r.domain → t.domain d = s.domain d)
        ∧ ∀ i, i < 4096 → t.rule (ruleKey r.domain i) = none))

/-! ### Time, boundaries, power, faults (spec 02, 12, 14, 15) -/

/-- Tick plans and the step of time (R46, R77, R85, R86): a plan that the checks pass is the pending plan; PLAN_SWITCH and TIME_STEP wait
for their boundaries. Programs and the coefficient table (R324 to R326, R385, R447): PROG_LOAD begins a copy that ends at its time;
PROG_UNLOAD removes a program that no plan names; BLW_COEF_LOAD puts a checked table in force. BLW_SET and DBG_SET write one register as a
setup write would (R412, R475). -/
def Obligations.PlansAndPrograms : Prop :=
  (∀ (h : Hdr) (s : State), Admitted h [] s →
      (∀ (o : HRef) (w : List Word) (p : Plan), firstBad o.bad = none → ObjectOk h o (planBytes w) needR s →
        (s.objectRead h o (planBytes w) needR).admitPlan w = .admitted p → Next (.planLoad h o w) s fun t => t.pit = { s.pit with pendingPlan := some p })
      ∧ (∀ (k : BitVec 48) (b : Bool) (n : Nat), n = (if b then s.firstUnfixed else k.toNat) → s.pit.pendingPlan.isSome = true → s.firstUnfixed ≤ n →
        Next (.planSwitch h k b) s fun t => t.pit = { s.pit with switches := s.pit.switches ++ [⟨some h, n, 0⟩] } ∧ Only [.pit] s t)
      ∧ (∀ (k : BitVec 48) (b : Bool), s.pit.pendingPlan = none → Completes (.planSwitch h k b) h { status := .badDesc, code := 0x10 } s (· = s))
      ∧ (∀ d : Int, d ≠ 0 → (s.stepTick = s.firstUnfixed → d.natAbs < s.lastPeriod) → Next (.timeStep h d) s fun t =>
        t.pit = { s.pit with steps := s.pit.steps ++ [⟨some h, s.stepTick, d⟩] } ∧ Only [.pit] s t))
  ∧ ((∀ (h : Hdr) (i : Word32) (o : HRef) (w : List Word) (s : State) (k : Nat) (p : Prog), p = progOf w o (s.ringPort h.ring.val) → Permitted h s → i.toNat ≤ 4095 → firstBad o.bad = none →
      k = progKey h.domain.toNat i.toNat → ObjectOk h o (imageBytes w) needR s → progBad w = none → s.progNamed h.domain.toNat i.toNat = false →
      Tab.get noneAt s.eng.loads k = none → s.progPages h.domain.toNat i.toNat + p.pages ≤ (s.domain h.domain.toNat).prg →
      p.scrMin ≤ (s.domain h.domain.toNat).scr * 4096 → Next (.progLoad h i o w) s fun t =>
        Tab.get noneAt t.eng.loads k = some ⟨h, p, s.now + 1000 + (p.code.length + 1) / 2⟩ ∧ t.eng.progs = s.eng.progs
          ∧ (∀ j, j ≠ k → Tab.get noneAt t.eng.loads j = Tab.get noneAt s.eng.loads j))
    ∧ (∀ (d : Fin 4096) (n : BitVec 12) (l : ProgLoad) (s v : State), s.serving = true → Tab.get noneAt s.eng.loads (progKey d n.toNat) = some l →
      v = s.reach l.doneAt → Completes (.progCopyEnd d n) l.hdr {} s fun u => Tab.get noneAt u.eng.progs (progKey d n.toNat) = some l.prog
        ∧ Tab.get noneAt u.eng.loads (progKey d n.toNat) = none ∧ u.eng.engs = v.eng.engs ∧ Only [.eng] v u)
    ∧ (∀ (h : Hdr) (i : Word32) (s : State) (k : Nat), Permitted h s → i.toNat ≤ 4095 → k = progKey h.domain.toNat i.toNat →
      s.progNamed h.domain.toNat i.toNat = false → Tab.get noneAt s.eng.progs k ≠ none → Completes (.progUnload h i) h {} s fun u =>
        Tab.get noneAt u.eng.progs k = none ∧ (∀ j, j ≠ k → Tab.get noneAt u.eng.progs j = Tab.get noneAt s.eng.progs j) ∧ Only [.eng] s u)
    ∧ (∀ (h : Hdr) (o : HRef) (w : List Word32) (s : State), Admitted h [] s → firstBad o.bad = none → ObjectOk h o 256 needR s → coefBad w = none →
      (s.objectRead h o 256 needR).energyChangeOk { (s.objectRead h o 256 needR).energyIn with coef := coefOf w } = true →
      Completes (.blwCoefLoad h o w) h {} s fun u => u.bel.coef = coefOf w ∧ u.pit = s.pit))
  ∧ (∀ (h : Hdr) (v : Word) (s : State), Admitted h [] s → ∀ (off n : Nat) (r : RegRow), findReg off = some (r, n) →
      (∀ f ∈ r.fields, s.outOfRange off n v f = false ∧ s.fieldAct off n (s.expert off) v f ≠ .drop 0) →
      s.energyRefused off (mergeFields r.fields (fun f => s.fieldAct off n (s.expert off) v f = .take) v (s.reg off)) = false →
      (∀ i : Word32, i.toNat ≤ 0x38 → i.toNat % 8 = 0 → off = 0x110000 + i.toNat → Completes (.blwSet h i v) h {} s fun u =>
        u.reg off = mergeFields r.fields (fun f => s.fieldAct off n (s.expert off) v f = .take) v (s.reg off) ∧ Only [.regs, .recorder] s u)
      ∧ (off = R.DBG_CTRL_EN.base → s.anyResetting [bits v.toNat 16 12] = false → Completes (.dbgSet h v) h {} s fun u =>
        u.reg off = mergeFields r.fields (fun f => s.fieldAct off n (s.expert off) v f = .take) v (s.reg off) ∧ Only [.regs, .recorder] s u))

/-- Sources of time (R41 to R51): samples below 4 ns lock, 16 in a row; three failed dialogues, four periods without an edge of TIME_CLK or
1.5 s without one of PPS_IN put LOCKED into HOLDOVER; the limit of HOLDOVER leads to LOST, and the source that is whole again to ACQUIRE.
Every rate word lies within 50 ppm of the nominal one. -/
def Obligations.TimeSources : Prop :=  ∀ s : State, s.started = true →
    let rates (t : State) : Prop := nominalRate ≤ t.pit.rate + 134217 ∧ t.pit.rate ≤ nominalRate + 134217
    (∀ u n, u = s.reach s.ptmDue → n = u.lowest (u.rd R.TIK_PTM_PORT) → s.pit.source = 2 → Next .ptmDialogue s fun t =>
      t.pit = { u.pit with ptmAt := some s.ptmDue } ∧ Only [.pit, .out] u t
        ∧ t.out = if (u.portN n).state.linked then .port n .ptmRequest :: u.out else u.out)
    ∧ (∀ err : Int, s.pit.source = 2 → Next (.ptmResponseRx false err) s fun t => t.pit.phaseErr = err ∧ t.pit.ptmFails = 0 ∧ rates t
      ∧ (4 ≤ err.natAbs → t.pit.good = 0) ∧ (err.natAbs < 4 → s.pit.tstate = .acquire → s.pit.good = 15 → t.pit.tstate = .locked)
      ∧ (s.pit.tstate = .acquire → s.pit.good < 15 → t.pit.tstate = .acquire) ∧ (s.pit.tstate = .lost → s.pit.good < 15 → t.pit.tstate = .acquire))
    ∧ (∀ err : Int, s.pit.source = 2 → s.pit.ptmFails ≠ 2 → Next (.ptmResponseRx true err) s fun t =>
      t.pit = { s.pit with ptmFails := s.pit.ptmFails + 1 } ∧ Only [.pit] s t)
    ∧ (∀ err : Int, s.pit.source = 2 → s.pit.ptmFails = 2 → s.pit.tstate = .locked → Next (.ptmResponseRx true err) s fun t =>
      t.pit.tstate = .holdover ∧ t.pit.holdAt = s.now ∧ rates t)
    ∧ (s.pit.source = 1 → s.pit.tstate = .acquire → s.ticksRun = false → Next .ppsInEdge s fun t =>
      t.pit.ftime = s.rd R.TIK_PPS_FTIME_PPS_FTIME ∧ t.pit.phaseErr = 0 ∧ t.pit.ppsAt = some t.pit.ftime ∧ rates t
        ∧ (s.pit.clkLost = true → t.pit.tstate = .acquire ∧ t.pit.good = 0))
    ∧ (s.pit.source = 1 → s.ticksRun = true → Next .ppsInEdge s fun t => t.pit.ftime = s.pit.ftime ∧ t.pit.phaseErr = s.ppsError
      ∧ t.pit.ppsAt = some s.now ∧ (s.pit.clkLost = true → t.pit.tstate = s.pit.tstate)
      ∧ (s.pit.clkLost = false → s.pit.tstate = .holdover ∨ s.pit.tstate = .lost → t.pit.tstate = .acquire))
    ∧ (s.pit.source ≠ 1 → Next .ppsInEdge s fun t => t.pit = { s.pit with ppsAt := some s.now, ppsLost := false } ∧ Only [.pit] s t)
    ∧ (∀ a u, s.pit.source = 1 → s.pit.ppsLost = false → s.pit.ppsAt = some a → s.pit.tstate = .locked → u = s.reach (a + 1500000000) →
      Next (.timeSourceLoss .pps) s fun t =>
        t.pit.tstate = .holdover ∧ t.pit.ppsLost = true ∧ t.pit.holdAt = u.now ∧ t.now = u.now ∧ rates t)
    ∧ (∀ a u, s.pit.source = 1 → s.pit.clkLost = false → s.pit.tstate = .locked → u = s.reach (a + 4 * s.timeClkNs) →
      Next (.timeSourceLoss (.clk a)) s fun t =>
        t.pit.tstate = .holdover ∧ t.pit.clkLost = true ∧ t.pit.holdAt = u.now ∧ t.now = u.now ∧ rates t)
    ∧ (s.pit.source = 2 → 3 ≤ s.pit.ptmFails → s.pit.tstate = .locked → Next (.timeSourceLoss .ptm) s fun t =>
      t.pit.tstate = .holdover ∧ t.pit.holdAt = s.now ∧ rates t)
    ∧ (∀ why, s.pit.source = 0 → Next (.timeSourceLoss why) s (· = s))
    ∧ (s.pit.tstate = .holdover → Next .holdoverLimitExpire s fun t => t.pit.tstate = .lost ∧ t.pit.outStop = true ∧ t.pit.outLast = true
      ∧ t.now = (s.reach (s.pit.holdAt + 1000000 * s.rd R.TIK_HOLD_LIMIT_MS)).now)
    ∧ (s.pit.source = 1 → s.pit.clkLost = true →
      (s.pit.ppsLost = false → s.pit.tstate = .holdover ∨ s.pit.tstate = .lost → Next .timeClkReturn s fun t =>
        t.pit.tstate = .acquire ∧ t.pit.good = 0 ∧ t.pit.clkLost = false ∧ rates t)
      ∧ (s.pit.ppsLost = true → Next .timeClkReturn s fun t => t.pit = { s.pit with clkLost := false } ∧ Only [.pit] s t))

/-- A boundary is fixed LEAD_NS before it falls, with the period of the tick before it and its edge told to the ports; when it falls, tick
and B_k are its own, and a committed plan is current (R38, R39, R46, R54, R56, R57, R86). Windows of the plan and the pulses that follow
them (R52, R53, R66 to R70): a window opens and closes at its offsets, its admission interval begins GUARD later; no other window is
touched. A pulse ends WIDTH after its own start, its edge moved by DLY_ADJ. -/
def Obligations.Boundaries : Prop :=
  (∀ s : State, s.started = true → s.pit.running = true →
      (∀ u, s.pit.stopAfter = false → u = s.reach ((s.fixDue : Int) - s.stepsAhead - s.rd R.TIK_LEAD_LEAD_NS).toNat →
        (∀ w ∈ s.pit.switches ++ s.pit.steps, w.tick ≠ s.firstUnfixed) → Next .boundaryFix s fun t =>
          t.pit = { u.pit with fixed := s.pit.fixed ++ [⟨s.firstUnfixed, s.fixDue, s.lastPeriod, none, none, none⟩], resumeAt := none }
            ∧ Only [.pit, .out] u t)
      ∧ (s.pit.stopAfter = true → Next .boundaryFix s (· = s))
      ∧ (∀ (f : FixedB) (l : List FixedB), s.pit.fixed = f :: l →
        (s.rec_.st ≠ .replay ∨ f.at ≤ s.now → Next .tickBoundary s fun t => t.pit.tick = f.k % 2 ^ 48 ∧ t.pit.bk = f.at % 2 ^ 64
          ∧ t.pit.period = f.period ∧ t.pit.fixed = l ∧ t.pit.current = (match f.plan with
            | some p => p
            | none => s.pit.current))
        ∧ (s.rec_.st = .replay → s.now < f.at → Next .tickBoundary s (· = s)))
      ∧ (s.pit.fixed = [] → Next .tickBoundary s (· = s)))
  ∧ (∀ (s : State) (w : WinId) (x : Window), s.pit.current.windows[w.val]? = some x → s.serving = true → s.started = true →
      (∀ u, s.pit.running = true → s.pit.openWin.getLsbD w.val = false → s.offset < x.close → u = s.reach (s.pit.bk + x.opn) →
        Next (.windowOpen w) s fun t => t.pit = { u.pit with openWin := u.pit.openWin ||| 1#32 <<< w.val } ∧ Only [.pit, .fab, .sys, .out] u t)
      ∧ (s.pit.openWin.getLsbD w.val = false → Next (.windowClose w) s (· = s))
      ∧ (s.pit.openWin.getLsbD w.val = true → Next (.windowClose w) s fun t => t.pit.openWin = s.pit.openWin &&& ~~~ (1#32 <<< w.val)
        ∧ t.pit.admitWin = s.pit.admitWin &&& ~~~ (1#32 <<< w.val) ∧ t.now = (s.reach (s.pit.bk + x.close)).now)
      ∧ (s.pit.openWin.getLsbD w.val = true → Next (.admissionIntervalOpen w) s fun t =>
        t.pit.admitWin = s.pit.admitWin ||| 1#32 <<< w.val ∧ t.pit.openWin = s.pit.openWin
          ∧ t.now = (s.reach (s.pit.bk + x.opn + x.guard)).now)
      ∧ (∀ (n : Fin 4) (y : Nat × Nat) (e : Nat) (u : State), s.pit.pulses.find? (fun z => z.1 = n.val) = some y →
        e = y.2 + s.rd R.TIK_OUT_WIDTH n.val → u = s.reach e → Next (.tickOutPulseEnd n) s fun t =>
          t.pit = { u.pit with pulses := u.pit.pulses.filter fun z => z.1 ≠ n.val } ∧ Only [.pit, .sys, .out] u t
            ∧ (u.rd R.TIK_OUT_MODE n.val ≠ 3 → u.sys.tickOut.getLsbD n.val = true →
              t.sys = { u.sys with tickOut := u.sys.tickOut &&& ~~~ (1#4 <<< n.val) }
                ∧ t.out = .tickOut n.val false ((e : Int) + signedBits (u.rd R.TIK_OUT_DLY_ADJ n.val) 8) :: u.out))
      ∧ (∀ n : Fin 4, s.pit.pulses.find? (fun z => z.1 = n.val) = none → Next (.tickOutPulseEnd n) s (· = s)))

/-- Records of a boundary (R534 to R537, R690): a snapshot is queued once with what was latched; a bandwidth window that has run its ticks
begins anew; an hour's record starts the next hour. A record of a domain without a statistics ring is counted in PMC_NOSTAT. -/
def Obligations.BoundaryRecords : Prop :=  ∀ s : State, s.serving = true →
    (∀ (d : Fin 4096) (i v : Nat) (c : Counter), i < 1024 → c = Tab.get counterAt s.host.counters (d.val * 1024 + i) → c.snapAt = some v →
      s.statRing d.val = none → Next (.counterSnapshot d i) s fun t =>
        Tab.get counterAt t.host.counters (d.val * 1024 + i) = { c with snap := v, snapAt := none }
          ∧ (∀ k, k ≠ d.val * 1024 + i → Tab.get counterAt t.host.counters k = Tab.get counterAt s.host.counters k)
          ∧ t.rd R.PMC_NOSTAT_COUNT = min (2 ^ R.PMC_NOSTAT_COUNT.width - 1) (s.rd R.PMC_NOSTAT_COUNT + 1) ∧ Only [.host, .regs] s t)
    ∧ (∀ (d : Fin 4096) (i v n : Nat) (c : Counter) (r : Ring), i < 1024 → c = Tab.get counterAt s.host.counters (d.val * 1024 + i) →
      c.snapAt = some v → s.statRing d.val = some (n, r) → r.state = .active → r.dropped = 0 → r.freeEntries ≠ 0 → s.ring n = some r →
      s.hostAllows r.domain r.space r.port (r.base + 32 * (r.prod % 2 ^ r.log2n)) needW = true → Next (.counterSnapshot d i) s fun t =>
        .stat n r.prod [1 + 0x0010 * 2 ^ 16 + i * 2 ^ 32 + c.sel * 2 ^ 48 + (if c.level then 2 ^ 56 else 0),
          (s.pit.tick - 1) % 2 ^ 48 + d.val * 2 ^ 48, v, (v + 2 ^ 48 - c.snap) % 2 ^ 48] ∈ t.out
          ∧ ∃ q, t.ring n = some q ∧ q.prod = (r.prod + 1) % 2 ^ 32)
    ∧ (∀ (d : Fin 4096) (i : Nat), (Tab.get counterAt s.host.counters (d.val * 1024 + i)).snapAt = none → Next (.counterSnapshot d i) s (· = s))
    ∧ (∀ (p : PortId) (b : BwWin), b = Tab.get bwAt s.host.bw p.val → b.ntick ≠ 0 → b.ntick ≤ b.count → s.statRing 0 = none → s.img.hold = false →
      Next (.bwWindowClose p) s fun t => Tab.get bwAt t.host.bw p.val = { b with
          ntick := if b.next = 0 then b.ntick else b.next,
          next := 0, start := s.pit.tick, count := 0, rx := 0, tx := 0, rxPeak := 0, txPeak := 0, down := false }
        ∧ t.rd R.PMC_NOSTAT_COUNT = min (2 ^ R.PMC_NOSTAT_COUNT.width - 1) (s.rd R.PMC_NOSTAT_COUNT + 1) ∧ Only [.host, .regs] s t)
    ∧ (s.pit.bk / hourNs = s.sys.life.hour → Next .healthRecord s (· = s))
    ∧ (s.pit.bk / hourNs ≠ s.sys.life.hour → Next .healthRecord s fun t => t.sys = { s.sys with life := { Life.init with hour := s.pit.bk / hourNs } }
      ∧ t.pit = s.pit
      ∧ (s.statRing 0 = none → t.rd R.PMC_NOSTAT_COUNT = min (2 ^ R.PMC_NOSTAT_COUNT.width - 1) (s.rd R.PMC_NOSTAT_COUNT + 1)))
    ∧ (∀ (age margin : List Nat) (e : Nat) (u : State), s.started = true → e = s.multipleDue s.sys.ageAt secondNs → u = s.reach e →
      Next (.ageingSample age margin) s fun t => t.sys = { u.sys with
        ageAt := e,
        life := { u.sys.life with
          age := keepMore (fun a b => b < a) u.sys.life.age (extreme (fun a b => b < a) age),
          slack := keepMore (fun a b => a < b) u.sys.life.slack (extreme (fun a b => a < b) margin) } } ∧ Only [.sys] u t)

/-- Bellows' own events (R448 to R455, R469, R624, R694): an interval lasts 1 µs and ends before the boundary that it would cross, and in
start-up step 5 the power rises by no more than 15 W in one; the temperature is the highest reading, WARN holds it in ALERT_N; a good
reading of the regulator that is due moves κ an eighth of the way, within its limits. -/
def Obligations.PowerEvents : Prop :=  ∀ s : State,
    (s.sys.corePower = true → 8 < s.rd R.GLB_START_PHASE_STEP →
      (s.bel.start + 1000 < s.pit.bk + s.pit.period → Next .bellowsInterval s fun t =>
        t.bel.start = t.now ∧ t.now = (s.reach (s.bel.start + 1000)).now ∧ t.bel.temp = s.bel.temp ∧ t.bel.kappa = s.bel.kappa)
      ∧ (s.pit.bk + s.pit.period ≤ s.bel.start + 1000 → Next .bellowsInterval s (· = s)))
    ∧ (∀ u, s.sys.corePower = true → s.rd R.GLB_START_PHASE_STEP = 5 → u = s.reach (s.bel.start + 1000) → Next .bellowsInterval s fun t =>
      t.bel.prevCore ≤ s.bel.prevCore + 15000 ∧ t.bel.start = u.now ∧ t.bel.g = s.bel.g ∧ Only [.bel, .free] u t)
    ∧ (∀ (q : Int) (l : List Int) (e : Nat), s.sys.corePower = true → s.flt.safe = false → (∀ x ∈ l, x ≤ q) →
      e = s.multipleDue s.bel.tempAt 10000 →
      (q ≤ 412 → q < 4 * (s.blw R.BLW_THERM_TRIP : Int) - 8 → q < 4 * (s.blw R.BLW_THERM_WARN : Int) - 8 →
        Next (.tempSample (q :: l)) s fun t => t.bel.temp = q ∧ t.bel.warn = false ∧ t.bel.hot = false ∧ t.sys.alertN = true
          ∧ t.bel.g = s.bel.g ∧ t.bel.tempAt = e ∧ t.now = (s.reach e).now ∧ t.flt.safe = false)
      ∧ (4 * (s.blw R.BLW_THERM_TRIP : Int) ≤ q → s.flt.onset.contains (0x402, 0) = false → Next (.tempSample (q :: l)) s fun t =>
        t.bel.temp = q ∧ t.flt.safe = true ∧ t.rd R.FLT_LAST_CAUSE = 0x402))
    ∧ (s.started = true → s.flt.safe = false → s.blw R.BLW_CAL_EN = 1 →
      (∀ mv ma p : Nat, s.bel.calDue = true → s.bel.calSpan ≠ 0 → p = s.bel.calSum / s.bel.calSpan → p ≠ 0 →
        Next (.regulatorReading (some mv) (some ma)) s fun t =>
          t.bel.kappa = kappaNext s.bel.kappa (mv * ma / 1000) p ∧ t.bel.calFails = 0 ∧ t.bel.calSum = 0 ∧ t.bel.calSpan = 0
            ∧ t.bel.calDue = false ∧ t.bel.calAt = s.now
            ∧ .pmbus (s.blw R.BLW_CAL_ADDR) (s.blw R.BLW_CAL_PAGE) 0x8B (some mv) ∈ t.out
            ∧ .pmbus (s.blw R.BLW_CAL_ADDR) (s.blw R.BLW_CAL_PAGE) 0x8C (some ma) ∈ t.out)
      ∧ (∀ ma : Option Nat, s.bel.calDue = true → s.bel.calFails + 1 ≠ 3 → Next (.regulatorReading none ma) s fun t =>
        t.bel = { s.bel with
            calDue := false, calAt := s.now, calFails := s.bel.calFails + 1, calHeld := s.bel.calHeld || 3 ≤ s.bel.calFails + 1 }
          ∧ t.rd R.BLW_CAL_FAIL_COUNT = min (2 ^ R.BLW_CAL_FAIL_COUNT.width - 1) (s.rd R.BLW_CAL_FAIL_COUNT + 1))
      ∧ (∀ mv ma : Option Nat, s.bel.calDue = false → Next (.regulatorReading mv ma) s (· = s)))

/-! ### Recorder, replay, images (spec 15, 16, 17) -/

/-- Fault commands and monitors (R538, R544, R547, R548, R551): one entry or a class is cleared; FAULT_N may rise again 10 µs after its
fall; a lost clock or supply enters the safe state with its own cause. -/
def Obligations.FaultCommands : Prop :=  ∀ s : State,
    (∀ (h : Hdr) (i : Byte) (e : FltEntry), Admitted h [] s → s.fltEntry i.toNat = some e → e.cause ≠ 0x307 →
      Completes (.faultClear h i) h {} s fun u => u.fltEntry i.toNat = none ∧ (∀ j, j ≠ i.toNat → u.fltEntry j = s.fltEntry j)
        ∧ Only [.flt, .pit] s u)
    ∧ (∀ (h : Hdr) (i : Byte), Admitted h [] s → s.fltEntry i.toNat = none → Completes (.faultClear h i) h {} s (· = s))
    ∧ (∀ (h : Hdr) (c : BitVec 3), Admitted h [] s → 1 ≤ c.toNat → c.toNat ≤ 4 → Completes (.faultClearAll h c) h {} s fun u =>
      ∀ j, j < 256 → u.fltEntry j = none ∨ ∃ e, u.fltEntry j = some e ∧ s.fltEntry j = some e ∧ causeClass e.cause ≠ c.toNat)
    ∧ (∀ (h : Hdr) (c : BitVec 3), Admitted h [] s → c = 0 ∨ 4 < c.toNat → Completes (.faultClearAll h c) h { status := .badDesc, code := 0x13 } s
      (· = s))
    ∧ (∀ u, s.flt.hold = true → u = s.reach (s.flt.fellAt + 10000) → u.flt.faultN = true → Next .faultnHoldExpire s fun t =>
      t.flt = { u.flt with hold := false, faultN := u.faultReason } ∧ Only [.flt] u t)
    ∧ (s.flt.hold = false → Next .faultnHoldExpire s (· = s))
    ∧ (s.sys.corePower = true → s.flt.safe = false → Next .clockMonitorLoss s fun t => t.flt.safe = true ∧ t.rd R.FLT_LAST_CAUSE = 0x404
      ∧ t.rd R.GLB_CLK_PLL_LOCK = 0 ∧ t.sys.oscOnly = true ∧ t.fab.msgs = [] ∧ t.rec_.frozen = true)
    ∧ (s.sys.corePower = true → s.flt.safe = false → Next .supplyMonitorFault s fun t => t.flt.safe = true ∧ t.rd R.FLT_LAST_CAUSE = 0x405
      ∧ t.fab.msgs = [] ∧ t.rec_.frozen = true ∧ t.now = (s.reach (s.now + 1000)).now)

/-- A recording begins (R571, R572, R573): REC_START stores what it is to record; the quiesce starts at its instant with messages held; at
its point the record takes the next ID and its sections go to the sink; when they are out it runs, and REC_START completes with the ID and
the pause. A quiesce that lasts too long ends without a record. A recording in progress and its end (R569, R580, R582, R584, R585): spans of
4,096 CCLK, spills of 64 bytes that gap on an error, marks of the partners, REC_STOP. -/
def Obligations.Recording : Prop :=
  ((∀ (h : Hdr) (w10 w18 w20 w28 w38 : Word) (l : List Word32) (s : State) (k : Nat), Admitted h [bits w28.toNat 16 12] s →
      k = (if flag w38.toNat 63 then s.pit.tick + 1 else bits w38.toNat 0 48) → s.recRefused (recCfgOf h w10.toNat w18.toNat w20.toNat w28.toNat k []) = false →
      Next (.recStart h w10 w18 w20 w28 0 w38 l) s fun t =>
        t.rec_ = { s.rec_ with cfg := some (recCfgOf h w10.toNat w18.toNat w20.toNat w28.toNat k []) } ∧ Only [.recorder] s t)
    ∧ (∀ (s u : State) (c : RecCfg), s.serving = true → s.rec_.cfg = some c →
      (s.rec_.st = .idle → s.pit.tick = c.tick → u = s.reach (s.pit.bk + c.offset) → s.slotBusy = false → c.wins = [] → HomeQuiet s →
        Next .recQuiesceStart s fun t =>
          t.rec_.st = .quiesce ∧ t.rec_.hold = true ∧ t.rec_.qStart = u.now ∧ t.rec_.epochQ = s.openEpoch.fab.epoch ∧ t.rec_.cfg = some c)
      ∧ (s.pit.tick < c.tick → Next .recQuiesceStart s (· = s))
      ∧ (s.rec_.st = .quiesce → s.drainedTo s.rec_.epochQ = true → s.homesQuiet = true → s.columnsEmpty = true → s.walkOwes c = false → c.wrap = true →
        u = s.reach (s.rec_.qStart + walkNs) →
        Next .recQuiescePoint s fun t => t.rec_.st = .sections ∧ t.rec_.id = (s.rec_.id + 1) % 2 ^ 32 ∧ t.rec_.buf = [] ∧ t.rec_.chunk = []
          ∧ t.rec_.first = t.rec_.written ∧ t.rec_.hold = s.rec_.hold ∧ t.rec_.cfg = some c ∧ Only [.recorder, .out] u t)
      ∧ (s.rec_.st = .quiesce → s.columnsEmpty = false → Next .recQuiescePoint s (· = s))
      ∧ (s.rec_.st = .sections → s.rec_.hold = true → EnginesRest s → Completes .recSectionsDone c.hdr
          { result := s.rec_.id + (s.now - s.rec_.qStart) / 1000 % 2 ^ 32 * 2 ^ 32 } s fun x => x.rec_.st = .recording ∧ x.rec_.hold = false)
      ∧ (s.rec_.st = .quiesce → u = s.reach (s.rec_.qStart + 1000 * s.rd R.REC_CTRL_QLIMIT_US) → EnginesRest u →
        Completes .recQlimitExpire c.hdr { status := .busy } s fun x => x.rec_.st = .idle ∧ x.rec_.cfg = none ∧ x.rec_.hold = false ∧ x.rec_.walked = false)))
  ∧ ((∀ s u : State, s.serving = true → s.rec_.st.takes = true → (s.rec_.span + 1) * 2560 < s.pit.period →
      u = s.reach (s.pit.bk + (s.rec_.span + 1) * 2560) → Next .digestSpanEnd s fun t =>
      t.rec_.span = s.rec_.span + 1 ∧ t.rec_.digests = [] ∧ Only [.recorder, .regs] u t)
    ∧ (∀ s : State, s.pit.period ≤ (s.rec_.span + 1) * 2560 → Next .digestSpanEnd s (· = s))
    ∧ (∀ (s : State) (c : RecCfg) (a : Nat), s.rec_.cfg = some c → s.serving = true → s.rec_.st = .recording → 8 ≤ s.rec_.buf.length →
      s.rec_.frozen = false → a = c.base + s.sinkPlace c s.rec_.written → refusedParts (s.decide c.domain 0 0 needW [a]) = [] →
      (c.wrap = true ∨ s.rec_.written + 64 < c.room → Next (.spillWriteComplete .ok) s fun t =>
        t.rec_ = { s.rec_ with buf := s.rec_.buf.drop 8, used := s.rec_.used - 64, written := s.rec_.written + 64 }
          ∧ t.out.head? = some (.sink a (s.rec_.buf.take 8)))
      ∧ (∀ x : RspStatus, x ≠ .ok → Next (.spillWriteComplete x) s fun t => t.rec_.buf = s.rec_.buf.drop 8 ∧ t.rec_.used = s.rec_.used - 64
        ∧ t.rec_.written = s.rec_.written ∧ t.rec_.st = .gap ∧ t.rec_.gap = true ∧ t.rec_.gapLost = 64 ∧ t.rec_.gaps = s.rec_.gaps + 1))
    ∧ (∀ (s : State) (p : PortId) (v : Word32) (tag : BitVec 16), s.started = true → s.recPort (s.lowest p.val) = false → Next (.recMarkRx p v tag) s (· = s))
    ∧ (∀ (s : State) (p : PortId) (v : Word32) (tag : BitVec 16) (i : RecItem) (r : Rec), s.started = true → (s.portN (s.lowest p.val)).negVer = 3 →
      (s.portN (s.lowest p.val)).state.linked = true → s.recPort (s.lowest p.val) = true → s.rec_.st.takes = true → s.rec_.frozen = false →
      s.rec_.used + 16 ≤ recBufBytes → i = ⟨0x0B, s.lowest p.val, 0, s.cclkInTick, [v.toNat + tag.toNat * 2 ^ 32], 16⟩ → r = s.rec_.cut s.pit.tick i →
      Next (.recMarkRx p v tag) s fun t => t.rec_ = { r with used := r.used + 16, high := max r.high (r.used + 16) } ∧ Only [.recorder, .regs] s t)
    ∧ (∀ (s : State) (h : Hdr), Admitted h [] s →
      (s.rec_.st.captures = true → s.rec_.hold = false → Next (.recStop h) s fun t => ∃ u : State,
        u.rec_.st = .idle ∧ u.rec_.cfg = none ∧ u.rec_.buf = [] ∧ u.rec_.endCause = 0 ∧ s.rec_.written ≤ u.rec_.written
          ∧ t = u.complete h { status := if u.rec_.gap then .gap else .ok, result := u.rec_.written })
      ∧ (s.rec_.st = .quiesce → Completes (.recStop h) h { status := .busy } s (· = s))
      ∧ (s.rec_.st = .idle → s.rec_.hold = false → Completes (.recStop h) h { status := .denied } s (· = s))))

/-- Replay (R586 to R590): an acceptable record is loaded and stands at its first tick; a span that agrees goes on to the next; one that
differs, a gap and the end of the record end the replay with its report. Injection (R557 to R562): in check mode nothing that the device
holds is touched; LIVE must be allowed, and an uncorrectable error of an unlocked rule leaves the rule dead. -/
def Obligations.ReplayAndInjection : Prop :=
  ((∀ (s r u : State) (h : Hdr) (a b : Word) (n : Nat) (rec : List Word), Admitted h [] s → ObjectOk h ⟨1, Fin.ofNat 64 s.mgrPort, a⟩ n needR s →
      r = s.objectRead h ⟨1, Fin.ofNat 64 s.mgrPort, a⟩ n needR → ObjectOk h ⟨1, Fin.ofNat 64 s.mgrPort, b⟩ 64 needW r →
      u = r.objectRead h ⟨1, Fin.ofNat 64 s.mgrPort, b⟩ 64 needW →
      (recordSound (rec.take (n / 8)) = true → u.replayRefused (rec.take (n / 8)) = false → u.rec_.st = .idle →
        Next (.recReplay h a n rec b) s fun t => t.rec_.st = .replay ∧ t.rec_.replay = some h ∧ t.rec_.id = field (rec.take (n / 8)) 0x0C 32
          ∧ t.pit.ftime = wordAt (rec.take (n / 8)) 5 + field (rec.take (n / 8)) 0x34 32 * 5 / 8 ∧ t.pit.fixed = [] ∧ t.rec_.replayed = 0
          ∧ t.rec_.report = b.toNat)
      ∧ (recordSound (rec.take (n / 8)) = true → u.replayRefused (rec.take (n / 8)) = true →
        Completes (.recReplay h a n rec b) h { status := .denied } s (· = u)))
    ∧ (∀ (s : State) (h : Hdr), s.rec_.st = .replay → s.rec_.replay = some h →
      (s.spanOver = true → s.replayOutcome = none → Next .replaySpanEnd s fun t =>
        t.rec_ = { s.rec_ with span := s.rec_.span + 1, digests := [], want := [], spanOff := none } ∧ Only [.recorder] s t)
      ∧ (∀ (code unit : Nat) (want seen : Digest), s.spanOver = true ∨ s.rec_.feed = [] → s.replayOutcome = some (code, unit, want, seen) →
        Completes .replaySpanEnd h { result := code } s fun x => x.rec_ = { s.rec_ with st := .replayEnded, replay := none, feed := [] }
          ∧ x.out.head? = some (.hostWrite 1 s.mgrPort s.rec_.report (s.replayReport code unit want seen)) ∧ Only [.recorder, .out] s x)
      ∧ (s.spanOver = false → s.rec_.feed ≠ [] → (s.feedNow.any fun x => x.item.isNone) = false → Next .replaySpanEnd s (· = s))))
  ∧ (∀ (h : Hdr) (w : Word) (d c : BitVec 16) (s : State), Admitted h [] s →
      (injectBad w.toNat = none → (injectOf w.toNat).live = false → s.injectBusy (injectOf w.toNat) = false → Next (.faultInject h w d c) s fun t =>
        Only [.regs, .host, .flt, .img, .out, .free] s t)
      ∧ (∀ b : InjectBody, b = injectOf (w ||| 2 ^ 28).toNat → injectBad (w ||| 2 ^ 28).toNat = none →
        (s.rd R.FLT_CTRL_INJ_LIVE = 0 → Completes (.faultInjectLive h w d c) h { status := .denied } s (· = s))
        ∧ (∀ (k : Nat) (r : Rule), s.rd R.FLT_CTRL_INJ_LIVE = 1 → b.checker = 0x0B → b.two = true → b.count = 1 → d ≠ 0 → s.ruleAt b.word = some k →
          s.rule k = some r → r.lock = false → Next (.faultInjectLive h w d c) s fun t =>
            t.rule k = some { r with dead := true } ∧ ∀ j, j ≠ k → t.rule j = s.rule j)))

/-- Staging (R601): an image that passes goes to the slot that is not running, which is not valid while it is written; a read-back that
matches makes it valid. Care of the flash (R617 to R619): powered hours, the retention check, the rewrite of an aged slot. -/
def Obligations.ImageStaging : Prop :=
  ((∀ (s r : State) (h : Hdr) (i : Word32) (o : HRef) (w : List Word), Admitted h [] s → i.toNat < 2 → firstBad o.bad = none → i.toNat ≠ s.runSlot →
      s.imageIdle = true → ObjectOk h o (imageSpan w) needR s → r = s.objectRead h o (imageSpan w) needR →
      (r.imageFails w = none → Next (.imageStage h i o w) s fun t => t.img.phase = .staging ∧ t.img.stage = some (h, i.toNat, w)
        ∧ t.img.bytesOf i.toNat = none ∧ t.img.running = r.img.running ∧ t.img.bytesOf (1 - i.toNat) = r.img.bytesOf (1 - i.toNat))
      ∧ (∀ c : Cpl, r.imageFails w = some c → Completes (.imageStage h i o w) h c s fun u => u.img = { r.img with code := c.code % 256 } ∧ Only [.img] r u))
    ∧ (∀ (s : State) (h : Hdr) (n : Nat) (w : List Word), s.serving = true → n < 2 → s.img.stage = some (h, n, w) →
      (Completes (.stageProgramEnd true) h {} s fun u => u.img.phase = .idle ∧ u.img.stage = none ∧ u.img.bytesOf n = some w
        ∧ .flash (slotAddr n) (w.map BitVec.toNat) ∈ u.out ∧ Only [.img, .out] s u)
      ∧ Completes (.stageProgramEnd false) h { status := .denied, code := 9 } s fun u => u.img.phase = .idle ∧ u.img.stage = none ∧ u.img.code = 9
        ∧ u.img.bytesOf n = s.img.bytesOf n ∧ Only [.img] s u)
    ∧ (∀ s : State, s.serving = true → s.img.stage = none → ∀ b, Next (.stageProgramEnd b) s (· = s)))
  ∧ ((∀ (s u : State) (d : Nat) (x : Selector), s.started = true → d = s.multipleDue s.img.hoursAt dayNs → u = s.reach d → u.img.sel = some x →
      u.img.selCopy = some 0 → Next .poweredHours s fun t =>
      t.img = { u.img with hoursAt := d, sels := u.img.sels.set 1 (some { x with hours := (x.hours + 1) % 2 ^ 32, seq := (x.seq + 1) % 2 ^ 32 }) }
        ∧ Only [.img, .out] u t)
    ∧ (∀ s : State, s.serving = true → s.img.phase ≠ .staging → s.img.checked = false →
      (∀ i w, s.img.bytesOf i = some w → imageBad w = none) →
      (Next (.retentionCheck false false false false) s fun t => t.img = { s.img with checked := true, checkAt := s.now } ∧ Only [.img] s t)
      ∧ (∀ x : Selector, s.img.sel = some x → x.validA = true → s.runSlot = 0 → Next (.retentionCheck false false true false) s fun t =>
        t.img.retErr = true ∧ t.img.slotA = s.img.slotA.map spoiled ∧ t.img.slotB = s.img.slotB
          ∧ t.rd R.IMG_RET_ERR_COUNT = min (2 ^ R.IMG_RET_ERR_COUNT.width - 1) (s.rd R.IMG_RET_ERR_COUNT + 1) ∧ Only [.img, .regs] s t))
    ∧ (∀ (s : State) (a b c d : Bool), s.img.checked = true → s.bit R.IMG_CTRL_RET_EN = false → Next (.retentionCheck a b c d) s (· = s))
    ∧ (∀ s : State, s.serving = true → s.runSlot = 0 →
      (s.aged 0 = false → s.aged 1 = true → s.imageIdle = true → Next .slotRefresh s fun t => t.img = { s.img with phase := .refresh, refresh := some 1 }
        ∧ Only [.img] s t)
      ∧ (s.aged 0 = true → s.aged 1 = false → Next .slotRefresh s fun t => t.img = { s.img with refreshDue := true } ∧ Only [.img] s t)
      ∧ (s.img.refresh = none → Next .slotRefreshEnd s (· = s)))
    ∧ (∀ (s : State) (i : Nat), s.serving = true → s.img.refresh = some i → Next .slotRefreshEnd s fun t => t.img.phase = .idle ∧ t.img.refresh = none
      ∧ .flash (slotAddr i) (((s.img.bytesOf i).getD []).map BitVec.toNat) ∈ t.out
      ∧ t.rd R.IMG_REFRESH_COUNT = min (2 ^ R.IMG_REFRESH_COUNT.width - 1) (s.rd R.IMG_REFRESH_COUNT + 1) ∧ Only [.img, .regs, .out] s t))

/-- Activation up to the pause (R602, R606, R607): verify, drain, pause. An image that fails ends it, as a drain of 2 ms does; nothing has
changed then. -/
def Obligations.ActivationDrains : Prop :=  (∀ (s : State) (h : Hdr) (w10 w18 : Word), Admitted h [] s → s.imageIdle = true → bits w18.toNat 56 1 ≠ s.runSlot →
    (activateBad w10.toNat w18.toNat = none → Next (.imageActivate h w10 w18) s fun t => t.img.phase = .verify ∧ Only [.img] s t
      ∧ ∃ a, t.img.act = some a ∧ a.hdr = some h ∧ a.slot = bits w18.toNat 56 1 ∧ a.cold = flag w18.toNat 48 ∧ a.started = s.now
        ∧ a.tick = (if flag w10.toNat 63 then s.pit.tick + 1 else bits w10.toNat 0 48) ∧ a.offset = bits w18.toNat 0 22)
    ∧ (activateBad w10.toNat (w18 ||| 2 ^ 48).toNat = none → Next (.imageActivateCold h w10 w18) s fun t => t.img.phase = .verify ∧ Only [.img] s t
      ∧ ∃ a, t.img.act = some a ∧ a.hdr = some h ∧ a.cold = true))
  ∧ (∀ (s u : State) (a : Act), s.serving = true → s.img.act = some a →
    (s.img.phase = .verify → u = s.reach (a.started + readNs s.nextImage) → u.slotFails a.slot = none → Next .activateVerifyEnd s fun t =>
      t.img = { u.img with phase := .drain } ∧ Only [.img] u t)
    ∧ (∀ (h : Hdr) (x : Cpl), s.img.phase = .verify → u = s.reach (a.started + readNs s.nextImage) → (u.img.act.bind fun b => b.hdr) = some h →
      u.slotFails a.slot = some x → Completes .activateVerifyEnd h x s fun v =>
        v.img = { u.img with phase := .idle, act := none, hold := false, code := x.code % 256 } ∧ Only [.img] u v)
    ∧ (s.img.phase ≠ .verify → Next .activateVerifyEnd s (· = s))
    ∧ (s.drainOwed = true → a.tries = 0 → s.pit.tick = a.tick → u = s.reach (s.pit.bk + a.offset) → s.rec_.st = .idle → Next .activateDrainStart s fun t =>
      t.img = { u.img with hold := true, act := u.img.act.map fun b => { b with started := u.now, paused := false } } ∧ Only [.img] u t)
    ∧ (s.pit.tick < a.tick → Next .activateDrainStart s (· = s))
    ∧ (s.img.hold = true → a.paused = false → a.cold = false → s.drained = true → s.img.phase = .drain → Next .activateDrained s fun t =>
      t.img = { s.img with phase := .pause, drainUs := (s.now - a.started) / 1000, act := some { a with paused := true, pauseAt := s.now } }
        ∧ Only [.img] s t)
    ∧ (s.drained = false → Next .activateDrained s (· = s))
    ∧ (∀ h : Hdr, s.img.hold = true → a.paused = false → u = s.reachDrainEnd a → u.img.phase = .drain → (u.img.act.bind fun b => b.hdr) = some h →
      EnginesRest u → Completes .activateDrainTimeout h { status := .busy } s fun v => v.img.phase = .idle ∧ v.img.act = none ∧ v.img.hold = false
        ∧ v.img.running = u.img.running ∧ v.tabs.wins = u.tabs.wins)
    ∧ (s.img.phase = .fallback → s.img.hold = false → a.tries ≠ 0 → a.tries < 64 → s.pit.tick = a.tick → u = s.reach (s.pit.bk + a.offset) →
      s.rec_.st = .idle → Next .fallbackDrainRetry s fun t =>
        t.img = { u.img with hold := true, act := u.img.act.map fun b => { b with started := u.now, paused := false } } ∧ Only [.img] u t)
    ∧ (s.img.phase = .fallback → s.img.hold = false → 64 ≤ a.tries → Next .fallbackDrainRetry s fun t => t.rd R.GLB_START_CAUSE = 6
      ∧ t.rd R.GLB_START_PHASE_STEP = 2))

/-- Pause, trial and confirmation (R603, R608 to R612): a pause whose load is refused ends the activation, one whose load is done runs the
new image; a cold one starts cold when its windows are empty; a trial that no criterion fails is confirmed, by IMAGE_CONFIRM or at its end
by itself. -/
def Obligations.Trials : Prop :=  ∀ (s u : State) (a : Act), s.serving = true → s.img.act = some a →
    (∀ (h : Hdr) (x : Cpl), s.img.phase = .pause → a.paused = true → a.cold = false → a.evict = [] →
      u = s.reach (a.pauseAt + readNs s.nextImage + 5 * recordsWritten s.img.running s.nextImage) → u.img.phase = .pause →
      (u.img.act.bind fun b => b.hdr) = some h → u.pauseLoad a = .inl x → EnginesRest u →
      Completes .activatePauseEnd h x s fun v => v.img.phase = .idle ∧ v.img.act = none ∧ v.img.hold = false ∧ v.img.running = u.img.running)
    ∧ (∀ v : State, s.img.phase = .pause → a.paused = true → a.cold = false → a.evict = [] →
      u = s.reach (a.pauseAt + readNs s.nextImage + 5 * recordsWritten s.img.running s.nextImage) → u.pauseLoad a = .inr v →
      Next .activatePauseEnd s (· = v.resume a s.nextImage))
    ∧ (s.img.phase = .pause → a.paused = true → a.cold = true → s.evicting a = false → Next .activatePauseEnd s fun t =>
      t.rd R.GLB_START_CAUSE = 5 ∧ t.rd R.GLB_START_PHASE_STEP = 2)
    ∧ (s.img.phase = .pause → a.paused = true → a.cold = true → s.evicting a = true → Next .activatePauseEnd s (· = s))
    ∧ (∀ (h : Health) (k : Hdr), s.img.phase = .trial → s.failedNow = none → u = s.reach (a.trialAt + a.windowS * 1000000000) →
      u.failedAtEnd = none → u.img.health = some h → h.self = true → (∀ i, u.img.running = some i → i.svnCommit = false) →
      (u.img.act.bind fun b => b.hdr) = some k →
      Completes .trialWindowEnd k {} s fun v => v.img.phase = .idle ∧ v.img.act = none ∧ v.img.fused = u.img.fused ∧ Only [.img, .out] u v)
    ∧ (∀ b : Act, s.img.phase = .trial → s.failedNow = none → u = s.reach (a.trialAt + a.windowS * 1000000000) → u.img.health = none →
      u.img.act = some b → b.hdr = none →
      Next .trialWindowEnd s fun t => t.img.phase = .fallback ∧ ∃ c, t.img.act = some c ∧ c.slot = b.prev)
    ∧ (∀ k : Hdr, Admitted k [] s → s.img.phase = .trial → s.failedAtEnd = none → a.hdr = none →
      (∀ i, s.img.running = some i → i.svnCommit = false) → Completes (.imageConfirm k) k {} s fun v =>
        v.img.phase = .idle ∧ v.img.act = none ∧ v.img.fused = s.img.fused ∧ Only [.img, .out] s v)
    ∧ (∀ k : Hdr, Admitted k [] s → s.img.phase ≠ .trial → Completes (.imageConfirm k) k { status := .denied } s (· = s))
end

