-- ==== Sys2Proof/Laws/Tab.lean ====
section
/-! SUPPORT. Laws of sparse tables and of memory: read after write, and that every operation keeps the canonical form. -/

namespace Sys2Proof.Machine

variable {α : Type} {d : Nat → α} {t : Tab α} {k j n : Nat} {v : α}

/-! ### Reading after writing -/

theorem Tab.get_insert_same : Tab.get d (Tab.insert t k v) k = v := by
  induction t with
  | nil => simp [Tab.insert, Tab.get]
  | cons e t ih =>
    obtain ⟨i, a⟩ := e
    unfold Tab.insert
    split
    · simp [Tab.get]
    · split
      · simp [Tab.get]
      · simp [Tab.get, *]

theorem Tab.get_insert_other (h : j ≠ k) : Tab.get d (Tab.insert t k v) j = Tab.get d t j := by
  induction t with
  | nil => simp [Tab.insert, Tab.get, Ne.symm h]
  | cons e t ih =>
    obtain ⟨i, a⟩ := e
    unfold Tab.insert
    split
    · simp [Tab.get, Ne.symm h]
    · split
      · subst_vars; simp [Tab.get, Ne.symm h]
      · simp [Tab.get, ih]

theorem Tab.get_erase_same : Tab.get d (Tab.erase t k) k = d k := by
  induction t with
  | nil => rfl
  | cons e t ih =>
    obtain ⟨i, a⟩ := e
    unfold Tab.erase
    split
    · exact ih
    · simp [Tab.get, *]

theorem Tab.get_erase_other (h : j ≠ k) : Tab.get d (Tab.erase t k) j = Tab.get d t j := by
  induction t with
  | nil => rfl
  | cons e t ih =>
    obtain ⟨i, a⟩ := e
    unfold Tab.erase
    split
    · subst_vars; rw [ih]; simp [Tab.get, Ne.symm h]
    · simp [Tab.get, ih]

section
variable [DecidableEq α]

/-- Keys below the least listed key read as the default. -/
theorem Tab.get_of_wfFrom (h : Tab.wfFrom d n t = true) (hk : k < n) : Tab.get d t k = d k := by
  induction t generalizing n with
  | nil => rfl
  | cons e t ih =>
    obtain ⟨i, a⟩ := e
    simp only [Tab.wfFrom, Bool.and_eq_true, decide_eq_true_eq] at h
    unfold Tab.get
    rw [if_neg (by omega)]
    exact ih h.2 (by omega)

theorem Tab.wfFrom_mono {m : Nat} (h : Tab.wfFrom d n t = true) (hm : m ≤ n) : Tab.wfFrom d m t = true := by
  cases t with
  | nil => rfl
  | cons e t =>
    obtain ⟨i, a⟩ := e
    simp only [Tab.wfFrom, Bool.and_eq_true, decide_eq_true_eq] at h ⊢
    exact ⟨⟨by omega, h.1.2⟩, h.2⟩

/-- A write is read back. -/
@[simp] theorem Tab.get_set_same : Tab.get d (Tab.set d t k v) k = v := by
  unfold Tab.set
  split
  · rw [Tab.get_erase_same]; exact (‹v = d k›).symm
  · exact Tab.get_insert_same

/-- A write leaves every other key alone. -/
theorem Tab.get_set_other (h : j ≠ k) : Tab.get d (Tab.set d t k v) j = Tab.get d t j := by
  unfold Tab.set
  split
  · exact Tab.get_erase_other h
  · exact Tab.get_insert_other h

/-! ### The canonical form -/

@[simp] theorem Tab.wf_nil : Tab.wf d [] = true := rfl

theorem Tab.wfFrom_insert (h : Tab.wfFrom d n t = true) (hk : n ≤ k) (hv : v ≠ d k) :
    Tab.wfFrom d n (Tab.insert t k v) = true := by
  induction t generalizing n with
  | nil => simp [Tab.insert, Tab.wfFrom, hk, hv]
  | cons e t ih =>
    obtain ⟨i, a⟩ := e
    have h' := h
    simp only [Tab.wfFrom, Bool.and_eq_true, decide_eq_true_eq] at h
    unfold Tab.insert
    split
    · simp only [Tab.wfFrom, Bool.and_eq_true, decide_eq_true_eq]
      exact ⟨⟨hk, hv⟩, ⟨by omega, h.1.2⟩, h.2⟩
    · split
      · subst_vars
        simp only [Tab.wfFrom, Bool.and_eq_true, decide_eq_true_eq]
        exact ⟨⟨hk, hv⟩, h.2⟩
      · simp only [Tab.wfFrom, Bool.and_eq_true, decide_eq_true_eq]
        exact ⟨h.1, ih h.2 (by omega)⟩

theorem Tab.wfFrom_erase (h : Tab.wfFrom d n t = true) : Tab.wfFrom d n (Tab.erase t k) = true := by
  induction t generalizing n with
  | nil => rfl
  | cons e t ih =>
    obtain ⟨i, a⟩ := e
    simp only [Tab.wfFrom, Bool.and_eq_true, decide_eq_true_eq] at h
    unfold Tab.erase
    split
    · exact Tab.wfFrom_mono (ih h.2) (by omega)
    · simp only [Tab.wfFrom, Bool.and_eq_true, decide_eq_true_eq]
      exact ⟨h.1, ih h.2⟩

theorem Tab.wfFrom_filter (p : Nat × α → Bool) (h : Tab.wfFrom d n t = true) : Tab.wfFrom d n (t.filter p) = true := by
  induction t generalizing n with
  | nil => rfl
  | cons e t ih =>
    obtain ⟨i, a⟩ := e
    simp only [Tab.wfFrom, Bool.and_eq_true, decide_eq_true_eq] at h
    rw [List.filter_cons]
    split
    · simp only [Tab.wfFrom, Bool.and_eq_true, decide_eq_true_eq]
      exact ⟨h.1, ih h.2⟩
    · exact Tab.wfFrom_mono (ih h.2) (by omega)

@[simp] theorem Tab.wf_set (h : Tab.wf d t = true) : Tab.wf d (Tab.set d t k v) = true := by
  unfold Tab.set
  split
  · exact Tab.wfFrom_erase h
  · exact Tab.wfFrom_insert h (by omega) ‹_›

@[simp] theorem Tab.wf_upd (f : α → α) (h : Tab.wf d t = true) : Tab.wf d (Tab.upd d t k f) = true := Tab.wf_set h

@[simp] theorem Tab.wf_filter (p : Nat × α → Bool) (h : Tab.wf d t = true) : Tab.wf d (t.filter p) = true := Tab.wfFrom_filter p h

/-- A fold of operations that keep the canonical form keeps it. -/
theorem Tab.wf_foldl {β : Type} (l : List β) (f : Tab α → β → Tab α) (hf : ∀ u b, Tab.wf d u = true → Tab.wf d (f u b) = true)
    (h : Tab.wf d t = true) : Tab.wf d (l.foldl f t) = true := by
  induction l generalizing t with
  | nil => exact h
  | cons b l ih => exact ih (hf t b h)

@[simp] theorem Tab.wf_mapAll (f : Nat → α → α) (h : Tab.wf d t = true) : Tab.wf d (Tab.mapAll d t f) = true :=
  Tab.wf_foldl t _ (fun _ _ hu => Tab.wf_set hu) h

/-- Two canonical tables that read alike are the same data. -/
theorem Tab.ext_of_wfFrom {u : Tab α} (ht : Tab.wfFrom d n t = true) (hu : Tab.wfFrom d n u = true)
    (h : ∀ k, Tab.get d t k = Tab.get d u k) : t = u := by
  induction t generalizing n u with
  | nil =>
    cases u with
    | nil => rfl
    | cons e u =>
      obtain ⟨i, a⟩ := e
      have hi := h i
      simp only [Tab.wfFrom, Bool.and_eq_true, decide_eq_true_eq] at hu
      simp only [Tab.get, if_true] at hi
      exact absurd hi.symm hu.1.2
  | cons e t ih =>
    obtain ⟨i, a⟩ := e
    simp only [Tab.wfFrom, Bool.and_eq_true, decide_eq_true_eq] at ht
    cases u with
    | nil =>
      have hi := h i
      simp only [Tab.get, if_true] at hi
      exact absurd hi ht.1.2
    | cons e' u =>
      obtain ⟨i', a'⟩ := e'
      simp only [Tab.wfFrom, Bool.and_eq_true, decide_eq_true_eq] at hu
      have hlt : i = i' := by
        rcases Nat.lt_trichotomy i i' with hl | he | hl
        · have hi := h i
          simp only [Tab.get, if_true] at hi
          rw [if_neg (by omega), Tab.get_of_wfFrom hu.2 (by omega)] at hi
          exact absurd hi ht.1.2
        · exact he
        · have hi := h i'
          simp only [Tab.get, if_true] at hi
          rw [if_neg (by omega), Tab.get_of_wfFrom ht.2 (by omega)] at hi
          exact absurd hi.symm hu.1.2
      subst hlt
      have hi := h i
      simp only [Tab.get, if_true] at hi
      subst hi
      have : t = u := by
        refine ih ht.2 hu.2 fun k => ?_
        by_cases hk : k = i
        · subst hk
          rw [Tab.get_of_wfFrom ht.2 (by omega), Tab.get_of_wfFrom hu.2 (by omega)]
        · have hk' := h k
          simp only [Tab.get] at hk'
          rwa [if_neg (Ne.symm hk), if_neg (Ne.symm hk)] at hk'
      rw [this]

end

/-! ### Memory -/

@[simp] theorem Memory.readByte_writeByte_same {m : Memory} {a : Nat} {b : BitVec 8} :
    (m.writeByte a b).readByte a = b := Tab.get_set_same

theorem Memory.readByte_writeByte_other {m : Memory} {a a' : Nat} {b : BitVec 8} (h : a' ≠ a) :
    (m.writeByte a b).readByte a' = m.readByte a' := Tab.get_set_other h

@[simp] theorem Memory.wf_writeByte {m : Memory} {a : Nat} {b : BitVec 8} (h : m.wf = true) : (m.writeByte a b).wf = true :=
  Tab.wf_set h

@[simp] theorem Memory.wf_write {m : Memory} {a v n : Nat} (h : m.wf = true) : (m.write a v n).wf = true := by
  induction n generalizing m a v with
  | zero => exact h
  | succ n ih => exact ih (Memory.wf_writeByte h)

@[simp] theorem Memory.wf_filter {m : Memory} (p : Nat × BitVec 8 → Bool) (h : m.wf = true) : Memory.wf (m.filter p) = true :=
  Tab.wf_filter p h

/-- A store of `n` bytes leaves every byte outside them alone. -/
theorem Memory.readByte_write_other {m : Memory} {a v n b : Nat} (h : b < a ∨ a + n ≤ b) :
    (m.write a v n).readByte b = m.readByte b := by
  induction n generalizing m a v with
  | zero => rfl
  | succ n ih =>
    rw [Memory.write, ih (by omega)]
    exact Memory.readByte_writeByte_other (by omega)

/-- The bytes of a store, least significant first. -/
theorem Memory.readByte_write_same {m : Memory} {a v n i : Nat} (h : i < n) :
    (m.write a v n).readByte (a + i) = BitVec.ofNat 8 (v / 256 ^ i) := by
  induction n generalizing m a v i with
  | zero => omega
  | succ n ih =>
    rw [Memory.write]
    cases i with
    | zero =>
      rw [Memory.readByte_write_other (by omega)]
      simp
    | succ i =>
      have e : a + (i + 1) = (a + 1) + i := by omega
      rw [e, ih (by omega)]
      congr 1
      rw [Nat.pow_succ, Nat.mul_comm, Nat.div_div_eq_div_mul]

end Sys2Proof.Machine
end

