-- ==== Sys2Proof/Laws/Kept.lean ====
section
/-! SUPPORT. What a chain of updates keeps. `Kept l o t`: between `o` and `t` only the parts that `l` names may differ, the tables stay
canonical, nothing told is unsaid, free values are used once, and the fuses stay. Each named operation has one lemma: what is kept up to
it is kept past it. -/

namespace Sys2Proof.Machine

structure Kept (l : Part → Bool) (o t : State) : Prop where
  same  : ∀ p, l p = false → p.same o t
  wf    : o.wf → t.wf
  tells : o.tells t
  free  : o.free ≤ t.free
  fuses : o.img.fusesKept t.img

theorem Kept.refl (l : Part → Bool) (s : State) : Kept l s s where
  same p _ := by cases p <;> rfl
  wf h := h
  tells := List.suffix_refl _
  free := Nat.le_refl _
  fuses := ⟨Nat.le_refl _, fun h => h⟩

variable {l : Part → Bool} {o s : State}

theorem Kept.trans {t : State} (h : Kept l o s) (k : Kept l s t) : Kept l o t where
  same p hp := by
    have a := h.same p hp
    have b := k.same p hp
    cases p <;> exact b.trans a
  wf x := k.wf (h.wf x)
  tells := h.tells.trans k.tells
  free := Nat.le_trans h.free k.free
  fuses := ⟨Nat.le_trans h.fuses.1 k.fuses.1, fun x => k.fuses.2 (h.fuses.2 x)⟩

theorem Kept.mono {l' : Part → Bool} {t : State} (h : Kept l s t) (hl : ∀ p, l p = true → l' p = true) : Kept l' s t where
  same p hp := h.same p (by cases e : l p with
    | false => rfl
    | true => rw [hl p e] at hp; cases hp)
  wf := h.wf
  tells := h.tells
  free := h.free
  fuses := h.fuses

/-- A chain of updates of the listed parts is a frame. -/
theorem Kept.only {ps : List Part} {t : State} (h : Kept (fun p => ps.contains p) s t) : Only ps s t := by
  intro p hp
  exact h.same p (by simpa using hp)

/-! ### The updates -/

theorem State.onSys_kept {f : Sys → Sys} (hl : l .sys = true) (hf : s.sys.wf → (f s.sys).wf) (h : Kept l o s) : Kept l o (s.onSys f) where
  same p hp := by
    cases p <;> first | exact h.same _ hp | (rw [hl] at hp; cases hp)
  wf x := by
    obtain ⟨x0, x1, x2, x3, x4, x5, x6, x7, x8, x9, x10, x11⟩ := h.wf x
    exact ⟨x0, hf x1, x2, x3, x4, x5, x6, x7, x8, x9, x10, x11⟩
  tells := h.tells
  free := h.free
  fuses := h.fuses

theorem State.onPit_kept {f : Pitch → Pitch} (hl : l .pit = true) (h : Kept l o s) : Kept l o (s.onPit f) where
  same p hp := by
    cases p <;> first | exact h.same _ hp | (rw [hl] at hp; cases hp)
  wf := h.wf
  tells := h.tells
  free := h.free
  fuses := h.fuses

theorem State.onHost_kept {f : HostIf → HostIf} (hl : l .host = true) (hf : s.host.wf → (f s.host).wf) (h : Kept l o s) : Kept l o (s.onHost f) where
  same p hp := by
    cases p <;> first | exact h.same _ hp | (rw [hl] at hp; cases hp)
  wf x := by
    obtain ⟨x0, x1, x2, x3, x4, x5, x6, x7, x8, x9, x10, x11⟩ := h.wf x
    exact ⟨x0, x1, hf x2, x3, x4, x5, x6, x7, x8, x9, x10, x11⟩
  tells := h.tells
  free := h.free
  fuses := h.fuses

theorem State.onFlt_kept {f : Flt → Flt} (hl : l .flt = true) (hf : s.flt.wf → (f s.flt).wf) (h : Kept l o s) : Kept l o (s.onFlt f) where
  same p hp := by
    cases p <;> first | exact h.same _ hp | (rw [hl] at hp; cases hp)
  wf x := by
    obtain ⟨x0, x1, x2, x3, x4, x5, x6, x7, x8, x9, x10, x11⟩ := h.wf x
    exact ⟨x0, x1, x2, hf x3, x4, x5, x6, x7, x8, x9, x10, x11⟩
  tells := h.tells
  free := h.free
  fuses := h.fuses

theorem State.onEng_kept {f : Eng → Eng} (hl : l .eng = true) (hf : s.eng.wf → (f s.eng).wf) (h : Kept l o s) : Kept l o (s.onEng f) where
  same p hp := by
    cases p <;> first | exact h.same _ hp | (rw [hl] at hp; cases hp)
  wf x := by
    obtain ⟨x0, x1, x2, x3, x4, x5, x6, x7, x8, x9, x10, x11⟩ := h.wf x
    exact ⟨x0, x1, x2, x3, hf x4, x5, x6, x7, x8, x9, x10, x11⟩
  tells := h.tells
  free := h.free
  fuses := h.fuses

theorem State.onDom_kept {f : Dom → Dom} (hl : l .dom = true) (hf : s.dom.wf → (f s.dom).wf) (h : Kept l o s) : Kept l o (s.onDom f) where
  same p hp := by
    cases p <;> first | exact h.same _ hp | (rw [hl] at hp; cases hp)
  wf x := by
    obtain ⟨x0, x1, x2, x3, x4, x5, x6, x7, x8, x9, x10, x11⟩ := h.wf x
    exact ⟨x0, x1, x2, x3, x4, hf x5, x6, x7, x8, x9, x10, x11⟩
  tells := h.tells
  free := h.free
  fuses := h.fuses

theorem State.onTool_kept {f : Tool → Tool} (hl : l .tool = true) (hf : s.tool.wf → (f s.tool).wf) (h : Kept l o s) : Kept l o (s.onTool f) where
  same p hp := by
    cases p <;> first | exact h.same _ hp | (rw [hl] at hp; cases hp)
  wf x := by
    obtain ⟨x0, x1, x2, x3, x4, x5, x6, x7, x8, x9, x10, x11⟩ := h.wf x
    exact ⟨x0, x1, x2, x3, x4, x5, hf x6, x7, x8, x9, x10, x11⟩
  tells := h.tells
  free := h.free
  fuses := h.fuses

theorem State.onFab_kept {f : Fab → Fab} (hl : l .fab = true) (hf : s.fab.wf → (f s.fab).wf) (h : Kept l o s) : Kept l o (s.onFab f) where
  same p hp := by
    cases p <;> first | exact h.same _ hp | (rw [hl] at hp; cases hp)
  wf x := by
    obtain ⟨x0, x1, x2, x3, x4, x5, x6, x7, x8, x9, x10, x11⟩ := h.wf x
    exact ⟨x0, x1, x2, x3, x4, x5, x6, hf x7, x8, x9, x10, x11⟩
  tells := h.tells
  free := h.free
  fuses := h.fuses

theorem State.onTabs_kept {f : Tabs → Tabs} (hl : l .tabs = true) (hf : s.tabs.wf → (f s.tabs).wf) (h : Kept l o s) : Kept l o (s.onTabs f) where
  same p hp := by
    cases p <;> first | exact h.same _ hp | (rw [hl] at hp; cases hp)
  wf x := by
    obtain ⟨x0, x1, x2, x3, x4, x5, x6, x7, x8, x9, x10, x11⟩ := h.wf x
    exact ⟨x0, x1, x2, x3, x4, x5, x6, x7, hf x8, x9, x10, x11⟩
  tells := h.tells
  free := h.free
  fuses := h.fuses

theorem State.onHome_kept {f : Home → Home} (hl : l .home = true) (hf : s.home.wf → (f s.home).wf) (h : Kept l o s) : Kept l o (s.onHome f) where
  same p hp := by
    cases p <;> first | exact h.same _ hp | (rw [hl] at hp; cases hp)
  wf x := by
    obtain ⟨x0, x1, x2, x3, x4, x5, x6, x7, x8, x9, x10, x11⟩ := h.wf x
    exact ⟨x0, x1, x2, x3, x4, x5, x6, x7, x8, hf x9, x10, x11⟩
  tells := h.tells
  free := h.free
  fuses := h.fuses

theorem State.onBel_kept {f : Bel → Bel} (hl : l .bel = true) (hf : s.bel.wf → (f s.bel).wf) (h : Kept l o s) : Kept l o (s.onBel f) where
  same p hp := by
    cases p <;> first | exact h.same _ hp | (rw [hl] at hp; cases hp)
  wf x := by
    obtain ⟨x0, x1, x2, x3, x4, x5, x6, x7, x8, x9, x10, x11⟩ := h.wf x
    exact ⟨x0, x1, x2, x3, x4, x5, x6, x7, x8, x9, hf x10, x11⟩
  tells := h.tells
  free := h.free
  fuses := h.fuses

theorem State.onRec_kept {f : Rec → Rec} (hl : l .recorder = true) (hf : s.rec_.wf → (f s.rec_).wf) (h : Kept l o s) : Kept l o (s.onRec f) where
  same p hp := by
    cases p <;> first | exact h.same _ hp | (rw [hl] at hp; cases hp)
  wf x := by
    obtain ⟨x0, x1, x2, x3, x4, x5, x6, x7, x8, x9, x10, x11⟩ := h.wf x
    exact ⟨x0, x1, x2, x3, x4, x5, x6, x7, x8, x9, x10, hf x11⟩
  tells := h.tells
  free := h.free
  fuses := h.fuses

theorem State.onImg_kept {f : Img → Img} (hl : l .img = true) (hf : s.img.fusesKept (f s.img)) (h : Kept l o s) : Kept l o (s.onImg f) where
  same p hp := by
    cases p <;> first | exact h.same _ hp | (rw [hl] at hp; cases hp)
  wf := h.wf
  tells := h.tells
  free := h.free
  fuses := ⟨Nat.le_trans h.fuses.1 hf.1, fun x => hf.2 (h.fuses.2 x)⟩

theorem State.onSys_kept' {f : Sys → Sys} (hl : l .sys = true) (hf : ∀ x : Sys, x.wf → (f x).wf) (h : Kept l o s) :
    Kept l o (s.onSys f) := State.onSys_kept hl (hf _) h

theorem State.onHost_kept' {f : HostIf → HostIf} (hl : l .host = true) (hf : ∀ x : HostIf, x.wf → (f x).wf) (h : Kept l o s) :
    Kept l o (s.onHost f) := State.onHost_kept hl (hf _) h

theorem State.onFlt_kept' {f : Flt → Flt} (hl : l .flt = true) (hf : ∀ x : Flt, x.wf → (f x).wf) (h : Kept l o s) :
    Kept l o (s.onFlt f) := State.onFlt_kept hl (hf _) h

theorem State.onEng_kept' {f : Eng → Eng} (hl : l .eng = true) (hf : ∀ x : Eng, x.wf → (f x).wf) (h : Kept l o s) :
    Kept l o (s.onEng f) := State.onEng_kept hl (hf _) h

theorem State.onDom_kept' {f : Dom → Dom} (hl : l .dom = true) (hf : ∀ x : Dom, x.wf → (f x).wf) (h : Kept l o s) :
    Kept l o (s.onDom f) := State.onDom_kept hl (hf _) h

theorem State.onTool_kept' {f : Tool → Tool} (hl : l .tool = true) (hf : ∀ x : Tool, x.wf → (f x).wf) (h : Kept l o s) :
    Kept l o (s.onTool f) := State.onTool_kept hl (hf _) h

theorem State.onFab_kept' {f : Fab → Fab} (hl : l .fab = true) (hf : ∀ x : Fab, x.wf → (f x).wf) (h : Kept l o s) :
    Kept l o (s.onFab f) := State.onFab_kept hl (hf _) h

theorem State.onTabs_kept' {f : Tabs → Tabs} (hl : l .tabs = true) (hf : ∀ x : Tabs, x.wf → (f x).wf) (h : Kept l o s) :
    Kept l o (s.onTabs f) := State.onTabs_kept hl (hf _) h

theorem State.onHome_kept' {f : Home → Home} (hl : l .home = true) (hf : ∀ x : Home, x.wf → (f x).wf) (h : Kept l o s) :
    Kept l o (s.onHome f) := State.onHome_kept hl (hf _) h

theorem State.onBel_kept' {f : Bel → Bel} (hl : l .bel = true) (hf : ∀ x : Bel, x.wf → (f x).wf) (h : Kept l o s) :
    Kept l o (s.onBel f) := State.onBel_kept hl (hf _) h

theorem State.onRec_kept' {f : Rec → Rec} (hl : l .recorder = true) (hf : ∀ x : Rec, x.wf → (f x).wf) (h : Kept l o s) :
    Kept l o (s.onRec f) := State.onRec_kept hl (hf _) h

theorem State.onImg_kept' {f : Img → Img} (hl : l .img = true) (hf : ∀ x : Img, x.fusesKept (f x)) (h : Kept l o s) :
    Kept l o (s.onImg f) := State.onImg_kept hl (hf _) h

theorem State.emit_kept {x : Out} (hl : l .out = true) (h : Kept l o s) : Kept l o (s.emit x) where
  same p hp := by
    cases p <;> first | exact h.same _ hp | (rw [hl] at hp; cases hp)
  wf := h.wf
  tells := h.tells.trans (List.suffix_cons _ _)
  free := h.free
  fuses := h.fuses

theorem State.nextFree_kept (hl : l .free = true) (h : Kept l o s) : Kept l o (s.nextFree) where
  same p hp := by
    cases p <;> first | exact h.same _ hp | (rw [hl] at hp; cases hp)
  wf := h.wf
  tells := h.tells
  free := Nat.le_succ_of_le h.free
  fuses := h.fuses

theorem State.onPort_kept {p : PortId} {f : Port → Port} (hl : l .ports = true) (h : Kept l o s) : Kept l o (s.onPort p f) where
  same p hp := by
    cases p <;> first | exact h.same _ hp | (rw [hl] at hp; cases hp)
  wf := h.wf
  tells := h.tells
  free := h.free
  fuses := h.fuses

theorem State.onPorts_kept {f : Vector Port 64 → Vector Port 64} (hl : l .ports = true) (h : Kept l o s) : Kept l o (s.onPorts f) where
  same p hp := by
    cases p <;> first | exact h.same _ hp | (rw [hl] at hp; cases hp)
  wf := h.wf
  tells := h.tells
  free := h.free
  fuses := h.fuses

theorem State.takeFree_kept {n : Nat} (hl : l .free = true) (h : Kept l o s) : Kept l o (s.takeFree n) where
  same p hp := by
    cases p <;> first | exact h.same _ hp | (rw [hl] at hp; cases hp)
  wf := h.wf
  tells := h.tells
  free := Nat.le_trans h.free (Nat.le_add_right _ _)
  fuses := h.fuses

theorem State.setReg_kept {off : Nat} {w : Word} (hl : l .regs = true) (h : Kept l o s) : Kept l o (s.setReg off w) where
  same p hp := by
    cases p <;> first | exact h.same _ hp | (rw [hl] at hp; cases hp)
  wf x := ⟨Tab.wf_set (h.wf x).1, (h.wf x).2⟩
  tells := h.tells
  free := h.free
  fuses := h.fuses

theorem Kept.ite {c : Prop} [Decidable c] {a b : State} (ha : c → Kept l o a) (hb : ¬c → Kept l o b) : Kept l o (if c then a else b) := by
  split
  · exact ha ‹_›
  · exact hb ‹_›

theorem State.when_kept {b : Bool} {f : State → State} (hf : b = true → Kept l o (f s)) (h : Kept l o s) : Kept l o (s.when b f) := by
  unfold State.when
  split
  · exact hf ‹_›
  · exact h

theorem State.whenServing_kept {f : State → State} (hf : Kept l o (f s)) (h : Kept l o s) : Kept l o (s.whenServing f) := by
  unfold State.whenServing
  split
  · exact hf
  · exact h

theorem State.foldl_kept {α : Type} {xs : List α} {f : State → α → State} (hf : ∀ t a, Kept l o t → Kept l o (f t a))
    (h : Kept l o s) : Kept l o (xs.foldl f s) := by
  induction xs generalizing s with
  | nil => exact h
  | cons a xs ih => exact ih (hf s a h)

theorem State.forAll_kept {α : Type} {xs : List α} {f : α → State → State} (hf : ∀ a t, Kept l o t → Kept l o (f a t))
    (h : Kept l o s) : Kept l o (s.forAll xs f) :=
  State.foldl_kept (fun t a => hf a t) h

end Sys2Proof.Machine
end

