-- ==== Sys2Proof/Laws/KeptRecords.lean ====
section
/-! SUPPORT. What the operations and meanings keep (Laws/Kept.lean), for records, fault collector, counters, recorder items, the safe state. -/

namespace Sys2Proof.Machine

variable {l : Part → Bool} {o : State}

/-! ### Machine/Ops.lean -/

theorem State.onLife_kept {s : State} {f : Life → Life} (ksys : l .sys = true)
    (hf : ∀ x : Life, Tab.wf natAt x.temps = true → Tab.wf natAt (f x).temps = true) (h : Kept l o s) :
    Kept l o (s.onLife f) := State.onSys_kept ksys (hf _) h

theorem State.inTrial_kept {s : State} {f : Act → Act} (kimg : l .img = true) (h : Kept l o s) :
    Kept l o (State.inTrial f s) := by
  unfold State.inTrial
  repeat' first
    | with_reducible assumption
    | exact fun hw => hw
    | intro _
    | with_reducible apply State.onImg_kept
    | with_reducible apply State.foldl_kept
    | exact ⟨Nat.le_refl _, fun hw => hw⟩
    | with_reducible apply Kept.ite
    | split
    | extract_lets
    | (dsimp +zetaDelta only; split)
    | (simp +zetaDelta [*]; done)

theorem State.onPortN_kept {s : State} {n : Nat} {f : Port → Port} (kports : l .ports = true) (h : Kept l o s) :
    Kept l o (State.onPortN n f s) := by
  unfold State.onPortN
  repeat' first
    | with_reducible assumption
    | exact fun hw => hw
    | intro _
    | with_reducible apply State.onPort_kept
    | with_reducible apply State.foldl_kept
    | exact ⟨Nat.le_refl _, fun hw => hw⟩
    | with_reducible apply Kept.ite
    | split
    | extract_lets
    | (dsimp +zetaDelta only; split)
    | (simp +zetaDelta [*]; done)

theorem State.onLink_kept {s : State} {p : PortId} {f : Link → Link} (kports : l .ports = true) (h : Kept l o s) :
    Kept l o (State.onLink p f s) := by
  unfold State.onLink
  repeat' first
    | with_reducible assumption
    | exact fun hw => hw
    | intro _
    | with_reducible apply State.onPort_kept
    | with_reducible apply State.foldl_kept
    | exact ⟨Nat.le_refl _, fun hw => hw⟩
    | with_reducible apply Kept.ite
    | split
    | extract_lets
    | (dsimp +zetaDelta only; split)
    | (simp +zetaDelta [*]; done)

theorem State.onEngine_kept {s : State} {e : EngineId} {f : Engine → Engine} (keng : l .eng = true) (h : Kept l o s) :
    Kept l o (State.onEngine e f s) := by
  unfold State.onEngine
  repeat' first
    | with_reducible assumption
    | exact fun hw => hw
    | intro _
    | with_reducible apply State.onEng_kept
    | with_reducible apply State.foldl_kept
    | exact ⟨Nat.le_refl _, fun hw => hw⟩
    | with_reducible apply Kept.ite
    | split
    | extract_lets
    | (dsimp +zetaDelta only; split)
    | (simp +zetaDelta [*]; done)
    | (simp only [Eng.wf] at *; simp +zetaDelta [*]; done)

theorem State.onSlice_kept {s : State} {h1 : SliceId} {f : Slice → Slice} (khome : l .home = true) (h : Kept l o s) :
    Kept l o (State.onSlice h1 f s) := by
  unfold State.onSlice
  repeat' first
    | with_reducible assumption
    | exact fun hw => hw
    | intro _
    | with_reducible apply State.onHome_kept
    | with_reducible apply State.foldl_kept
    | exact ⟨Nat.le_refl _, fun hw => hw⟩
    | with_reducible apply Kept.ite
    | split
    | extract_lets
    | (dsimp +zetaDelta only; split)
    | (simp +zetaDelta [*]; done)
    | (simp only [Home.wf] at *; simp +zetaDelta [*]; done)

theorem State.onColumn_kept {s : State} {m : Endpoint} {f : Column → Column} (kfab : l .fab = true) (h : Kept l o s) :
    Kept l o (State.onColumn m f s) := by
  unfold State.onColumn
  repeat' first
    | with_reducible assumption
    | exact fun hw => hw
    | intro _
    | with_reducible apply State.onFab_kept
    | with_reducible apply State.foldl_kept
    | exact ⟨Nat.le_refl _, fun hw => hw⟩
    | with_reducible apply Kept.ite
    | split
    | extract_lets
    | (dsimp +zetaDelta only; split)
    | (simp +zetaDelta [*]; done)
    | (simp only [Fab.wf] at *; simp +zetaDelta [*]; done)

theorem State.onArb_kept {s : State} {m : Endpoint} {f : Arb → Arb} (kfab : l .fab = true) (h : Kept l o s) :
    Kept l o (State.onArb m f s) := by
  unfold State.onArb
  repeat' first
    | with_reducible assumption
    | exact fun hw => hw
    | intro _
    | with_reducible apply State.onFab_kept
    | with_reducible apply State.foldl_kept
    | exact ⟨Nat.le_refl _, fun hw => hw⟩
    | with_reducible apply Kept.ite
    | split
    | extract_lets
    | (dsimp +zetaDelta only; split)
    | (simp +zetaDelta [*]; done)
    | (simp only [Fab.wf] at *; simp +zetaDelta [*]; done)

theorem State.wr_kept {s : State} {f : FRef} {i : Nat} {v : Nat} (kregs : l .regs = true) (h : Kept l o s) :
    Kept l o (State.wr f i v s) := by
  unfold State.wr
  repeat' first
    | with_reducible assumption
    | exact fun hw => hw
    | intro _
    | with_reducible apply State.setReg_kept
    | with_reducible apply State.foldl_kept
    | exact ⟨Nat.le_refl _, fun hw => hw⟩
    | with_reducible apply Kept.ite
    | split
    | extract_lets
    | (dsimp +zetaDelta only; split)
    | (simp +zetaDelta [*]; done)

theorem State.bump_kept {s : State} {f : FRef} {i : Nat} {n : Nat} (kregs : l .regs = true) (h : Kept l o s) :
    Kept l o (State.bump f i n s) := by
  unfold State.bump
  repeat' first
    | with_reducible assumption
    | exact fun hw => hw
    | intro _
    | with_reducible apply State.wr_kept
    | with_reducible apply State.foldl_kept
    | exact ⟨Nat.le_refl _, fun hw => hw⟩
    | with_reducible apply Kept.ite
    | split
    | extract_lets
    | (dsimp +zetaDelta only; split)
    | (simp +zetaDelta [*]; done)

/-! ### Machine/Region.lean -/

theorem State.setDomain_kept {s : State} {d : Nat} {x : Domain} (kdom : l .dom = true) (h : Kept l o s) :
    Kept l o (State.setDomain d x s) := by
  unfold State.setDomain
  repeat' first
    | with_reducible assumption
    | exact fun hw => hw
    | intro _
    | with_reducible apply State.onDom_kept
    | with_reducible apply State.foldl_kept
    | exact ⟨Nat.le_refl _, fun hw => hw⟩
    | with_reducible apply Kept.ite
    | split
    | extract_lets
    | (dsimp +zetaDelta only; split)
    | (simp +zetaDelta [*]; done)
    | (simp only [Dom.wf] at *; simp +zetaDelta [*]; done)

/-! ### Machine/Events.lean -/

theorem State.setSource_kept {s : State} {n : Nat} {x : Source} (khost : l .host = true) (h : Kept l o s) :
    Kept l o (State.setSource n x s) := by
  unfold State.setSource
  repeat' first
    | with_reducible assumption
    | exact fun hw => hw
    | intro _
    | with_reducible apply State.onHost_kept
    | with_reducible apply State.foldl_kept
    | exact ⟨Nat.le_refl _, fun hw => hw⟩
    | with_reducible apply Kept.ite
    | split
    | extract_lets
    | (dsimp +zetaDelta only; split)
    | (simp +zetaDelta [*]; done)
    | (simp only [HostIf.wf] at *; simp +zetaDelta [*]; done)

theorem State.setEvq_kept {s : State} {q : Nat} {r : Option Ring} (khost : l .host = true) (h : Kept l o s) :
    Kept l o (State.setEvq q r s) := by
  unfold State.setEvq
  repeat' first
    | with_reducible assumption
    | exact fun hw => hw
    | intro _
    | with_reducible apply State.onHost_kept
    | with_reducible apply State.foldl_kept
    | exact ⟨Nat.le_refl _, fun hw => hw⟩
    | with_reducible apply Kept.ite
    | split
    | extract_lets
    | (dsimp +zetaDelta only; split)
    | (simp +zetaDelta [*]; done)
    | (simp only [HostIf.wf] at *; simp +zetaDelta [*]; done)

theorem State.setRing_kept {s : State} {n : Nat} {r : Option Ring} (khost : l .host = true) (h : Kept l o s) :
    Kept l o (State.setRing n r s) := by
  unfold State.setRing
  repeat' first
    | with_reducible assumption
    | exact fun hw => hw
    | intro _
    | with_reducible apply State.onHost_kept
    | with_reducible apply State.foldl_kept
    | exact ⟨Nat.le_refl _, fun hw => hw⟩
    | with_reducible apply Kept.ite
    | split
    | extract_lets
    | (dsimp +zetaDelta only; split)
    | (simp +zetaDelta [*]; done)
    | (simp only [HostIf.wf] at *; simp +zetaDelta [*]; done)

theorem State.signal_kept {s : State} {q : Nat} {r : Ring} (kregs : l .regs = true) (khost : l .host = true) (kout : l .out = true) (h : Kept l o s) :
    Kept l o (State.signal q r s) := by
  unfold State.signal
  repeat' first
    | with_reducible assumption
    | exact fun hw => hw
    | intro _
    | with_reducible apply State.bump_kept
    | with_reducible apply State.onHost_kept
    | with_reducible apply State.emit_kept
    | with_reducible apply State.foldl_kept
    | exact ⟨Nat.le_refl _, fun hw => hw⟩
    | with_reducible apply Kept.ite
    | split
    | extract_lets
    | (dsimp +zetaDelta only; split)
    | (simp +zetaDelta [*]; done)
    | (simp only [HostIf.wf] at *; simp +zetaDelta [*]; done)

theorem State.writeShadow_kept {s : State} {r : Ring} {prod : Nat} (kout : l .out = true) (h : Kept l o s) :
    Kept l o (State.writeShadow r prod s) := by
  unfold State.writeShadow
  repeat' first
    | with_reducible assumption
    | exact fun hw => hw
    | intro _
    | with_reducible apply State.emit_kept
    | with_reducible apply State.foldl_kept
    | exact ⟨Nat.le_refl _, fun hw => hw⟩
    | with_reducible apply Kept.ite
    | split
    | extract_lets
    | (dsimp +zetaDelta only; split)
    | (simp +zetaDelta [*]; done)

theorem State.pushEvt_kept {s : State} {q : Nat} {r : Ring} {e : EvtRec} (kregs : l .regs = true) (khost : l .host = true) (kout : l .out = true) (h : Kept l o s) :
    Kept l o (State.pushEvt q r e s).1 := by
  unfold State.pushEvt
  repeat' first
    | with_reducible assumption
    | exact fun hw => hw
    | intro _
    | with_reducible apply State.setEvq_kept
    | with_reducible apply State.emit_kept
    | with_reducible apply State.writeShadow_kept
    | with_reducible apply State.bump_kept
    | with_reducible apply State.signal_kept
    | with_reducible apply State.foldl_kept
    | exact ⟨Nat.le_refl _, fun hw => hw⟩
    | with_reducible apply Kept.ite
    | split
    | extract_lets
    | (dsimp +zetaDelta only; split)
    | (simp +zetaDelta [*]; done)
    | (simp only [HostIf.wf] at *; simp +zetaDelta [*]; done)

theorem State.writeEvt_kept {s : State} {n : Nat} {q : Nat} {e : EvtRec} (kregs : l .regs = true) (khost : l .host = true) (kout : l .out = true) (h : Kept l o s) :
    Kept l o (State.writeEvt n q e s).1 := by
  unfold State.writeEvt
  repeat' first
    | with_reducible assumption
    | exact fun hw => hw
    | intro _
    | with_reducible apply State.bump_kept
    | with_reducible apply State.setSource_kept
    | with_reducible apply State.pushEvt_kept
    | with_reducible apply State.foldl_kept
    | exact ⟨Nat.le_refl _, fun hw => hw⟩
    | with_reducible apply Kept.ite
    | split
    | extract_lets
    | (dsimp +zetaDelta only; split)
    | (simp +zetaDelta [*]; done)
    | (simp only [HostIf.wf] at *; simp +zetaDelta [*]; done)

theorem State.raiseOnce_kept {s : State} {d : Nat} {loc : Nat} {code : Nat} {cls : Nat} {ext : Nat} {arg0 : Nat} {arg1 : Nat} (kregs : l .regs = true) (khost : l .host = true) (kout : l .out = true) (h : Kept l o s) :
    Kept l o (State.raiseOnce d loc code cls ext arg0 arg1 s).1 := by
  unfold State.raiseOnce
  repeat' first
    | with_reducible assumption
    | exact fun hw => hw
    | intro _
    | with_reducible apply State.setSource_kept
    | with_reducible apply State.writeEvt_kept
    | with_reducible apply State.bump_kept
    | with_reducible apply State.foldl_kept
    | exact ⟨Nat.le_refl _, fun hw => hw⟩
    | with_reducible apply Kept.ite
    | split
    | extract_lets
    | (dsimp +zetaDelta only; split)
    | (simp +zetaDelta [*]; done)
    | (simp only [HostIf.wf] at *; simp +zetaDelta [*]; done)

theorem State.setFltEntry_kept {s : State} {i : Nat} {e : Option FltEntry} (kflt : l .flt = true) (h : Kept l o s) :
    Kept l o (State.setFltEntry i e s) := by
  unfold State.setFltEntry
  repeat' first
    | with_reducible assumption
    | exact fun hw => hw
    | intro _
    | with_reducible apply State.onFlt_kept
    | with_reducible apply State.foldl_kept
    | exact ⟨Nat.le_refl _, fun hw => hw⟩
    | with_reducible apply Kept.ite
    | split
    | extract_lets
    | (dsimp +zetaDelta only; split)
    | (simp +zetaDelta [*]; done)
    | (simp only [Flt.wf] at *; simp +zetaDelta [*]; done)

theorem State.driveFaultN_kept {s : State} (kflt : l .flt = true) (h : Kept l o s) :
    Kept l o (State.driveFaultN s) := by
  unfold State.driveFaultN
  repeat' first
    | with_reducible assumption
    | exact fun hw => hw
    | intro _
    | with_reducible apply State.onFlt_kept
    | with_reducible apply State.foldl_kept
    | exact ⟨Nat.le_refl _, fun hw => hw⟩
    | with_reducible apply Kept.ite
    | split
    | extract_lets
    | (dsimp +zetaDelta only; split)
    | (simp +zetaDelta [*]; done)
    | (simp only [Flt.wf] at *; simp +zetaDelta [*]; done)

theorem State.faultEventBy_kept {s : State} {ev : Raise} {i : Nat} {cause : Nat} {unit : Nat} {inj : Bool} {detail : Nat} {addr : Nat} (evK : ∀ d loc code cls ext arg0 arg1 u, Kept l o u → Kept l o (ev d loc code cls ext arg0 arg1 u)) (h : Kept l o s) :
    Kept l o (State.faultEventBy ev i cause unit inj detail addr s) := by
  unfold State.faultEventBy
  repeat' first
    | with_reducible assumption
    | exact fun hw => hw
    | intro _
    | with_reducible apply evK
    | with_reducible apply State.foldl_kept
    | exact ⟨Nat.le_refl _, fun hw => hw⟩
    | with_reducible apply Kept.ite
    | split
    | extract_lets
    | (dsimp +zetaDelta only; split)
    | (simp +zetaDelta [*]; done)

theorem State.fillFltBy_kept {s : State} {ev : Raise} {i : Nat} {cause : Nat} {unit : Nat} {inj : Bool} {detail : Nat} {addr : Nat} (kflt : l .flt = true) (kimg : l .img = true) (evK : ∀ d loc code cls ext arg0 arg1 u, Kept l o u → Kept l o (ev d loc code cls ext arg0 arg1 u)) (h : Kept l o s) :
    Kept l o (State.fillFltBy ev i cause unit inj detail addr s) := by
  unfold State.fillFltBy
  repeat' first
    | with_reducible assumption
    | exact fun hw => hw
    | intro _
    | with_reducible apply evK
    | with_reducible apply State.onFlt_kept
    | with_reducible apply State.setFltEntry_kept
    | with_reducible apply State.inTrial_kept
    | with_reducible apply State.faultEventBy_kept
    | with_reducible apply State.foldl_kept
    | exact ⟨Nat.le_refl _, fun hw => hw⟩
    | with_reducible apply Kept.ite
    | split
    | extract_lets
    | (dsimp +zetaDelta only; split)
    | (simp +zetaDelta [*]; done)
    | (simp only [Flt.wf] at *; simp +zetaDelta [*]; done)

theorem State.collectBy_kept {s : State} {ev : Raise} {cause : Nat} {unit : Nat} {inj : Bool} {detail : Nat} {addr : Nat} (kregs : l .regs = true) (kflt : l .flt = true) (kimg : l .img = true) (evK : ∀ d loc code cls ext arg0 arg1 u, Kept l o u → Kept l o (ev d loc code cls ext arg0 arg1 u)) (h : Kept l o s) :
    Kept l o (State.collectBy ev cause unit inj detail addr s) := by
  unfold State.collectBy
  repeat' first
    | with_reducible assumption
    | exact fun hw => hw
    | intro _
    | with_reducible apply evK
    | with_reducible apply State.bump_kept
    | with_reducible apply State.setFltEntry_kept
    | with_reducible apply State.fillFltBy_kept
    | with_reducible apply State.onFlt_kept
    | with_reducible apply State.driveFaultN_kept
    | with_reducible apply State.foldl_kept
    | exact ⟨Nat.le_refl _, fun hw => hw⟩
    | with_reducible apply Kept.ite
    | split
    | extract_lets
    | (dsimp +zetaDelta only; split)
    | (simp +zetaDelta [*]; done)
    | (simp only [Flt.wf] at *; simp +zetaDelta [*]; done)

theorem State.fc2By_kept {s : State} {ev : Raise} {d : Nat} {cause : Nat} {addr : Nat} (kregs : l .regs = true) (kfree : l .free = true) (evK : ∀ d loc code cls ext arg0 arg1 u, Kept l o u → Kept l o (ev d loc code cls ext arg0 arg1 u)) (h : Kept l o s) :
    Kept l o (State.fc2By ev d cause addr s) := by
  unfold State.fc2By
  repeat' first
    | with_reducible assumption
    | exact fun hw => hw
    | intro _
    | with_reducible apply evK
    | with_reducible apply State.bump_kept
    | with_reducible apply State.nextFree_kept
    | with_reducible apply State.foldl_kept
    | exact ⟨Nat.le_refl _, fun hw => hw⟩
    | with_reducible apply Kept.ite
    | split
    | extract_lets
    | (dsimp +zetaDelta only; split)
    | (simp +zetaDelta [*]; done)

theorem State.reportRefusedBy_kept {s : State} {ev : Raise} {u : Nat} {d : Nat} {a : RefAcc} (kregs : l .regs = true) (khost : l .host = true) (kfree : l .free = true) (evK : ∀ d loc code cls ext arg0 arg1 u, Kept l o u → Kept l o (ev d loc code cls ext arg0 arg1 u)) (h : Kept l o s) :
    Kept l o (State.reportRefusedBy ev u d a s) := by
  unfold State.reportRefusedBy
  repeat' first
    | with_reducible assumption
    | exact fun hw => hw
    | intro _
    | with_reducible apply evK
    | with_reducible apply State.fc2By_kept
    | with_reducible apply State.onHost_kept
    | with_reducible apply State.foldl_kept
    | exact ⟨Nat.le_refl _, fun hw => hw⟩
    | with_reducible apply Kept.ite
    | split
    | extract_lets
    | (dsimp +zetaDelta only; split)
    | (simp +zetaDelta [*]; done)
    | (simp only [HostIf.wf] at *; simp +zetaDelta [*]; done)

theorem State.countMiss_kept {s : State} {u : Nat} (kregs : l .regs = true) (h : Kept l o s) :
    Kept l o (State.countMiss u s) := by
  unfold State.countMiss
  repeat' first
    | with_reducible assumption
    | exact fun hw => hw
    | intro _
    | with_reducible apply State.bump_kept
    | with_reducible apply State.foldl_kept
    | exact ⟨Nat.le_refl _, fun hw => hw⟩
    | with_reducible apply Kept.ite
    | split
    | extract_lets
    | (dsimp +zetaDelta only; split)
    | (simp +zetaDelta [*]; done)

theorem State.refuseHostBy_kept {s : State} {ev : Raise} {r : Ring} {addr : Nat} {n : Need} (kregs : l .regs = true) (khost : l .host = true) (kfree : l .free = true) (evK : ∀ d loc code cls ext arg0 arg1 u, Kept l o u → Kept l o (ev d loc code cls ext arg0 arg1 u)) (h : Kept l o s) :
    Kept l o (State.refuseHostBy ev r addr n s) := by
  unfold State.refuseHostBy
  repeat' first
    | with_reducible assumption
    | exact fun hw => hw
    | intro _
    | with_reducible apply evK
    | with_reducible apply State.countMiss_kept
    | with_reducible apply State.reportRefusedBy_kept
    | with_reducible apply State.bump_kept
    | with_reducible apply State.foldl_kept
    | exact ⟨Nat.le_refl _, fun hw => hw⟩
    | with_reducible apply Kept.ite
    | split
    | extract_lets
    | (dsimp +zetaDelta only; split)
    | (simp +zetaDelta [*]; done)
    | (simp only [HostIf.wf] at *; simp +zetaDelta [*]; done)

theorem State.ringErrorBy_kept {s : State} {ev : Raise} {n : Nat} {isEvq : Bool} {why : Nat} (kregs : l .regs = true) (khost : l .host = true) (kflt : l .flt = true) (kimg : l .img = true) (evK : ∀ d loc code cls ext arg0 arg1 u, Kept l o u → Kept l o (ev d loc code cls ext arg0 arg1 u)) (h : Kept l o s) :
    Kept l o (State.ringErrorBy ev n isEvq why s) := by
  unfold State.ringErrorBy
  repeat' first
    | with_reducible assumption
    | exact fun hw => hw
    | intro _
    | with_reducible apply evK
    | with_reducible apply State.setEvq_kept
    | with_reducible apply State.setRing_kept
    | with_reducible apply State.bump_kept
    | with_reducible apply State.collectBy_kept
    | with_reducible apply State.wr_kept
    | with_reducible apply State.foldl_kept
    | exact ⟨Nat.le_refl _, fun hw => hw⟩
    | with_reducible apply Kept.ite
    | split
    | extract_lets
    | (dsimp +zetaDelta only; split)
    | (simp +zetaDelta [*]; done)
    | (simp only [HostIf.wf, Flt.wf] at *; simp +zetaDelta [*]; done)

theorem State.evqFailed_kept {s : State} {ev : Raise} {q : Nat} {p : Pushed} (kregs : l .regs = true) (khost : l .host = true) (kflt : l .flt = true) (kimg : l .img = true) (kfree : l .free = true) (evK : ∀ d loc code cls ext arg0 arg1 u, Kept l o u → Kept l o (ev d loc code cls ext arg0 arg1 u)) (h : Kept l o s) :
    Kept l o (State.evqFailed ev q p s) := by
  unfold State.evqFailed
  repeat' first
    | with_reducible assumption
    | exact fun hw => hw
    | intro _
    | with_reducible apply evK
    | with_reducible apply State.ringErrorBy_kept
    | with_reducible apply State.refuseHostBy_kept
    | with_reducible apply State.foldl_kept
    | exact ⟨Nat.le_refl _, fun hw => hw⟩
    | with_reducible apply Kept.ite
    | split
    | extract_lets
    | (dsimp +zetaDelta only; split)
    | (simp +zetaDelta [*]; done)
    | (simp only [HostIf.wf, Flt.wf] at *; simp +zetaDelta [*]; done)

theorem State.raiseN_kept {s : State} {n d loc code cls ext arg0 arg1 : Nat} (kregs : l .regs = true) (khost : l .host = true)
    (kflt : l .flt = true) (kimg : l .img = true) (kout : l .out = true) (kfree : l .free = true) (h : Kept l o s) :
    Kept l o (s.raiseN n d loc code cls ext arg0 arg1) := by
  induction n generalizing s d loc code cls ext arg0 arg1 with
  | zero => exact State.raiseOnce_kept kregs khost kout h
  | succ n ih =>
    unfold State.raiseN
    have k := State.raiseOnce_kept (d := d) (loc := loc) (code := code) (cls := cls) (ext := ext) (arg0 := arg0) (arg1 := arg1) kregs khost kout h
    exact State.evqFailed_kept kregs khost kflt kimg kfree (fun _ _ _ _ _ _ _ _ hu => ih hu) k

theorem State.raise_kept {s : State} {d : Nat} {loc : Nat} {code : Nat} {cls : Nat} {ext : Nat} {arg0 : Nat} {arg1 : Nat} (kregs : l .regs = true) (khost : l .host = true) (kflt : l .flt = true) (kimg : l .img = true) (kout : l .out = true) (kfree : l .free = true) (h : Kept l o s) :
    Kept l o (State.raise d loc code cls ext arg0 arg1 s) := by
  exact State.raiseN_kept kregs khost kflt kimg kout kfree h

theorem State.wrote_kept {r : State × Pushed} {q : Nat} (kregs : l .regs = true) (khost : l .host = true)
    (kflt : l .flt = true) (kimg : l .img = true) (kout : l .out = true) (kfree : l .free = true) (h : Kept l o r.1) :
    Kept l o (State.wrote q r) := by
  unfold State.wrote
  exact State.evqFailed_kept kregs khost kflt kimg kfree (fun _ _ _ _ _ _ _ _ hu => State.raise_kept kregs khost kflt kimg kout kfree hu) h

theorem State.summary_kept {s : State} {n : Nat} (kregs : l .regs = true) (khost : l .host = true) (kflt : l .flt = true) (kimg : l .img = true) (kout : l .out = true) (kfree : l .free = true) (h : Kept l o s) :
    Kept l o (State.summary n s) := by
  unfold State.summary
  repeat' first
    | with_reducible assumption
    | exact fun hw => hw
    | intro _
    | with_reducible apply State.wrote_kept
    | with_reducible apply State.writeEvt_kept
    | with_reducible apply State.foldl_kept
    | exact ⟨Nat.le_refl _, fun hw => hw⟩
    | with_reducible apply Kept.ite
    | split
    | extract_lets
    | (dsimp +zetaDelta only; split)
    | (simp +zetaDelta [*]; done)
    | (simp only [HostIf.wf, Flt.wf] at *; simp +zetaDelta [*]; done)

theorem State.discard_kept {s : State} {path : Nat} {cause : Nat} {off : Nat} {value : Nat} (kregs : l .regs = true) (khost : l .host = true) (kflt : l .flt = true) (kimg : l .img = true) (kout : l .out = true) (kfree : l .free = true) (h : Kept l o s) :
    Kept l o (State.discard path cause off value s) := by
  unfold State.discard
  repeat' first
    | with_reducible assumption
    | exact fun hw => hw
    | intro _
    | with_reducible apply State.bump_kept
    | with_reducible apply State.wr_kept
    | with_reducible apply State.raise_kept
    | with_reducible apply State.foldl_kept
    | exact ⟨Nat.le_refl _, fun hw => hw⟩
    | with_reducible apply Kept.ite
    | split
    | extract_lets
    | (dsimp +zetaDelta only; split)
    | (simp +zetaDelta [*]; done)
    | (simp only [HostIf.wf, Flt.wf] at *; simp +zetaDelta [*]; done)

theorem State.fillFlt_kept {s : State} {i : Nat} {cause : Nat} {unit : Nat} {inj : Bool} {detail : Nat} {addr : Nat} (kregs : l .regs = true) (khost : l .host = true) (kflt : l .flt = true) (kimg : l .img = true) (kout : l .out = true) (kfree : l .free = true) (h : Kept l o s) :
    Kept l o (State.fillFlt i cause unit inj detail addr s) := by
  unfold State.fillFlt
  repeat' first
    | with_reducible assumption
    | exact fun hw => hw
    | intro _
    | with_reducible apply State.fillFltBy_kept
    | with_reducible apply State.raise_kept
    | with_reducible apply State.foldl_kept
    | exact ⟨Nat.le_refl _, fun hw => hw⟩
    | with_reducible apply Kept.ite
    | split
    | extract_lets
    | (dsimp +zetaDelta only; split)
    | (simp +zetaDelta [*]; done)
    | (simp only [HostIf.wf, Flt.wf] at *; simp +zetaDelta [*]; done)

theorem State.collectAs_kept {s : State} {cause : Nat} {unit : Nat} {inj : Bool} {detail : Nat} {addr : Nat} (kregs : l .regs = true) (khost : l .host = true) (kflt : l .flt = true) (kimg : l .img = true) (kout : l .out = true) (kfree : l .free = true) (h : Kept l o s) :
    Kept l o (State.collectAs cause unit inj detail addr s) := by
  unfold State.collectAs
  repeat' first
    | with_reducible assumption
    | exact fun hw => hw
    | intro _
    | with_reducible apply State.collectBy_kept
    | with_reducible apply State.raise_kept
    | with_reducible apply State.foldl_kept
    | exact ⟨Nat.le_refl _, fun hw => hw⟩
    | with_reducible apply Kept.ite
    | split
    | extract_lets
    | (dsimp +zetaDelta only; split)
    | (simp +zetaDelta [*]; done)
    | (simp only [HostIf.wf, Flt.wf] at *; simp +zetaDelta [*]; done)

theorem State.fault_kept {s : State} {cause : Nat} {unit : Nat} {addr : optParam Nat 0} {detail : optParam Nat 0} (kregs : l .regs = true) (khost : l .host = true) (kflt : l .flt = true) (kimg : l .img = true) (kout : l .out = true) (kfree : l .free = true) (h : Kept l o s) :
    Kept l o (State.fault cause unit addr detail s) := by
  unfold State.fault
  repeat' first
    | with_reducible assumption
    | exact fun hw => hw
    | intro _
    | with_reducible apply State.collectAs_kept
    | with_reducible apply State.foldl_kept
    | exact ⟨Nat.le_refl _, fun hw => hw⟩
    | with_reducible apply Kept.ite
    | split
    | extract_lets
    | (dsimp +zetaDelta only; split)
    | (simp +zetaDelta [*]; done)
    | (simp only [HostIf.wf, Flt.wf] at *; simp +zetaDelta [*]; done)

theorem State.fc2_kept {s : State} {d : Nat} {cause : Nat} {addr : Nat} (kregs : l .regs = true) (khost : l .host = true) (kflt : l .flt = true) (kimg : l .img = true) (kout : l .out = true) (kfree : l .free = true) (h : Kept l o s) :
    Kept l o (State.fc2 d cause addr s) := by
  unfold State.fc2
  repeat' first
    | with_reducible assumption
    | exact fun hw => hw
    | intro _
    | with_reducible apply State.fc2By_kept
    | with_reducible apply State.raise_kept
    | with_reducible apply State.foldl_kept
    | exact ⟨Nat.le_refl _, fun hw => hw⟩
    | with_reducible apply Kept.ite
    | split
    | extract_lets
    | (dsimp +zetaDelta only; split)
    | (simp +zetaDelta [*]; done)
    | (simp only [HostIf.wf, Flt.wf] at *; simp +zetaDelta [*]; done)

theorem State.reportRefused_kept {s : State} {u : Nat} {d : Nat} {a : RefAcc} (kregs : l .regs = true) (khost : l .host = true) (kflt : l .flt = true) (kimg : l .img = true) (kout : l .out = true) (kfree : l .free = true) (h : Kept l o s) :
    Kept l o (State.reportRefused u d a s) := by
  unfold State.reportRefused
  repeat' first
    | with_reducible assumption
    | exact fun hw => hw
    | intro _
    | with_reducible apply State.reportRefusedBy_kept
    | with_reducible apply State.raise_kept
    | with_reducible apply State.foldl_kept
    | exact ⟨Nat.le_refl _, fun hw => hw⟩
    | with_reducible apply Kept.ite
    | split
    | extract_lets
    | (dsimp +zetaDelta only; split)
    | (simp +zetaDelta [*]; done)
    | (simp only [HostIf.wf, Flt.wf] at *; simp +zetaDelta [*]; done)

theorem State.refuseHost_kept {s : State} {r : Ring} {addr : Nat} {n : Need} (kregs : l .regs = true) (khost : l .host = true) (kflt : l .flt = true) (kimg : l .img = true) (kout : l .out = true) (kfree : l .free = true) (h : Kept l o s) :
    Kept l o (State.refuseHost r addr n s) := by
  unfold State.refuseHost
  repeat' first
    | with_reducible assumption
    | exact fun hw => hw
    | intro _
    | with_reducible apply State.refuseHostBy_kept
    | with_reducible apply State.raise_kept
    | with_reducible apply State.foldl_kept
    | exact ⟨Nat.le_refl _, fun hw => hw⟩
    | with_reducible apply Kept.ite
    | split
    | extract_lets
    | (dsimp +zetaDelta only; split)
    | (simp +zetaDelta [*]; done)
    | (simp only [HostIf.wf, Flt.wf] at *; simp +zetaDelta [*]; done)

theorem State.ringError_kept {s : State} {n : Nat} {isEvq : Bool} {why : Nat} (kregs : l .regs = true) (khost : l .host = true) (kflt : l .flt = true) (kimg : l .img = true) (kout : l .out = true) (kfree : l .free = true) (h : Kept l o s) :
    Kept l o (State.ringError n isEvq why s) := by
  unfold State.ringError
  repeat' first
    | with_reducible assumption
    | exact fun hw => hw
    | intro _
    | with_reducible apply State.ringErrorBy_kept
    | with_reducible apply State.raise_kept
    | with_reducible apply State.foldl_kept
    | exact ⟨Nat.le_refl _, fun hw => hw⟩
    | with_reducible apply Kept.ite
    | split
    | extract_lets
    | (dsimp +zetaDelta only; split)
    | (simp +zetaDelta [*]; done)
    | (simp only [HostIf.wf, Flt.wf] at *; simp +zetaDelta [*]; done)

theorem State.condition_kept {s : State} {cause : Nat} {unit : Nat} (kregs : l .regs = true) (khost : l .host = true) (kflt : l .flt = true) (kimg : l .img = true) (kout : l .out = true) (kfree : l .free = true) (h : Kept l o s) :
    Kept l o (State.condition cause unit s) := by
  unfold State.condition
  repeat' first
    | with_reducible assumption
    | exact fun hw => hw
    | intro _
    | with_reducible apply State.fault_kept
    | with_reducible apply State.onFlt_kept
    | with_reducible apply State.foldl_kept
    | exact ⟨Nat.le_refl _, fun hw => hw⟩
    | with_reducible apply Kept.ite
    | split
    | extract_lets
    | (dsimp +zetaDelta only; split)
    | (simp +zetaDelta [*]; done)
    | (simp only [HostIf.wf, Flt.wf] at *; simp +zetaDelta [*]; done)

theorem State.conditionEnd_kept {s : State} {cause : Nat} {unit : Nat} (kflt : l .flt = true) (h : Kept l o s) :
    Kept l o (State.conditionEnd cause unit s) := by
  unfold State.conditionEnd
  repeat' first
    | with_reducible assumption
    | exact fun hw => hw
    | intro _
    | with_reducible apply State.onFlt_kept
    | with_reducible apply State.foldl_kept
    | exact ⟨Nat.le_refl _, fun hw => hw⟩
    | with_reducible apply Kept.ite
    | split
    | extract_lets
    | (dsimp +zetaDelta only; split)
    | (simp +zetaDelta [*]; done)
    | (simp only [Flt.wf] at *; simp +zetaDelta [*]; done)

theorem State.fc0_kept {s : State} {loc : Nat} {code : Nat} {ext : Nat} {arg0 : Nat} {arg1 : Nat} (kregs : l .regs = true) (khost : l .host = true) (kflt : l .flt = true) (kimg : l .img = true) (kout : l .out = true) (kfree : l .free = true) (h : Kept l o s) :
    Kept l o (State.fc0 loc code ext arg0 arg1 s) := by
  unfold State.fc0
  repeat' first
    | with_reducible assumption
    | exact fun hw => hw
    | intro _
    | with_reducible apply State.raise_kept
    | with_reducible apply State.foldl_kept
    | exact ⟨Nat.le_refl _, fun hw => hw⟩
    | with_reducible apply Kept.ite
    | split
    | extract_lets
    | (dsimp +zetaDelta only; split)
    | (simp +zetaDelta [*]; done)
    | (simp only [HostIf.wf, Flt.wf] at *; simp +zetaDelta [*]; done)

theorem State.ringShadow_kept {s : State} {r : Ring} {prod : Nat} (kregs : l .regs = true) (khost : l .host = true) (kflt : l .flt = true) (kimg : l .img = true) (kout : l .out = true) (kfree : l .free = true) (h : Kept l o s) :
    Kept l o (State.ringShadow r prod s) := by
  unfold State.ringShadow
  repeat' first
    | with_reducible assumption
    | exact fun hw => hw
    | intro _
    | with_reducible apply State.writeShadow_kept
    | with_reducible apply State.refuseHost_kept
    | with_reducible apply State.foldl_kept
    | exact ⟨Nat.le_refl _, fun hw => hw⟩
    | with_reducible apply Kept.ite
    | split
    | extract_lets
    | (dsimp +zetaDelta only; split)
    | (simp +zetaDelta [*]; done)
    | (simp only [HostIf.wf, Flt.wf] at *; simp +zetaDelta [*]; done)

theorem State.pushCpl_kept {s : State} {n : Nat} {r : Ring} {c : CplRec} (kregs : l .regs = true) (khost : l .host = true) (kflt : l .flt = true) (kimg : l .img = true) (kout : l .out = true) (kfree : l .free = true) (h : Kept l o s) :
    Kept l o (State.pushCpl n r c s) := by
  unfold State.pushCpl
  repeat' first
    | with_reducible assumption
    | exact fun hw => hw
    | intro _
    | with_reducible apply State.ringShadow_kept
    | with_reducible apply State.setRing_kept
    | with_reducible apply State.emit_kept
    | with_reducible apply State.setSource_kept
    | with_reducible apply State.wrote_kept
    | with_reducible apply State.writeEvt_kept
    | with_reducible apply State.bump_kept
    | with_reducible apply State.ringError_kept
    | with_reducible apply State.refuseHost_kept
    | with_reducible apply State.foldl_kept
    | exact ⟨Nat.le_refl _, fun hw => hw⟩
    | with_reducible apply Kept.ite
    | split
    | extract_lets
    | (dsimp +zetaDelta only; split)
    | (simp +zetaDelta [*]; done)
    | (simp only [HostIf.wf, Flt.wf] at *; simp +zetaDelta [*]; done)

theorem State.unreserved_kept {s : State} {n : Nat} {c : CplRec} (kregs : l .regs = true) (khost : l .host = true) (kflt : l .flt = true) (kimg : l .img = true) (kout : l .out = true) (kfree : l .free = true) (h : Kept l o s) :
    Kept l o (State.unreserved n c s) := by
  unfold State.unreserved
  repeat' first
    | with_reducible assumption
    | exact fun hw => hw
    | intro _
    | with_reducible apply State.pushCpl_kept
    | with_reducible apply State.bump_kept
    | with_reducible apply State.setRing_kept
    | with_reducible apply State.raise_kept
    | with_reducible apply State.foldl_kept
    | exact ⟨Nat.le_refl _, fun hw => hw⟩
    | with_reducible apply Kept.ite
    | split
    | extract_lets
    | (dsimp +zetaDelta only; split)
    | (simp +zetaDelta [*]; done)
    | (simp only [HostIf.wf, Flt.wf] at *; simp +zetaDelta [*]; done)

theorem State.complete_kept {s : State} {h1 : Hdr} {c : Cpl} (kregs : l .regs = true) (khost : l .host = true) (kflt : l .flt = true) (kimg : l .img = true) (kout : l .out = true) (kfree : l .free = true) (h : Kept l o s) :
    Kept l o (State.complete h1 c s) := by
  unfold State.complete
  repeat' first
    | with_reducible assumption
    | exact fun hw => hw
    | intro _
    | with_reducible apply State.bump_kept
    | with_reducible apply State.setRing_kept
    | with_reducible apply State.unreserved_kept
    | with_reducible apply State.pushCpl_kept
    | with_reducible apply State.foldl_kept
    | exact ⟨Nat.le_refl _, fun hw => hw⟩
    | with_reducible apply Kept.ite
    | split
    | extract_lets
    | (dsimp +zetaDelta only; split)
    | (simp +zetaDelta [*]; done)
    | (simp only [HostIf.wf, Flt.wf] at *; simp +zetaDelta [*]; done)

theorem State.done_kept {s : State} {h1 : Hdr} {st : Status} (kregs : l .regs = true) (khost : l .host = true) (kflt : l .flt = true) (kimg : l .img = true) (kout : l .out = true) (kfree : l .free = true) (h : Kept l o s) :
    Kept l o (State.done h1 st s) := by
  unfold State.done
  repeat' first
    | with_reducible assumption
    | exact fun hw => hw
    | intro _
    | with_reducible apply State.complete_kept
    | with_reducible apply State.foldl_kept
    | exact ⟨Nat.le_refl _, fun hw => hw⟩
    | with_reducible apply Kept.ite
    | split
    | extract_lets
    | (dsimp +zetaDelta only; split)
    | (simp +zetaDelta [*]; done)
    | (simp only [HostIf.wf, Flt.wf] at *; simp +zetaDelta [*]; done)

theorem State.denied_kept {s : State} {h1 : Hdr} {code : Nat} (kregs : l .regs = true) (khost : l .host = true) (kflt : l .flt = true) (kimg : l .img = true) (kout : l .out = true) (kfree : l .free = true) (h : Kept l o s) :
    Kept l o (State.denied h1 code s) := by
  unfold State.denied
  repeat' first
    | with_reducible assumption
    | exact fun hw => hw
    | intro _
    | with_reducible apply State.complete_kept
    | with_reducible apply State.foldl_kept
    | exact ⟨Nat.le_refl _, fun hw => hw⟩
    | with_reducible apply Kept.ite
    | split
    | extract_lets
    | (dsimp +zetaDelta only; split)
    | (simp +zetaDelta [*]; done)
    | (simp only [HostIf.wf, Flt.wf] at *; simp +zetaDelta [*]; done)

theorem State.bad_kept {s : State} {h1 : Hdr} {code : Nat} (kregs : l .regs = true) (khost : l .host = true) (kflt : l .flt = true) (kimg : l .img = true) (kout : l .out = true) (kfree : l .free = true) (h : Kept l o s) :
    Kept l o (State.bad h1 code s) := by
  unfold State.bad
  repeat' first
    | with_reducible assumption
    | exact fun hw => hw
    | intro _
    | with_reducible apply State.complete_kept
    | with_reducible apply State.foldl_kept
    | exact ⟨Nat.le_refl _, fun hw => hw⟩
    | with_reducible apply Kept.ite
    | split
    | extract_lets
    | (dsimp +zetaDelta only; split)
    | (simp +zetaDelta [*]; done)
    | (simp only [HostIf.wf, Flt.wf] at *; simp +zetaDelta [*]; done)

theorem State.tell_kept {s : State} {h1 : Option Hdr} {c : Cpl} (kregs : l .regs = true) (khost : l .host = true) (kflt : l .flt = true) (kimg : l .img = true) (kout : l .out = true) (kfree : l .free = true) (h : Kept l o s) :
    Kept l o (State.tell h1 c s) := by
  unfold State.tell
  repeat' first
    | with_reducible assumption
    | exact fun hw => hw
    | intro _
    | with_reducible apply State.complete_kept
    | with_reducible apply State.foldl_kept
    | exact ⟨Nat.le_refl _, fun hw => hw⟩
    | with_reducible apply Kept.ite
    | split
    | extract_lets
    | (dsimp +zetaDelta only; split)
    | (simp +zetaDelta [*]; done)
    | (simp only [HostIf.wf, Flt.wf] at *; simp +zetaDelta [*]; done)

theorem State.pushStat_kept {s : State} {n : Nat} {r : Ring} {w : List Nat} (kregs : l .regs = true) (khost : l .host = true) (kflt : l .flt = true) (kimg : l .img = true) (kout : l .out = true) (kfree : l .free = true) (h : Kept l o s) :
    Kept l o (State.pushStat n r w s) := by
  unfold State.pushStat
  repeat' first
    | with_reducible assumption
    | exact fun hw => hw
    | intro _
    | with_reducible apply State.ringShadow_kept
    | with_reducible apply State.setRing_kept
    | with_reducible apply State.emit_kept
    | with_reducible apply State.ringError_kept
    | with_reducible apply State.refuseHost_kept
    | with_reducible apply State.foldl_kept
    | exact ⟨Nat.le_refl _, fun hw => hw⟩
    | with_reducible apply Kept.ite
    | split
    | extract_lets
    | (dsimp +zetaDelta only; split)
    | (simp +zetaDelta [*]; done)
    | (simp only [HostIf.wf, Flt.wf] at *; simp +zetaDelta [*]; done)

theorem State.stat_kept {s : State} {d : Nat} {w : List Nat} (kregs : l .regs = true) (khost : l .host = true) (kflt : l .flt = true) (kimg : l .img = true) (kout : l .out = true) (kfree : l .free = true) (h : Kept l o s) :
    Kept l o (State.stat d w s) := by
  unfold State.stat
  repeat' first
    | with_reducible assumption
    | exact fun hw => hw
    | intro _
    | with_reducible apply State.pushStat_kept
    | with_reducible apply State.bump_kept
    | with_reducible apply State.setRing_kept
    | with_reducible apply State.foldl_kept
    | exact ⟨Nat.le_refl _, fun hw => hw⟩
    | with_reducible apply Kept.ite
    | split
    | extract_lets
    | (dsimp +zetaDelta only; split)
    | (simp +zetaDelta [*]; done)
    | (simp only [HostIf.wf, Flt.wf] at *; simp +zetaDelta [*]; done)

/-! ### Machine/Hooks.lean -/

theorem State.stallTime_kept {s : State} {k : Nat} (kregs : l .regs = true) (h : Kept l o s) :
    Kept l o (State.stallTime k s) := by
  unfold State.stallTime
  repeat' first
    | with_reducible assumption
    | exact fun hw => hw
    | intro _
    | with_reducible apply State.forAll_kept
    | with_reducible apply State.bump_kept
    | with_reducible apply State.foldl_kept
    | exact ⟨Nat.le_refl _, fun hw => hw⟩
    | with_reducible apply Kept.ite
    | split
    | extract_lets
    | (dsimp +zetaDelta only; split)
    | (simp +zetaDelta [*]; done)

theorem State.sendCore_kept {s : State} {m : CoreMsg} (kfab : l .fab = true) (kout : l .out = true) (h : Kept l o s) :
    Kept l o (State.sendCore m s) := by
  unfold State.sendCore
  repeat' first
    | with_reducible assumption
    | exact fun hw => hw
    | intro _
    | with_reducible apply State.onFab_kept
    | with_reducible apply State.emit_kept
    | with_reducible apply State.foldl_kept
    | exact ⟨Nat.le_refl _, fun hw => hw⟩
    | with_reducible apply Kept.ite
    | split
    | extract_lets
    | (dsimp +zetaDelta only; split)
    | (simp +zetaDelta [*]; done)
    | (simp only [Fab.wf] at *; simp +zetaDelta [*]; done)

theorem State.addCounter_kept {s : State} {key : Nat} {c : Counter} {amt : Nat} {x : Counted} (kregs : l .regs = true) (khost : l .host = true) (kflt : l .flt = true) (kimg : l .img = true) (kout : l .out = true) (kfree : l .free = true) (h : Kept l o s) :
    Kept l o (State.addCounter key c amt x s) := by
  unfold State.addCounter
  repeat' first
    | with_reducible assumption
    | exact fun hw => hw
    | intro _
    | with_reducible apply State.onHost_kept
    | with_reducible apply State.bump_kept
    | with_reducible apply State.raise_kept
    | with_reducible apply State.foldl_kept
    | exact ⟨Nat.le_refl _, fun hw => hw⟩
    | with_reducible apply Kept.ite
    | split
    | extract_lets
    | (dsimp +zetaDelta only; split)
    | (simp +zetaDelta [*]; done)
    | (simp only [HostIf.wf, Flt.wf] at *; simp +zetaDelta [*]; done)

theorem State.count_kept {s : State} {sel : Nat} {unit : Nat} {amt : Nat} {x : Counted} (kregs : l .regs = true) (khost : l .host = true) (kflt : l .flt = true) (kimg : l .img = true) (kout : l .out = true) (kfree : l .free = true) (h : Kept l o s) :
    Kept l o (State.count sel unit amt x s) := by
  unfold State.count
  repeat' first
    | with_reducible assumption
    | exact fun hw => hw
    | intro _
    | with_reducible apply State.addCounter_kept
    | with_reducible apply State.foldl_kept
    | exact ⟨Nat.le_refl _, fun hw => hw⟩
    | with_reducible apply Kept.ite
    | split
    | extract_lets
    | (dsimp +zetaDelta only; split)
    | (simp +zetaDelta [*]; done)
    | (simp only [HostIf.wf, Flt.wf] at *; simp +zetaDelta [*]; done)

theorem State.levels_kept {s : State} {n : Nat} (kregs : l .regs = true) (khost : l .host = true) (kflt : l .flt = true) (kimg : l .img = true) (kout : l .out = true) (kfree : l .free = true) (h : Kept l o s) :
    Kept l o (State.levels n s) := by
  unfold State.levels
  repeat' first
    | with_reducible assumption
    | exact fun hw => hw
    | intro _
    | with_reducible apply State.addCounter_kept
    | with_reducible apply State.nextFree_kept
    | with_reducible apply State.foldl_kept
    | exact ⟨Nat.le_refl _, fun hw => hw⟩
    | with_reducible apply Kept.ite
    | split
    | extract_lets
    | (dsimp +zetaDelta only; split)
    | (simp +zetaDelta [*]; done)
    | (simp only [HostIf.wf, Flt.wf] at *; simp +zetaDelta [*]; done)

theorem State.setBucket_kept {s : State} {key : Nat} {b : Option Bucket} (ktabs : l .tabs = true) (h : Kept l o s) :
    Kept l o (State.setBucket key b s) := by
  unfold State.setBucket
  repeat' first
    | with_reducible assumption
    | exact fun hw => hw
    | intro _
    | with_reducible apply State.onTabs_kept
    | with_reducible apply State.foldl_kept
    | exact ⟨Nat.le_refl _, fun hw => hw⟩
    | with_reducible apply Kept.ite
    | split
    | extract_lets
    | (dsimp +zetaDelta only; split)
    | (simp +zetaDelta [*]; done)
    | (simp only [Tabs.wf] at *; simp +zetaDelta [*]; done)

theorem State.onBucket_kept {s : State} {key : Nat} {f : Bucket → Bucket} (ktabs : l .tabs = true) (h : Kept l o s) :
    Kept l o (State.onBucket key f s) := by
  unfold State.onBucket
  repeat' first
    | with_reducible assumption
    | exact fun hw => hw
    | intro _
    | with_reducible apply State.onTabs_kept
    | with_reducible apply State.foldl_kept
    | exact ⟨Nat.le_refl _, fun hw => hw⟩
    | with_reducible apply Kept.ite
    | split
    | extract_lets
    | (dsimp +zetaDelta only; split)
    | (simp +zetaDelta [*]; done)
    | (simp only [Tabs.wf] at *; simp +zetaDelta [*]; done)

theorem State.chargeBuckets_kept {s : State} {l1 : List (Nat × Bucket × BucketDec)} {bytes : Nat} (kregs : l .regs = true) (ktabs : l .tabs = true) (h : Kept l o s) :
    Kept l o (State.chargeBuckets l1 bytes s) := by
  unfold State.chargeBuckets
  repeat' first
    | with_reducible assumption
    | exact fun hw => hw
    | intro _
    | with_reducible apply State.forAll_kept
    | with_reducible apply State.onBucket_kept
    | with_reducible apply State.bump_kept
    | with_reducible apply State.foldl_kept
    | exact ⟨Nat.le_refl _, fun hw => hw⟩
    | with_reducible apply Kept.ite
    | split
    | extract_lets
    | (dsimp +zetaDelta only; split)
    | (simp +zetaDelta [*]; done)
    | (simp only [Tabs.wf] at *; simp +zetaDelta [*]; done)

theorem State.countNc_kept {s : State} {l1 : List (Nat × Bucket × BucketDec)} {bytes : Nat} (ktabs : l .tabs = true) (h : Kept l o s) :
    Kept l o (State.countNc l1 bytes s) := by
  unfold State.countNc
  repeat' first
    | with_reducible assumption
    | exact fun hw => hw
    | intro _
    | with_reducible apply State.forAll_kept
    | with_reducible apply State.onBucket_kept
    | with_reducible apply State.foldl_kept
    | exact ⟨Nat.le_refl _, fun hw => hw⟩
    | with_reducible apply Kept.ite
    | split
    | extract_lets
    | (dsimp +zetaDelta only; split)
    | (simp +zetaDelta [*]; done)
    | (simp only [Tabs.wf] at *; simp +zetaDelta [*]; done)

theorem State.bucketTime_kept {s : State} {n : Nat} (kregs : l .regs = true) (ktabs : l .tabs = true) (h : Kept l o s) :
    Kept l o (State.bucketTime n s) := by
  unfold State.bucketTime
  repeat' first
    | with_reducible assumption
    | exact fun hw => hw
    | intro _
    | with_reducible apply State.bump_kept
    | with_reducible apply State.forAll_kept
    | with_reducible apply State.onBucket_kept
    | with_reducible apply State.foldl_kept
    | exact ⟨Nat.le_refl _, fun hw => hw⟩
    | with_reducible apply Kept.ite
    | split
    | extract_lets
    | (dsimp +zetaDelta only; split)
    | (simp +zetaDelta [*]; done)
    | (simp only [Tabs.wf] at *; simp +zetaDelta [*]; done)

theorem State.spend_kept {s : State} {idx : Nat} {n : Nat} {rt : Option Nat} (kbel : l .bel = true) (h : Kept l o s) :
    Kept l o (State.spend idx n rt s) := by
  unfold State.spend
  repeat' first
    | with_reducible assumption
    | exact fun hw => hw
    | intro _
    | with_reducible apply State.onBel_kept
    | with_reducible apply State.foldl_kept
    | exact ⟨Nat.le_refl _, fun hw => hw⟩
    | with_reducible apply Kept.ite
    | split
    | extract_lets
    | (dsimp +zetaDelta only; split)
    | (simp +zetaDelta [*]; done)
    | (simp only [Bel.wf] at *; simp +zetaDelta [*]; done)

theorem State.spendCycles_kept {s : State} {i : Item} {n : Nat} (kbel : l .bel = true) (h : Kept l o s) :
    Kept l o (State.spendCycles i n s) := by
  unfold State.spendCycles
  repeat' first
    | with_reducible assumption
    | exact fun hw => hw
    | intro _
    | with_reducible apply State.spend_kept
    | with_reducible apply State.foldl_kept
    | exact ⟨Nat.le_refl _, fun hw => hw⟩
    | with_reducible apply Kept.ite
    | split
    | extract_lets
    | (dsimp +zetaDelta only; split)
    | (simp +zetaDelta [*]; done)
    | (simp only [Bel.wf] at *; simp +zetaDelta [*]; done)

theorem State.engineCycles_kept {s : State} {n : Nat} (keng : l .eng = true) (kbel : l .bel = true) (h : Kept l o s) :
    Kept l o (State.engineCycles n s) := by
  unfold State.engineCycles
  repeat' first
    | with_reducible assumption
    | exact fun hw => hw
    | intro _
    | with_reducible apply State.onEng_kept
    | with_reducible apply State.forAll_kept
    | with_reducible apply State.spendCycles_kept
    | with_reducible apply State.foldl_kept
    | exact ⟨Nat.le_refl _, fun hw => hw⟩
    | with_reducible apply Kept.ite
    | split
    | extract_lets
    | (dsimp +zetaDelta only; split)
    | (simp +zetaDelta [*]; done)
    | (simp only [Eng.wf, Bel.wf] at *; simp +zetaDelta [*]; done)

theorem State.passCclk_kept {s : State} {n : Nat} (kregs : l .regs = true) (khost : l .host = true) (kflt : l .flt = true) (keng : l .eng = true) (ktabs : l .tabs = true) (kbel : l .bel = true) (kimg : l .img = true) (kout : l .out = true) (kfree : l .free = true) (h : Kept l o s) :
    Kept l o (State.passCclk n s) := by
  unfold State.passCclk
  repeat' first
    | with_reducible assumption
    | exact fun hw => hw
    | intro _
    | with_reducible apply State.engineCycles_kept
    | with_reducible apply State.stallTime_kept
    | with_reducible apply State.bucketTime_kept
    | with_reducible apply State.levels_kept
    | with_reducible apply State.foldl_kept
    | exact ⟨Nat.le_refl _, fun hw => hw⟩
    | with_reducible apply Kept.ite
    | split
    | extract_lets
    | (dsimp +zetaDelta only; split)
    | (simp +zetaDelta [*]; done)
    | (simp only [HostIf.wf, Flt.wf, Eng.wf, Tabs.wf, Bel.wf] at *; simp +zetaDelta [*]; done)

theorem State.reach_kept {s : State} {t1 : Nat} (kregs : l .regs = true) (kpit : l .pit = true) (khost : l .host = true) (kflt : l .flt = true) (keng : l .eng = true) (ktabs : l .tabs = true) (kbel : l .bel = true) (kimg : l .img = true) (kout : l .out = true) (kfree : l .free = true) (h : Kept l o s) :
    Kept l o (State.reach t1 s) := by
  unfold State.reach
  repeat' first
    | with_reducible assumption
    | exact fun hw => hw
    | intro _
    | with_reducible apply State.onPit_kept
    | with_reducible apply State.passCclk_kept
    | with_reducible apply State.foldl_kept
    | exact ⟨Nat.le_refl _, fun hw => hw⟩
    | with_reducible apply Kept.ite
    | split
    | extract_lets
    | (dsimp +zetaDelta only; split)
    | (simp +zetaDelta [*]; done)
    | (simp only [HostIf.wf, Flt.wf, Eng.wf, Tabs.wf, Bel.wf] at *; simp +zetaDelta [*]; done)

theorem State.beginGap_kept {s : State} {n : Nat} (kregs : l .regs = true) (krecorder : l .recorder = true) (h : Kept l o s) :
    Kept l o (State.beginGap n s) := by
  unfold State.beginGap
  repeat' first
    | with_reducible assumption
    | exact fun hw => hw
    | intro _
    | with_reducible apply State.bump_kept
    | with_reducible apply State.onRec_kept
    | with_reducible apply State.foldl_kept
    | exact ⟨Nat.le_refl _, fun hw => hw⟩
    | with_reducible apply Kept.ite
    | split
    | extract_lets
    | (dsimp +zetaDelta only; split)
    | (simp +zetaDelta [*]; done)
    | (simp only [Rec.wf] at *; simp +zetaDelta [*]; done)

theorem Rec.closeChunk_wf {r : Rec} (tick : Nat) (last : Bool) (xs : List RecItem) (h : r.wf) : (r.closeChunk tick last xs).wf := by
  unfold Rec.closeChunk
  dsimp only
  split <;> exact h

theorem Rec.cut_wf {r : Rec} (tick : Nat) (x : RecItem) (h : r.wf) : (r.cut tick x).wf := by
  unfold Rec.cut
  split
  · have key : ∀ (xs : List (List RecItem)) (r : Rec), r.wf → (xs.foldl (fun r l => r.closeChunk tick false l) r).wf := by
      intro xs
      induction xs with
      | nil => exact fun _ hr => hr
      | cons a xs ih => exact fun r hr => ih _ (Rec.closeChunk_wf tick false a hr)
    exact key _ _ h
  · exact h

theorem State.capture_kept {s : State} {kind unit flags len : Nat} {words : List Nat} (kregs : l .regs = true)
    (krecorder : l .recorder = true) (h : Kept l o s) : Kept l o (s.capture kind unit flags len words) := by
  unfold State.capture
  split
  · exact h
  · have take : Kept l o (s.onRec fun r =>
        let r := r.cut s.pit.tick ⟨kind, unit, flags, s.cclkInTick, words, len⟩
        { r with used := r.used + len, high := max r.high (r.used + len) }) :=
      State.onRec_kept krecorder (fun hw => Rec.cut_wf (r := s.rec_) _ _ hw) h
    repeat' first
      | with_reducible apply State.bump_kept
      | with_reducible assumption
      | with_reducible apply State.beginGap_kept
      | split

theorem State.captureCfg_kept {s : State} {table : Nat} {index : Nat} {words : List Nat} (kregs : l .regs = true) (krecorder : l .recorder = true) (h : Kept l o s) :
    Kept l o (State.captureCfg table index words s) := by
  unfold State.captureCfg
  repeat' first
    | with_reducible assumption
    | exact fun hw => hw
    | intro _
    | with_reducible apply State.capture_kept
    | with_reducible apply State.foldl_kept
    | exact ⟨Nat.le_refl _, fun hw => hw⟩
    | with_reducible apply Kept.ite
    | split
    | extract_lets
    | (dsimp +zetaDelta only; split)
    | (simp +zetaDelta [*]; done)
    | (simp only [Rec.wf] at *; simp +zetaDelta [*]; done)

theorem State.captureSide_kept {s : State} {unit : Nat} {kind : Nat} {value : Nat} (kregs : l .regs = true) (krecorder : l .recorder = true) (h : Kept l o s) :
    Kept l o (State.captureSide unit kind value s) := by
  unfold State.captureSide
  repeat' first
    | with_reducible assumption
    | exact fun hw => hw
    | intro _
    | with_reducible apply State.capture_kept
    | with_reducible apply State.foldl_kept
    | exact ⟨Nat.le_refl _, fun hw => hw⟩
    | with_reducible apply Kept.ite
    | split
    | extract_lets
    | (dsimp +zetaDelta only; split)
    | (simp +zetaDelta [*]; done)
    | (simp only [Rec.wf] at *; simp +zetaDelta [*]; done)

theorem State.digest_kept {s : State} {ep : Nat} {n : Nat} {bytes : Nat} {vs : List Nat} (krecorder : l .recorder = true) (h : Kept l o s) :
    Kept l o (State.digest ep n bytes vs s) := by
  unfold State.digest
  repeat' first
    | with_reducible assumption
    | exact fun hw => hw
    | intro _
    | with_reducible apply State.onRec_kept
    | with_reducible apply State.foldl_kept
    | exact ⟨Nat.le_refl _, fun hw => hw⟩
    | with_reducible apply Kept.ite
    | split
    | extract_lets
    | (dsimp +zetaDelta only; split)
    | (simp +zetaDelta [*]; done)
    | (simp only [Rec.wf] at *; simp +zetaDelta [*]; done)

theorem State.energy_kept {s : State} {f : Bel → Bel} (kbel : l .bel = true) (hf : s.bel.wf → (f s.bel).wf) (h : Kept l o s) :
    Kept l o (s.energy f) := State.onBel_kept kbel hf h

/-! ### Machine/SafeState.lean -/

theorem State.endEgress_kept {s : State} (kout : l .out = true) (h : Kept l o s) :
    Kept l o (State.endEgress s) := by
  unfold State.endEgress
  repeat' first
    | with_reducible assumption
    | exact fun hw => hw
    | intro _
    | with_reducible apply State.forAll_kept
    | with_reducible apply State.emit_kept
    | with_reducible apply State.foldl_kept
    | exact ⟨Nat.le_refl _, fun hw => hw⟩
    | with_reducible apply Kept.ite
    | split
    | extract_lets
    | (dsimp +zetaDelta only; split)
    | (simp +zetaDelta [*]; done)

theorem State.stopParts_kept {s : State} (kregs : l .regs = true) (ksys : l .sys = true) (keng : l .eng = true) (kfab : l .fab = true) (kbel : l .bel = true) (krecorder : l .recorder = true) (kout : l .out = true) (h : Kept l o s) :
    Kept l o (State.stopParts s) := by
  unfold State.stopParts
  repeat' first
    | with_reducible assumption
    | exact fun hw => hw
    | intro _
    | with_reducible apply State.onFab_kept
    | with_reducible apply State.endEgress_kept
    | with_reducible apply State.onEng_kept
    | with_reducible apply State.onSys_kept
    | with_reducible apply State.onBel_kept
    | with_reducible apply State.wr_kept
    | with_reducible apply State.onRec_kept
    | with_reducible apply State.foldl_kept
    | exact ⟨Nat.le_refl _, fun hw => hw⟩
    | with_reducible apply Kept.ite
    | split
    | extract_lets
    | (dsimp +zetaDelta only; split)
    | (simp +zetaDelta [*]; done)
    | (simp only [Sys.wf, Eng.wf, Fab.wf, Bel.wf, Rec.wf, Fab.freeAll] at *; simp +zetaDelta [*]; done)

theorem State.enterSafe_kept {s : State} {cause : Nat} (kregs : l .regs = true) (ksys : l .sys = true) (kflt : l .flt = true) (keng : l .eng = true) (kfab : l .fab = true) (kbel : l .bel = true) (krecorder : l .recorder = true) (kout : l .out = true) (h : Kept l o s) :
    Kept l o (State.enterSafe cause s) := by
  unfold State.enterSafe
  repeat' first
    | with_reducible assumption
    | exact fun hw => hw
    | intro _
    | with_reducible apply State.wr_kept
    | with_reducible apply State.onFlt_kept
    | with_reducible apply State.stopParts_kept
    | with_reducible apply State.onSys_kept
    | with_reducible apply State.driveFaultN_kept
    | with_reducible apply State.foldl_kept
    | exact ⟨Nat.le_refl _, fun hw => hw⟩
    | with_reducible apply Kept.ite
    | split
    | extract_lets
    | (dsimp +zetaDelta only; split)
    | (simp +zetaDelta [*]; done)
    | (simp only [Sys.wf, Flt.wf, Eng.wf, Fab.wf, Bel.wf, Rec.wf] at *; simp +zetaDelta [*]; done)

theorem State.fc4_kept {s : State} {cause : Nat} {unit : Nat} {addr : Nat} {table : optParam Bool true} (kregs : l .regs = true) (ksys : l .sys = true) (khost : l .host = true) (kflt : l .flt = true) (keng : l .eng = true) (kfab : l .fab = true) (kbel : l .bel = true) (krecorder : l .recorder = true) (kimg : l .img = true) (kout : l .out = true) (kfree : l .free = true) (h : Kept l o s) :
    Kept l o (State.fc4 cause unit addr table s) := by
  unfold State.fc4
  repeat' first
    | with_reducible assumption
    | exact fun hw => hw
    | intro _
    | with_reducible apply State.wr_kept
    | with_reducible apply State.collectAs_kept
    | with_reducible apply State.enterSafe_kept
    | with_reducible apply State.foldl_kept
    | exact ⟨Nat.le_refl _, fun hw => hw⟩
    | with_reducible apply Kept.ite
    | split
    | extract_lets
    | (dsimp +zetaDelta only; split)
    | (simp +zetaDelta [*]; done)
    | (simp only [Sys.wf, HostIf.wf, Flt.wf, Eng.wf, Fab.wf, Bel.wf, Rec.wf] at *; simp +zetaDelta [*]; done)

theorem State.powerFall_kept {s : State} (kregs : l .regs = true) (ksys : l .sys = true) (keng : l .eng = true) (kfab : l .fab = true) (kbel : l .bel = true) (krecorder : l .recorder = true) (kout : l .out = true) (h : Kept l o s) :
    Kept l o (State.powerFall s) := by
  unfold State.powerFall
  repeat' first
    | with_reducible assumption
    | exact fun hw => hw
    | intro _
    | with_reducible apply State.stopParts_kept
    | with_reducible apply State.onSys_kept
    | with_reducible apply State.foldl_kept
    | exact ⟨Nat.le_refl _, fun hw => hw⟩
    | with_reducible apply Kept.ite
    | split
    | extract_lets
    | (dsimp +zetaDelta only; split)
    | (simp +zetaDelta [*]; done)
    | (simp only [Sys.wf, Eng.wf, Fab.wf, Bel.wf, Rec.wf] at *; simp +zetaDelta [*]; done)

end Sys2Proof.Machine
end

