-- ==== Sys2Proof/Laws/KeptEngines.lean ====
section
/-! SUPPORT. What the operations and meanings keep (Laws/Kept.lean), for the governor, checked accesses, engines and their instructions. -/

namespace Sys2Proof.Machine

variable {l : Part → Bool} {o : State}

/-! ### Machine/Bellows.lean -/

theorem State.closeInterval_kept {s : State} {d : Nat} (kregs : l .regs = true) (khost : l .host = true) (kflt : l .flt = true) (kbel : l .bel = true) (kimg : l .img = true) (kout : l .out = true) (kfree : l .free = true) (h : Kept l o s) :
    Kept l o (State.closeInterval d s) := by
  unfold State.closeInterval
  repeat' first
    | with_reducible assumption
    | exact fun hw => hw
    | intro _
    | with_reducible apply State.onBel_kept
    | with_reducible apply State.bump_kept
    | with_reducible apply State.raise_kept
    | with_reducible apply State.fault_kept
    | with_reducible apply State.foldl_kept
    | exact ⟨Nat.le_refl _, fun hw => hw⟩
    | with_reducible apply Kept.ite
    | split
    | extract_lets
    | (dsimp +zetaDelta only; split)
    | (simp +zetaDelta [*]; done)
    | (simp only [HostIf.wf, Flt.wf, Bel.wf] at *; simp +zetaDelta [*]; done)

theorem State.l0pRequests_kept {s : State} (kports : l .ports = true) (kout : l .out = true) (h : Kept l o s) :
    Kept l o (State.l0pRequests s) := by
  unfold State.l0pRequests
  repeat' first
    | with_reducible assumption
    | exact fun hw => hw
    | intro _
    | with_reducible apply State.forAll_kept
    | with_reducible apply State.emit_kept
    | with_reducible apply State.onPort_kept
    | with_reducible apply State.foldl_kept
    | exact ⟨Nat.le_refl _, fun hw => hw⟩
    | with_reducible apply Kept.ite
    | split
    | extract_lets
    | (dsimp +zetaDelta only; split)
    | (simp +zetaDelta [*]; done)

theorem State.openInterval_kept {s : State} {off : Nat} (kregs : l .regs = true) (khost : l .host = true) (kflt : l .flt = true) (kbel : l .bel = true) (krecorder : l .recorder = true) (kimg : l .img = true) (kout : l .out = true) (kfree : l .free = true) (h : Kept l o s) :
    Kept l o (State.openInterval off s) := by
  unfold State.openInterval
  extract_lets s0 _ _ _ _ _ _ _ _ _ _ _ _ _ _ _ _ _ _ _ _ _ s1 s2
  have k0 : Kept l o s0 :=
    State.onBel_kept' kbel (fun _ hx => ⟨hx.1, Tab.wf_foldl _ _ (fun _ _ hu => Tab.wf_set hu) hx.2.1, hx.2.2⟩) h
  have k1 : Kept l o s1 := State.onBel_kept' kbel (fun x hx =>
    ⟨hx.1, hx.2.1, Tab.wf_mapAll (d := trafficAt) (t := x.traffic) (fun _ l => (0, 0) :: l.take 255) hx.2.2⟩) k0
  have k2 : Kept l o s2 := State.when_kept (fun _ => by apply State.capture_kept <;> with_reducible assumption) k1
  refine Kept.ite (fun _ => ?_) (fun _ => k2)
  apply State.raise_kept <;> try with_reducible assumption
  apply State.bump_kept <;> with_reducible assumption

theorem State.rampInterval_kept {s : State} (kregs : l .regs = true) (kpit : l .pit = true) (khost : l .host = true) (kflt : l .flt = true) (keng : l .eng = true) (ktabs : l .tabs = true) (kbel : l .bel = true) (kimg : l .img = true) (kout : l .out = true) (kfree : l .free = true) (h : Kept l o s) :
    Kept l o (State.rampInterval s) := by
  unfold State.rampInterval
  repeat' first
    | with_reducible assumption
    | exact fun hw => hw
    | intro _
    | with_reducible apply State.reach_kept
    | with_reducible apply State.onBel_kept
    | with_reducible apply State.nextFree_kept
    | with_reducible apply State.foldl_kept
    | exact ⟨Nat.le_refl _, fun hw => hw⟩
    | with_reducible apply Kept.ite
    | split
    | extract_lets
    | (dsimp +zetaDelta only; split)
    | (simp +zetaDelta [*]; done)
    | (simp only [HostIf.wf, Flt.wf, Eng.wf, Tabs.wf, Bel.wf] at *; simp +zetaDelta [*]; done)

theorem execBellowsInterval_kept {s : State} (kregs : l .regs = true) (kpit : l .pit = true) (khost : l .host = true) (kflt : l .flt = true) (keng : l .eng = true) (kports : l .ports = true) (ktabs : l .tabs = true) (kbel : l .bel = true) (krecorder : l .recorder = true) (kimg : l .img = true) (kout : l .out = true) (kfree : l .free = true) (h : Kept l o s) {t : State} (e : execBellowsInterval s = .next t) :
    Kept l o t := by
  cases e
  repeat' first
    | with_reducible assumption
    | exact fun hw => hw
    | intro _
    | with_reducible apply State.rampInterval_kept
    | with_reducible apply State.reach_kept
    | with_reducible apply State.closeInterval_kept
    | with_reducible apply State.l0pRequests_kept
    | with_reducible apply State.openInterval_kept
    | with_reducible apply State.foldl_kept
    | exact ⟨Nat.le_refl _, fun hw => hw⟩
    | with_reducible apply Kept.ite
    | split
    | extract_lets
    | (dsimp +zetaDelta only; split)
    | (simp +zetaDelta [*]; done)
    | (simp only [HostIf.wf, Flt.wf, Eng.wf, Tabs.wf, Bel.wf, Rec.wf] at *; simp +zetaDelta [*]; done)

theorem execTempSample_kept {s : State} {quarters : List Int} (kregs : l .regs = true) (ksys : l .sys = true) (kpit : l .pit = true) (khost : l .host = true) (kflt : l .flt = true) (keng : l .eng = true) (kfab : l .fab = true) (ktabs : l .tabs = true) (kbel : l .bel = true) (krecorder : l .recorder = true) (kimg : l .img = true) (kout : l .out = true) (kfree : l .free = true) (h : Kept l o s) {t : State} (e : execTempSample quarters s = .next t) :
    Kept l o t := by
  cases e
  repeat' first
    | with_reducible assumption
    | exact fun hw => hw
    | intro _
    | with_reducible apply State.onBel_kept'
    | with_reducible apply State.reach_kept
    | with_reducible apply State.forAll_kept
    | with_reducible apply State.capture_kept
    | with_reducible apply State.onLife_kept
    | with_reducible apply State.when_kept
    | with_reducible apply State.onSys_kept'
    | with_reducible apply State.fc0_kept
    | with_reducible apply State.condition_kept
    | with_reducible apply State.conditionEnd_kept
    | with_reducible apply State.fc4_kept
    | with_reducible apply State.onFlt_kept'
    | with_reducible apply State.foldl_kept
    | exact ⟨Nat.le_refl _, fun hw => hw⟩
    | exact fun _ => ⟨Nat.le_refl _, fun hw => hw⟩
    | with_reducible apply Kept.ite
    | split
    | extract_lets
    | (simp only [Sys.wf, HostIf.wf, Flt.wf, Eng.wf, Fab.wf, Tabs.wf, Bel.wf, Rec.wf] at *; simp +zetaDelta [*]; done)

theorem execRegulatorReading_kept {s : State} {mv : Option Nat} {ma : Option Nat} (kregs : l .regs = true) (ksys : l .sys = true) (khost : l .host = true) (kflt : l .flt = true) (kbel : l .bel = true) (krecorder : l .recorder = true) (kimg : l .img = true) (kout : l .out = true) (kfree : l .free = true) (h : Kept l o s) {t : State} (e : execRegulatorReading mv ma s = .next t) :
    Kept l o t := by
  cases e
  repeat' first
    | with_reducible assumption
    | exact fun hw => hw
    | intro _
    | with_reducible apply State.onBel_kept
    | with_reducible apply State.emit_kept
    | with_reducible apply State.capture_kept
    | with_reducible apply State.onLife_kept
    | with_reducible apply State.when_kept
    | with_reducible apply State.raise_kept
    | with_reducible apply State.fault_kept
    | with_reducible apply State.bump_kept
    | with_reducible apply State.condition_kept
    | with_reducible apply State.foldl_kept
    | exact ⟨Nat.le_refl _, fun hw => hw⟩
    | with_reducible apply Kept.ite
    | split
    | extract_lets
    | (dsimp +zetaDelta only; split)
    | (simp +zetaDelta [*]; done)
    | (simp only [Sys.wf, HostIf.wf, Flt.wf, Bel.wf, Rec.wf] at *; simp +zetaDelta [*]; done)

theorem State.closeAccount_kept {s : State} (kregs : l .regs = true) (kbel : l .bel = true) (h : Kept l o s) :
    Kept l o (State.closeAccount s) := by
  unfold State.closeAccount
  repeat' first
    | with_reducible assumption
    | exact fun hw => hw
    | intro _
    | with_reducible apply State.bump_kept
    | with_reducible apply State.onBel_kept
    | with_reducible apply State.foldl_kept
    | exact ⟨Nat.le_refl _, fun hw => hw⟩
    | with_reducible apply Kept.ite
    | split
    | extract_lets
    | (dsimp +zetaDelta only; split)
    | (simp +zetaDelta [*]; done)
    | (simp only [Bel.wf] at *; simp +zetaDelta [*]; done)

theorem State.rtOver_kept {s : State} {w : Nat} (kregs : l .regs = true) (khost : l .host = true) (kflt : l .flt = true) (kbel : l .bel = true) (kimg : l .img = true) (kout : l .out = true) (kfree : l .free = true) (h : Kept l o s) :
    Kept l o (State.rtOver w s) := by
  unfold State.rtOver
  repeat' first
    | with_reducible assumption
    | exact fun hw => hw
    | intro _
    | with_reducible apply State.onBel_kept
    | with_reducible apply State.raise_kept
    | with_reducible apply State.bump_kept
    | with_reducible apply State.foldl_kept
    | exact ⟨Nat.le_refl _, fun hw => hw⟩
    | with_reducible apply Kept.ite
    | split
    | extract_lets
    | (dsimp +zetaDelta only; split)
    | (simp +zetaDelta [*]; done)
    | (simp only [HostIf.wf, Flt.wf, Bel.wf] at *; simp +zetaDelta [*]; done)

/-! ### Machine/Cmd.lean -/

theorem State.command_kept {s : State} {h1 : Hdr} {any : Bool} {free : Bool} {ds : List Nat} {bad : Option Nat} {f : State → State} (kregs : l .regs = true) (khost : l .host = true) (kflt : l .flt = true) (kimg : l .img = true) (kout : l .out = true) (kfree : l .free = true) (fK : ∀ x, Kept l o x → Kept l o (f x)) (h : Kept l o s) :
    Kept l o (State.command h1 any free ds bad f s) := by
  unfold State.command
  repeat' first
    | with_reducible assumption
    | exact fun hw => hw
    | intro _
    | with_reducible apply fK
    | with_reducible apply State.done_kept
    | with_reducible apply State.bad_kept
    | with_reducible apply State.denied_kept
    | with_reducible apply State.foldl_kept
    | exact ⟨Nat.le_refl _, fun hw => hw⟩
    | with_reducible apply Kept.ite
    | split
    | extract_lets
    | (dsimp +zetaDelta only; split)
    | (simp +zetaDelta [*]; done)
    | (simp only [HostIf.wf, Flt.wf] at *; simp +zetaDelta [*]; done)

theorem State.manager_kept {s : State} {h1 : Hdr} {ds : List Nat} {bad : Option Nat} {f : State → State} (kregs : l .regs = true) (khost : l .host = true) (kflt : l .flt = true) (kimg : l .img = true) (kout : l .out = true) (kfree : l .free = true) (fK : ∀ x, Kept l o x → Kept l o (f x)) (h : Kept l o s) :
    Kept l o (State.manager h1 ds bad f s) := by
  unfold State.manager
  repeat' first
    | with_reducible assumption
    | exact fun hw => hw
    | intro _
    | with_reducible apply fK
    | with_reducible apply State.command_kept
    | with_reducible apply State.foldl_kept
    | exact ⟨Nat.le_refl _, fun hw => hw⟩
    | with_reducible apply Kept.ite
    | split
    | extract_lets
    | (dsimp +zetaDelta only; split)
    | (simp +zetaDelta [*]; done)
    | (simp only [HostIf.wf, Flt.wf] at *; simp +zetaDelta [*]; done)

theorem State.openEpoch_kept {s : State} (kfab : l .fab = true) (h : Kept l o s) :
    Kept l o (State.openEpoch s) := by
  unfold State.openEpoch
  repeat' first
    | with_reducible assumption
    | exact fun hw => hw
    | intro _
    | with_reducible apply State.onFab_kept
    | with_reducible apply State.foldl_kept
    | exact ⟨Nat.le_refl _, fun hw => hw⟩
    | with_reducible apply Kept.ite
    | split
    | extract_lets
    | (dsimp +zetaDelta only; split)
    | (simp +zetaDelta [*]; done)
    | (simp only [Fab.wf] at *; simp +zetaDelta [*]; done)

theorem State.tableChange_kept {s : State} {c : Instr} {f : State → State} (kfab : l .fab = true) (fK : ∀ x, Kept l o x → Kept l o (f x)) (h : Kept l o s) :
    Kept l o (State.tableChange c f s) := by
  unfold State.tableChange
  repeat' first
    | with_reducible assumption
    | exact fun hw => hw
    | intro _
    | with_reducible apply fK
    | with_reducible apply State.onFab_kept
    | with_reducible apply State.openEpoch_kept
    | with_reducible apply State.foldl_kept
    | exact ⟨Nat.le_refl _, fun hw => hw⟩
    | with_reducible apply Kept.ite
    | split
    | extract_lets
    | (dsimp +zetaDelta only; split)
    | (simp +zetaDelta [*]; done)
    | (simp only [Fab.wf] at *; simp +zetaDelta [*]; done)

/-! ### Machine/Access.lean -/

theorem State.countParts_kept {s : State} {u : Nat} {d : Nat} {rt : Option Nat} {word : Nat} {ds : List (Nat × Decision)} (kregs : l .regs = true) (khost : l .host = true) (kflt : l .flt = true) (kbel : l .bel = true) (kimg : l .img = true) (kout : l .out = true) (kfree : l .free = true) (h : Kept l o s) :
    Kept l o (State.countParts u d rt word ds s) := by
  unfold State.countParts
  repeat' first
    | with_reducible assumption
    | exact fun hw => hw
    | intro _
    | with_reducible apply State.spend_kept
    | with_reducible apply State.count_kept
    | with_reducible apply State.bump_kept
    | with_reducible apply State.foldl_kept
    | exact ⟨Nat.le_refl _, fun hw => hw⟩
    | with_reducible apply Kept.ite
    | split
    | extract_lets
    | (dsimp +zetaDelta only; split)
    | (simp +zetaDelta [*]; done)
    | (simp only [HostIf.wf, Flt.wf, Bel.wf] at *; simp +zetaDelta [*]; done)

theorem State.reportAcc_kept {s : State} {u : Nat} {d : Nat} {a : Option RefAcc} (kregs : l .regs = true) (khost : l .host = true) (kflt : l .flt = true) (kimg : l .img = true) (kout : l .out = true) (kfree : l .free = true) (h : Kept l o s) :
    Kept l o (State.reportAcc u d a s) := by
  unfold State.reportAcc
  repeat' first
    | with_reducible assumption
    | exact fun hw => hw
    | intro _
    | with_reducible apply State.reportRefused_kept
    | with_reducible apply State.foldl_kept
    | exact ⟨Nat.le_refl _, fun hw => hw⟩
    | with_reducible apply Kept.ite
    | split
    | extract_lets
    | (dsimp +zetaDelta only; split)
    | (simp +zetaDelta [*]; done)
    | (simp only [HostIf.wf, Flt.wf] at *; simp +zetaDelta [*]; done)

theorem State.readHost_kept {s : State} {u : Nat} {d : Nat} {o1 : HRef} {len : Nat} (kregs : l .regs = true) (khost : l .host = true) (kflt : l .flt = true) (kbel : l .bel = true) (kimg : l .img = true) (kout : l .out = true) (kfree : l .free = true) (h : Kept l o s) :
    Kept l o (State.readHost u d o1 len s) := by
  unfold State.readHost
  repeat' first
    | with_reducible assumption
    | exact fun hw => hw
    | intro _
    | with_reducible apply State.countParts_kept
    | with_reducible apply State.reportAcc_kept
    | with_reducible apply State.emit_kept
    | with_reducible apply State.foldl_kept
    | exact ⟨Nat.le_refl _, fun hw => hw⟩
    | with_reducible apply Kept.ite
    | split
    | extract_lets
    | (dsimp +zetaDelta only; split)
    | (simp +zetaDelta [*]; done)
    | (simp only [HostIf.wf, Flt.wf, Bel.wf] at *; simp +zetaDelta [*]; done)

/-! ### Machine/EngineOps.lean -/

theorem State.onItem_kept {s : State} {e : EngineId} {f : Item → Item} (keng : l .eng = true) (h : Kept l o s) :
    Kept l o (State.onItem e f s) := by
  unfold State.onItem
  repeat' first
    | with_reducible assumption
    | exact fun hw => hw
    | intro _
    | with_reducible apply State.onEngine_kept
    | with_reducible apply State.foldl_kept
    | exact ⟨Nat.le_refl _, fun hw => hw⟩
    | with_reducible apply Kept.ite
    | split
    | extract_lets
    | (dsimp +zetaDelta only; split)
    | (simp +zetaDelta [*]; done)
    | (simp only [Eng.wf] at *; simp +zetaDelta [*]; done)

theorem State.zeroScratch_kept {s : State} {e : EngineId} {domain : Nat} (keng : l .eng = true) (h : Kept l o s) :
    Kept l o (State.zeroScratch e domain s) := by
  unfold State.zeroScratch
  repeat' first
    | with_reducible assumption
    | exact fun hw => hw
    | intro _
    | with_reducible apply State.onEng_kept
    | with_reducible apply State.foldl_kept
    | exact ⟨Nat.le_refl _, fun hw => hw⟩
    | with_reducible apply Kept.ite
    | split
    | extract_lets
    | (dsimp +zetaDelta only; split)
    | (simp +zetaDelta [*]; done)
    | (simp only [Eng.wf] at *; simp +zetaDelta [*]; done)

theorem State.workRecord_kept {s : State} {i : Item} {c : Cpl} (kregs : l .regs = true) (khost : l .host = true) (kflt : l .flt = true) (kimg : l .img = true) (kout : l .out = true) (kfree : l .free = true) (h : Kept l o s) :
    Kept l o (State.workRecord i c s) := by
  unfold State.workRecord
  repeat' first
    | with_reducible assumption
    | exact fun hw => hw
    | intro _
    | with_reducible apply State.unreserved_kept
    | with_reducible apply State.complete_kept
    | with_reducible apply State.foldl_kept
    | exact ⟨Nat.le_refl _, fun hw => hw⟩
    | with_reducible apply Kept.ite
    | split
    | extract_lets
    | (dsimp +zetaDelta only; split)
    | (simp +zetaDelta [*]; done)
    | (simp only [HostIf.wf, Flt.wf] at *; simp +zetaDelta [*]; done)

theorem State.endItemAt_kept {s : State} {e : EngineId} {c : Cpl} {addr : Option Nat} (kregs : l .regs = true) (khost : l .host = true) (kflt : l .flt = true) (keng : l .eng = true) (krecorder : l .recorder = true) (kimg : l .img = true) (kout : l .out = true) (kfree : l .free = true) (h : Kept l o s) :
    Kept l o (State.endItemAt e c addr s) := by
  unfold State.endItemAt
  repeat' first
    | with_reducible assumption
    | exact fun hw => hw
    | intro _
    | with_reducible apply State.forAll_kept
    | with_reducible apply State.reportRefused_kept
    | with_reducible apply State.count_kept
    | with_reducible apply State.onEngine_kept
    | with_reducible apply State.digest_kept
    | with_reducible apply State.workRecord_kept
    | with_reducible apply State.foldl_kept
    | exact ⟨Nat.le_refl _, fun hw => hw⟩
    | with_reducible apply Kept.ite
    | split
    | extract_lets
    | (dsimp +zetaDelta only; split)
    | (simp +zetaDelta [*]; done)
    | (simp only [HostIf.wf, Flt.wf, Eng.wf, Rec.wf] at *; simp +zetaDelta [*]; done)

theorem State.endItem_kept {s : State} {e : EngineId} {c : Cpl} (kregs : l .regs = true) (khost : l .host = true) (kflt : l .flt = true) (keng : l .eng = true) (krecorder : l .recorder = true) (kimg : l .img = true) (kout : l .out = true) (kfree : l .free = true) (h : Kept l o s) :
    Kept l o (State.endItem e c s) := by
  unfold State.endItem
  repeat' first
    | with_reducible assumption
    | exact fun hw => hw
    | intro _
    | with_reducible apply State.endItemAt_kept
    | with_reducible apply State.foldl_kept
    | exact ⟨Nat.le_refl _, fun hw => hw⟩
    | with_reducible apply Kept.ite
    | split
    | extract_lets
    | (dsimp +zetaDelta only; split)
    | (simp +zetaDelta [*]; done)
    | (simp only [HostIf.wf, Flt.wf, Eng.wf, Rec.wf] at *; simp +zetaDelta [*]; done)

theorem State.stopItem_kept {s : State} {e : EngineId} {st : Status} (kregs : l .regs = true) (khost : l .host = true) (kflt : l .flt = true) (keng : l .eng = true) (kfab : l .fab = true) (krecorder : l .recorder = true) (kimg : l .img = true) (kout : l .out = true) (kfree : l .free = true) (h : Kept l o s) :
    Kept l o (State.stopItem e st s) := by
  unfold State.stopItem
  repeat' first
    | with_reducible assumption
    | exact fun hw => hw
    | intro _
    | with_reducible apply State.endItem_kept
    | with_reducible apply State.onFab_kept
    | with_reducible apply State.foldl_kept
    | exact ⟨Nat.le_refl _, fun hw => hw⟩
    | with_reducible apply Kept.ite
    | split
    | extract_lets
    | (dsimp +zetaDelta only; split)
    | (simp +zetaDelta [*]; done)
    | (simp only [HostIf.wf, Flt.wf, Eng.wf, Fab.wf, Rec.wf] at *; simp +zetaDelta [*]; done)

theorem State.stopOverrun_kept {s : State} {e : EngineId} (kregs : l .regs = true) (khost : l .host = true) (kflt : l .flt = true) (keng : l .eng = true) (kfab : l .fab = true) (krecorder : l .recorder = true) (kimg : l .img = true) (kout : l .out = true) (kfree : l .free = true) (h : Kept l o s) :
    Kept l o (State.stopOverrun e s) := by
  unfold State.stopOverrun
  repeat' first
    | with_reducible assumption
    | exact fun hw => hw
    | intro _
    | with_reducible apply State.bump_kept
    | with_reducible apply State.stopItem_kept
    | with_reducible apply State.foldl_kept
    | exact ⟨Nat.le_refl _, fun hw => hw⟩
    | with_reducible apply Kept.ite
    | split
    | extract_lets
    | (dsimp +zetaDelta only; split)
    | (simp +zetaDelta [*]; done)
    | (simp only [HostIf.wf, Flt.wf, Eng.wf, Fab.wf, Rec.wf] at *; simp +zetaDelta [*]; done)

theorem State.progFault_kept {s : State} {e : EngineId} {st : Status} {index : Nat} {addr : Option Nat} (kregs : l .regs = true) (khost : l .host = true) (kflt : l .flt = true) (keng : l .eng = true) (krecorder : l .recorder = true) (kimg : l .img = true) (kout : l .out = true) (kfree : l .free = true) (h : Kept l o s) :
    Kept l o (State.progFault e st index addr s) := by
  unfold State.progFault
  repeat' first
    | with_reducible assumption
    | exact fun hw => hw
    | intro _
    | with_reducible apply State.endItemAt_kept
    | with_reducible apply State.foldl_kept
    | exact ⟨Nat.le_refl _, fun hw => hw⟩
    | with_reducible apply Kept.ite
    | split
    | extract_lets
    | (dsimp +zetaDelta only; split)
    | (simp +zetaDelta [*]; done)
    | (simp only [HostIf.wf, Flt.wf, Eng.wf, Rec.wf] at *; simp +zetaDelta [*]; done)

theorem State.issueReq_kept {s : State} {e : EngineId} {t1 : ETodo} (kregs : l .regs = true) (khost : l .host = true) (kflt : l .flt = true) (keng : l .eng = true) (kfab : l .fab = true) (kimg : l .img = true) (kout : l .out = true) (kfree : l .free = true) (h : Kept l o s) :
    Kept l o (State.issueReq e t1 s) := by
  unfold State.issueReq
  repeat' first
    | with_reducible assumption
    | exact fun hw => hw
    | intro _
    | with_reducible apply State.onItem_kept
    | with_reducible apply State.onEngine_kept
    | with_reducible apply State.count_kept
    | with_reducible apply State.sendCore_kept
    | with_reducible apply State.foldl_kept
    | exact ⟨Nat.le_refl _, fun hw => hw⟩
    | with_reducible apply Kept.ite
    | split
    | extract_lets
    | (dsimp +zetaDelta only; split)
    | (simp +zetaDelta [*]; done)
    | (simp only [HostIf.wf, Flt.wf, Eng.wf, Fab.wf] at *; simp +zetaDelta [*]; done)

theorem State.settleAccs_kept {s : State} {e : EngineId} (kregs : l .regs = true) (khost : l .host = true) (kflt : l .flt = true) (keng : l .eng = true) (kimg : l .img = true) (kout : l .out = true) (kfree : l .free = true) (h : Kept l o s) :
    Kept l o (State.settleAccs e s) := by
  unfold State.settleAccs
  repeat' first
    | with_reducible assumption
    | exact fun hw => hw
    | intro _
    | with_reducible apply State.onItem_kept
    | with_reducible apply State.forAll_kept
    | with_reducible apply State.reportRefused_kept
    | with_reducible apply State.foldl_kept
    | exact ⟨Nat.le_refl _, fun hw => hw⟩
    | with_reducible apply Kept.ite
    | split
    | extract_lets
    | (dsimp +zetaDelta only; split)
    | (simp +zetaDelta [*]; done)
    | (simp only [HostIf.wf, Flt.wf, Eng.wf] at *; simp +zetaDelta [*]; done)

theorem State.pump_kept {s : State} {e : EngineId} {n1 : Nat} (kregs : l .regs = true) (khost : l .host = true) (kflt : l .flt = true) (keng : l .eng = true) (kfab : l .fab = true) (kimg : l .img = true) (kout : l .out = true) (kfree : l .free = true) (h : Kept l o s) :
    Kept l o (State.pump e n1 s) := by
  induction n1 generalizing s e with
  | zero =>
    unfold State.pump
    repeat' first
      | with_reducible assumption
      | exact fun hw => hw
      | intro _
      | with_reducible apply State.issueReq_kept
      | with_reducible apply State.onItem_kept
      | with_reducible apply State.foldl_kept
      | with_reducible apply Kept.ite
      | split
      | extract_lets
      | (simp only [HostIf.wf, Flt.wf, Eng.wf, Fab.wf] at *; simp +zetaDelta [*]; done)
  | succ n ih =>
    unfold State.pump
    repeat' first
      | with_reducible assumption
      | exact fun hw => hw
      | intro _
      | with_reducible apply State.issueReq_kept
      | with_reducible apply State.onItem_kept
      | with_reducible apply State.foldl_kept
      | with_reducible apply ih
      | with_reducible apply Kept.ite
      | split
      | extract_lets
      | (simp only [HostIf.wf, Flt.wf, Eng.wf, Fab.wf] at *; simp +zetaDelta [*]; done)

theorem State.setSlot_kept {s : State} {n : Nat} {x : Slot} (keng : l .eng = true) (h : Kept l o s) :
    Kept l o (State.setSlot n x s) := by
  unfold State.setSlot
  repeat' first
    | with_reducible assumption
    | exact fun hw => hw
    | intro _
    | with_reducible apply State.onEng_kept
    | with_reducible apply State.foldl_kept
    | exact ⟨Nat.le_refl _, fun hw => hw⟩
    | with_reducible apply Kept.ite
    | split
    | extract_lets
    | (dsimp +zetaDelta only; split)
    | (simp +zetaDelta [*]; done)
    | (simp only [Eng.wf] at *; simp +zetaDelta [*]; done)

theorem State.notRun_kept {s : State} {j : Nat} {st : Status} (kregs : l .regs = true) (khost : l .host = true) (kflt : l .flt = true) (kimg : l .img = true) (kout : l .out = true) (kfree : l .free = true) (h : Kept l o s) :
    Kept l o (State.notRun j st s) := by
  unfold State.notRun
  repeat' first
    | with_reducible assumption
    | exact fun hw => hw
    | intro _
    | with_reducible apply State.unreserved_kept
    | with_reducible apply State.foldl_kept
    | exact ⟨Nat.le_refl _, fun hw => hw⟩
    | with_reducible apply Kept.ite
    | split
    | extract_lets
    | (dsimp +zetaDelta only; split)
    | (simp +zetaDelta [*]; done)
    | (simp only [HostIf.wf, Flt.wf] at *; simp +zetaDelta [*]; done)

theorem State.shedEntry_kept {s : State} {j : Nat} {eng : Nat} (kregs : l .regs = true) (khost : l .host = true) (kflt : l .flt = true) (keng : l .eng = true) (kimg : l .img = true) (kout : l .out = true) (kfree : l .free = true) (h : Kept l o s) :
    Kept l o (State.shedEntry j eng s) := by
  unfold State.shedEntry
  repeat' first
    | with_reducible assumption
    | exact fun hw => hw
    | intro _
    | with_reducible apply State.onEng_kept
    | with_reducible apply State.setSlot_kept
    | with_reducible apply State.forAll_kept
    | with_reducible apply State.complete_kept
    | with_reducible apply State.unreserved_kept
    | with_reducible apply State.fc0_kept
    | with_reducible apply State.bump_kept
    | with_reducible apply State.foldl_kept
    | exact ⟨Nat.le_refl _, fun hw => hw⟩
    | with_reducible apply Kept.ite
    | split
    | extract_lets
    | (dsimp +zetaDelta only; split)
    | (simp +zetaDelta [*]; done)
    | (simp only [HostIf.wf, Flt.wf, Eng.wf] at *; simp +zetaDelta [*]; done)

theorem State.reassignLost_kept {s : State} (kregs : l .regs = true) (khost : l .host = true) (kflt : l .flt = true) (keng : l .eng = true) (kimg : l .img = true) (kout : l .out = true) (kfree : l .free = true) (h : Kept l o s) :
    Kept l o (State.reassignLost s) := by
  unfold State.reassignLost
  repeat' first
    | with_reducible assumption
    | exact fun hw => hw
    | intro _
    | with_reducible apply State.onEng_kept
    | with_reducible apply State.forAll_kept
    | with_reducible apply State.shedEntry_kept
    | with_reducible apply State.foldl_kept
    | exact ⟨Nat.le_refl _, fun hw => hw⟩
    | with_reducible apply Kept.ite
    | split
    | extract_lets
    | (dsimp +zetaDelta only; split)
    | (simp +zetaDelta [*]; done)
    | (simp only [HostIf.wf, Flt.wf, Eng.wf] at *; simp +zetaDelta [*]; done)

theorem State.rereadProgs_kept {s : State} {d : Nat} (kregs : l .regs = true) (khost : l .host = true) (kflt : l .flt = true) (kbel : l .bel = true) (kimg : l .img = true) (kout : l .out = true) (kfree : l .free = true) (h : Kept l o s) :
    Kept l o (State.rereadProgs d s) := by
  unfold State.rereadProgs
  repeat' first
    | with_reducible assumption
    | exact fun hw => hw
    | intro _
    | with_reducible apply State.forAll_kept
    | with_reducible apply State.readHost_kept
    | with_reducible apply State.foldl_kept
    | exact ⟨Nat.le_refl _, fun hw => hw⟩
    | with_reducible apply Kept.ite
    | split
    | extract_lets
    | (dsimp +zetaDelta only; split)
    | (simp +zetaDelta [*]; done)
    | (simp only [HostIf.wf, Flt.wf, Bel.wf] at *; simp +zetaDelta [*]; done)

theorem State.takeover_kept {s : State} {left : List Nat} {again : Option Item} (kregs : l .regs = true) (khost : l .host = true) (kflt : l .flt = true) (keng : l .eng = true) (kbel : l .bel = true) (kimg : l .img = true) (kout : l .out = true) (kfree : l .free = true) (h : Kept l o s) :
    Kept l o (State.takeover left again s).2 := by
  unfold State.takeover
  repeat' first
    | with_reducible assumption
    | exact fun hw => hw
    | intro _
    | with_reducible apply State.onEng_kept
    | with_reducible apply State.forAll_kept
    | with_reducible apply State.rereadProgs_kept
    | with_reducible apply State.zeroScratch_kept
    | with_reducible apply State.onEngine_kept
    | with_reducible apply State.foldl_kept
    | exact ⟨Nat.le_refl _, fun hw => hw⟩
    | with_reducible apply Kept.ite
    | split
    | extract_lets
    | (dsimp +zetaDelta only; split)
    | (simp +zetaDelta [*]; done)
    | (simp only [HostIf.wf, Flt.wf, Eng.wf, Bel.wf] at *; simp +zetaDelta [*]; done)

theorem State.takeovers_kept {s : State} {left : List Nat} {again : Option Item} {n2 : Nat} (kregs : l .regs = true) (khost : l .host = true) (kflt : l .flt = true) (keng : l .eng = true) (kbel : l .bel = true) (kimg : l .img = true) (kout : l .out = true) (kfree : l .free = true) (h : Kept l o s) :
    Kept l o (State.takeovers left again n2 s) := by
  induction n2 generalizing s left again with
  | zero =>
    unfold State.takeovers
    repeat' first
      | with_reducible assumption
      | exact fun hw => hw
      | intro _
      | with_reducible apply State.onEng_kept
      | with_reducible apply State.takeover_kept
      | with_reducible apply State.foldl_kept
      | with_reducible apply Kept.ite
      | split
      | extract_lets
      | (simp only [HostIf.wf, Flt.wf, Eng.wf, Bel.wf] at *; simp +zetaDelta [*]; done)
  | succ n ih =>
    unfold State.takeovers
    repeat' first
      | with_reducible assumption
      | exact fun hw => hw
      | intro _
      | with_reducible apply State.onEng_kept
      | with_reducible apply State.takeover_kept
      | with_reducible apply State.foldl_kept
      | with_reducible apply ih
      | with_reducible apply Kept.ite
      | split
      | extract_lets
      | (simp only [HostIf.wf, Flt.wf, Eng.wf, Bel.wf] at *; simp +zetaDelta [*]; done)

theorem State.loseEngine_kept {s : State} {e : EngineId} {cause : Nat} {retired : Bool} (kregs : l .regs = true) (khost : l .host = true) (kflt : l .flt = true) (keng : l .eng = true) (kfab : l .fab = true) (kbel : l .bel = true) (krecorder : l .recorder = true) (kimg : l .img = true) (kout : l .out = true) (kfree : l .free = true) (h : Kept l o s) :
    Kept l o (State.loseEngine e cause retired s) := by
  unfold State.loseEngine
  repeat' first
    | with_reducible assumption
    | exact fun hw => hw
    | intro _
    | with_reducible apply State.stopItem_kept
    | with_reducible apply State.onEngine_kept
    | with_reducible apply State.fc0_kept
    | with_reducible apply State.fault_kept
    | with_reducible apply State.raise_kept
    | with_reducible apply State.takeovers_kept
    | with_reducible apply State.foldl_kept
    | exact ⟨Nat.le_refl _, fun hw => hw⟩
    | with_reducible apply Kept.ite
    | split
    | extract_lets
    | (dsimp +zetaDelta only; split)
    | (simp +zetaDelta [*]; done)
    | (simp only [HostIf.wf, Flt.wf, Eng.wf, Fab.wf, Bel.wf, Rec.wf] at *; simp +zetaDelta [*]; done)

theorem State.failEngine_kept {s : State} {e : EngineId} {cause : Nat} (kregs : l .regs = true) (khost : l .host = true) (kflt : l .flt = true) (keng : l .eng = true) (kfab : l .fab = true) (kbel : l .bel = true) (krecorder : l .recorder = true) (kimg : l .img = true) (kout : l .out = true) (kfree : l .free = true) (h : Kept l o s) :
    Kept l o (State.failEngine e cause s) := by
  unfold State.failEngine
  repeat' first
    | with_reducible assumption
    | exact fun hw => hw
    | intro _
    | with_reducible apply State.loseEngine_kept
    | with_reducible apply State.foldl_kept
    | exact ⟨Nat.le_refl _, fun hw => hw⟩
    | with_reducible apply Kept.ite
    | split
    | extract_lets
    | (dsimp +zetaDelta only; split)
    | (simp +zetaDelta [*]; done)
    | (simp only [HostIf.wf, Flt.wf, Eng.wf, Fab.wf, Bel.wf, Rec.wf] at *; simp +zetaDelta [*]; done)

theorem State.failCluster_kept {s : State} {c : Nat} (kregs : l .regs = true) (khost : l .host = true) (kflt : l .flt = true) (keng : l .eng = true) (kfab : l .fab = true) (kbel : l .bel = true) (krecorder : l .recorder = true) (kimg : l .img = true) (kout : l .out = true) (kfree : l .free = true) (h : Kept l o s) :
    Kept l o (State.failCluster c s) := by
  unfold State.failCluster
  repeat' first
    | with_reducible assumption
    | exact fun hw => hw
    | intro _
    | with_reducible apply State.forAll_kept
    | with_reducible apply State.failEngine_kept
    | with_reducible apply State.foldl_kept
    | exact ⟨Nat.le_refl _, fun hw => hw⟩
    | with_reducible apply Kept.ite
    | split
    | extract_lets
    | (dsimp +zetaDelta only; split)
    | (simp +zetaDelta [*]; done)
    | (simp only [HostIf.wf, Flt.wf, Eng.wf, Fab.wf, Bel.wf, Rec.wf] at *; simp +zetaDelta [*]; done)

theorem State.startItem_kept {s : State} {e : EngineId} {d : Disp} {hdr : Option Hdr} {a : Args} {redisp : Bool} (kregs : l .regs = true) (keng : l .eng = true) (h : Kept l o s) :
    Kept l o (State.startItem e d hdr a redisp s) := by
  unfold State.startItem
  repeat' first
    | with_reducible assumption
    | exact fun hw => hw
    | intro _
    | with_reducible apply State.onEngine_kept
    | with_reducible apply State.bump_kept
    | with_reducible apply State.foldl_kept
    | exact ⟨Nat.le_refl _, fun hw => hw⟩
    | with_reducible apply Kept.ite
    | split
    | extract_lets
    | (dsimp +zetaDelta only; split)
    | (simp +zetaDelta [*]; done)
    | (simp only [Eng.wf] at *; simp +zetaDelta [*]; done)

/-! ### Machine/Engines.lean -/

theorem State.markRan_kept {s : State} {j : Nat} (keng : l .eng = true) (h : Kept l o s) :
    Kept l o (State.markRan j s) := by
  unfold State.markRan
  repeat' first
    | with_reducible assumption
    | exact fun hw => hw
    | intro _
    | with_reducible apply State.onEng_kept
    | with_reducible apply State.foldl_kept
    | exact ⟨Nat.le_refl _, fun hw => hw⟩
    | with_reducible apply Kept.ite
    | split
    | extract_lets
    | (dsimp +zetaDelta only; split)
    | (simp +zetaDelta [*]; done)
    | (simp only [Eng.wf] at *; simp +zetaDelta [*]; done)

theorem State.dispatch_kept {s : State} {j : Nat} {d : Disp} {e : EngineId} (kregs : l .regs = true) (keng : l .eng = true) (h : Kept l o s) :
    Kept l o (State.dispatch j d e s) := by
  unfold State.dispatch
  repeat' first
    | with_reducible assumption
    | exact fun hw => hw
    | intro _
    | with_reducible apply State.markRan_kept
    | with_reducible apply State.setSlot_kept
    | with_reducible apply State.startItem_kept
    | with_reducible apply State.foldl_kept
    | exact ⟨Nat.le_refl _, fun hw => hw⟩
    | with_reducible apply Kept.ite
    | split
    | extract_lets
    | (dsimp +zetaDelta only; split)
    | (simp +zetaDelta [*]; done)
    | (simp only [Eng.wf] at *; simp +zetaDelta [*]; done)

theorem State.deferEntry_kept {s : State} {j : Nat} {e : Nat} (kregs : l .regs = true) (khost : l .host = true) (kflt : l .flt = true) (keng : l .eng = true) (kbel : l .bel = true) (kimg : l .img = true) (kout : l .out = true) (kfree : l .free = true) (h : Kept l o s) :
    Kept l o (State.deferEntry j e s) := by
  unfold State.deferEntry
  repeat' first
    | with_reducible assumption
    | exact fun hw => hw
    | intro _
    | with_reducible apply State.onBel_kept
    | with_reducible apply State.bump_kept
    | with_reducible apply State.markRan_kept
    | with_reducible apply State.notRun_kept
    | with_reducible apply State.foldl_kept
    | exact ⟨Nat.le_refl _, fun hw => hw⟩
    | with_reducible apply Kept.ite
    | split
    | extract_lets
    | (dsimp +zetaDelta only; split)
    | (simp +zetaDelta [*]; done)
    | (simp only [HostIf.wf, Flt.wf, Eng.wf, Bel.wf] at *; simp +zetaDelta [*]; done)

theorem State.stopSpent_kept {s : State} {e : EngineId} (kregs : l .regs = true) (khost : l .host = true) (kflt : l .flt = true) (keng : l .eng = true) (kfab : l .fab = true) (krecorder : l .recorder = true) (kimg : l .img = true) (kout : l .out = true) (kfree : l .free = true) (h : Kept l o s) :
    Kept l o (State.stopSpent e s) := by
  unfold State.stopSpent
  repeat' first
    | with_reducible assumption
    | exact fun hw => hw
    | intro _
    | with_reducible apply State.stopOverrun_kept
    | with_reducible apply State.foldl_kept
    | exact ⟨Nat.le_refl _, fun hw => hw⟩
    | with_reducible apply Kept.ite
    | split
    | extract_lets
    | (dsimp +zetaDelta only; split)
    | (simp +zetaDelta [*]; done)
    | (simp only [HostIf.wf, Flt.wf, Eng.wf, Fab.wf, Rec.wf] at *; simp +zetaDelta [*]; done)

theorem State.dispatchDue_kept {s : State} {index : Nat} (kregs : l .regs = true) (kpit : l .pit = true) (khost : l .host = true) (kflt : l .flt = true) (keng : l .eng = true) (kfab : l .fab = true) (ktabs : l .tabs = true) (kbel : l .bel = true) (krecorder : l .recorder = true) (kimg : l .img = true) (kout : l .out = true) (kfree : l .free = true) (h : Kept l o s) :
    Kept l o (State.dispatchDue index s) := by
  unfold State.dispatchDue
  repeat' first
    | with_reducible assumption
    | exact fun hw => hw
    | intro _
    | with_reducible apply State.stopSpent_kept
    | with_reducible apply State.reach_kept
    | with_reducible apply State.markRan_kept
    | with_reducible apply State.notRun_kept
    | with_reducible apply State.deferEntry_kept
    | with_reducible apply State.dispatch_kept
    | with_reducible apply State.foldl_kept
    | exact ⟨Nat.le_refl _, fun hw => hw⟩
    | with_reducible apply Kept.ite
    | split
    | extract_lets
    | (dsimp +zetaDelta only; split)
    | (simp +zetaDelta [*]; done)
    | (simp only [HostIf.wf, Flt.wf, Eng.wf, Fab.wf, Tabs.wf, Bel.wf, Rec.wf] at *; simp +zetaDelta [*]; done)

theorem execDispatchDue_kept {s : State} {index : Nat} (kregs : l .regs = true) (kpit : l .pit = true) (khost : l .host = true) (kflt : l .flt = true) (keng : l .eng = true) (kfab : l .fab = true) (ktabs : l .tabs = true) (kbel : l .bel = true) (krecorder : l .recorder = true) (kimg : l .img = true) (kout : l .out = true) (kfree : l .free = true) (h : Kept l o s) {t : State} (e : execDispatchDue index s = .next t) :
    Kept l o t := by
  cases e
  repeat' first
    | with_reducible assumption
    | exact fun hw => hw
    | intro _
    | with_reducible apply State.dispatchDue_kept
    | with_reducible apply State.foldl_kept
    | exact ⟨Nat.le_refl _, fun hw => hw⟩
    | with_reducible apply Kept.ite
    | split
    | extract_lets
    | (dsimp +zetaDelta only; split)
    | (simp +zetaDelta [*]; done)
    | (simp only [HostIf.wf, Flt.wf, Eng.wf, Fab.wf, Tabs.wf, Bel.wf, Rec.wf] at *; simp +zetaDelta [*]; done)

theorem State.dispatchAllDue_kept {s : State} (kregs : l .regs = true) (kpit : l .pit = true) (khost : l .host = true) (kflt : l .flt = true) (keng : l .eng = true) (kfab : l .fab = true) (ktabs : l .tabs = true) (kbel : l .bel = true) (krecorder : l .recorder = true) (kimg : l .img = true) (kout : l .out = true) (kfree : l .free = true) (h : Kept l o s) :
    Kept l o (State.dispatchAllDue s) := by
  unfold State.dispatchAllDue
  repeat' first
    | with_reducible assumption
    | exact fun hw => hw
    | intro _
    | with_reducible apply State.forAll_kept
    | with_reducible apply State.dispatchDue_kept
    | with_reducible apply State.foldl_kept
    | exact ⟨Nat.le_refl _, fun hw => hw⟩
    | with_reducible apply Kept.ite
    | split
    | extract_lets
    | (dsimp +zetaDelta only; split)
    | (simp +zetaDelta [*]; done)
    | (simp only [HostIf.wf, Flt.wf, Eng.wf, Fab.wf, Tabs.wf, Bel.wf, Rec.wf] at *; simp +zetaDelta [*]; done)

theorem execBudgetSpent_kept {s : State} {e : EngineId} (kregs : l .regs = true) (kpit : l .pit = true) (khost : l .host = true) (kflt : l .flt = true) (keng : l .eng = true) (ktabs : l .tabs = true) (kbel : l .bel = true) (kimg : l .img = true) (kout : l .out = true) (kfree : l .free = true) (h : Kept l o s) {t : State} (e : execBudgetSpent e s = .next t) :
    Kept l o t := by
  cases e
  repeat' first
    | with_reducible assumption
    | exact fun hw => hw
    | intro _
    | with_reducible apply State.reach_kept
    | with_reducible apply State.onEngine_kept
    | with_reducible apply State.bump_kept
    | with_reducible apply State.onItem_kept
    | with_reducible apply State.fc0_kept
    | with_reducible apply State.foldl_kept
    | exact ⟨Nat.le_refl _, fun hw => hw⟩
    | with_reducible apply Kept.ite
    | split
    | extract_lets
    | (dsimp +zetaDelta only; split)
    | (simp +zetaDelta [*]; done)
    | (simp only [HostIf.wf, Flt.wf, Eng.wf, Tabs.wf, Bel.wf] at *; simp +zetaDelta [*]; done)

theorem execEngineFence_kept {s : State} {e : EngineId} (kregs : l .regs = true) (kpit : l .pit = true) (khost : l .host = true) (kflt : l .flt = true) (keng : l .eng = true) (kfab : l .fab = true) (ktabs : l .tabs = true) (kbel : l .bel = true) (krecorder : l .recorder = true) (kimg : l .img = true) (kout : l .out = true) (kfree : l .free = true) (h : Kept l o s) {t : State} (e : execEngineFence e s = .next t) :
    Kept l o t := by
  cases e
  repeat' first
    | with_reducible assumption
    | exact fun hw => hw
    | intro _
    | with_reducible apply State.reach_kept
    | with_reducible apply State.stopOverrun_kept
    | with_reducible apply State.forAll_kept
    | with_reducible apply State.markRan_kept
    | with_reducible apply State.notRun_kept
    | with_reducible apply State.foldl_kept
    | exact ⟨Nat.le_refl _, fun hw => hw⟩
    | with_reducible apply Kept.ite
    | split
    | extract_lets
    | (dsimp +zetaDelta only; split)
    | (simp +zetaDelta [*]; done)
    | (simp only [HostIf.wf, Flt.wf, Eng.wf, Fab.wf, Tabs.wf, Bel.wf, Rec.wf] at *; simp +zetaDelta [*]; done)

theorem State.deliver_kept {s : State} {e : EngineId} {r : EReq} {v : Line × Bool} (kregs : l .regs = true) (khost : l .host = true) (kflt : l .flt = true) (keng : l .eng = true) (krecorder : l .recorder = true) (kimg : l .img = true) (kout : l .out = true) (kfree : l .free = true) (h : Kept l o s) :
    Kept l o (State.deliver e r v s) := by
  unfold State.deliver
  repeat' first
    | with_reducible assumption
    | exact fun hw => hw
    | intro _
    | with_reducible apply State.onEngine_kept
    | with_reducible apply State.progFault_kept
    | with_reducible apply State.onEng_kept
    | with_reducible apply State.onItem_kept
    | with_reducible apply State.foldl_kept
    | exact ⟨Nat.le_refl _, fun hw => hw⟩
    | with_reducible apply Kept.ite
    | split
    | extract_lets
    | (dsimp +zetaDelta only; split)
    | (simp +zetaDelta [*]; done)
    | (simp only [HostIf.wf, Flt.wf, Eng.wf, Rec.wf] at *; simp +zetaDelta [*]; done)

theorem State.refusedReq_kept {s : State} {e : EngineId} {r : EReq} {addr : Nat} (kregs : l .regs = true) (khost : l .host = true) (kflt : l .flt = true) (keng : l .eng = true) (krecorder : l .recorder = true) (kimg : l .img = true) (kout : l .out = true) (kfree : l .free = true) (h : Kept l o s) :
    Kept l o (State.refusedReq e r addr s) := by
  unfold State.refusedReq
  repeat' first
    | with_reducible assumption
    | exact fun hw => hw
    | intro _
    | with_reducible apply State.onItem_kept
    | with_reducible apply State.onEngine_kept
    | with_reducible apply State.deliver_kept
    | with_reducible apply State.foldl_kept
    | exact ⟨Nat.le_refl _, fun hw => hw⟩
    | with_reducible apply Kept.ite
    | split
    | extract_lets
    | (dsimp +zetaDelta only; split)
    | (simp +zetaDelta [*]; done)
    | (simp only [HostIf.wf, Flt.wf, Eng.wf, Rec.wf] at *; simp +zetaDelta [*]; done)

theorem State.settleEngine_kept {s : State} {e : EngineId} (kregs : l .regs = true) (khost : l .host = true) (kflt : l .flt = true) (keng : l .eng = true) (kfab : l .fab = true) (krecorder : l .recorder = true) (kimg : l .img = true) (kout : l .out = true) (kfree : l .free = true) (h : Kept l o s) :
    Kept l o (State.settleEngine e s) := by
  unfold State.settleEngine
  repeat' first
    | with_reducible assumption
    | exact fun hw => hw
    | intro _
    | with_reducible apply State.pump_kept
    | with_reducible apply State.onItem_kept
    | with_reducible apply State.onEngine_kept
    | with_reducible apply State.settleAccs_kept
    | with_reducible apply State.endItem_kept
    | with_reducible apply State.foldl_kept
    | exact ⟨Nat.le_refl _, fun hw => hw⟩
    | with_reducible apply Kept.ite
    | split
    | extract_lets
    | (dsimp +zetaDelta only; split)
    | (simp +zetaDelta [*]; done)
    | (simp only [HostIf.wf, Flt.wf, Eng.wf, Fab.wf, Rec.wf] at *; simp +zetaDelta [*]; done)

theorem State.sc0Done_kept {s : State} {src : Nat} {tag : Nat} {extra : Nat} (kregs : l .regs = true) (khost : l .host = true) (kflt : l .flt = true) (kfab : l .fab = true) (kimg : l .img = true) (kout : l .out = true) (kfree : l .free = true) (h : Kept l o s) :
    Kept l o (State.sc0Done src tag extra s) := by
  unfold State.sc0Done
  repeat' first
    | with_reducible assumption
    | exact fun hw => hw
    | intro _
    | with_reducible apply State.onFab_kept
    | with_reducible apply State.fc0_kept
    | with_reducible apply State.inTrial_kept
    | with_reducible apply State.foldl_kept
    | exact ⟨Nat.le_refl _, fun hw => hw⟩
    | with_reducible apply Kept.ite
    | split
    | extract_lets
    | (dsimp +zetaDelta only; split)
    | (simp +zetaDelta [*]; done)
    | (simp only [HostIf.wf, Flt.wf, Fab.wf] at *; simp +zetaDelta [*]; done)

theorem State.popReq_kept {s : State} {e : EngineId} {tag : Nat} (keng : l .eng = true) (h : Kept l o s) :
    Kept l o (State.popReq e tag s) := by
  unfold State.popReq
  repeat' first
    | with_reducible assumption
    | exact fun hw => hw
    | intro _
    | with_reducible apply State.onItem_kept
    | with_reducible apply State.foldl_kept
    | exact ⟨Nat.le_refl _, fun hw => hw⟩
    | with_reducible apply Kept.ite
    | split
    | extract_lets
    | (dsimp +zetaDelta only; split)
    | (simp +zetaDelta [*]; done)
    | (simp only [Eng.wf] at *; simp +zetaDelta [*]; done)

theorem execEngineResponse_kept {s : State} {e : EngineId} {tag : Nat} {status : RspStatus} {data : Line} (kregs : l .regs = true) (khost : l .host = true) (kflt : l .flt = true) (keng : l .eng = true) (kfab : l .fab = true) (krecorder : l .recorder = true) (kimg : l .img = true) (kout : l .out = true) (kfree : l .free = true) (h : Kept l o s) {t : State} (e : execEngineResponse e tag status data s = .next t) :
    Kept l o t := by
  cases e
  repeat' first
    | with_reducible assumption
    | exact fun hw => hw
    | intro _
    | with_reducible apply State.sc0Done_kept
    | with_reducible apply State.bump_kept
    | with_reducible apply State.popReq_kept
    | with_reducible apply State.settleEngine_kept
    | with_reducible apply State.deliver_kept
    | with_reducible apply State.refusedReq_kept
    | with_reducible apply State.progFault_kept
    | with_reducible apply State.foldl_kept
    | exact ⟨Nat.le_refl _, fun hw => hw⟩
    | with_reducible apply Kept.ite
    | split
    | extract_lets
    | (dsimp +zetaDelta only; split)
    | (simp +zetaDelta [*]; done)
    | (simp only [HostIf.wf, Flt.wf, Eng.wf, Fab.wf, Rec.wf] at *; simp +zetaDelta [*]; done)

theorem execEngineFailure_kept {s : State} {e : EngineId} {cause : Fin 8} (kregs : l .regs = true) (khost : l .host = true) (kflt : l .flt = true) (keng : l .eng = true) (kfab : l .fab = true) (kbel : l .bel = true) (krecorder : l .recorder = true) (kimg : l .img = true) (kout : l .out = true) (kfree : l .free = true) (h : Kept l o s) {t : State} (e : execEngineFailure e cause s = .next t) :
    Kept l o t := by
  cases e
  repeat' first
    | with_reducible assumption
    | exact fun hw => hw
    | intro _
    | with_reducible apply State.bump_kept
    | with_reducible apply State.failCluster_kept
    | with_reducible apply State.failEngine_kept
    | with_reducible apply State.foldl_kept
    | exact ⟨Nat.le_refl _, fun hw => hw⟩
    | with_reducible apply Kept.ite
    | split
    | extract_lets
    | (dsimp +zetaDelta only; split)
    | (simp +zetaDelta [*]; done)
    | (simp only [HostIf.wf, Flt.wf, Eng.wf, Fab.wf, Bel.wf, Rec.wf] at *; simp +zetaDelta [*]; done)

theorem execSpareLoadEnd_kept {s : State} {e : EngineId} (kregs : l .regs = true) (kpit : l .pit = true) (khost : l .host = true) (kflt : l .flt = true) (keng : l .eng = true) (ktabs : l .tabs = true) (kbel : l .bel = true) (kimg : l .img = true) (kout : l .out = true) (kfree : l .free = true) (h : Kept l o s) {t : State} (e : execSpareLoadEnd e s = .next t) :
    Kept l o t := by
  cases e
  repeat' first
    | with_reducible assumption
    | exact fun hw => hw
    | intro _
    | with_reducible apply State.onEngine_kept
    | with_reducible apply State.reach_kept
    | with_reducible apply State.bump_kept
    | with_reducible apply State.startItem_kept
    | with_reducible apply State.foldl_kept
    | exact ⟨Nat.le_refl _, fun hw => hw⟩
    | with_reducible apply Kept.ite
    | split
    | extract_lets
    | (dsimp +zetaDelta only; split)
    | (simp +zetaDelta [*]; done)
    | (simp only [HostIf.wf, Flt.wf, Eng.wf, Tabs.wf, Bel.wf] at *; simp +zetaDelta [*]; done)

theorem execEngineRetire_kept {s : State} {h1 : Hdr} {index : Word32} (kregs : l .regs = true) (khost : l .host = true) (kflt : l .flt = true) (keng : l .eng = true) (kfab : l .fab = true) (kbel : l .bel = true) (krecorder : l .recorder = true) (kimg : l .img = true) (kout : l .out = true) (kfree : l .free = true) (h : Kept l o s) {t : State} (e : execEngineRetire h1 index s = .next t) :
    Kept l o t := by
  cases e
  repeat' first
    | with_reducible assumption
    | exact fun hw => hw
    | intro _
    | with_reducible apply State.manager_kept
    | with_reducible apply State.done_kept
    | with_reducible apply State.loseEngine_kept
    | with_reducible apply State.foldl_kept
    | exact ⟨Nat.le_refl _, fun hw => hw⟩
    | with_reducible apply Kept.ite
    | split
    | extract_lets
    | (dsimp +zetaDelta only; split)
    | (simp +zetaDelta [*]; done)
    | (simp only [HostIf.wf, Flt.wf, Eng.wf, Fab.wf, Bel.wf, Rec.wf] at *; simp +zetaDelta [*]; done)

theorem State.submit_kept {s : State} {h1 : Hdr} {d : Disp} {slot : Nat} {tick : Nat} {a : Args} (kregs : l .regs = true) (khost : l .host = true) (kflt : l .flt = true) (keng : l .eng = true) (kimg : l .img = true) (kout : l .out = true) (kfree : l .free = true) (h : Kept l o s) :
    Kept l o (State.submit h1 d slot tick a s) := by
  unfold State.submit
  repeat' first
    | with_reducible assumption
    | exact fun hw => hw
    | intro _
    | with_reducible apply State.done_kept
    | with_reducible apply State.setSlot_kept
    | with_reducible apply State.foldl_kept
    | exact ⟨Nat.le_refl _, fun hw => hw⟩
    | with_reducible apply Kept.ite
    | split
    | extract_lets
    | (dsimp +zetaDelta only; split)
    | (simp +zetaDelta [*]; done)
    | (simp only [HostIf.wf, Flt.wf, Eng.wf] at *; simp +zetaDelta [*]; done)

theorem execWorkSubmit_kept {s : State} {h1 : Hdr} {w10 : Word} {w18 : Word} {args : Args} (kregs : l .regs = true) (khost : l .host = true) (kflt : l .flt = true) (keng : l .eng = true) (kimg : l .img = true) (kout : l .out = true) (kfree : l .free = true) (h : Kept l o s) {t : State} (e : execWorkSubmit h1 w10 w18 args s = .next t) :
    Kept l o t := by
  cases e
  repeat' first
    | with_reducible assumption
    | exact fun hw => hw
    | intro _
    | with_reducible apply State.command_kept
    | with_reducible apply State.denied_kept
    | with_reducible apply State.complete_kept
    | with_reducible apply State.submit_kept
    | with_reducible apply State.foldl_kept
    | exact ⟨Nat.le_refl _, fun hw => hw⟩
    | with_reducible apply Kept.ite
    | split
    | extract_lets
    | (dsimp +zetaDelta only; split)
    | (simp +zetaDelta [*]; done)
    | (simp only [HostIf.wf, Flt.wf, Eng.wf] at *; simp +zetaDelta [*]; done)

/-! ### Machine/EngineIsa.lean -/

theorem State.charge_kept {s : State} {e : EngineId} {n : Nat} (kregs : l .regs = true) (khost : l .host = true) (kflt : l .flt = true) (keng : l .eng = true) (kbel : l .bel = true) (kimg : l .img = true) (kout : l .out = true) (kfree : l .free = true) (h : Kept l o s) :
    Kept l o (State.charge e n s) := by
  unfold State.charge
  repeat' first
    | with_reducible assumption
    | exact fun hw => hw
    | intro _
    | with_reducible apply State.spendCycles_kept
    | with_reducible apply State.count_kept
    | with_reducible apply State.onItem_kept
    | with_reducible apply State.onEngine_kept
    | with_reducible apply State.foldl_kept
    | exact ⟨Nat.le_refl _, fun hw => hw⟩
    | with_reducible apply Kept.ite
    | split
    | extract_lets
    | (dsimp +zetaDelta only; split)
    | (simp +zetaDelta [*]; done)
    | (simp only [HostIf.wf, Flt.wf, Eng.wf, Bel.wf] at *; simp +zetaDelta [*]; done)

theorem State.stall_kept {s : State} {e : EngineId} (keng : l .eng = true) (h : Kept l o s) :
    Kept l o (State.stall e s) := by
  unfold State.stall
  repeat' first
    | with_reducible assumption
    | exact fun hw => hw
    | intro _
    | with_reducible apply State.onItem_kept
    | with_reducible apply State.foldl_kept
    | exact ⟨Nat.le_refl _, fun hw => hw⟩
    | with_reducible apply Kept.ite
    | split
    | extract_lets
    | (dsimp +zetaDelta only; split)
    | (simp +zetaDelta [*]; done)
    | (simp only [Eng.wf] at *; simp +zetaDelta [*]; done)

theorem State.issue_kept {s : State} {e : EngineId} {op : Nat} {x : Fields} {ss : List (Fin 32)} {ls : List (Fin 8)} {f : Item → State → State} (kregs : l .regs = true) (kpit : l .pit = true) (khost : l .host = true) (kflt : l .flt = true) (keng : l .eng = true) (ktabs : l .tabs = true) (kbel : l .bel = true) (kimg : l .img = true) (kout : l .out = true) (kfree : l .free = true) (fK : ∀ x y, Kept l o y → Kept l o (f x y)) (h : Kept l o s) :
    Kept l o (State.issue e op x ss ls f s) := by
  unfold State.issue
  repeat' first
    | with_reducible assumption
    | exact fun hw => hw
    | intro _
    | with_reducible apply fK
    | with_reducible apply State.reach_kept
    | with_reducible apply State.stall_kept
    | with_reducible apply State.foldl_kept
    | exact ⟨Nat.le_refl _, fun hw => hw⟩
    | with_reducible apply Kept.ite
    | split
    | extract_lets
    | (dsimp +zetaDelta only; split)
    | (simp +zetaDelta [*]; done)
    | (simp only [HostIf.wf, Flt.wf, Eng.wf, Tabs.wf, Bel.wf] at *; simp +zetaDelta [*]; done)

theorem State.finish_kept {s : State} {e : EngineId} {n : Nat} {g : Engine → Engine} (kregs : l .regs = true) (khost : l .host = true) (kflt : l .flt = true) (keng : l .eng = true) (kbel : l .bel = true) (kimg : l .img = true) (kout : l .out = true) (kfree : l .free = true) (h : Kept l o s) :
    Kept l o (State.finish e n g s) := by
  unfold State.finish
  repeat' first
    | with_reducible assumption
    | exact fun hw => hw
    | intro _
    | with_reducible apply State.onEngine_kept
    | with_reducible apply State.charge_kept
    | with_reducible apply State.foldl_kept
    | exact ⟨Nat.le_refl _, fun hw => hw⟩
    | with_reducible apply Kept.ite
    | split
    | extract_lets
    | (dsimp +zetaDelta only; split)
    | (simp +zetaDelta [*]; done)
    | (simp only [HostIf.wf, Flt.wf, Eng.wf, Bel.wf] at *; simp +zetaDelta [*]; done)

theorem State.alu_kept {s : State} {e : EngineId} {op : Nat} {x : Fields} {cyc : Nat} {f : Word → Word → Word} (kregs : l .regs = true) (kpit : l .pit = true) (khost : l .host = true) (kflt : l .flt = true) (keng : l .eng = true) (ktabs : l .tabs = true) (kbel : l .bel = true) (kimg : l .img = true) (kout : l .out = true) (kfree : l .free = true) (h : Kept l o s) :
    Kept l o (State.alu e op x cyc f s) := by
  unfold State.alu
  repeat' first
    | with_reducible assumption
    | exact fun hw => hw
    | intro _
    | with_reducible apply State.issue_kept
    | with_reducible apply State.finish_kept
    | with_reducible apply State.foldl_kept
    | exact ⟨Nat.le_refl _, fun hw => hw⟩
    | with_reducible apply Kept.ite
    | split
    | extract_lets
    | (dsimp +zetaDelta only; split)
    | (simp +zetaDelta [*]; done)
    | (simp only [HostIf.wf, Flt.wf, Eng.wf, Tabs.wf, Bel.wf] at *; simp +zetaDelta [*]; done)

theorem execAdd_kept {s : State} {e : EngineId} {x : Fields} (kregs : l .regs = true) (kpit : l .pit = true) (khost : l .host = true) (kflt : l .flt = true) (keng : l .eng = true) (ktabs : l .tabs = true) (kbel : l .bel = true) (kimg : l .img = true) (kout : l .out = true) (kfree : l .free = true) (h : Kept l o s) {t : State} (e : execAdd e x s = .next t) :
    Kept l o t := by
  cases e
  repeat' first
    | with_reducible assumption
    | exact fun hw => hw
    | intro _
    | with_reducible apply State.alu_kept
    | with_reducible apply State.foldl_kept
    | exact ⟨Nat.le_refl _, fun hw => hw⟩
    | with_reducible apply Kept.ite
    | split
    | extract_lets
    | (dsimp +zetaDelta only; split)
    | (simp +zetaDelta [*]; done)
    | (simp only [HostIf.wf, Flt.wf, Eng.wf, Tabs.wf, Bel.wf] at *; simp +zetaDelta [*]; done)

theorem execSub_kept {s : State} {e : EngineId} {x : Fields} (kregs : l .regs = true) (kpit : l .pit = true) (khost : l .host = true) (kflt : l .flt = true) (keng : l .eng = true) (ktabs : l .tabs = true) (kbel : l .bel = true) (kimg : l .img = true) (kout : l .out = true) (kfree : l .free = true) (h : Kept l o s) {t : State} (e : execSub e x s = .next t) :
    Kept l o t := by
  cases e
  repeat' first
    | with_reducible assumption
    | exact fun hw => hw
    | intro _
    | with_reducible apply State.alu_kept
    | with_reducible apply State.foldl_kept
    | exact ⟨Nat.le_refl _, fun hw => hw⟩
    | with_reducible apply Kept.ite
    | split
    | extract_lets
    | (dsimp +zetaDelta only; split)
    | (simp +zetaDelta [*]; done)
    | (simp only [HostIf.wf, Flt.wf, Eng.wf, Tabs.wf, Bel.wf] at *; simp +zetaDelta [*]; done)

theorem execAnd_kept {s : State} {e : EngineId} {x : Fields} (kregs : l .regs = true) (kpit : l .pit = true) (khost : l .host = true) (kflt : l .flt = true) (keng : l .eng = true) (ktabs : l .tabs = true) (kbel : l .bel = true) (kimg : l .img = true) (kout : l .out = true) (kfree : l .free = true) (h : Kept l o s) {t : State} (e : execAnd e x s = .next t) :
    Kept l o t := by
  cases e
  repeat' first
    | with_reducible assumption
    | exact fun hw => hw
    | intro _
    | with_reducible apply State.alu_kept
    | with_reducible apply State.foldl_kept
    | exact ⟨Nat.le_refl _, fun hw => hw⟩
    | with_reducible apply Kept.ite
    | split
    | extract_lets
    | (dsimp +zetaDelta only; split)
    | (simp +zetaDelta [*]; done)
    | (simp only [HostIf.wf, Flt.wf, Eng.wf, Tabs.wf, Bel.wf] at *; simp +zetaDelta [*]; done)

theorem execOr_kept {s : State} {e : EngineId} {x : Fields} (kregs : l .regs = true) (kpit : l .pit = true) (khost : l .host = true) (kflt : l .flt = true) (keng : l .eng = true) (ktabs : l .tabs = true) (kbel : l .bel = true) (kimg : l .img = true) (kout : l .out = true) (kfree : l .free = true) (h : Kept l o s) {t : State} (e : execOr e x s = .next t) :
    Kept l o t := by
  cases e
  repeat' first
    | with_reducible assumption
    | exact fun hw => hw
    | intro _
    | with_reducible apply State.alu_kept
    | with_reducible apply State.foldl_kept
    | exact ⟨Nat.le_refl _, fun hw => hw⟩
    | with_reducible apply Kept.ite
    | split
    | extract_lets
    | (dsimp +zetaDelta only; split)
    | (simp +zetaDelta [*]; done)
    | (simp only [HostIf.wf, Flt.wf, Eng.wf, Tabs.wf, Bel.wf] at *; simp +zetaDelta [*]; done)

theorem execXor_kept {s : State} {e : EngineId} {x : Fields} (kregs : l .regs = true) (kpit : l .pit = true) (khost : l .host = true) (kflt : l .flt = true) (keng : l .eng = true) (ktabs : l .tabs = true) (kbel : l .bel = true) (kimg : l .img = true) (kout : l .out = true) (kfree : l .free = true) (h : Kept l o s) {t : State} (e : execXor e x s = .next t) :
    Kept l o t := by
  cases e
  repeat' first
    | with_reducible assumption
    | exact fun hw => hw
    | intro _
    | with_reducible apply State.alu_kept
    | with_reducible apply State.foldl_kept
    | exact ⟨Nat.le_refl _, fun hw => hw⟩
    | with_reducible apply Kept.ite
    | split
    | extract_lets
    | (dsimp +zetaDelta only; split)
    | (simp +zetaDelta [*]; done)
    | (simp only [HostIf.wf, Flt.wf, Eng.wf, Tabs.wf, Bel.wf] at *; simp +zetaDelta [*]; done)

theorem execShl_kept {s : State} {e : EngineId} {x : Fields} (kregs : l .regs = true) (kpit : l .pit = true) (khost : l .host = true) (kflt : l .flt = true) (keng : l .eng = true) (ktabs : l .tabs = true) (kbel : l .bel = true) (kimg : l .img = true) (kout : l .out = true) (kfree : l .free = true) (h : Kept l o s) {t : State} (e : execShl e x s = .next t) :
    Kept l o t := by
  cases e
  repeat' first
    | with_reducible assumption
    | exact fun hw => hw
    | intro _
    | with_reducible apply State.alu_kept
    | with_reducible apply State.foldl_kept
    | exact ⟨Nat.le_refl _, fun hw => hw⟩
    | with_reducible apply Kept.ite
    | split
    | extract_lets
    | (dsimp +zetaDelta only; split)
    | (simp +zetaDelta [*]; done)
    | (simp only [HostIf.wf, Flt.wf, Eng.wf, Tabs.wf, Bel.wf] at *; simp +zetaDelta [*]; done)

theorem execShr_kept {s : State} {e : EngineId} {x : Fields} (kregs : l .regs = true) (kpit : l .pit = true) (khost : l .host = true) (kflt : l .flt = true) (keng : l .eng = true) (ktabs : l .tabs = true) (kbel : l .bel = true) (kimg : l .img = true) (kout : l .out = true) (kfree : l .free = true) (h : Kept l o s) {t : State} (e : execShr e x s = .next t) :
    Kept l o t := by
  cases e
  repeat' first
    | with_reducible assumption
    | exact fun hw => hw
    | intro _
    | with_reducible apply State.alu_kept
    | with_reducible apply State.foldl_kept
    | exact ⟨Nat.le_refl _, fun hw => hw⟩
    | with_reducible apply Kept.ite
    | split
    | extract_lets
    | (dsimp +zetaDelta only; split)
    | (simp +zetaDelta [*]; done)
    | (simp only [HostIf.wf, Flt.wf, Eng.wf, Tabs.wf, Bel.wf] at *; simp +zetaDelta [*]; done)

theorem execSar_kept {s : State} {e : EngineId} {x : Fields} (kregs : l .regs = true) (kpit : l .pit = true) (khost : l .host = true) (kflt : l .flt = true) (keng : l .eng = true) (ktabs : l .tabs = true) (kbel : l .bel = true) (kimg : l .img = true) (kout : l .out = true) (kfree : l .free = true) (h : Kept l o s) {t : State} (e : execSar e x s = .next t) :
    Kept l o t := by
  cases e
  repeat' first
    | with_reducible assumption
    | exact fun hw => hw
    | intro _
    | with_reducible apply State.alu_kept
    | with_reducible apply State.foldl_kept
    | exact ⟨Nat.le_refl _, fun hw => hw⟩
    | with_reducible apply Kept.ite
    | split
    | extract_lets
    | (dsimp +zetaDelta only; split)
    | (simp +zetaDelta [*]; done)
    | (simp only [HostIf.wf, Flt.wf, Eng.wf, Tabs.wf, Bel.wf] at *; simp +zetaDelta [*]; done)

theorem execMul_kept {s : State} {e : EngineId} {x : Fields} (kregs : l .regs = true) (kpit : l .pit = true) (khost : l .host = true) (kflt : l .flt = true) (keng : l .eng = true) (ktabs : l .tabs = true) (kbel : l .bel = true) (kimg : l .img = true) (kout : l .out = true) (kfree : l .free = true) (h : Kept l o s) {t : State} (e : execMul e x s = .next t) :
    Kept l o t := by
  cases e
  repeat' first
    | with_reducible assumption
    | exact fun hw => hw
    | intro _
    | with_reducible apply State.alu_kept
    | with_reducible apply State.foldl_kept
    | exact ⟨Nat.le_refl _, fun hw => hw⟩
    | with_reducible apply Kept.ite
    | split
    | extract_lets
    | (dsimp +zetaDelta only; split)
    | (simp +zetaDelta [*]; done)
    | (simp only [HostIf.wf, Flt.wf, Eng.wf, Tabs.wf, Bel.wf] at *; simp +zetaDelta [*]; done)

theorem execMin_kept {s : State} {e : EngineId} {x : Fields} (kregs : l .regs = true) (kpit : l .pit = true) (khost : l .host = true) (kflt : l .flt = true) (keng : l .eng = true) (ktabs : l .tabs = true) (kbel : l .bel = true) (kimg : l .img = true) (kout : l .out = true) (kfree : l .free = true) (h : Kept l o s) {t : State} (e : execMin e x s = .next t) :
    Kept l o t := by
  cases e
  repeat' first
    | with_reducible assumption
    | exact fun hw => hw
    | intro _
    | with_reducible apply State.alu_kept
    | with_reducible apply State.foldl_kept
    | exact ⟨Nat.le_refl _, fun hw => hw⟩
    | with_reducible apply Kept.ite
    | split
    | extract_lets
    | (dsimp +zetaDelta only; split)
    | (simp +zetaDelta [*]; done)
    | (simp only [HostIf.wf, Flt.wf, Eng.wf, Tabs.wf, Bel.wf] at *; simp +zetaDelta [*]; done)

theorem execMax_kept {s : State} {e : EngineId} {x : Fields} (kregs : l .regs = true) (kpit : l .pit = true) (khost : l .host = true) (kflt : l .flt = true) (keng : l .eng = true) (ktabs : l .tabs = true) (kbel : l .bel = true) (kimg : l .img = true) (kout : l .out = true) (kfree : l .free = true) (h : Kept l o s) {t : State} (e : execMax e x s = .next t) :
    Kept l o t := by
  cases e
  repeat' first
    | with_reducible assumption
    | exact fun hw => hw
    | intro _
    | with_reducible apply State.alu_kept
    | with_reducible apply State.foldl_kept
    | exact ⟨Nat.le_refl _, fun hw => hw⟩
    | with_reducible apply Kept.ite
    | split
    | extract_lets
    | (dsimp +zetaDelta only; split)
    | (simp +zetaDelta [*]; done)
    | (simp only [HostIf.wf, Flt.wf, Eng.wf, Tabs.wf, Bel.wf] at *; simp +zetaDelta [*]; done)

theorem execMovi_kept {s : State} {e : EngineId} {x : Fields} (kregs : l .regs = true) (kpit : l .pit = true) (khost : l .host = true) (kflt : l .flt = true) (keng : l .eng = true) (ktabs : l .tabs = true) (kbel : l .bel = true) (kimg : l .img = true) (kout : l .out = true) (kfree : l .free = true) (h : Kept l o s) {t : State} (e : execMovi e x s = .next t) :
    Kept l o t := by
  cases e
  repeat' first
    | with_reducible assumption
    | exact fun hw => hw
    | intro _
    | with_reducible apply State.issue_kept
    | with_reducible apply State.finish_kept
    | with_reducible apply State.foldl_kept
    | exact ⟨Nat.le_refl _, fun hw => hw⟩
    | with_reducible apply Kept.ite
    | split
    | extract_lets
    | (dsimp +zetaDelta only; split)
    | (simp +zetaDelta [*]; done)
    | (simp only [HostIf.wf, Flt.wf, Eng.wf, Tabs.wf, Bel.wf] at *; simp +zetaDelta [*]; done)

theorem execRdt_kept {s : State} {e : EngineId} {x : Fields} (kregs : l .regs = true) (kpit : l .pit = true) (khost : l .host = true) (kflt : l .flt = true) (keng : l .eng = true) (ktabs : l .tabs = true) (kbel : l .bel = true) (kimg : l .img = true) (kout : l .out = true) (kfree : l .free = true) (h : Kept l o s) {t : State} (e : execRdt e x s = .next t) :
    Kept l o t := by
  cases e
  repeat' first
    | with_reducible assumption
    | exact fun hw => hw
    | intro _
    | with_reducible apply State.issue_kept
    | with_reducible apply State.finish_kept
    | with_reducible apply State.foldl_kept
    | exact ⟨Nat.le_refl _, fun hw => hw⟩
    | with_reducible apply Kept.ite
    | split
    | extract_lets
    | (dsimp +zetaDelta only; split)
    | (simp +zetaDelta [*]; done)
    | (simp only [HostIf.wf, Flt.wf, Eng.wf, Tabs.wf, Bel.wf] at *; simp +zetaDelta [*]; done)

theorem execBr_kept {s : State} {e : EngineId} {x : Fields} (kregs : l .regs = true) (kpit : l .pit = true) (khost : l .host = true) (kflt : l .flt = true) (keng : l .eng = true) (ktabs : l .tabs = true) (kbel : l .bel = true) (kimg : l .img = true) (kout : l .out = true) (kfree : l .free = true) (h : Kept l o s) {t : State} (e : execBr e x s = .next t) :
    Kept l o t := by
  cases e
  repeat' first
    | with_reducible assumption
    | exact fun hw => hw
    | intro _
    | with_reducible apply State.issue_kept
    | with_reducible apply State.onEngine_kept
    | with_reducible apply State.charge_kept
    | with_reducible apply State.foldl_kept
    | exact ⟨Nat.le_refl _, fun hw => hw⟩
    | with_reducible apply Kept.ite
    | split
    | extract_lets
    | (dsimp +zetaDelta only; split)
    | (simp +zetaDelta [*]; done)
    | (simp only [HostIf.wf, Flt.wf, Eng.wf, Tabs.wf, Bel.wf] at *; simp +zetaDelta [*]; done)

theorem execLoop_kept {s : State} {e : EngineId} {x : Fields} (kregs : l .regs = true) (kpit : l .pit = true) (khost : l .host = true) (kflt : l .flt = true) (keng : l .eng = true) (ktabs : l .tabs = true) (kbel : l .bel = true) (kimg : l .img = true) (kout : l .out = true) (kfree : l .free = true) (h : Kept l o s) {t : State} (e : execLoop e x s = .next t) :
    Kept l o t := by
  cases e
  repeat' first
    | with_reducible assumption
    | exact fun hw => hw
    | intro _
    | with_reducible apply State.issue_kept
    | with_reducible apply State.charge_kept
    | with_reducible apply State.onEngine_kept
    | with_reducible apply State.onItem_kept
    | with_reducible apply State.foldl_kept
    | exact ⟨Nat.le_refl _, fun hw => hw⟩
    | with_reducible apply Kept.ite
    | split
    | extract_lets
    | (dsimp +zetaDelta only; split)
    | (simp +zetaDelta [*]; done)
    | (simp only [HostIf.wf, Flt.wf, Eng.wf, Tabs.wf, Bel.wf] at *; simp +zetaDelta [*]; done)

theorem execWaito_kept {s : State} {e : EngineId} {x : Fields} (kregs : l .regs = true) (kpit : l .pit = true) (khost : l .host = true) (kflt : l .flt = true) (keng : l .eng = true) (ktabs : l .tabs = true) (kbel : l .bel = true) (kimg : l .img = true) (kout : l .out = true) (kfree : l .free = true) (h : Kept l o s) {t : State} (e : execWaito e x s = .next t) :
    Kept l o t := by
  cases e
  repeat' first
    | with_reducible assumption
    | exact fun hw => hw
    | intro _
    | with_reducible apply State.issue_kept
    | with_reducible apply State.finish_kept
    | with_reducible apply State.onItem_kept
    | with_reducible apply State.charge_kept
    | with_reducible apply State.foldl_kept
    | exact ⟨Nat.le_refl _, fun hw => hw⟩
    | with_reducible apply Kept.ite
    | split
    | extract_lets
    | (dsimp +zetaDelta only; split)
    | (simp +zetaDelta [*]; done)
    | (simp only [HostIf.wf, Flt.wf, Eng.wf, Tabs.wf, Bel.wf] at *; simp +zetaDelta [*]; done)

theorem execWaitoExpire_kept {s : State} {e : EngineId} (kregs : l .regs = true) (kpit : l .pit = true) (khost : l .host = true) (kflt : l .flt = true) (keng : l .eng = true) (ktabs : l .tabs = true) (kbel : l .bel = true) (kimg : l .img = true) (kout : l .out = true) (kfree : l .free = true) (h : Kept l o s) {t : State} (e : execWaitoExpire e s = .next t) :
    Kept l o t := by
  cases e
  repeat' first
    | with_reducible assumption
    | exact fun hw => hw
    | intro _
    | with_reducible apply State.onItem_kept
    | with_reducible apply State.reach_kept
    | with_reducible apply State.onEngine_kept
    | with_reducible apply State.foldl_kept
    | exact ⟨Nat.le_refl _, fun hw => hw⟩
    | with_reducible apply Kept.ite
    | split
    | extract_lets
    | (dsimp +zetaDelta only; split)
    | (simp +zetaDelta [*]; done)
    | (simp only [HostIf.wf, Flt.wf, Eng.wf, Tabs.wf, Bel.wf] at *; simp +zetaDelta [*]; done)

theorem execFence_kept {s : State} {e : EngineId} {x : Fields} (kregs : l .regs = true) (kpit : l .pit = true) (khost : l .host = true) (kflt : l .flt = true) (keng : l .eng = true) (ktabs : l .tabs = true) (kbel : l .bel = true) (kimg : l .img = true) (kout : l .out = true) (kfree : l .free = true) (h : Kept l o s) {t : State} (e : execFence e x s = .next t) :
    Kept l o t := by
  cases e
  repeat' first
    | with_reducible assumption
    | exact fun hw => hw
    | intro _
    | with_reducible apply State.issue_kept
    | with_reducible apply State.finish_kept
    | with_reducible apply State.stall_kept
    | with_reducible apply State.foldl_kept
    | exact ⟨Nat.le_refl _, fun hw => hw⟩
    | with_reducible apply Kept.ite
    | split
    | extract_lets
    | (dsimp +zetaDelta only; split)
    | (simp +zetaDelta [*]; done)
    | (simp only [HostIf.wf, Flt.wf, Eng.wf, Tabs.wf, Bel.wf] at *; simp +zetaDelta [*]; done)

theorem execEnd_kept {s : State} {e : EngineId} {x : Fields} (kregs : l .regs = true) (kpit : l .pit = true) (khost : l .host = true) (kflt : l .flt = true) (keng : l .eng = true) (ktabs : l .tabs = true) (kbel : l .bel = true) (krecorder : l .recorder = true) (kimg : l .img = true) (kout : l .out = true) (kfree : l .free = true) (h : Kept l o s) {t : State} (e : execEnd e x s = .next t) :
    Kept l o t := by
  cases e
  repeat' first
    | with_reducible assumption
    | exact fun hw => hw
    | intro _
    | with_reducible apply State.issue_kept
    | with_reducible apply State.charge_kept
    | with_reducible apply State.endItem_kept
    | with_reducible apply State.onItem_kept
    | with_reducible apply State.foldl_kept
    | exact ⟨Nat.le_refl _, fun hw => hw⟩
    | with_reducible apply Kept.ite
    | split
    | extract_lets
    | (dsimp +zetaDelta only; split)
    | (simp +zetaDelta [*]; done)
    | (simp only [HostIf.wf, Flt.wf, Eng.wf, Tabs.wf, Bel.wf, Rec.wf] at *; simp +zetaDelta [*]; done)

theorem State.scratchWrite_kept {s : State} {e : EngineId} {i : Item} {addr : Nat} {v : Nat} {n : Nat} (keng : l .eng = true) (h : Kept l o s) :
    Kept l o (State.scratchWrite e i addr v n s) := by
  unfold State.scratchWrite
  repeat' first
    | with_reducible assumption
    | exact fun hw => hw
    | intro _
    | with_reducible apply State.onEng_kept
    | with_reducible apply State.foldl_kept
    | exact ⟨Nat.le_refl _, fun hw => hw⟩
    | with_reducible apply Kept.ite
    | split
    | extract_lets
    | (dsimp +zetaDelta only; split)
    | (simp +zetaDelta [*]; done)
    | (simp only [Eng.wf] at *; simp +zetaDelta [*]; done)

theorem execLds_kept {s : State} {e : EngineId} {x : Fields} (kregs : l .regs = true) (kpit : l .pit = true) (khost : l .host = true) (kflt : l .flt = true) (keng : l .eng = true) (ktabs : l .tabs = true) (kbel : l .bel = true) (krecorder : l .recorder = true) (kimg : l .img = true) (kout : l .out = true) (kfree : l .free = true) (h : Kept l o s) {t : State} (e : execLds e x s = .next t) :
    Kept l o t := by
  cases e
  repeat' first
    | with_reducible assumption
    | exact fun hw => hw
    | intro _
    | with_reducible apply State.issue_kept
    | with_reducible apply State.finish_kept
    | with_reducible apply State.progFault_kept
    | with_reducible apply State.foldl_kept
    | exact ⟨Nat.le_refl _, fun hw => hw⟩
    | with_reducible apply Kept.ite
    | split
    | extract_lets
    | (dsimp +zetaDelta only; split)
    | (simp +zetaDelta [*]; done)
    | (simp only [HostIf.wf, Flt.wf, Eng.wf, Tabs.wf, Bel.wf, Rec.wf] at *; simp +zetaDelta [*]; done)

theorem execSts_kept {s : State} {e : EngineId} {x : Fields} (kregs : l .regs = true) (kpit : l .pit = true) (khost : l .host = true) (kflt : l .flt = true) (keng : l .eng = true) (ktabs : l .tabs = true) (kbel : l .bel = true) (krecorder : l .recorder = true) (kimg : l .img = true) (kout : l .out = true) (kfree : l .free = true) (h : Kept l o s) {t : State} (e : execSts e x s = .next t) :
    Kept l o t := by
  cases e
  repeat' first
    | with_reducible assumption
    | exact fun hw => hw
    | intro _
    | with_reducible apply State.issue_kept
    | with_reducible apply State.finish_kept
    | with_reducible apply State.scratchWrite_kept
    | with_reducible apply State.progFault_kept
    | with_reducible apply State.foldl_kept
    | exact ⟨Nat.le_refl _, fun hw => hw⟩
    | with_reducible apply Kept.ite
    | split
    | extract_lets
    | (dsimp +zetaDelta only; split)
    | (simp +zetaDelta [*]; done)
    | (simp only [HostIf.wf, Flt.wf, Eng.wf, Tabs.wf, Bel.wf, Rec.wf] at *; simp +zetaDelta [*]; done)

theorem execLls_kept {s : State} {e : EngineId} {x : Fields} (kregs : l .regs = true) (kpit : l .pit = true) (khost : l .host = true) (kflt : l .flt = true) (keng : l .eng = true) (ktabs : l .tabs = true) (kbel : l .bel = true) (krecorder : l .recorder = true) (kimg : l .img = true) (kout : l .out = true) (kfree : l .free = true) (h : Kept l o s) {t : State} (e : execLls e x s = .next t) :
    Kept l o t := by
  cases e
  repeat' first
    | with_reducible assumption
    | exact fun hw => hw
    | intro _
    | with_reducible apply State.issue_kept
    | with_reducible apply State.finish_kept
    | with_reducible apply State.progFault_kept
    | with_reducible apply State.foldl_kept
    | exact ⟨Nat.le_refl _, fun hw => hw⟩
    | with_reducible apply Kept.ite
    | split
    | extract_lets
    | (dsimp +zetaDelta only; split)
    | (simp +zetaDelta [*]; done)
    | (simp only [HostIf.wf, Flt.wf, Eng.wf, Tabs.wf, Bel.wf, Rec.wf] at *; simp +zetaDelta [*]; done)

theorem execSls_kept {s : State} {e : EngineId} {x : Fields} (kregs : l .regs = true) (kpit : l .pit = true) (khost : l .host = true) (kflt : l .flt = true) (keng : l .eng = true) (ktabs : l .tabs = true) (kbel : l .bel = true) (krecorder : l .recorder = true) (kimg : l .img = true) (kout : l .out = true) (kfree : l .free = true) (h : Kept l o s) {t : State} (e : execSls e x s = .next t) :
    Kept l o t := by
  cases e
  repeat' first
    | with_reducible assumption
    | exact fun hw => hw
    | intro _
    | with_reducible apply State.issue_kept
    | with_reducible apply State.progFault_kept
    | with_reducible apply State.finish_kept
    | with_reducible apply State.scratchWrite_kept
    | with_reducible apply State.foldl_kept
    | exact ⟨Nat.le_refl _, fun hw => hw⟩
    | with_reducible apply Kept.ite
    | split
    | extract_lets
    | (dsimp +zetaDelta only; split)
    | (simp +zetaDelta [*]; done)
    | (simp only [HostIf.wf, Flt.wf, Eng.wf, Tabs.wf, Bel.wf, Rec.wf] at *; simp +zetaDelta [*]; done)

theorem execLext_kept {s : State} {e : EngineId} {x : Fields} (kregs : l .regs = true) (kpit : l .pit = true) (khost : l .host = true) (kflt : l .flt = true) (keng : l .eng = true) (ktabs : l .tabs = true) (kbel : l .bel = true) (krecorder : l .recorder = true) (kimg : l .img = true) (kout : l .out = true) (kfree : l .free = true) (h : Kept l o s) {t : State} (e : execLext e x s = .next t) :
    Kept l o t := by
  cases e
  repeat' first
    | with_reducible assumption
    | exact fun hw => hw
    | intro _
    | with_reducible apply State.issue_kept
    | with_reducible apply State.progFault_kept
    | with_reducible apply State.finish_kept
    | with_reducible apply State.foldl_kept
    | exact ⟨Nat.le_refl _, fun hw => hw⟩
    | with_reducible apply Kept.ite
    | split
    | extract_lets
    | (dsimp +zetaDelta only; split)
    | (simp +zetaDelta [*]; done)
    | (simp only [HostIf.wf, Flt.wf, Eng.wf, Tabs.wf, Bel.wf, Rec.wf] at *; simp +zetaDelta [*]; done)

theorem execLins_kept {s : State} {e : EngineId} {x : Fields} (kregs : l .regs = true) (kpit : l .pit = true) (khost : l .host = true) (kflt : l .flt = true) (keng : l .eng = true) (ktabs : l .tabs = true) (kbel : l .bel = true) (krecorder : l .recorder = true) (kimg : l .img = true) (kout : l .out = true) (kfree : l .free = true) (h : Kept l o s) {t : State} (e : execLins e x s = .next t) :
    Kept l o t := by
  cases e
  repeat' first
    | with_reducible assumption
    | exact fun hw => hw
    | intro _
    | with_reducible apply State.issue_kept
    | with_reducible apply State.progFault_kept
    | with_reducible apply State.finish_kept
    | with_reducible apply State.foldl_kept
    | exact ⟨Nat.le_refl _, fun hw => hw⟩
    | with_reducible apply Kept.ite
    | split
    | extract_lets
    | (dsimp +zetaDelta only; split)
    | (simp +zetaDelta [*]; done)
    | (simp only [HostIf.wf, Flt.wf, Eng.wf, Tabs.wf, Bel.wf, Rec.wf] at *; simp +zetaDelta [*]; done)

theorem execLop_kept {s : State} {e : EngineId} {x : Fields} (kregs : l .regs = true) (kpit : l .pit = true) (khost : l .host = true) (kflt : l .flt = true) (keng : l .eng = true) (ktabs : l .tabs = true) (kbel : l .bel = true) (kimg : l .img = true) (kout : l .out = true) (kfree : l .free = true) (h : Kept l o s) {t : State} (e : execLop e x s = .next t) :
    Kept l o t := by
  cases e
  repeat' first
    | with_reducible assumption
    | exact fun hw => hw
    | intro _
    | with_reducible apply State.issue_kept
    | with_reducible apply State.finish_kept
    | with_reducible apply State.foldl_kept
    | exact ⟨Nat.le_refl _, fun hw => hw⟩
    | with_reducible apply Kept.ite
    | split
    | extract_lets
    | (dsimp +zetaDelta only; split)
    | (simp +zetaDelta [*]; done)
    | (simp only [HostIf.wf, Flt.wf, Eng.wf, Tabs.wf, Bel.wf] at *; simp +zetaDelta [*]; done)

theorem execLzero_kept {s : State} {e : EngineId} {x : Fields} (kregs : l .regs = true) (kpit : l .pit = true) (khost : l .host = true) (kflt : l .flt = true) (keng : l .eng = true) (ktabs : l .tabs = true) (kbel : l .bel = true) (kimg : l .img = true) (kout : l .out = true) (kfree : l .free = true) (h : Kept l o s) {t : State} (e : execLzero e x s = .next t) :
    Kept l o t := by
  cases e
  repeat' first
    | with_reducible assumption
    | exact fun hw => hw
    | intro _
    | with_reducible apply State.issue_kept
    | with_reducible apply State.finish_kept
    | with_reducible apply State.foldl_kept
    | exact ⟨Nat.le_refl _, fun hw => hw⟩
    | with_reducible apply Kept.ite
    | split
    | extract_lets
    | (dsimp +zetaDelta only; split)
    | (simp +zetaDelta [*]; done)
    | (simp only [HostIf.wf, Flt.wf, Eng.wf, Tabs.wf, Bel.wf] at *; simp +zetaDelta [*]; done)

theorem State.addrFault_kept {s : State} {e : EngineId} {st : Status} {index : Nat} {addr : Nat} (kregs : l .regs = true) (khost : l .host = true) (kflt : l .flt = true) (keng : l .eng = true) (krecorder : l .recorder = true) (kimg : l .img = true) (kout : l .out = true) (kfree : l .free = true) (h : Kept l o s) :
    Kept l o (State.addrFault e st index addr s) := by
  unfold State.addrFault
  repeat' first
    | with_reducible assumption
    | exact fun hw => hw
    | intro _
    | with_reducible apply State.progFault_kept
    | with_reducible apply State.countMiss_kept
    | with_reducible apply State.foldl_kept
    | exact ⟨Nat.le_refl _, fun hw => hw⟩
    | with_reducible apply Kept.ite
    | split
    | extract_lets
    | (dsimp +zetaDelta only; split)
    | (simp +zetaDelta [*]; done)
    | (simp only [HostIf.wf, Flt.wf, Eng.wf, Rec.wf] at *; simp +zetaDelta [*]; done)

theorem State.fabric_kept {s : State} {e : EngineId} {i : Item} {addr : Nat} {n : Nat} {op : EOp} {dest : EDest} (kregs : l .regs = true) (khost : l .host = true) (kflt : l .flt = true) (keng : l .eng = true) (kfab : l .fab = true) (kbel : l .bel = true) (kimg : l .img = true) (kout : l .out = true) (kfree : l .free = true) (h : Kept l o s) :
    Kept l o (State.fabric e i addr n op dest s) := by
  unfold State.fabric
  repeat' first
    | with_reducible assumption
    | exact fun hw => hw
    | intro _
    | with_reducible apply State.onEngine_kept
    | with_reducible apply State.issueReq_kept
    | with_reducible apply State.charge_kept
    | with_reducible apply State.stall_kept
    | with_reducible apply State.foldl_kept
    | exact ⟨Nat.le_refl _, fun hw => hw⟩
    | with_reducible apply Kept.ite
    | split
    | extract_lets
    | (dsimp +zetaDelta only; split)
    | (simp +zetaDelta [*]; done)
    | (simp only [HostIf.wf, Flt.wf, Eng.wf, Fab.wf, Bel.wf] at *; simp +zetaDelta [*]; done)

theorem execLdl_kept {s : State} {e : EngineId} {x : Fields} (kregs : l .regs = true) (kpit : l .pit = true) (khost : l .host = true) (kflt : l .flt = true) (keng : l .eng = true) (kfab : l .fab = true) (ktabs : l .tabs = true) (kbel : l .bel = true) (krecorder : l .recorder = true) (kimg : l .img = true) (kout : l .out = true) (kfree : l .free = true) (h : Kept l o s) {t : State} (e : execLdl e x s = .next t) :
    Kept l o t := by
  cases e
  repeat' first
    | with_reducible assumption
    | exact fun hw => hw
    | intro _
    | with_reducible apply State.issue_kept
    | with_reducible apply State.addrFault_kept
    | with_reducible apply State.fabric_kept
    | with_reducible apply State.foldl_kept
    | exact ⟨Nat.le_refl _, fun hw => hw⟩
    | with_reducible apply Kept.ite
    | split
    | extract_lets
    | (dsimp +zetaDelta only; split)
    | (simp +zetaDelta [*]; done)
    | (simp only [HostIf.wf, Flt.wf, Eng.wf, Fab.wf, Tabs.wf, Bel.wf, Rec.wf] at *; simp +zetaDelta [*]; done)

theorem execStl_kept {s : State} {e : EngineId} {x : Fields} (kregs : l .regs = true) (kpit : l .pit = true) (khost : l .host = true) (kflt : l .flt = true) (keng : l .eng = true) (kfab : l .fab = true) (ktabs : l .tabs = true) (kbel : l .bel = true) (krecorder : l .recorder = true) (kimg : l .img = true) (kout : l .out = true) (kfree : l .free = true) (h : Kept l o s) {t : State} (e : execStl e x s = .next t) :
    Kept l o t := by
  cases e
  repeat' first
    | with_reducible assumption
    | exact fun hw => hw
    | intro _
    | with_reducible apply State.issue_kept
    | with_reducible apply State.addrFault_kept
    | with_reducible apply State.fabric_kept
    | with_reducible apply State.foldl_kept
    | exact ⟨Nat.le_refl _, fun hw => hw⟩
    | with_reducible apply Kept.ite
    | split
    | extract_lets
    | (dsimp +zetaDelta only; split)
    | (simp +zetaDelta [*]; done)
    | (simp only [HostIf.wf, Flt.wf, Eng.wf, Fab.wf, Tabs.wf, Bel.wf, Rec.wf] at *; simp +zetaDelta [*]; done)

theorem execStlm_kept {s : State} {e : EngineId} {x : Fields} (kregs : l .regs = true) (kpit : l .pit = true) (khost : l .host = true) (kflt : l .flt = true) (keng : l .eng = true) (kfab : l .fab = true) (ktabs : l .tabs = true) (kbel : l .bel = true) (krecorder : l .recorder = true) (kimg : l .img = true) (kout : l .out = true) (kfree : l .free = true) (h : Kept l o s) {t : State} (e : execStlm e x s = .next t) :
    Kept l o t := by
  cases e
  repeat' first
    | with_reducible assumption
    | exact fun hw => hw
    | intro _
    | with_reducible apply State.issue_kept
    | with_reducible apply State.addrFault_kept
    | with_reducible apply State.fabric_kept
    | with_reducible apply State.foldl_kept
    | exact ⟨Nat.le_refl _, fun hw => hw⟩
    | with_reducible apply Kept.ite
    | split
    | extract_lets
    | (dsimp +zetaDelta only; split)
    | (simp +zetaDelta [*]; done)
    | (simp only [HostIf.wf, Flt.wf, Eng.wf, Fab.wf, Tabs.wf, Bel.wf, Rec.wf] at *; simp +zetaDelta [*]; done)

theorem State.multi_kept {s : State} {e : EngineId} {n : Nat} {todo : List ETodo} {red : Option RedSt} (kregs : l .regs = true) (khost : l .host = true) (kflt : l .flt = true) (keng : l .eng = true) (kfab : l .fab = true) (kbel : l .bel = true) (krecorder : l .recorder = true) (kimg : l .img = true) (kout : l .out = true) (kfree : l .free = true) (h : Kept l o s) :
    Kept l o (State.multi e n todo red s) := by
  unfold State.multi
  repeat' first
    | with_reducible assumption
    | exact fun hw => hw
    | intro _
    | with_reducible apply State.onItem_kept
    | with_reducible apply State.charge_kept
    | with_reducible apply State.settleEngine_kept
    | with_reducible apply State.foldl_kept
    | exact ⟨Nat.le_refl _, fun hw => hw⟩
    | with_reducible apply Kept.ite
    | split
    | extract_lets
    | (dsimp +zetaDelta only; split)
    | (simp +zetaDelta [*]; done)
    | (simp only [HostIf.wf, Flt.wf, Eng.wf, Fab.wf, Bel.wf, Rec.wf] at *; simp +zetaDelta [*]; done)

theorem execCpy_kept {s : State} {e : EngineId} {x : Fields} (kregs : l .regs = true) (kpit : l .pit = true) (khost : l .host = true) (kflt : l .flt = true) (keng : l .eng = true) (kfab : l .fab = true) (ktabs : l .tabs = true) (kbel : l .bel = true) (krecorder : l .recorder = true) (kimg : l .img = true) (kout : l .out = true) (kfree : l .free = true) (h : Kept l o s) {t : State} (e : execCpy e x s = .next t) :
    Kept l o t := by
  cases e
  repeat' first
    | with_reducible assumption
    | exact fun hw => hw
    | intro _
    | with_reducible apply State.issue_kept
    | with_reducible apply State.progFault_kept
    | with_reducible apply State.addrFault_kept
    | with_reducible apply State.multi_kept
    | with_reducible apply State.foldl_kept
    | exact ⟨Nat.le_refl _, fun hw => hw⟩
    | with_reducible apply Kept.ite
    | split
    | extract_lets
    | (dsimp +zetaDelta only; split)
    | (simp +zetaDelta [*]; done)
    | (simp only [HostIf.wf, Flt.wf, Eng.wf, Fab.wf, Tabs.wf, Bel.wf, Rec.wf] at *; simp +zetaDelta [*]; done)

theorem execPub_kept {s : State} {e : EngineId} {x : Fields} (kregs : l .regs = true) (kpit : l .pit = true) (khost : l .host = true) (kflt : l .flt = true) (keng : l .eng = true) (kfab : l .fab = true) (ktabs : l .tabs = true) (kbel : l .bel = true) (krecorder : l .recorder = true) (kimg : l .img = true) (kout : l .out = true) (kfree : l .free = true) (h : Kept l o s) {t : State} (e : execPub e x s = .next t) :
    Kept l o t := by
  cases e
  repeat' first
    | with_reducible assumption
    | exact fun hw => hw
    | intro _
    | with_reducible apply State.issue_kept
    | with_reducible apply State.progFault_kept
    | with_reducible apply State.addrFault_kept
    | with_reducible apply State.multi_kept
    | with_reducible apply State.foldl_kept
    | exact ⟨Nat.le_refl _, fun hw => hw⟩
    | with_reducible apply Kept.ite
    | split
    | extract_lets
    | (dsimp +zetaDelta only; split)
    | (simp +zetaDelta [*]; done)
    | (simp only [HostIf.wf, Flt.wf, Eng.wf, Fab.wf, Tabs.wf, Bel.wf, Rec.wf] at *; simp +zetaDelta [*]; done)

theorem execRed_kept {s : State} {e : EngineId} {x : Fields} (kregs : l .regs = true) (kpit : l .pit = true) (khost : l .host = true) (kflt : l .flt = true) (keng : l .eng = true) (kfab : l .fab = true) (ktabs : l .tabs = true) (kbel : l .bel = true) (krecorder : l .recorder = true) (kimg : l .img = true) (kout : l .out = true) (kfree : l .free = true) (h : Kept l o s) {t : State} (e : execRed e x s = .next t) :
    Kept l o t := by
  cases e
  repeat' first
    | with_reducible assumption
    | exact fun hw => hw
    | intro _
    | with_reducible apply State.issue_kept
    | with_reducible apply State.progFault_kept
    | with_reducible apply State.addrFault_kept
    | with_reducible apply State.multi_kept
    | with_reducible apply State.foldl_kept
    | exact ⟨Nat.le_refl _, fun hw => hw⟩
    | with_reducible apply Kept.ite
    | split
    | extract_lets
    | (dsimp +zetaDelta only; split)
    | (simp +zetaDelta [*]; done)
    | (simp only [HostIf.wf, Flt.wf, Eng.wf, Fab.wf, Tabs.wf, Bel.wf, Rec.wf] at *; simp +zetaDelta [*]; done)

theorem execPubh_kept {s : State} {e : EngineId} {x : Fields} (kregs : l .regs = true) (kpit : l .pit = true) (khost : l .host = true) (kflt : l .flt = true) (keng : l .eng = true) (ktabs : l .tabs = true) (kbel : l .bel = true) (krecorder : l .recorder = true) (kimg : l .img = true) (kout : l .out = true) (kfree : l .free = true) (h : Kept l o s) {t : State} (e : execPubh e x s = .next t) :
    Kept l o t := by
  cases e
  repeat' first
    | with_reducible assumption
    | exact fun hw => hw
    | intro _
    | with_reducible apply State.issue_kept
    | with_reducible apply State.progFault_kept
    | with_reducible apply State.stall_kept
    | with_reducible apply State.countParts_kept
    | with_reducible apply State.finish_kept
    | with_reducible apply State.onItem_kept
    | with_reducible apply State.reportRefused_kept
    | with_reducible apply State.forAll_kept
    | with_reducible apply State.emit_kept
    | with_reducible apply State.foldl_kept
    | exact ⟨Nat.le_refl _, fun hw => hw⟩
    | with_reducible apply Kept.ite
    | split
    | extract_lets
    | (dsimp +zetaDelta only; split)
    | (simp +zetaDelta [*]; done)
    | (simp only [HostIf.wf, Flt.wf, Eng.wf, Tabs.wf, Bel.wf, Rec.wf] at *; simp +zetaDelta [*]; done)

theorem State.atom_kept {s : State} {e : EngineId} {op : Nat} {x : Fields} {n : Nat} (kregs : l .regs = true) (kpit : l .pit = true) (khost : l .host = true) (kflt : l .flt = true) (keng : l .eng = true) (kfab : l .fab = true) (ktabs : l .tabs = true) (kbel : l .bel = true) (krecorder : l .recorder = true) (kimg : l .img = true) (kout : l .out = true) (kfree : l .free = true) (h : Kept l o s) :
    Kept l o (State.atom e op x n s) := by
  unfold State.atom
  repeat' first
    | with_reducible assumption
    | exact fun hw => hw
    | intro _
    | with_reducible apply State.issue_kept
    | with_reducible apply State.progFault_kept
    | with_reducible apply State.addrFault_kept
    | with_reducible apply State.fabric_kept
    | with_reducible apply State.foldl_kept
    | exact ⟨Nat.le_refl _, fun hw => hw⟩
    | with_reducible apply Kept.ite
    | split
    | extract_lets
    | (dsimp +zetaDelta only; split)
    | (simp +zetaDelta [*]; done)
    | (simp only [HostIf.wf, Flt.wf, Eng.wf, Fab.wf, Tabs.wf, Bel.wf, Rec.wf] at *; simp +zetaDelta [*]; done)

theorem execAtom32_kept {s : State} {e : EngineId} {x : Fields} (kregs : l .regs = true) (kpit : l .pit = true) (khost : l .host = true) (kflt : l .flt = true) (keng : l .eng = true) (kfab : l .fab = true) (ktabs : l .tabs = true) (kbel : l .bel = true) (krecorder : l .recorder = true) (kimg : l .img = true) (kout : l .out = true) (kfree : l .free = true) (h : Kept l o s) {t : State} (e : execAtom32 e x s = .next t) :
    Kept l o t := by
  cases e
  repeat' first
    | with_reducible assumption
    | exact fun hw => hw
    | intro _
    | with_reducible apply State.atom_kept
    | with_reducible apply State.foldl_kept
    | exact ⟨Nat.le_refl _, fun hw => hw⟩
    | with_reducible apply Kept.ite
    | split
    | extract_lets
    | (dsimp +zetaDelta only; split)
    | (simp +zetaDelta [*]; done)
    | (simp only [HostIf.wf, Flt.wf, Eng.wf, Fab.wf, Tabs.wf, Bel.wf, Rec.wf] at *; simp +zetaDelta [*]; done)

theorem execAtom64_kept {s : State} {e : EngineId} {x : Fields} (kregs : l .regs = true) (kpit : l .pit = true) (khost : l .host = true) (kflt : l .flt = true) (keng : l .eng = true) (kfab : l .fab = true) (ktabs : l .tabs = true) (kbel : l .bel = true) (krecorder : l .recorder = true) (kimg : l .img = true) (kout : l .out = true) (kfree : l .free = true) (h : Kept l o s) {t : State} (e : execAtom64 e x s = .next t) :
    Kept l o t := by
  cases e
  repeat' first
    | with_reducible assumption
    | exact fun hw => hw
    | intro _
    | with_reducible apply State.atom_kept
    | with_reducible apply State.foldl_kept
    | exact ⟨Nat.le_refl _, fun hw => hw⟩
    | with_reducible apply Kept.ite
    | split
    | extract_lets
    | (dsimp +zetaDelta only; split)
    | (simp +zetaDelta [*]; done)
    | (simp only [HostIf.wf, Flt.wf, Eng.wf, Fab.wf, Tabs.wf, Bel.wf, Rec.wf] at *; simp +zetaDelta [*]; done)

theorem execCrcl_kept {s : State} {e : EngineId} {x : Fields} (kregs : l .regs = true) (kpit : l .pit = true) (khost : l .host = true) (kflt : l .flt = true) (keng : l .eng = true) (ktabs : l .tabs = true) (kbel : l .bel = true) (krecorder : l .recorder = true) (kimg : l .img = true) (kout : l .out = true) (kfree : l .free = true) (h : Kept l o s) {t : State} (e : execCrcl e x s = .next t) :
    Kept l o t := by
  cases e
  repeat' first
    | with_reducible assumption
    | exact fun hw => hw
    | intro _
    | with_reducible apply State.issue_kept
    | with_reducible apply State.progFault_kept
    | with_reducible apply State.finish_kept
    | with_reducible apply State.foldl_kept
    | exact ⟨Nat.le_refl _, fun hw => hw⟩
    | with_reducible apply Kept.ite
    | split
    | extract_lets
    | (dsimp +zetaDelta only; split)
    | (simp +zetaDelta [*]; done)
    | (simp only [HostIf.wf, Flt.wf, Eng.wf, Tabs.wf, Bel.wf, Rec.wf] at *; simp +zetaDelta [*]; done)

theorem execCrcs_kept {s : State} {e : EngineId} {x : Fields} (kregs : l .regs = true) (kpit : l .pit = true) (khost : l .host = true) (kflt : l .flt = true) (keng : l .eng = true) (ktabs : l .tabs = true) (kbel : l .bel = true) (krecorder : l .recorder = true) (kimg : l .img = true) (kout : l .out = true) (kfree : l .free = true) (h : Kept l o s) {t : State} (e : execCrcs e x s = .next t) :
    Kept l o t := by
  cases e
  repeat' first
    | with_reducible assumption
    | exact fun hw => hw
    | intro _
    | with_reducible apply State.issue_kept
    | with_reducible apply State.progFault_kept
    | with_reducible apply State.finish_kept
    | with_reducible apply State.foldl_kept
    | exact ⟨Nat.le_refl _, fun hw => hw⟩
    | with_reducible apply Kept.ite
    | split
    | extract_lets
    | (dsimp +zetaDelta only; split)
    | (simp +zetaDelta [*]; done)
    | (simp only [HostIf.wf, Flt.wf, Eng.wf, Tabs.wf, Bel.wf, Rec.wf] at *; simp +zetaDelta [*]; done)

end Sys2Proof.Machine
end

