-- ==== Sys2Proof/Laws/KeptHome.lean ====
section
/-! SUPPORT. What the operations and meanings keep (Laws/Kept.lean), for the switch core's shared operations and the home slices. -/

namespace Sys2Proof.Machine

variable {l : Part → Bool} {o : State}

/-! ### Machine/FabricOps.lean -/

theorem State.answered_kept {s : State} {n : Nat} (kports : l .ports = true) (h : Kept l o s) :
    Kept l o (State.answered n s) := by
  unfold State.answered
  repeat' first
    | with_reducible assumption
    | exact fun hw => hw
    | intro _
    | with_reducible apply State.onPortN_kept
    | with_reducible apply State.foldl_kept
    | exact ⟨Nat.le_refl _, fun hw => hw⟩
    | with_reducible apply Kept.ite
    | split
    | extract_lets
    | (dsimp +zetaDelta only; split)
    | (simp +zetaDelta [*]; done)

theorem State.endPart_kept {s : State} {n : Nat} {tag : Nat} {bad : Option PMsg} (kfab : l .fab = true) (h : Kept l o s) :
    Kept l o (State.endPart n tag bad s).2.2 := by
  unfold State.endPart
  repeat' first
    | with_reducible assumption
    | exact fun hw => hw
    | intro _
    | with_reducible apply State.onFab_kept
    | with_reducible apply State.foldl_kept
    | exact ⟨Nat.le_refl _, fun hw => hw⟩
    | with_reducible apply Kept.ite
    | split
    | extract_lets
    | (dsimp +zetaDelta only; split)
    | (simp +zetaDelta [*]; done)
    | (simp only [Fab.wf] at *; simp +zetaDelta [*]; done)

theorem State.reply_kept {s : State} {src : Src} {k : MKind} {tag : Nat} {addr : Nat} {e : Ending} (kregs : l .regs = true) (khost : l .host = true) (kflt : l .flt = true) (kports : l .ports = true) (kfab : l .fab = true) (kimg : l .img = true) (kout : l .out = true) (kfree : l .free = true) (h : Kept l o s) :
    Kept l o (State.reply src k tag addr e s) := by
  unfold State.reply
  repeat' first
    | with_reducible assumption
    | exact fun hw => hw
    | intro _
    | with_reducible apply State.endPart_kept
    | with_reducible apply State.answered_kept
    | with_reducible apply State.sc0Done_kept
    | with_reducible apply State.emit_kept
    | with_reducible apply State.foldl_kept
    | exact ⟨Nat.le_refl _, fun hw => hw⟩
    | with_reducible apply Kept.ite
    | split
    | extract_lets
    | (dsimp +zetaDelta only; split)
    | (simp +zetaDelta [*]; done)
    | (simp only [HostIf.wf, Flt.wf, Fab.wf] at *; simp +zetaDelta [*]; done)

theorem State.aer_kept {s : State} {n : Nat} {x : AerErr} (kports : l .ports = true) (h : Kept l o s) :
    Kept l o (State.aer n x s) := by
  unfold State.aer
  repeat' first
    | with_reducible assumption
    | exact fun hw => hw
    | intro _
    | with_reducible apply State.onPortN_kept
    | with_reducible apply State.foldl_kept
    | exact ⟨Nat.le_refl _, fun hw => hw⟩
    | with_reducible apply Kept.ite
    | split
    | extract_lets
    | (dsimp +zetaDelta only; split)
    | (simp +zetaDelta [*]; done)

theorem State.ledgerAdd_kept {s : State} {e : Nat} (kfab : l .fab = true) (h : Kept l o s) :
    Kept l o (State.ledgerAdd e s) := by
  unfold State.ledgerAdd
  repeat' first
    | with_reducible assumption
    | exact fun hw => hw
    | intro _
    | with_reducible apply State.onFab_kept
    | with_reducible apply State.foldl_kept
    | exact ⟨Nat.le_refl _, fun hw => hw⟩
    | with_reducible apply Kept.ite
    | split
    | extract_lets
    | (dsimp +zetaDelta only; split)
    | (simp +zetaDelta [*]; done)
    | (simp only [Fab.wf] at *; simp +zetaDelta [*]; done)

theorem State.ledgerSub_kept {s : State} {e : Nat} (kfab : l .fab = true) (h : Kept l o s) :
    Kept l o (State.ledgerSub e s) := by
  unfold State.ledgerSub
  repeat' first
    | with_reducible assumption
    | exact fun hw => hw
    | intro _
    | with_reducible apply State.onFab_kept
    | with_reducible apply State.foldl_kept
    | exact ⟨Nat.le_refl _, fun hw => hw⟩
    | with_reducible apply Kept.ite
    | split
    | extract_lets
    | (dsimp +zetaDelta only; split)
    | (simp +zetaDelta [*]; done)
    | (simp only [Fab.wf] at *; simp +zetaDelta [*]; done)

theorem State.onColumnN_kept {s : State} {m : Nat} {f : Column → Column} (kfab : l .fab = true) (h : Kept l o s) :
    Kept l o (State.onColumnN m f s) := by
  unfold State.onColumnN
  repeat' first
    | with_reducible assumption
    | exact fun hw => hw
    | intro _
    | with_reducible apply State.onColumn_kept
    | with_reducible apply State.foldl_kept
    | exact ⟨Nat.le_refl _, fun hw => hw⟩
    | with_reducible apply Kept.ite
    | split
    | extract_lets
    | (dsimp +zetaDelta only; split)
    | (simp +zetaDelta [*]; done)
    | (simp only [Fab.wf] at *; simp +zetaDelta [*]; done)

theorem State.settleRsv_kept {s : State} {m : Nat} (kfab : l .fab = true) (h : Kept l o s) :
    Kept l o (State.settleRsv m s) := by
  unfold State.settleRsv
  repeat' first
    | with_reducible assumption
    | exact fun hw => hw
    | intro _
    | with_reducible apply State.onColumnN_kept
    | with_reducible apply State.foldl_kept
    | exact ⟨Nat.le_refl _, fun hw => hw⟩
    | with_reducible apply Kept.ite
    | split
    | extract_lets
    | (dsimp +zetaDelta only; split)
    | (simp +zetaDelta [*]; done)
    | (simp only [Fab.wf] at *; simp +zetaDelta [*]; done)

theorem State.onMsg_kept {s : State} {id : Nat} {f : Msg → Msg} (kfab : l .fab = true) (h : Kept l o s) :
    Kept l o (State.onMsg id f s) := by
  unfold State.onMsg
  repeat' first
    | with_reducible assumption
    | exact fun hw => hw
    | intro _
    | with_reducible apply State.onFab_kept
    | with_reducible apply State.foldl_kept
    | exact ⟨Nat.le_refl _, fun hw => hw⟩
    | with_reducible apply Kept.ite
    | split
    | extract_lets
    | (dsimp +zetaDelta only; split)
    | (simp +zetaDelta [*]; done)
    | (simp only [Fab.wf] at *; simp +zetaDelta [*]; done)

theorem State.freeCells_kept {s : State} {m : Msg} (kfab : l .fab = true) (h : Kept l o s) :
    Kept l o (State.freeCells m s) := by
  unfold State.freeCells
  repeat' first
    | with_reducible assumption
    | exact fun hw => hw
    | intro _
    | with_reducible apply State.settleRsv_kept
    | with_reducible apply State.onColumnN_kept
    | with_reducible apply State.foldl_kept
    | exact ⟨Nat.le_refl _, fun hw => hw⟩
    | with_reducible apply Kept.ite
    | split
    | extract_lets
    | (dsimp +zetaDelta only; split)
    | (simp +zetaDelta [*]; done)
    | (simp only [Fab.wf] at *; simp +zetaDelta [*]; done)

theorem State.onCredit_kept {s : State} {n : Nat} {ch : Nat} {f : Credit → Credit} (kports : l .ports = true) (h : Kept l o s) :
    Kept l o (State.onCredit n ch f s) := by
  unfold State.onCredit
  repeat' first
    | with_reducible assumption
    | exact fun hw => hw
    | intro _
    | with_reducible apply State.onPortN_kept
    | with_reducible apply State.foldl_kept
    | exact ⟨Nat.le_refl _, fun hw => hw⟩
    | with_reducible apply Kept.ite
    | split
    | extract_lets
    | (dsimp +zetaDelta only; split)
    | (simp +zetaDelta [*]; done)

theorem State.creditsTold_kept {s : State} {n : Nat} {ch : Nat} (kports : l .ports = true) (h : Kept l o s) :
    Kept l o (State.creditsTold n ch s) := by
  unfold State.creditsTold
  repeat' first
    | with_reducible assumption
    | exact fun hw => hw
    | intro _
    | with_reducible apply State.onCredit_kept
    | with_reducible apply State.foldl_kept
    | exact ⟨Nat.le_refl _, fun hw => hw⟩
    | with_reducible apply Kept.ite
    | split
    | extract_lets
    | (dsimp +zetaDelta only; split)
    | (simp +zetaDelta [*]; done)

theorem State.sendFlit_kept {s : State} {n : Nat} {f : TxFlit} (kports : l .ports = true) (kout : l .out = true) (h : Kept l o s) :
    Kept l o (State.sendFlit n f s) := by
  unfold State.sendFlit
  repeat' first
    | with_reducible assumption
    | exact fun hw => hw
    | intro _
    | with_reducible apply State.forAll_kept
    | with_reducible apply State.creditsTold_kept
    | with_reducible apply State.onPortN_kept
    | with_reducible apply State.emit_kept
    | with_reducible apply State.foldl_kept
    | exact ⟨Nat.le_refl _, fun hw => hw⟩
    | with_reducible apply Kept.ite
    | split
    | extract_lets
    | (dsimp +zetaDelta only; split)
    | (simp +zetaDelta [*]; done)

theorem State.sendCredit_kept {s : State} {n : Nat} {ch : Nat} (kports : l .ports = true) (kout : l .out = true) (h : Kept l o s) :
    Kept l o (State.sendCredit n ch s) := by
  unfold State.sendCredit
  repeat' first
    | with_reducible assumption
    | exact fun hw => hw
    | intro _
    | with_reducible apply State.sendFlit_kept
    | with_reducible apply State.creditsTold_kept
    | with_reducible apply State.emit_kept
    | with_reducible apply State.foldl_kept
    | exact ⟨Nat.le_refl _, fun hw => hw⟩
    | with_reducible apply Kept.ite
    | split
    | extract_lets
    | (dsimp +zetaDelta only; split)
    | (simp +zetaDelta [*]; done)

theorem State.giveBack_kept {s : State} {n : Nat} {ch : Nat} {h1 : Nat} {d : Nat} (kports : l .ports = true) (kout : l .out = true) (h : Kept l o s) :
    Kept l o (State.giveBack n ch h1 d s) := by
  unfold State.giveBack
  repeat' first
    | with_reducible assumption
    | exact fun hw => hw
    | intro _
    | with_reducible apply State.onCredit_kept
    | with_reducible apply State.sendCredit_kept
    | with_reducible apply State.foldl_kept
    | exact ⟨Nat.le_refl _, fun hw => hw⟩
    | with_reducible apply Kept.ite
    | split
    | extract_lets
    | (dsimp +zetaDelta only; split)
    | (simp +zetaDelta [*]; done)

theorem State.leaveBuffer_kept {s : State} {m : Msg} (kports : l .ports = true) (kout : l .out = true) (h : Kept l o s) :
    Kept l o (State.leaveBuffer m s) := by
  unfold State.leaveBuffer
  repeat' first
    | with_reducible assumption
    | exact fun hw => hw
    | intro _
    | with_reducible apply State.giveBack_kept
    | with_reducible apply State.foldl_kept
    | exact ⟨Nat.le_refl _, fun hw => hw⟩
    | with_reducible apply Kept.ite
    | split
    | extract_lets
    | (dsimp +zetaDelta only; split)
    | (simp +zetaDelta [*]; done)

theorem State.owedLeaves_kept {s : State} {m : Msg} (kports : l .ports = true) (h : Kept l o s) :
    Kept l o (State.owedLeaves m s) := by
  unfold State.owedLeaves
  repeat' first
    | with_reducible assumption
    | exact fun hw => hw
    | intro _
    | with_reducible apply State.onPortN_kept
    | with_reducible apply State.foldl_kept
    | exact ⟨Nat.le_refl _, fun hw => hw⟩
    | with_reducible apply Kept.ite
    | split
    | extract_lets
    | (dsimp +zetaDelta only; split)
    | (simp +zetaDelta [*]; done)

theorem State.takeOff_kept {s : State} {m : Msg} (kports : l .ports = true) (kfab : l .fab = true) (kout : l .out = true) (h : Kept l o s) :
    Kept l o (State.takeOff m s) := by
  unfold State.takeOff
  repeat' first
    | with_reducible assumption
    | exact fun hw => hw
    | intro _
    | with_reducible apply State.onFab_kept
    | with_reducible apply State.owedLeaves_kept
    | with_reducible apply State.leaveBuffer_kept
    | with_reducible apply State.ledgerSub_kept
    | with_reducible apply State.freeCells_kept
    | with_reducible apply State.foldl_kept
    | exact ⟨Nat.le_refl _, fun hw => hw⟩
    | with_reducible apply Kept.ite
    | split
    | extract_lets
    | (dsimp +zetaDelta only; split)
    | (simp +zetaDelta [*]; done)
    | (simp only [Fab.wf] at *; simp +zetaDelta [*]; done)

theorem State.consumeSkips_kept {s : State} {flow : Nat} {n1 : Nat} (kfab : l .fab = true) (h : Kept l o s) :
    Kept l o (State.consumeSkips flow n1 s) := by
  induction n1 generalizing s flow with
  | zero =>
    unfold State.consumeSkips
    repeat' first
      | with_reducible assumption
      | exact fun hw => hw
      | intro _
      | with_reducible apply State.onFab_kept
      | with_reducible apply State.foldl_kept
      | with_reducible apply Kept.ite
      | split
      | extract_lets
      | (simp only [Fab.wf] at *; simp +zetaDelta [*]; done)
  | succ n ih =>
    unfold State.consumeSkips
    repeat' first
      | with_reducible assumption
      | exact fun hw => hw
      | intro _
      | with_reducible apply State.onFab_kept
      | with_reducible apply State.foldl_kept
      | with_reducible apply ih
      | with_reducible apply Kept.ite
      | split
      | extract_lets
      | (simp only [Fab.wf] at *; simp +zetaDelta [*]; done)

theorem State.advanceFlow_kept {s : State} {flow : Nat} (kfab : l .fab = true) (h : Kept l o s) :
    Kept l o (State.advanceFlow flow s) := by
  unfold State.advanceFlow
  repeat' first
    | with_reducible assumption
    | exact fun hw => hw
    | intro _
    | with_reducible apply State.consumeSkips_kept
    | with_reducible apply State.onFab_kept
    | with_reducible apply State.foldl_kept
    | exact ⟨Nat.le_refl _, fun hw => hw⟩
    | with_reducible apply Kept.ite
    | split
    | extract_lets
    | (dsimp +zetaDelta only; split)
    | (simp +zetaDelta [*]; done)
    | (simp only [Fab.wf] at *; simp +zetaDelta [*]; done)

theorem State.discardMsg_kept {s : State} {m : Msg} (kregs : l .regs = true) (khost : l .host = true) (kflt : l .flt = true) (kports : l .ports = true) (kfab : l .fab = true) (kimg : l .img = true) (kout : l .out = true) (kfree : l .free = true) (h : Kept l o s) :
    Kept l o (State.discardMsg m s) := by
  unfold State.discardMsg
  repeat' first
    | with_reducible assumption
    | exact fun hw => hw
    | intro _
    | with_reducible apply State.count_kept
    | with_reducible apply State.takeOff_kept
    | with_reducible apply State.ledgerSub_kept
    | with_reducible apply State.freeCells_kept
    | with_reducible apply State.owedLeaves_kept
    | with_reducible apply State.leaveBuffer_kept
    | with_reducible apply State.onFab_kept
    | with_reducible apply State.consumeSkips_kept
    | with_reducible apply State.onMsg_kept
    | with_reducible apply State.foldl_kept
    | exact ⟨Nat.le_refl _, fun hw => hw⟩
    | with_reducible apply Kept.ite
    | split
    | extract_lets
    | (dsimp +zetaDelta only; split)
    | (simp +zetaDelta [*]; done)
    | (simp only [HostIf.wf, Flt.wf, Fab.wf] at *; simp +zetaDelta [*]; done)

theorem State.stampSeq_kept {s : State} {id : Nat} (kfab : l .fab = true) (h : Kept l o s) :
    Kept l o (State.stampSeq id s) := by
  unfold State.stampSeq
  repeat' first
    | with_reducible assumption
    | exact fun hw => hw
    | intro _
    | with_reducible apply State.onFab_kept
    | with_reducible apply State.onMsg_kept
    | with_reducible apply State.foldl_kept
    | exact ⟨Nat.le_refl _, fun hw => hw⟩
    | with_reducible apply Kept.ite
    | split
    | extract_lets
    | (dsimp +zetaDelta only; split)
    | (simp +zetaDelta [*]; done)
    | (simp only [Fab.wf] at *; simp +zetaDelta [*]; done)

theorem State.enterFlushCpl_kept {s : State} {m : Msg} (kregs : l .regs = true) (kports : l .ports = true) (kfab : l .fab = true) (h : Kept l o s) :
    Kept l o (State.enterFlushCpl m s) := by
  unfold State.enterFlushCpl
  repeat' first
    | with_reducible assumption
    | exact fun hw => hw
    | intro _
    | with_reducible apply State.bump_kept
    | with_reducible apply State.onPortN_kept
    | with_reducible apply State.ledgerAdd_kept
    | with_reducible apply State.onFab_kept
    | with_reducible apply State.stampSeq_kept
    | with_reducible apply State.foldl_kept
    | exact ⟨Nat.le_refl _, fun hw => hw⟩
    | with_reducible apply Kept.ite
    | split
    | extract_lets
    | (dsimp +zetaDelta only; split)
    | (simp +zetaDelta [*]; done)
    | (simp only [Fab.wf] at *; simp +zetaDelta [*]; done)

theorem State.flushResult_kept {s : State} {m : Msg} (kregs : l .regs = true) (khost : l .host = true) (kflt : l .flt = true) (kports : l .ports = true) (kfab : l .fab = true) (kimg : l .img = true) (kout : l .out = true) (kfree : l .free = true) (h : Kept l o s) :
    Kept l o (State.flushResult m s) := by
  unfold State.flushResult
  repeat' first
    | with_reducible assumption
    | exact fun hw => hw
    | intro _
    | with_reducible apply State.bump_kept
    | with_reducible apply State.fc2_kept
    | with_reducible apply State.enterFlushCpl_kept
    | with_reducible apply State.foldl_kept
    | exact ⟨Nat.le_refl _, fun hw => hw⟩
    | with_reducible apply Kept.ite
    | split
    | extract_lets
    | (dsimp +zetaDelta only; split)
    | (simp +zetaDelta [*]; done)
    | (simp only [HostIf.wf, Flt.wf, Fab.wf] at *; simp +zetaDelta [*]; done)

theorem State.flushMsg_kept {s : State} {m : Msg} (kregs : l .regs = true) (khost : l .host = true) (kflt : l .flt = true) (kports : l .ports = true) (kfab : l .fab = true) (kimg : l .img = true) (kout : l .out = true) (kfree : l .free = true) (h : Kept l o s) :
    Kept l o (State.flushMsg m s) := by
  unfold State.flushMsg
  repeat' first
    | with_reducible assumption
    | exact fun hw => hw
    | intro _
    | with_reducible apply State.onFab_kept
    | with_reducible apply State.takeOff_kept
    | with_reducible apply State.flushResult_kept
    | with_reducible apply State.foldl_kept
    | exact ⟨Nat.le_refl _, fun hw => hw⟩
    | with_reducible apply Kept.ite
    | split
    | extract_lets
    | (dsimp +zetaDelta only; split)
    | (simp +zetaDelta [*]; done)
    | (simp only [HostIf.wf, Flt.wf, Fab.wf] at *; simp +zetaDelta [*]; done)

theorem State.flushColumns_kept {s : State} {n : Nat} (kregs : l .regs = true) (khost : l .host = true) (kflt : l .flt = true) (kports : l .ports = true) (kfab : l .fab = true) (kimg : l .img = true) (kout : l .out = true) (kfree : l .free = true) (h : Kept l o s) :
    Kept l o (State.flushColumns n s) := by
  unfold State.flushColumns
  repeat' first
    | with_reducible assumption
    | exact fun hw => hw
    | intro _
    | with_reducible apply State.onPortN_kept
    | with_reducible apply State.forAll_kept
    | with_reducible apply State.flushMsg_kept
    | with_reducible apply State.flushResult_kept
    | with_reducible apply State.foldl_kept
    | exact ⟨Nat.le_refl _, fun hw => hw⟩
    | with_reducible apply Kept.ite
    | split
    | extract_lets
    | (dsimp +zetaDelta only; split)
    | (simp +zetaDelta [*]; done)
    | (simp only [HostIf.wf, Flt.wf, Fab.wf] at *; simp +zetaDelta [*]; done)

theorem State.cutInputs_kept {s : State} {n : Nat} (kregs : l .regs = true) (khost : l .host = true) (kflt : l .flt = true) (kports : l .ports = true) (kfab : l .fab = true) (kimg : l .img = true) (kout : l .out = true) (kfree : l .free = true) (h : Kept l o s) :
    Kept l o (State.cutInputs n s) := by
  unfold State.cutInputs
  repeat' first
    | with_reducible assumption
    | exact fun hw => hw
    | intro _
    | with_reducible apply State.forAll_kept
    | with_reducible apply State.bump_kept
    | with_reducible apply State.advanceFlow_kept
    | with_reducible apply State.takeOff_kept
    | with_reducible apply State.emit_kept
    | with_reducible apply State.discardMsg_kept
    | with_reducible apply State.foldl_kept
    | exact ⟨Nat.le_refl _, fun hw => hw⟩
    | with_reducible apply Kept.ite
    | split
    | extract_lets
    | (dsimp +zetaDelta only; split)
    | (simp +zetaDelta [*]; done)
    | (simp only [HostIf.wf, Flt.wf, Fab.wf] at *; simp +zetaDelta [*]; done)

theorem State.freshPort_kept {s : State} {n : Nat} (kfab : l .fab = true) (h : Kept l o s) :
    Kept l o (State.freshPort n s) := by
  unfold State.freshPort
  repeat' first
    | with_reducible assumption
    | exact fun hw => hw
    | intro _
    | with_reducible apply State.forAll_kept
    | with_reducible apply State.onColumnN_kept
    | with_reducible apply State.onFab_kept
    | with_reducible apply State.foldl_kept
    | exact ⟨Nat.le_refl _, fun hw => hw⟩
    | with_reducible apply Kept.ite
    | split
    | extract_lets
    | (dsimp +zetaDelta only; split)
    | (simp +zetaDelta [*]; done)
    | (simp only [Fab.wf] at *; simp +zetaDelta [*]; done)

theorem State.startMsg_kept {s : State} {m : Msg} {a : Arb} (kregs : l .regs = true) (khost : l .host = true) (kflt : l .flt = true) (kfab : l .fab = true) (ktabs : l .tabs = true) (kbel : l .bel = true) (krecorder : l .recorder = true) (kimg : l .img = true) (kout : l .out = true) (kfree : l .free = true) (h : Kept l o s) :
    Kept l o (State.startMsg m a s) := by
  unfold State.startMsg
  repeat' first
    | with_reducible assumption
    | exact fun hw => hw
    | intro _
    | with_reducible apply State.onArb_kept
    | with_reducible apply State.onMsg_kept
    | with_reducible apply State.spend_kept
    | with_reducible apply State.digest_kept
    | with_reducible apply State.chargeBuckets_kept
    | with_reducible apply State.count_kept
    | with_reducible apply State.onBel_kept'
    | with_reducible apply State.foldl_kept
    | exact ⟨Nat.le_refl _, fun hw => hw⟩
    | exact fun _ => ⟨Nat.le_refl _, fun hw => hw⟩
    | with_reducible apply Kept.ite
    | split
    | extract_lets
    | (dsimp +zetaDelta only; split)
    | (simp +zetaDelta [*]; done)
    | (simp only [HostIf.wf, Flt.wf, Fab.wf, Tabs.wf, Bel.wf, Rec.wf] at *; simp +zetaDelta [*]; done)

theorem State.countRx_kept {s : State} {n : Nat} {bytes : Nat} (khost : l .host = true) (h : Kept l o s) :
    Kept l o (State.countRx n bytes s) := by
  unfold State.countRx
  repeat' first
    | with_reducible assumption
    | exact fun hw => hw
    | intro _
    | with_reducible apply State.onHost_kept
    | with_reducible apply State.foldl_kept
    | exact ⟨Nat.le_refl _, fun hw => hw⟩
    | with_reducible apply Kept.ite
    | split
    | extract_lets
    | (dsimp +zetaDelta only; split)
    | (simp +zetaDelta [*]; done)
    | (simp only [HostIf.wf] at *; simp +zetaDelta [*]; done)

theorem State.countTx_kept {s : State} {n : Nat} {bytes : Nat} (khost : l .host = true) (h : Kept l o s) :
    Kept l o (State.countTx n bytes s) := by
  unfold State.countTx
  repeat' first
    | with_reducible assumption
    | exact fun hw => hw
    | intro _
    | with_reducible apply State.onHost_kept
    | with_reducible apply State.foldl_kept
    | exact ⟨Nat.le_refl _, fun hw => hw⟩
    | with_reducible apply Kept.ite
    | split
    | extract_lets
    | (dsimp +zetaDelta only; split)
    | (simp +zetaDelta [*]; done)
    | (simp only [HostIf.wf] at *; simp +zetaDelta [*]; done)

theorem State.leave_kept {s : State} {m : Msg} (kregs : l .regs = true) (khost : l .host = true) (kflt : l .flt = true) (kports : l .ports = true) (kfab : l .fab = true) (kimg : l .img = true) (kout : l .out = true) (kfree : l .free = true) (h : Kept l o s) :
    Kept l o (State.leave m s) := by
  unfold State.leave
  repeat' first
    | with_reducible assumption
    | exact fun hw => hw
    | intro _
    | with_reducible apply State.advanceFlow_kept
    | with_reducible apply State.takeOff_kept
    | with_reducible apply State.countTx_kept
    | with_reducible apply State.onPortN_kept
    | with_reducible apply State.emit_kept
    | with_reducible apply State.endPart_kept
    | with_reducible apply State.sc0Done_kept
    | with_reducible apply State.answered_kept
    | with_reducible apply State.foldl_kept
    | exact ⟨Nat.le_refl _, fun hw => hw⟩
    | with_reducible apply Kept.ite
    | split
    | extract_lets
    | (dsimp +zetaDelta only; split)
    | (simp +zetaDelta [*]; done)
    | (simp only [HostIf.wf, Flt.wf, Fab.wf] at *; simp +zetaDelta [*]; done)

/-! ### Machine/HomeOps.lean -/

theorem State.setDir_kept {s : State} {k : Nat} {v : Option DirEnt} (khome : l .home = true) (h : Kept l o s) :
    Kept l o (State.setDir k v s) := by
  unfold State.setDir
  repeat' first
    | with_reducible assumption
    | exact fun hw => hw
    | intro _
    | with_reducible apply State.onHome_kept
    | with_reducible apply State.foldl_kept
    | exact ⟨Nat.le_refl _, fun hw => hw⟩
    | with_reducible apply Kept.ite
    | split
    | extract_lets
    | (dsimp +zetaDelta only; split)
    | (simp +zetaDelta [*]; done)
    | (simp only [Home.wf] at *; simp +zetaDelta [*]; done)

theorem State.setOlc_kept {s : State} {k : Nat} {v : Option OlcEnt} (khome : l .home = true) (h : Kept l o s) :
    Kept l o (State.setOlc k v s) := by
  unfold State.setOlc
  repeat' first
    | with_reducible assumption
    | exact fun hw => hw
    | intro _
    | with_reducible apply State.onHome_kept
    | with_reducible apply State.foldl_kept
    | exact ⟨Nat.le_refl _, fun hw => hw⟩
    | with_reducible apply Kept.ite
    | split
    | extract_lets
    | (dsimp +zetaDelta only; split)
    | (simp +zetaDelta [*]; done)
    | (simp only [Home.wf] at *; simp +zetaDelta [*]; done)

theorem State.setTrk_kept {s : State} {la : Nat} {v : Option Trk} (khome : l .home = true) (h : Kept l o s) :
    Kept l o (State.setTrk la v s) := by
  unfold State.setTrk
  repeat' first
    | with_reducible assumption
    | exact fun hw => hw
    | intro _
    | with_reducible apply State.onHome_kept
    | with_reducible apply State.foldl_kept
    | exact ⟨Nat.le_refl _, fun hw => hw⟩
    | with_reducible apply Kept.ite
    | split
    | extract_lets
    | (dsimp +zetaDelta only; split)
    | (simp +zetaDelta [*]; done)
    | (simp only [Home.wf] at *; simp +zetaDelta [*]; done)

theorem State.touchDir_kept {s : State} {k : Nat} (khome : l .home = true) (h : Kept l o s) :
    Kept l o (State.touchDir k s) := by
  unfold State.touchDir
  repeat' first
    | with_reducible assumption
    | exact fun hw => hw
    | intro _
    | with_reducible apply State.onHome_kept
    | with_reducible apply State.foldl_kept
    | exact ⟨Nat.le_refl _, fun hw => hw⟩
    | with_reducible apply Kept.ite
    | split
    | extract_lets
    | (dsimp +zetaDelta only; split)
    | (simp +zetaDelta [*]; done)
    | (simp only [Home.wf] at *; simp +zetaDelta [*]; done)

theorem State.touchOlc_kept {s : State} {k : Nat} (khome : l .home = true) (h : Kept l o s) :
    Kept l o (State.touchOlc k s) := by
  unfold State.touchOlc
  repeat' first
    | with_reducible assumption
    | exact fun hw => hw
    | intro _
    | with_reducible apply State.onHome_kept
    | with_reducible apply State.foldl_kept
    | exact ⟨Nat.le_refl _, fun hw => hw⟩
    | with_reducible apply Kept.ite
    | split
    | extract_lets
    | (dsimp +zetaDelta only; split)
    | (simp +zetaDelta [*]; done)
    | (simp only [Home.wf] at *; simp +zetaDelta [*]; done)

theorem State.watchSignal_kept {s : State} {la : Nat} (kregs : l .regs = true) (kout : l .out = true) (h : Kept l o s) :
    Kept l o (State.watchSignal la s) := by
  unfold State.watchSignal
  repeat' first
    | with_reducible assumption
    | exact fun hw => hw
    | intro _
    | with_reducible apply State.forAll_kept
    | with_reducible apply State.emit_kept
    | with_reducible apply State.bump_kept
    | with_reducible apply State.foldl_kept
    | exact ⟨Nat.le_refl _, fun hw => hw⟩
    | with_reducible apply Kept.ite
    | split
    | extract_lets
    | (dsimp +zetaDelta only; split)
    | (simp +zetaDelta [*]; done)

theorem State.respond_kept {s : State} {r : HReq} {withData : Bool} {grant : Nat} {data : Line × Bool} {st : Status} (kregs : l .regs = true) (khost : l .host = true) (kflt : l .flt = true) (kfab : l .fab = true) (kimg : l .img = true) (kout : l .out = true) (kfree : l .free = true) (h : Kept l o s) :
    Kept l o (State.respond r withData grant data st s) := by
  unfold State.respond
  repeat' first
    | with_reducible assumption
    | exact fun hw => hw
    | intro _
    | with_reducible apply State.watchSignal_kept
    | with_reducible apply State.endPart_kept
    | with_reducible apply State.sc0Done_kept
    | with_reducible apply State.sendCore_kept
    | with_reducible apply State.foldl_kept
    | exact ⟨Nat.le_refl _, fun hw => hw⟩
    | with_reducible apply Kept.ite
    | split
    | extract_lets
    | (dsimp +zetaDelta only; split)
    | (simp +zetaDelta [*]; done)
    | (simp only [HostIf.wf, Flt.wf, Fab.wf] at *; simp +zetaDelta [*]; done)

theorem State.respondFail_kept {s : State} {r : HReq} {kind : Nat} {st : Status} (kregs : l .regs = true) (khost : l .host = true) (kflt : l .flt = true) (kfab : l .fab = true) (kimg : l .img = true) (kout : l .out = true) (kfree : l .free = true) (h : Kept l o s) :
    Kept l o (State.respondFail r kind st s) := by
  unfold State.respondFail
  repeat' first
    | with_reducible assumption
    | exact fun hw => hw
    | intro _
    | with_reducible apply State.respond_kept
    | with_reducible apply State.foldl_kept
    | exact ⟨Nat.le_refl _, fun hw => hw⟩
    | with_reducible apply Kept.ite
    | split
    | extract_lets
    | (dsimp +zetaDelta only; split)
    | (simp +zetaDelta [*]; done)
    | (simp only [HostIf.wf, Flt.wf, Fab.wf] at *; simp +zetaDelta [*]; done)

theorem State.settleConfs_kept {s : State} {la : Nat} (kfab : l .fab = true) (khome : l .home = true) (kout : l .out = true) (h : Kept l o s) :
    Kept l o (State.settleConfs la s) := by
  unfold State.settleConfs
  repeat' first
    | with_reducible assumption
    | exact fun hw => hw
    | intro _
    | with_reducible apply State.onHome_kept
    | with_reducible apply State.forAll_kept
    | with_reducible apply State.sendCore_kept
    | with_reducible apply State.foldl_kept
    | exact ⟨Nat.le_refl _, fun hw => hw⟩
    | with_reducible apply Kept.ite
    | split
    | extract_lets
    | (dsimp +zetaDelta only; split)
    | (simp +zetaDelta [*]; done)
    | (simp only [Fab.wf, Home.wf] at *; simp +zetaDelta [*]; done)

theorem State.snoop_kept {s : State} {la : Nat} {ports : BitVec 64} {inv : Bool} (kregs : l .regs = true) (khost : l .host = true) (kflt : l .flt = true) (kfab : l .fab = true) (kimg : l .img = true) (kout : l .out = true) (kfree : l .free = true) (h : Kept l o s) :
    Kept l o (State.snoop la ports inv s) := by
  unfold State.snoop
  repeat' first
    | with_reducible assumption
    | exact fun hw => hw
    | intro _
    | with_reducible apply State.forAll_kept
    | with_reducible apply State.sendCore_kept
    | with_reducible apply State.count_kept
    | with_reducible apply State.foldl_kept
    | exact ⟨Nat.le_refl _, fun hw => hw⟩
    | with_reducible apply Kept.ite
    | split
    | extract_lets
    | (dsimp +zetaDelta only; split)
    | (simp +zetaDelta [*]; done)
    | (simp only [HostIf.wf, Flt.wf, Fab.wf] at *; simp +zetaDelta [*]; done)

theorem State.fwdReq_kept {s : State} {la : Nat} {q : Nat} {tag : Nat} (kregs : l .regs = true) (khost : l .host = true) (kflt : l .flt = true) (kfab : l .fab = true) (kimg : l .img = true) (kout : l .out = true) (kfree : l .free = true) (h : Kept l o s) :
    Kept l o (State.fwdReq la q tag s) := by
  unfold State.fwdReq
  repeat' first
    | with_reducible assumption
    | exact fun hw => hw
    | intro _
    | with_reducible apply State.count_kept
    | with_reducible apply State.bump_kept
    | with_reducible apply State.sendCore_kept
    | with_reducible apply State.foldl_kept
    | exact ⟨Nat.le_refl _, fun hw => hw⟩
    | with_reducible apply Kept.ite
    | split
    | extract_lets
    | (dsimp +zetaDelta only; split)
    | (simp +zetaDelta [*]; done)
    | (simp only [HostIf.wf, Flt.wf, Fab.wf] at *; simp +zetaDelta [*]; done)

theorem State.readMem_kept {s : State} {la : Nat} {o1 : Option HReq} {kind : Nat} {grant : Nat} (kfab : l .fab = true) (khome : l .home = true) (kout : l .out = true) (h : Kept l o s) :
    Kept l o (State.readMem la o1 kind grant s) := by
  unfold State.readMem
  repeat' first
    | with_reducible assumption
    | exact fun hw => hw
    | intro _
    | with_reducible apply State.onHome_kept
    | with_reducible apply State.sendCore_kept
    | with_reducible apply State.foldl_kept
    | exact ⟨Nat.le_refl _, fun hw => hw⟩
    | with_reducible apply Kept.ite
    | split
    | extract_lets
    | (dsimp +zetaDelta only; split)
    | (simp +zetaDelta [*]; done)
    | (simp only [Fab.wf, Home.wf] at *; simp +zetaDelta [*]; done)

theorem State.issueWb_kept {s : State} {key : Nat} {ev : Bool} {forced : Bool} (kregs : l .regs = true) (khost : l .host = true) (kflt : l .flt = true) (kfab : l .fab = true) (khome : l .home = true) (kbel : l .bel = true) (kimg : l .img = true) (kout : l .out = true) (kfree : l .free = true) (h : Kept l o s) :
    Kept l o (State.issueWb key ev forced s) := by
  unfold State.issueWb
  repeat' first
    | with_reducible assumption
    | exact fun hw => hw
    | intro _
    | with_reducible apply State.setOlc_kept
    | with_reducible apply State.onSlice_kept
    | with_reducible apply State.onHome_kept
    | with_reducible apply State.sendCore_kept
    | with_reducible apply State.bump_kept
    | with_reducible apply State.count_kept
    | with_reducible apply State.spend_kept
    | with_reducible apply State.foldl_kept
    | exact ⟨Nat.le_refl _, fun hw => hw⟩
    | with_reducible apply Kept.ite
    | split
    | extract_lets
    | (dsimp +zetaDelta only; split)
    | (simp +zetaDelta [*]; done)
    | (simp only [HostIf.wf, Flt.wf, Fab.wf, Home.wf, Bel.wf] at *; simp +zetaDelta [*]; done)

theorem State.writeLine_kept {s : State} {la : Nat} {v : Line × Bool} {rt : Option Nat} (kregs : l .regs = true) (khome : l .home = true) (kbel : l .bel = true) (kout : l .out = true) (h : Kept l o s) :
    Kept l o (State.writeLine la v rt s) := by
  unfold State.writeLine
  repeat' first
    | with_reducible assumption
    | exact fun hw => hw
    | intro _
    | with_reducible apply State.spend_kept
    | with_reducible apply State.touchOlc_kept
    | with_reducible apply State.setOlc_kept
    | with_reducible apply State.watchSignal_kept
    | with_reducible apply State.foldl_kept
    | exact ⟨Nat.le_refl _, fun hw => hw⟩
    | with_reducible apply Kept.ite
    | split
    | extract_lets
    | (dsimp +zetaDelta only; split)
    | (simp +zetaDelta [*]; done)
    | (simp only [Home.wf, Bel.wf] at *; simp +zetaDelta [*]; done)

theorem State.dropOlc_kept {s : State} {la : Nat} (khome : l .home = true) (h : Kept l o s) :
    Kept l o (State.dropOlc la s) := by
  unfold State.dropOlc
  repeat' first
    | with_reducible assumption
    | exact fun hw => hw
    | intro _
    | with_reducible apply State.setOlc_kept
    | with_reducible apply State.foldl_kept
    | exact ⟨Nat.le_refl _, fun hw => hw⟩
    | with_reducible apply Kept.ite
    | split
    | extract_lets
    | (dsimp +zetaDelta only; split)
    | (simp +zetaDelta [*]; done)
    | (simp only [Home.wf] at *; simp +zetaDelta [*]; done)

theorem State.freeEntry_kept {s : State} {la : Nat} (khome : l .home = true) (h : Kept l o s) :
    Kept l o (State.freeEntry la s) := by
  unfold State.freeEntry
  repeat' first
    | with_reducible assumption
    | exact fun hw => hw
    | intro _
    | with_reducible apply State.setDir_kept
    | with_reducible apply State.foldl_kept
    | exact ⟨Nat.le_refl _, fun hw => hw⟩
    | with_reducible apply Kept.ite
    | split
    | extract_lets
    | (dsimp +zetaDelta only; split)
    | (simp +zetaDelta [*]; done)
    | (simp only [Home.wf] at *; simp +zetaDelta [*]; done)

theorem State.putEntry_kept {s : State} {la : Nat} {st : LSt} {shr : BitVec 63} {owner : Nat} {olcv : Bool} (khome : l .home = true) (h : Kept l o s) :
    Kept l o (State.putEntry la st shr owner olcv s) := by
  unfold State.putEntry
  repeat' first
    | with_reducible assumption
    | exact fun hw => hw
    | intro _
    | with_reducible apply State.setDir_kept
    | with_reducible apply State.foldl_kept
    | exact ⟨Nat.le_refl _, fun hw => hw⟩
    | with_reducible apply Kept.ite
    | split
    | extract_lets
    | (dsimp +zetaDelta only; split)
    | (simp +zetaDelta [*]; done)
    | (simp only [Home.wf] at *; simp +zetaDelta [*]; done)

theorem State.ownNow_kept {s : State} {r : HReq} {olcv : Bool} (khome : l .home = true) (h : Kept l o s) :
    Kept l o (State.ownNow r olcv s) := by
  unfold State.ownNow
  repeat' first
    | with_reducible assumption
    | exact fun hw => hw
    | intro _
    | with_reducible apply State.putEntry_kept
    | with_reducible apply State.freeEntry_kept
    | with_reducible apply State.foldl_kept
    | exact ⟨Nat.le_refl _, fun hw => hw⟩
    | with_reducible apply Kept.ite
    | split
    | extract_lets
    | (dsimp +zetaDelta only; split)
    | (simp +zetaDelta [*]; done)
    | (simp only [Home.wf] at *; simp +zetaDelta [*]; done)

theorem State.granted_kept {s : State} {la : Nat} (khome : l .home = true) (h : Kept l o s) :
    Kept l o (State.granted la s) := by
  unfold State.granted
  repeat' first
    | with_reducible assumption
    | exact fun hw => hw
    | intro _
    | with_reducible apply State.onHome_kept
    | with_reducible apply State.foldl_kept
    | exact ⟨Nat.le_refl _, fun hw => hw⟩
    | with_reducible apply Kept.ite
    | split
    | extract_lets
    | (dsimp +zetaDelta only; split)
    | (simp +zetaDelta [*]; done)
    | (simp only [Home.wf] at *; simp +zetaDelta [*]; done)

theorem State.shareOrFree_kept {s : State} {la : Nat} {st : LSt} {shr : BitVec 63} (khome : l .home = true) (h : Kept l o s) :
    Kept l o (State.shareOrFree la st shr s) := by
  unfold State.shareOrFree
  repeat' first
    | with_reducible assumption
    | exact fun hw => hw
    | intro _
    | with_reducible apply State.freeEntry_kept
    | with_reducible apply State.putEntry_kept
    | with_reducible apply State.foldl_kept
    | exact ⟨Nat.le_refl _, fun hw => hw⟩
    | with_reducible apply Kept.ite
    | split
    | extract_lets
    | (dsimp +zetaDelta only; split)
    | (simp +zetaDelta [*]; done)
    | (simp only [Home.wf] at *; simp +zetaDelta [*]; done)

theorem State.onSc0_kept {s : State} {r : HReq} {f : Sc0Live → Sc0Live} (kfab : l .fab = true) (h : Kept l o s) :
    Kept l o (State.onSc0 r f s) := by
  unfold State.onSc0
  repeat' first
    | with_reducible assumption
    | exact fun hw => hw
    | intro _
    | with_reducible apply State.onFab_kept
    | with_reducible apply State.foldl_kept
    | exact ⟨Nat.le_refl _, fun hw => hw⟩
    | with_reducible apply Kept.ite
    | split
    | extract_lets
    | (dsimp +zetaDelta only; split)
    | (simp +zetaDelta [*]; done)
    | (simp only [Fab.wf] at *; simp +zetaDelta [*]; done)

theorem State.nak_kept {s : State} {q : Retry} {way : Bool} (kregs : l .regs = true) (khost : l .host = true) (kflt : l .flt = true) (kfab : l .fab = true) (khome : l .home = true) (krecorder : l .recorder = true) (kimg : l .img = true) (kout : l .out = true) (kfree : l .free = true) (h : Kept l o s) :
    Kept l o (State.nak q way s) := by
  unfold State.nak
  repeat' first
    | with_reducible assumption
    | exact fun hw => hw
    | intro _
    | with_reducible apply State.count_kept
    | with_reducible apply State.bump_kept
    | with_reducible apply State.digest_kept
    | with_reducible apply State.onSc0_kept
    | with_reducible apply State.respondFail_kept
    | with_reducible apply State.fc2_kept
    | with_reducible apply State.onSlice_kept
    | with_reducible apply State.foldl_kept
    | exact ⟨Nat.le_refl _, fun hw => hw⟩
    | with_reducible apply Kept.ite
    | split
    | extract_lets
    | (dsimp +zetaDelta only; split)
    | (simp +zetaDelta [*]; done)
    | (simp only [HostIf.wf, Flt.wf, Fab.wf, Home.wf, Rec.wf] at *; simp +zetaDelta [*]; done)

theorem State.nakFull_kept {s : State} {q : Retry} (kregs : l .regs = true) (khost : l .host = true) (kflt : l .flt = true) (kfab : l .fab = true) (khome : l .home = true) (krecorder : l .recorder = true) (kimg : l .img = true) (kout : l .out = true) (kfree : l .free = true) (h : Kept l o s) :
    Kept l o (State.nakFull q s) := by
  unfold State.nakFull
  repeat' first
    | with_reducible assumption
    | exact fun hw => hw
    | intro _
    | with_reducible apply State.nak_kept
    | with_reducible apply State.bump_kept
    | with_reducible apply State.foldl_kept
    | exact ⟨Nat.le_refl _, fun hw => hw⟩
    | with_reducible apply Kept.ite
    | split
    | extract_lets
    | (dsimp +zetaDelta only; split)
    | (simp +zetaDelta [*]; done)
    | (simp only [HostIf.wf, Flt.wf, Fab.wf, Home.wf, Rec.wf] at *; simp +zetaDelta [*]; done)

theorem State.boundSnoops_kept {s : State} {r : HReq} {la : Nat} {ports : BitVec 64} (kfab : l .fab = true) (h : Kept l o s) :
    Kept l o (State.boundSnoops r la ports s) := by
  unfold State.boundSnoops
  repeat' first
    | with_reducible assumption
    | exact fun hw => hw
    | intro _
    | with_reducible apply State.onSc0_kept
    | with_reducible apply State.foldl_kept
    | exact ⟨Nat.le_refl _, fun hw => hw⟩
    | with_reducible apply Kept.ite
    | split
    | extract_lets
    | (dsimp +zetaDelta only; split)
    | (simp +zetaDelta [*]; done)
    | (simp only [Fab.wf] at *; simp +zetaDelta [*]; done)

theorem State.beginTrk_kept {s : State} {q : Option Retry} {k : Nat} {d : DirEnt} {x : Start} (kregs : l .regs = true) (khost : l .host = true) (kflt : l .flt = true) (kfab : l .fab = true) (khome : l .home = true) (kimg : l .img = true) (kout : l .out = true) (kfree : l .free = true) (h : Kept l o s) :
    Kept l o (State.beginTrk q k d x s) := by
  unfold State.beginTrk
  repeat' first
    | with_reducible assumption
    | exact fun hw => hw
    | intro _
    | with_reducible apply State.setTrk_kept
    | with_reducible apply State.setDir_kept
    | with_reducible apply State.boundSnoops_kept
    | with_reducible apply State.touchDir_kept
    | with_reducible apply State.snoop_kept
    | with_reducible apply State.readMem_kept
    | with_reducible apply State.fwdReq_kept
    | with_reducible apply State.foldl_kept
    | exact ⟨Nat.le_refl _, fun hw => hw⟩
    | with_reducible apply Kept.ite
    | split
    | extract_lets
    | (dsimp +zetaDelta only; split)
    | (simp +zetaDelta [*]; done)
    | (simp only [HostIf.wf, Flt.wf, Fab.wf, Home.wf] at *; simp +zetaDelta [*]; done)

theorem State.withEntry_kept {s : State} {q : Retry} {f : Nat → State → State} (kregs : l .regs = true) (khost : l .host = true) (kflt : l .flt = true) (kfab : l .fab = true) (khome : l .home = true) (krecorder : l .recorder = true) (kimg : l .img = true) (kout : l .out = true) (kfree : l .free = true) (fK : ∀ x y, Kept l o y → Kept l o (f x y)) (h : Kept l o s) :
    Kept l o (State.withEntry q f s) := by
  unfold State.withEntry
  repeat' first
    | with_reducible assumption
    | exact fun hw => hw
    | intro _
    | with_reducible apply fK
    | with_reducible apply State.touchDir_kept
    | with_reducible apply State.setDir_kept
    | with_reducible apply State.bump_kept
    | with_reducible apply State.nak_kept
    | with_reducible apply State.beginTrk_kept
    | with_reducible apply State.nakFull_kept
    | with_reducible apply State.foldl_kept
    | exact ⟨Nat.le_refl _, fun hw => hw⟩
    | with_reducible apply Kept.ite
    | split
    | extract_lets
    | (dsimp +zetaDelta only; split)
    | (simp +zetaDelta [*]; done)
    | (simp only [HostIf.wf, Flt.wf, Fab.wf, Home.wf, Rec.wf] at *; simp +zetaDelta [*]; done)

theorem State.withOlc_kept {s : State} {q : Retry} {f : State → State} (kregs : l .regs = true) (khost : l .host = true) (kflt : l .flt = true) (kfab : l .fab = true) (khome : l .home = true) (kbel : l .bel = true) (krecorder : l .recorder = true) (kimg : l .img = true) (kout : l .out = true) (kfree : l .free = true) (fK : ∀ x, Kept l o x → Kept l o (f x)) (h : Kept l o s) :
    Kept l o (State.withOlc q f s) := by
  unfold State.withOlc
  repeat' first
    | with_reducible assumption
    | exact fun hw => hw
    | intro _
    | with_reducible apply fK
    | with_reducible apply State.nak_kept
    | with_reducible apply State.issueWb_kept
    | with_reducible apply State.nakFull_kept
    | with_reducible apply State.foldl_kept
    | exact ⟨Nat.le_refl _, fun hw => hw⟩
    | with_reducible apply Kept.ite
    | split
    | extract_lets
    | (dsimp +zetaDelta only; split)
    | (simp +zetaDelta [*]; done)
    | (simp only [HostIf.wf, Flt.wf, Fab.wf, Home.wf, Bel.wf, Rec.wf] at *; simp +zetaDelta [*]; done)

theorem State.touchLine_kept {s : State} {la : Nat} (khome : l .home = true) (h : Kept l o s) :
    Kept l o (State.touchLine la s) := by
  unfold State.touchLine
  repeat' first
    | with_reducible assumption
    | exact fun hw => hw
    | intro _
    | with_reducible apply State.touchOlc_kept
    | with_reducible apply State.foldl_kept
    | exact ⟨Nat.le_refl _, fun hw => hw⟩
    | with_reducible apply Kept.ite
    | split
    | extract_lets
    | (dsimp +zetaDelta only; split)
    | (simp +zetaDelta [*]; done)
    | (simp only [Home.wf] at *; simp +zetaDelta [*]; done)

theorem State.takeOlc_kept {s : State} {r : HReq} (kregs : l .regs = true) (khost : l .host = true) (kflt : l .flt = true) (khome : l .home = true) (kbel : l .bel = true) (kimg : l .img = true) (kout : l .out = true) (kfree : l .free = true) (h : Kept l o s) :
    Kept l o (State.takeOlc r s) := by
  unfold State.takeOlc
  repeat' first
    | with_reducible assumption
    | exact fun hw => hw
    | intro _
    | with_reducible apply State.count_kept
    | with_reducible apply State.spend_kept
    | with_reducible apply State.touchLine_kept
    | with_reducible apply State.foldl_kept
    | exact ⟨Nat.le_refl _, fun hw => hw⟩
    | with_reducible apply Kept.ite
    | split
    | extract_lets
    | (dsimp +zetaDelta only; split)
    | (simp +zetaDelta [*]; done)
    | (simp only [HostIf.wf, Flt.wf, Home.wf, Bel.wf] at *; simp +zetaDelta [*]; done)

theorem State.doData_kept {s : State} {r : HReq} {grant : Nat} (kregs : l .regs = true) (khost : l .host = true) (kflt : l .flt = true) (kfab : l .fab = true) (khome : l .home = true) (kbel : l .bel = true) (kimg : l .img = true) (kout : l .out = true) (kfree : l .free = true) (h : Kept l o s) :
    Kept l o (State.doData r grant s) := by
  unfold State.doData
  repeat' first
    | with_reducible assumption
    | exact fun hw => hw
    | intro _
    | with_reducible apply State.respond_kept
    | with_reducible apply State.takeOlc_kept
    | with_reducible apply State.foldl_kept
    | exact ⟨Nat.le_refl _, fun hw => hw⟩
    | with_reducible apply Kept.ite
    | split
    | extract_lets
    | (dsimp +zetaDelta only; split)
    | (simp +zetaDelta [*]; done)
    | (simp only [HostIf.wf, Flt.wf, Fab.wf, Home.wf, Bel.wf] at *; simp +zetaDelta [*]; done)

theorem State.serveRdS_kept {s : State} {q : Retry} (kregs : l .regs = true) (khost : l .host = true) (kflt : l .flt = true) (kfab : l .fab = true) (khome : l .home = true) (kbel : l .bel = true) (krecorder : l .recorder = true) (kimg : l .img = true) (kout : l .out = true) (kfree : l .free = true) (h : Kept l o s) :
    Kept l o (State.serveRdS q s) := by
  unfold State.serveRdS
  repeat' first
    | with_reducible assumption
    | exact fun hw => hw
    | intro _
    | with_reducible apply State.withEntry_kept
    | with_reducible apply State.doData_kept
    | with_reducible apply State.shareOrFree_kept
    | with_reducible apply State.beginTrk_kept
    | with_reducible apply State.touchDir_kept
    | with_reducible apply State.readMem_kept
    | with_reducible apply State.putEntry_kept
    | with_reducible apply State.granted_kept
    | with_reducible apply State.foldl_kept
    | exact ⟨Nat.le_refl _, fun hw => hw⟩
    | with_reducible apply Kept.ite
    | split
    | extract_lets
    | (dsimp +zetaDelta only; split)
    | (simp +zetaDelta [*]; done)
    | (simp only [HostIf.wf, Flt.wf, Fab.wf, Home.wf, Bel.wf, Rec.wf] at *; simp +zetaDelta [*]; done)

theorem State.serveRdX_kept {s : State} {q : Retry} (kregs : l .regs = true) (khost : l .host = true) (kflt : l .flt = true) (kfab : l .fab = true) (khome : l .home = true) (kbel : l .bel = true) (krecorder : l .recorder = true) (kimg : l .img = true) (kout : l .out = true) (kfree : l .free = true) (h : Kept l o s) :
    Kept l o (State.serveRdX q s) := by
  unfold State.serveRdX
  repeat' first
    | with_reducible assumption
    | exact fun hw => hw
    | intro _
    | with_reducible apply State.withEntry_kept
    | with_reducible apply State.granted_kept
    | with_reducible apply State.doData_kept
    | with_reducible apply State.ownNow_kept
    | with_reducible apply State.beginTrk_kept
    | with_reducible apply State.touchDir_kept
    | with_reducible apply State.respond_kept
    | with_reducible apply State.putEntry_kept
    | with_reducible apply State.readMem_kept
    | with_reducible apply State.foldl_kept
    | exact ⟨Nat.le_refl _, fun hw => hw⟩
    | with_reducible apply Kept.ite
    | split
    | extract_lets
    | (dsimp +zetaDelta only; split)
    | (simp +zetaDelta [*]; done)
    | (simp only [HostIf.wf, Flt.wf, Fab.wf, Home.wf, Bel.wf, Rec.wf] at *; simp +zetaDelta [*]; done)

theorem State.serveRdU_kept {s : State} {q : Retry} (kregs : l .regs = true) (khost : l .host = true) (kflt : l .flt = true) (kfab : l .fab = true) (khome : l .home = true) (kbel : l .bel = true) (kimg : l .img = true) (kout : l .out = true) (kfree : l .free = true) (h : Kept l o s) :
    Kept l o (State.serveRdU q s) := by
  unfold State.serveRdU
  repeat' first
    | with_reducible assumption
    | exact fun hw => hw
    | intro _
    | with_reducible apply State.doData_kept
    | with_reducible apply State.readMem_kept
    | with_reducible apply State.touchDir_kept
    | with_reducible apply State.beginTrk_kept
    | with_reducible apply State.foldl_kept
    | exact ⟨Nat.le_refl _, fun hw => hw⟩
    | with_reducible apply Kept.ite
    | split
    | extract_lets
    | (dsimp +zetaDelta only; split)
    | (simp +zetaDelta [*]; done)
    | (simp only [HostIf.wf, Flt.wf, Fab.wf, Home.wf, Bel.wf] at *; simp +zetaDelta [*]; done)

theorem State.respondWrite_kept {s : State} {r : HReq} {kind : Nat} {prior : Line × Bool} (kregs : l .regs = true) (khost : l .host = true) (kflt : l .flt = true) (kfab : l .fab = true) (kimg : l .img = true) (kout : l .out = true) (kfree : l .free = true) (h : Kept l o s) :
    Kept l o (State.respondWrite r kind prior s) := by
  unfold State.respondWrite
  repeat' first
    | with_reducible assumption
    | exact fun hw => hw
    | intro _
    | with_reducible apply State.respond_kept
    | with_reducible apply State.foldl_kept
    | exact ⟨Nat.le_refl _, fun hw => hw⟩
    | with_reducible apply Kept.ite
    | split
    | extract_lets
    | (dsimp +zetaDelta only; split)
    | (simp +zetaDelta [*]; done)
    | (simp only [HostIf.wf, Flt.wf, Fab.wf] at *; simp +zetaDelta [*]; done)

theorem State.writeReq_kept {s : State} {r : HReq} {op : Option (AtomOp × Bool × Word × Word)} {base : Line × Bool} (kregs : l .regs = true) (khome : l .home = true) (kbel : l .bel = true) (kout : l .out = true) (h : Kept l o s) :
    Kept l o (State.writeReq r op base s).2 := by
  unfold State.writeReq
  repeat' first
    | with_reducible assumption
    | exact fun hw => hw
    | intro _
    | with_reducible apply State.writeLine_kept
    | with_reducible apply State.foldl_kept
    | exact ⟨Nat.le_refl _, fun hw => hw⟩
    | with_reducible apply Kept.ite
    | split
    | extract_lets
    | (dsimp +zetaDelta only; split)
    | (simp +zetaDelta [*]; done)
    | (simp only [Home.wf, Bel.wf] at *; simp +zetaDelta [*]; done)

theorem State.serveWrU_kept {s : State} {q : Retry} (kregs : l .regs = true) (khost : l .host = true) (kflt : l .flt = true) (kfab : l .fab = true) (khome : l .home = true) (kbel : l .bel = true) (krecorder : l .recorder = true) (kimg : l .img = true) (kout : l .out = true) (kfree : l .free = true) (h : Kept l o s) :
    Kept l o (State.serveWrU q s) := by
  unfold State.serveWrU
  repeat' first
    | with_reducible assumption
    | exact fun hw => hw
    | intro _
    | with_reducible apply State.withOlc_kept
    | with_reducible apply State.writeReq_kept
    | with_reducible apply State.respondWrite_kept
    | with_reducible apply State.withEntry_kept
    | with_reducible apply State.beginTrk_kept
    | with_reducible apply State.touchDir_kept
    | with_reducible apply State.foldl_kept
    | exact ⟨Nat.le_refl _, fun hw => hw⟩
    | with_reducible apply Kept.ite
    | split
    | extract_lets
    | (dsimp +zetaDelta only; split)
    | (simp +zetaDelta [*]; done)
    | (simp only [HostIf.wf, Flt.wf, Fab.wf, Home.wf, Bel.wf, Rec.wf] at *; simp +zetaDelta [*]; done)

theorem State.refuseRt_kept {s : State} {q : Retry} (kregs : l .regs = true) (khost : l .host = true) (kflt : l .flt = true) (kfab : l .fab = true) (kimg : l .img = true) (kout : l .out = true) (kfree : l .free = true) (h : Kept l o s) :
    Kept l o (State.refuseRt q s) := by
  unfold State.refuseRt
  repeat' first
    | with_reducible assumption
    | exact fun hw => hw
    | intro _
    | with_reducible apply State.respondFail_kept
    | with_reducible apply State.fc2_kept
    | with_reducible apply State.foldl_kept
    | exact ⟨Nat.le_refl _, fun hw => hw⟩
    | with_reducible apply Kept.ite
    | split
    | extract_lets
    | (dsimp +zetaDelta only; split)
    | (simp +zetaDelta [*]; done)
    | (simp only [HostIf.wf, Flt.wf, Fab.wf] at *; simp +zetaDelta [*]; done)

theorem State.serveRtWrite_kept {s : State} {q : Retry} (kregs : l .regs = true) (khost : l .host = true) (kflt : l .flt = true) (kfab : l .fab = true) (khome : l .home = true) (kbel : l .bel = true) (kimg : l .img = true) (kout : l .out = true) (kfree : l .free = true) (h : Kept l o s) :
    Kept l o (State.serveRtWrite q s) := by
  unfold State.serveRtWrite
  repeat' first
    | with_reducible assumption
    | exact fun hw => hw
    | intro _
    | with_reducible apply State.respondFail_kept
    | with_reducible apply State.writeReq_kept
    | with_reducible apply State.touchDir_kept
    | with_reducible apply State.respondWrite_kept
    | with_reducible apply State.setDir_kept
    | with_reducible apply State.beginTrk_kept
    | with_reducible apply State.foldl_kept
    | exact ⟨Nat.le_refl _, fun hw => hw⟩
    | with_reducible apply Kept.ite
    | split
    | extract_lets
    | (dsimp +zetaDelta only; split)
    | (simp +zetaDelta [*]; done)
    | (simp only [HostIf.wf, Flt.wf, Fab.wf, Home.wf, Bel.wf] at *; simp +zetaDelta [*]; done)

theorem State.serveRt_kept {s : State} {q : Retry} {w : DWin} (kregs : l .regs = true) (khost : l .host = true) (kflt : l .flt = true) (kfab : l .fab = true) (khome : l .home = true) (kbel : l .bel = true) (krecorder : l .recorder = true) (kimg : l .img = true) (kout : l .out = true) (kfree : l .free = true) (h : Kept l o s) :
    Kept l o (State.serveRt q w s) := by
  unfold State.serveRt
  repeat' first
    | with_reducible assumption
    | exact fun hw => hw
    | intro _
    | with_reducible apply State.refuseRt_kept
    | with_reducible apply State.doData_kept
    | with_reducible apply State.setDir_kept
    | with_reducible apply State.touchDir_kept
    | with_reducible apply State.setTrk_kept
    | with_reducible apply State.boundSnoops_kept
    | with_reducible apply State.bump_kept
    | with_reducible apply State.nak_kept
    | with_reducible apply State.serveRdS_kept
    | with_reducible apply State.serveRdU_kept
    | with_reducible apply State.serveRtWrite_kept
    | with_reducible apply State.foldl_kept
    | exact ⟨Nat.le_refl _, fun hw => hw⟩
    | with_reducible apply Kept.ite
    | split
    | extract_lets
    | (dsimp +zetaDelta only; split)
    | (simp +zetaDelta [*]; done)
    | (simp only [HostIf.wf, Flt.wf, Fab.wf, Home.wf, Bel.wf, Rec.wf] at *; simp +zetaDelta [*]; done)

theorem State.stale_kept {s : State} {r : HReq} {wb : Bool} (kregs : l .regs = true) (khost : l .host = true) (kflt : l .flt = true) (kfab : l .fab = true) (kimg : l .img = true) (kout : l .out = true) (kfree : l .free = true) (h : Kept l o s) :
    Kept l o (State.stale r wb s) := by
  unfold State.stale
  repeat' first
    | with_reducible assumption
    | exact fun hw => hw
    | intro _
    | with_reducible apply State.bump_kept
    | with_reducible apply State.fc2_kept
    | with_reducible apply State.respond_kept
    | with_reducible apply State.foldl_kept
    | exact ⟨Nat.le_refl _, fun hw => hw⟩
    | with_reducible apply Kept.ite
    | split
    | extract_lets
    | (dsimp +zetaDelta only; split)
    | (simp +zetaDelta [*]; done)
    | (simp only [HostIf.wf, Flt.wf, Fab.wf] at *; simp +zetaDelta [*]; done)

theorem State.cmp_kept {s : State} {r : HReq} (kregs : l .regs = true) (khost : l .host = true) (kflt : l .flt = true) (kfab : l .fab = true) (kimg : l .img = true) (kout : l .out = true) (kfree : l .free = true) (h : Kept l o s) :
    Kept l o (State.cmp r s) := by
  unfold State.cmp
  repeat' first
    | with_reducible assumption
    | exact fun hw => hw
    | intro _
    | with_reducible apply State.respond_kept
    | with_reducible apply State.foldl_kept
    | exact ⟨Nat.le_refl _, fun hw => hw⟩
    | with_reducible apply Kept.ite
    | split
    | extract_lets
    | (dsimp +zetaDelta only; split)
    | (simp +zetaDelta [*]; done)
    | (simp only [HostIf.wf, Flt.wf, Fab.wf] at *; simp +zetaDelta [*]; done)

theorem State.serveWb_kept {s : State} {q : Retry} (kregs : l .regs = true) (khost : l .host = true) (kflt : l .flt = true) (kfab : l .fab = true) (khome : l .home = true) (kbel : l .bel = true) (krecorder : l .recorder = true) (kimg : l .img = true) (kout : l .out = true) (kfree : l .free = true) (h : Kept l o s) :
    Kept l o (State.serveWb q s) := by
  unfold State.serveWb
  repeat' first
    | with_reducible assumption
    | exact fun hw => hw
    | intro _
    | with_reducible apply State.stale_kept
    | with_reducible apply State.withOlc_kept
    | with_reducible apply State.touchDir_kept
    | with_reducible apply State.beginTrk_kept
    | with_reducible apply State.writeReq_kept
    | with_reducible apply State.cmp_kept
    | with_reducible apply State.freeEntry_kept
    | with_reducible apply State.putEntry_kept
    | with_reducible apply State.shareOrFree_kept
    | with_reducible apply State.foldl_kept
    | exact ⟨Nat.le_refl _, fun hw => hw⟩
    | with_reducible apply Kept.ite
    | split
    | extract_lets
    | (dsimp +zetaDelta only; split)
    | (simp +zetaDelta [*]; done)
    | (simp only [HostIf.wf, Flt.wf, Fab.wf, Home.wf, Bel.wf, Rec.wf] at *; simp +zetaDelta [*]; done)

theorem State.poisonLine_kept {s : State} {la : Nat} (kregs : l .regs = true) (khome : l .home = true) (kbel : l .bel = true) (kout : l .out = true) (h : Kept l o s) :
    Kept l o (State.poisonLine la s) := by
  unfold State.poisonLine
  repeat' first
    | with_reducible assumption
    | exact fun hw => hw
    | intro _
    | with_reducible apply State.writeLine_kept
    | with_reducible apply State.foldl_kept
    | exact ⟨Nat.le_refl _, fun hw => hw⟩
    | with_reducible apply Kept.ite
    | split
    | extract_lets
    | (dsimp +zetaDelta only; split)
    | (simp +zetaDelta [*]; done)
    | (simp only [Home.wf, Bel.wf] at *; simp +zetaDelta [*]; done)

theorem State.serveCev_kept {s : State} {q : Retry} (kregs : l .regs = true) (khost : l .host = true) (kflt : l .flt = true) (kfab : l .fab = true) (khome : l .home = true) (kbel : l .bel = true) (krecorder : l .recorder = true) (kimg : l .img = true) (kout : l .out = true) (kfree : l .free = true) (h : Kept l o s) :
    Kept l o (State.serveCev q s) := by
  unfold State.serveCev
  repeat' first
    | with_reducible assumption
    | exact fun hw => hw
    | intro _
    | with_reducible apply State.stale_kept
    | with_reducible apply State.cmp_kept
    | with_reducible apply State.freeEntry_kept
    | with_reducible apply State.touchDir_kept
    | with_reducible apply State.withOlc_kept
    | with_reducible apply State.fc2_kept
    | with_reducible apply State.shareOrFree_kept
    | with_reducible apply State.poisonLine_kept
    | with_reducible apply State.putEntry_kept
    | with_reducible apply State.foldl_kept
    | exact ⟨Nat.le_refl _, fun hw => hw⟩
    | with_reducible apply Kept.ite
    | split
    | extract_lets
    | (dsimp +zetaDelta only; split)
    | (simp +zetaDelta [*]; done)
    | (simp only [HostIf.wf, Flt.wf, Fab.wf, Home.wf, Bel.wf, Rec.wf] at *; simp +zetaDelta [*]; done)

theorem State.transientWb_kept {s : State} {q : Retry} {t1 : Trk} (kregs : l .regs = true) (khost : l .host = true) (kflt : l .flt = true) (kfab : l .fab = true) (khome : l .home = true) (kbel : l .bel = true) (kimg : l .img = true) (kout : l .out = true) (kfree : l .free = true) (h : Kept l o s) :
    Kept l o (State.transientWb q t1 s) := by
  unfold State.transientWb
  repeat' first
    | with_reducible assumption
    | exact fun hw => hw
    | intro _
    | with_reducible apply State.stale_kept
    | with_reducible apply State.bump_kept
    | with_reducible apply State.setTrk_kept
    | with_reducible apply State.writeLine_kept
    | with_reducible apply State.readMem_kept
    | with_reducible apply State.cmp_kept
    | with_reducible apply State.foldl_kept
    | exact ⟨Nat.le_refl _, fun hw => hw⟩
    | with_reducible apply Kept.ite
    | split
    | extract_lets
    | (dsimp +zetaDelta only; split)
    | (simp +zetaDelta [*]; done)
    | (simp only [HostIf.wf, Flt.wf, Fab.wf, Home.wf, Bel.wf] at *; simp +zetaDelta [*]; done)

theorem State.transientCev_kept {s : State} {q : Retry} {k : Nat} {d : DirEnt} {t1 : Trk} (kregs : l .regs = true) (khost : l .host = true) (kflt : l .flt = true) (kfab : l .fab = true) (khome : l .home = true) (kimg : l .img = true) (kout : l .out = true) (kfree : l .free = true) (h : Kept l o s) :
    Kept l o (State.transientCev q k d t1 s) := by
  unfold State.transientCev
  repeat' first
    | with_reducible assumption
    | exact fun hw => hw
    | intro _
    | with_reducible apply State.cmp_kept
    | with_reducible apply State.setTrk_kept
    | with_reducible apply State.setDir_kept
    | with_reducible apply State.readMem_kept
    | with_reducible apply State.stale_kept
    | with_reducible apply State.foldl_kept
    | exact ⟨Nat.le_refl _, fun hw => hw⟩
    | with_reducible apply Kept.ite
    | split
    | extract_lets
    | (dsimp +zetaDelta only; split)
    | (simp +zetaDelta [*]; done)
    | (simp only [HostIf.wf, Flt.wf, Fab.wf, Home.wf] at *; simp +zetaDelta [*]; done)

theorem State.serveFailed_kept {s : State} {q : Retry} (kregs : l .regs = true) (khost : l .host = true) (kflt : l .flt = true) (kfab : l .fab = true) (kimg : l .img = true) (kout : l .out = true) (kfree : l .free = true) (h : Kept l o s) :
    Kept l o (State.serveFailed q s) := by
  unfold State.serveFailed
  repeat' first
    | with_reducible assumption
    | exact fun hw => hw
    | intro _
    | with_reducible apply State.cmp_kept
    | with_reducible apply State.respondFail_kept
    | with_reducible apply State.foldl_kept
    | exact ⟨Nat.le_refl _, fun hw => hw⟩
    | with_reducible apply Kept.ite
    | split
    | extract_lets
    | (dsimp +zetaDelta only; split)
    | (simp +zetaDelta [*]; done)
    | (simp only [HostIf.wf, Flt.wf, Fab.wf] at *; simp +zetaDelta [*]; done)

theorem State.serveOne_kept {s : State} {q : Retry} (kregs : l .regs = true) (khost : l .host = true) (kflt : l .flt = true) (kfab : l .fab = true) (khome : l .home = true) (kbel : l .bel = true) (krecorder : l .recorder = true) (kimg : l .img = true) (kout : l .out = true) (kfree : l .free = true) (h : Kept l o s) :
    Kept l o (State.serveOne q s) := by
  unfold State.serveOne
  repeat' first
    | with_reducible assumption
    | exact fun hw => hw
    | intro _
    | with_reducible apply State.serveFailed_kept
    | with_reducible apply State.respondFail_kept
    | with_reducible apply State.spend_kept
    | with_reducible apply State.transientCev_kept
    | with_reducible apply State.serveCev_kept
    | with_reducible apply State.transientWb_kept
    | with_reducible apply State.serveWb_kept
    | with_reducible apply State.serveRt_kept
    | with_reducible apply State.nak_kept
    | with_reducible apply State.serveRdS_kept
    | with_reducible apply State.serveRdX_kept
    | with_reducible apply State.serveRdU_kept
    | with_reducible apply State.serveWrU_kept
    | with_reducible apply State.foldl_kept
    | exact ⟨Nat.le_refl _, fun hw => hw⟩
    | with_reducible apply Kept.ite
    | split
    | extract_lets
    | (dsimp +zetaDelta only; split)
    | (simp +zetaDelta [*]; done)
    | (simp only [HostIf.wf, Flt.wf, Fab.wf, Home.wf, Bel.wf, Rec.wf] at *; simp +zetaDelta [*]; done)

theorem State.payTrk_kept {s : State} {t1 : Trk} (kregs : l .regs = true) (khome : l .home = true) (kbel : l .bel = true) (kout : l .out = true) (h : Kept l o s) :
    Kept l o (State.payTrk t1 s) := by
  unfold State.payTrk
  repeat' first
    | with_reducible assumption
    | exact fun hw => hw
    | intro _
    | with_reducible apply State.writeLine_kept
    | with_reducible apply State.poisonLine_kept
    | with_reducible apply State.foldl_kept
    | exact ⟨Nat.le_refl _, fun hw => hw⟩
    | with_reducible apply Kept.ite
    | split
    | extract_lets
    | (dsimp +zetaDelta only; split)
    | (simp +zetaDelta [*]; done)
    | (simp only [Home.wf, Bel.wf] at *; simp +zetaDelta [*]; done)

theorem State.answerLost_kept {s : State} {t1 : Trk} {r : HReq} {f : State → State} (kregs : l .regs = true) (fK : ∀ x, Kept l o x → Kept l o (f x)) (h : Kept l o s) :
    Kept l o (State.answerLost t1 r f s) := by
  unfold State.answerLost
  repeat' first
    | with_reducible assumption
    | exact fun hw => hw
    | intro _
    | with_reducible apply fK
    | with_reducible apply State.bump_kept
    | with_reducible apply State.foldl_kept
    | exact ⟨Nat.le_refl _, fun hw => hw⟩
    | with_reducible apply Kept.ite
    | split
    | extract_lets
    | (dsimp +zetaDelta only; split)
    | (simp +zetaDelta [*]; done)

theorem State.answerTrk_kept {s : State} {t1 : Trk} {withData : Bool} {grant : Nat} {data : Line × Bool} (kregs : l .regs = true) (khost : l .host = true) (kflt : l .flt = true) (kfab : l .fab = true) (kimg : l .img = true) (kout : l .out = true) (kfree : l .free = true) (h : Kept l o s) :
    Kept l o (State.answerTrk t1 withData grant data s) := by
  unfold State.answerTrk
  repeat' first
    | with_reducible assumption
    | exact fun hw => hw
    | intro _
    | with_reducible apply State.answerLost_kept
    | with_reducible apply State.respond_kept
    | with_reducible apply State.foldl_kept
    | exact ⟨Nat.le_refl _, fun hw => hw⟩
    | with_reducible apply Kept.ite
    | split
    | extract_lets
    | (dsimp +zetaDelta only; split)
    | (simp +zetaDelta [*]; done)
    | (simp only [HostIf.wf, Flt.wf, Fab.wf] at *; simp +zetaDelta [*]; done)

theorem State.grantTrk_kept {s : State} {t1 : Trk} {st : LSt} {withData : Bool} {olcv : Bool} (kregs : l .regs = true) (khost : l .host = true) (kflt : l .flt = true) (kfab : l .fab = true) (khome : l .home = true) (kimg : l .img = true) (kout : l .out = true) (kfree : l .free = true) (h : Kept l o s) :
    Kept l o (State.grantTrk t1 st withData olcv s) := by
  unfold State.grantTrk
  repeat' first
    | with_reducible assumption
    | exact fun hw => hw
    | intro _
    | with_reducible apply State.granted_kept
    | with_reducible apply State.answerTrk_kept
    | with_reducible apply State.putEntry_kept
    | with_reducible apply State.touchLine_kept
    | with_reducible apply State.freeEntry_kept
    | with_reducible apply State.foldl_kept
    | exact ⟨Nat.le_refl _, fun hw => hw⟩
    | with_reducible apply Kept.ite
    | split
    | extract_lets
    | (dsimp +zetaDelta only; split)
    | (simp +zetaDelta [*]; done)
    | (simp only [HostIf.wf, Flt.wf, Fab.wf, Home.wf] at *; simp +zetaDelta [*]; done)

theorem State.readTrk_kept {s : State} {t1 : Trk} (kregs : l .regs = true) (khost : l .host = true) (kflt : l .flt = true) (kfab : l .fab = true) (khome : l .home = true) (kimg : l .img = true) (kout : l .out = true) (kfree : l .free = true) (h : Kept l o s) :
    Kept l o (State.readTrk t1 s) := by
  unfold State.readTrk
  repeat' first
    | with_reducible assumption
    | exact fun hw => hw
    | intro _
    | with_reducible apply State.answerTrk_kept
    | with_reducible apply State.shareOrFree_kept
    | with_reducible apply State.touchLine_kept
    | with_reducible apply State.foldl_kept
    | exact ⟨Nat.le_refl _, fun hw => hw⟩
    | with_reducible apply Kept.ite
    | split
    | extract_lets
    | (dsimp +zetaDelta only; split)
    | (simp +zetaDelta [*]; done)
    | (simp only [HostIf.wf, Flt.wf, Fab.wf, Home.wf] at *; simp +zetaDelta [*]; done)

theorem State.fwdTrk_kept {s : State} {t1 : Trk} (kregs : l .regs = true) (khost : l .host = true) (kflt : l .flt = true) (kfab : l .fab = true) (khome : l .home = true) (kimg : l .img = true) (kout : l .out = true) (kfree : l .free = true) (h : Kept l o s) :
    Kept l o (State.fwdTrk t1 s) := by
  unfold State.fwdTrk
  repeat' first
    | with_reducible assumption
    | exact fun hw => hw
    | intro _
    | with_reducible apply State.answerTrk_kept
    | with_reducible apply State.putEntry_kept
    | with_reducible apply State.dropOlc_kept
    | with_reducible apply State.shareOrFree_kept
    | with_reducible apply State.touchLine_kept
    | with_reducible apply State.foldl_kept
    | exact ⟨Nat.le_refl _, fun hw => hw⟩
    | with_reducible apply Kept.ite
    | split
    | extract_lets
    | (dsimp +zetaDelta only; split)
    | (simp +zetaDelta [*]; done)
    | (simp only [HostIf.wf, Flt.wf, Fab.wf, Home.wf] at *; simp +zetaDelta [*]; done)

theorem State.trkWrite_kept {s : State} {t1 : Trk} (kregs : l .regs = true) (khome : l .home = true) (kbel : l .bel = true) (kout : l .out = true) (h : Kept l o s) :
    Kept l o (State.trkWrite t1 s).2 := by
  unfold State.trkWrite
  repeat' first
    | with_reducible assumption
    | exact fun hw => hw
    | intro _
    | with_reducible apply State.writeReq_kept
    | with_reducible apply State.foldl_kept
    | exact ⟨Nat.le_refl _, fun hw => hw⟩
    | with_reducible apply Kept.ite
    | split
    | extract_lets
    | (dsimp +zetaDelta only; split)
    | (simp +zetaDelta [*]; done)
    | (simp only [Home.wf, Bel.wf] at *; simp +zetaDelta [*]; done)

theorem State.writeTrk_kept {s : State} {t1 : Trk} {d : DirEnt} (kregs : l .regs = true) (khost : l .host = true) (kflt : l .flt = true) (kfab : l .fab = true) (khome : l .home = true) (kbel : l .bel = true) (kimg : l .img = true) (kout : l .out = true) (kfree : l .free = true) (h : Kept l o s) :
    Kept l o (State.writeTrk t1 d s) := by
  unfold State.writeTrk
  repeat' first
    | with_reducible assumption
    | exact fun hw => hw
    | intro _
    | with_reducible apply State.trkWrite_kept
    | with_reducible apply State.putEntry_kept
    | with_reducible apply State.shareOrFree_kept
    | with_reducible apply State.freeEntry_kept
    | with_reducible apply State.answerLost_kept
    | with_reducible apply State.cmp_kept
    | with_reducible apply State.respondWrite_kept
    | with_reducible apply State.foldl_kept
    | exact ⟨Nat.le_refl _, fun hw => hw⟩
    | with_reducible apply Kept.ite
    | split
    | extract_lets
    | (dsimp +zetaDelta only; split)
    | (simp +zetaDelta [*]; done)
    | (simp only [HostIf.wf, Flt.wf, Fab.wf, Home.wf, Bel.wf] at *; simp +zetaDelta [*]; done)

theorem State.evictTrk_kept {s : State} {t1 : Trk} (khome : l .home = true) (h : Kept l o s) :
    Kept l o (State.evictTrk t1 s) := by
  unfold State.evictTrk
  repeat' first
    | with_reducible assumption
    | exact fun hw => hw
    | intro _
    | with_reducible apply State.shareOrFree_kept
    | with_reducible apply State.putEntry_kept
    | with_reducible apply State.freeEntry_kept
    | with_reducible apply State.foldl_kept
    | exact ⟨Nat.le_refl _, fun hw => hw⟩
    | with_reducible apply Kept.ite
    | split
    | extract_lets
    | (dsimp +zetaDelta only; split)
    | (simp +zetaDelta [*]; done)
    | (simp only [Home.wf] at *; simp +zetaDelta [*]; done)

theorem State.endTrk_kept {s : State} {d : DirEnt} {t1 : Trk} (kregs : l .regs = true) (khost : l .host = true) (kflt : l .flt = true) (kfab : l .fab = true) (khome : l .home = true) (kbel : l .bel = true) (kimg : l .img = true) (kout : l .out = true) (kfree : l .free = true) (h : Kept l o s) :
    Kept l o (State.endTrk d t1 s) := by
  unfold State.endTrk
  repeat' first
    | with_reducible assumption
    | exact fun hw => hw
    | intro _
    | with_reducible apply State.grantTrk_kept
    | with_reducible apply State.readTrk_kept
    | with_reducible apply State.fwdTrk_kept
    | with_reducible apply State.writeTrk_kept
    | with_reducible apply State.evictTrk_kept
    | with_reducible apply State.foldl_kept
    | exact ⟨Nat.le_refl _, fun hw => hw⟩
    | with_reducible apply Kept.ite
    | split
    | extract_lets
    | (dsimp +zetaDelta only; split)
    | (simp +zetaDelta [*]; done)
    | (simp only [HostIf.wf, Flt.wf, Fab.wf, Home.wf, Bel.wf] at *; simp +zetaDelta [*]; done)

theorem State.endWb_kept {s : State} {key : Nat} (khome : l .home = true) (h : Kept l o s) :
    Kept l o (State.endWb key s) := by
  unfold State.endWb
  repeat' first
    | with_reducible assumption
    | exact fun hw => hw
    | intro _
    | with_reducible apply State.setOlc_kept
    | with_reducible apply State.setDir_kept
    | with_reducible apply State.foldl_kept
    | exact ⟨Nat.le_refl _, fun hw => hw⟩
    | with_reducible apply Kept.ite
    | split
    | extract_lets
    | (dsimp +zetaDelta only; split)
    | (simp +zetaDelta [*]; done)
    | (simp only [Home.wf] at *; simp +zetaDelta [*]; done)

theorem State.evictLine_kept {s : State} {la : Nat} {w : Why} (kregs : l .regs = true) (khost : l .host = true) (kflt : l .flt = true) (kfab : l .fab = true) (khome : l .home = true) (kimg : l .img = true) (kout : l .out = true) (kfree : l .free = true) (h : Kept l o s) :
    Kept l o (State.evictLine la w s) := by
  unfold State.evictLine
  repeat' first
    | with_reducible assumption
    | exact fun hw => hw
    | intro _
    | with_reducible apply State.onHome_kept
    | with_reducible apply State.setTrk_kept
    | with_reducible apply State.beginTrk_kept
    | with_reducible apply State.foldl_kept
    | exact ⟨Nat.le_refl _, fun hw => hw⟩
    | with_reducible apply Kept.ite
    | split
    | extract_lets
    | (dsimp +zetaDelta only; split)
    | (simp +zetaDelta [*]; done)
    | (simp only [HostIf.wf, Flt.wf, Fab.wf, Home.wf] at *; simp +zetaDelta [*]; done)

theorem State.serveQueue_kept {s : State} {la : Nat} {n1 : List Retry} (kregs : l .regs = true) (khost : l .host = true) (kflt : l .flt = true) (kfab : l .fab = true) (khome : l .home = true) (kbel : l .bel = true) (krecorder : l .recorder = true) (kimg : l .img = true) (kout : l .out = true) (kfree : l .free = true) (h : Kept l o s) :
    Kept l o (State.serveQueue la n1 s) := by
  induction n1 generalizing s la with
  | nil =>
    unfold State.serveQueue
    repeat' first
      | with_reducible assumption
      | exact fun hw => hw
      | intro _
      | with_reducible apply State.setTrk_kept
      | with_reducible apply State.serveOne_kept
      | with_reducible apply State.foldl_kept
      | with_reducible apply Kept.ite
      | split
      | extract_lets
      | (simp only [HostIf.wf, Flt.wf, Fab.wf, Home.wf, Bel.wf, Rec.wf] at *; simp +zetaDelta [*]; done)
  | cons a as ih =>
    unfold State.serveQueue
    repeat' first
      | with_reducible assumption
      | exact fun hw => hw
      | intro _
      | with_reducible apply State.setTrk_kept
      | with_reducible apply State.serveOne_kept
      | with_reducible apply State.foldl_kept
      | with_reducible apply ih
      | with_reducible apply Kept.ite
      | split
      | extract_lets
      | (simp only [HostIf.wf, Flt.wf, Fab.wf, Home.wf, Bel.wf, Rec.wf] at *; simp +zetaDelta [*]; done)

theorem State.serveGuarded_kept {s : State} {la : Nat} {n1 : Nat} (kregs : l .regs = true) (khost : l .host = true) (kflt : l .flt = true) (kfab : l .fab = true) (khome : l .home = true) (kbel : l .bel = true) (krecorder : l .recorder = true) (kimg : l .img = true) (kout : l .out = true) (kfree : l .free = true) (h : Kept l o s) :
    Kept l o (State.serveGuarded la n1 s) := by
  induction n1 generalizing s la with
  | zero =>
    unfold State.serveGuarded
    repeat' first
      | with_reducible assumption
      | exact fun hw => hw
      | intro _
      | with_reducible apply State.onSlice_kept
      | with_reducible apply State.serveOne_kept
      | with_reducible apply State.digest_kept
      | with_reducible apply State.foldl_kept
      | with_reducible apply Kept.ite
      | split
      | extract_lets
      | (simp only [HostIf.wf, Flt.wf, Fab.wf, Home.wf, Bel.wf, Rec.wf] at *; simp +zetaDelta [*]; done)
  | succ n ih =>
    unfold State.serveGuarded
    repeat' first
      | with_reducible assumption
      | exact fun hw => hw
      | intro _
      | with_reducible apply State.onSlice_kept
      | with_reducible apply State.serveOne_kept
      | with_reducible apply State.digest_kept
      | with_reducible apply State.foldl_kept
      | with_reducible apply ih
      | with_reducible apply Kept.ite
      | split
      | extract_lets
      | (simp only [HostIf.wf, Flt.wf, Fab.wf, Home.wf, Bel.wf, Rec.wf] at *; simp +zetaDelta [*]; done)

theorem State.resolve_kept {s : State} {la : Nat} (kregs : l .regs = true) (khost : l .host = true) (kflt : l .flt = true) (kfab : l .fab = true) (khome : l .home = true) (kbel : l .bel = true) (krecorder : l .recorder = true) (kimg : l .img = true) (kout : l .out = true) (kfree : l .free = true) (h : Kept l o s) :
    Kept l o (State.resolve la s) := by
  unfold State.resolve
  repeat' first
    | with_reducible assumption
    | exact fun hw => hw
    | intro _
    | with_reducible apply State.serveGuarded_kept
    | with_reducible apply State.foldl_kept
    | exact ⟨Nat.le_refl _, fun hw => hw⟩
    | with_reducible apply Kept.ite
    | split
    | extract_lets
    | (dsimp +zetaDelta only; split)
    | (simp +zetaDelta [*]; done)
    | (simp only [HostIf.wf, Flt.wf, Fab.wf, Home.wf, Bel.wf, Rec.wf] at *; simp +zetaDelta [*]; done)

theorem State.complete1_kept {s : State} {d : DirEnt} {t1 : Trk} (kregs : l .regs = true) (khost : l .host = true) (kflt : l .flt = true) (kfab : l .fab = true) (khome : l .home = true) (kbel : l .bel = true) (krecorder : l .recorder = true) (kimg : l .img = true) (kout : l .out = true) (kfree : l .free = true) (h : Kept l o s) :
    Kept l o (State.complete1 d t1 s) := by
  unfold State.complete1
  repeat' first
    | with_reducible assumption
    | exact fun hw => hw
    | intro _
    | with_reducible apply State.endTrk_kept
    | with_reducible apply State.setTrk_kept
    | with_reducible apply State.payTrk_kept
    | with_reducible apply State.endWb_kept
    | with_reducible apply State.forAll_kept
    | with_reducible apply State.evictLine_kept
    | with_reducible apply State.resolve_kept
    | with_reducible apply State.serveQueue_kept
    | with_reducible apply State.foldl_kept
    | exact ⟨Nat.le_refl _, fun hw => hw⟩
    | with_reducible apply Kept.ite
    | split
    | extract_lets
    | (dsimp +zetaDelta only; split)
    | (simp +zetaDelta [*]; done)
    | (simp only [HostIf.wf, Flt.wf, Fab.wf, Home.wf, Bel.wf, Rec.wf] at *; simp +zetaDelta [*]; done)

theorem State.claimWays_kept {s : State} (kregs : l .regs = true) (khost : l .host = true) (kflt : l .flt = true) (kfab : l .fab = true) (khome : l .home = true) (kbel : l .bel = true) (kimg : l .img = true) (kout : l .out = true) (kfree : l .free = true) (h : Kept l o s) :
    Kept l o (State.claimWays s) := by
  unfold State.claimWays
  repeat' first
    | with_reducible assumption
    | exact fun hw => hw
    | intro _
    | with_reducible apply State.forAll_kept
    | with_reducible apply State.issueWb_kept
    | with_reducible apply State.foldl_kept
    | exact ⟨Nat.le_refl _, fun hw => hw⟩
    | with_reducible apply Kept.ite
    | split
    | extract_lets
    | (dsimp +zetaDelta only; split)
    | (simp +zetaDelta [*]; done)
    | (simp only [HostIf.wf, Flt.wf, Fab.wf, Home.wf, Bel.wf] at *; simp +zetaDelta [*]; done)

theorem State.endAll_kept {s : State} {n0 : Nat} (kregs : l .regs = true) (khost : l .host = true) (kflt : l .flt = true) (kfab : l .fab = true) (khome : l .home = true) (kbel : l .bel = true) (krecorder : l .recorder = true) (kimg : l .img = true) (kout : l .out = true) (kfree : l .free = true) (h : Kept l o s) :
    Kept l o (State.endAll n0 s) := by
  induction n0 generalizing s  with
  | zero =>
    unfold State.endAll
    repeat' first
      | with_reducible assumption
      | exact fun hw => hw
      | intro _
      | with_reducible apply State.complete1_kept
      | with_reducible apply State.foldl_kept
      | with_reducible apply Kept.ite
      | split
      | extract_lets
      | (simp only [HostIf.wf, Flt.wf, Fab.wf, Home.wf, Bel.wf, Rec.wf] at *; simp +zetaDelta [*]; done)
  | succ n ih =>
    unfold State.endAll
    repeat' first
      | with_reducible assumption
      | exact fun hw => hw
      | intro _
      | with_reducible apply State.complete1_kept
      | with_reducible apply State.foldl_kept
      | with_reducible apply ih
      | with_reducible apply Kept.ite
      | split
      | extract_lets
      | (simp only [HostIf.wf, Flt.wf, Fab.wf, Home.wf, Bel.wf, Rec.wf] at *; simp +zetaDelta [*]; done)

theorem State.placePins_kept {s : State} (kregs : l .regs = true) (khost : l .host = true) (kflt : l .flt = true) (kfab : l .fab = true) (khome : l .home = true) (kimg : l .img = true) (kout : l .out = true) (kfree : l .free = true) (h : Kept l o s) :
    Kept l o (State.placePins s) := by
  unfold State.placePins
  repeat' first
    | with_reducible assumption
    | exact fun hw => hw
    | intro _
    | with_reducible apply State.forAll_kept
    | with_reducible apply State.onHome_kept
    | with_reducible apply State.setDir_kept
    | with_reducible apply State.touchDir_kept
    | with_reducible apply State.beginTrk_kept
    | with_reducible apply State.bump_kept
    | with_reducible apply State.foldl_kept
    | exact ⟨Nat.le_refl _, fun hw => hw⟩
    | with_reducible apply Kept.ite
    | split
    | extract_lets
    | (dsimp +zetaDelta only; split)
    | (simp +zetaDelta [*]; done)
    | (simp only [HostIf.wf, Flt.wf, Fab.wf, Home.wf] at *; simp +zetaDelta [*]; done)

theorem State.payOwed_kept {s : State} (kregs : l .regs = true) (khost : l .host = true) (kflt : l .flt = true) (kfab : l .fab = true) (khome : l .home = true) (kimg : l .img = true) (kout : l .out = true) (kfree : l .free = true) (h : Kept l o s) :
    Kept l o (State.payOwed s) := by
  unfold State.payOwed
  repeat' first
    | with_reducible assumption
    | exact fun hw => hw
    | intro _
    | with_reducible apply State.forAll_kept
    | with_reducible apply State.evictLine_kept
    | with_reducible apply State.onHome_kept
    | with_reducible apply State.foldl_kept
    | exact ⟨Nat.le_refl _, fun hw => hw⟩
    | with_reducible apply Kept.ite
    | split
    | extract_lets
    | (dsimp +zetaDelta only; split)
    | (simp +zetaDelta [*]; done)
    | (simp only [HostIf.wf, Flt.wf, Fab.wf, Home.wf] at *; simp +zetaDelta [*]; done)

theorem State.settle_kept {s : State} (kregs : l .regs = true) (khost : l .host = true) (kflt : l .flt = true) (kfab : l .fab = true) (khome : l .home = true) (kbel : l .bel = true) (krecorder : l .recorder = true) (kimg : l .img = true) (kout : l .out = true) (kfree : l .free = true) (h : Kept l o s) :
    Kept l o (State.settle s) := by
  unfold State.settle
  repeat' first
    | with_reducible assumption
    | exact fun hw => hw
    | intro _
    | with_reducible apply State.placePins_kept
    | with_reducible apply State.claimWays_kept
    | with_reducible apply State.payOwed_kept
    | with_reducible apply State.endAll_kept
    | with_reducible apply State.forAll_kept
    | with_reducible apply State.settleConfs_kept
    | with_reducible apply State.foldl_kept
    | exact ⟨Nat.le_refl _, fun hw => hw⟩
    | with_reducible apply Kept.ite
    | split
    | extract_lets
    | (dsimp +zetaDelta only; split)
    | (simp +zetaDelta [*]; done)
    | (simp only [HostIf.wf, Flt.wf, Fab.wf, Home.wf, Bel.wf, Rec.wf] at *; simp +zetaDelta [*]; done)

theorem State.lostTrk_kept {s : State} {x : Nat} {k : Nat} {d : DirEnt} {t1 : Trk} (kregs : l .regs = true) (khome : l .home = true) (h : Kept l o s) :
    Kept l o (State.lostTrk x k d t1 s) := by
  unfold State.lostTrk
  repeat' first
    | with_reducible assumption
    | exact fun hw => hw
    | intro _
    | with_reducible apply State.bump_kept
    | with_reducible apply State.setTrk_kept
    | with_reducible apply State.setDir_kept
    | with_reducible apply State.foldl_kept
    | exact ⟨Nat.le_refl _, fun hw => hw⟩
    | with_reducible apply Kept.ite
    | split
    | extract_lets
    | (dsimp +zetaDelta only; split)
    | (simp +zetaDelta [*]; done)
    | (simp only [Home.wf] at *; simp +zetaDelta [*]; done)

theorem State.lostStable_kept {s : State} {x : Nat} {k : Nat} {d : DirEnt} (kregs : l .regs = true) (khost : l .host = true) (kflt : l .flt = true) (kfab : l .fab = true) (khome : l .home = true) (kimg : l .img = true) (kout : l .out = true) (kfree : l .free = true) (h : Kept l o s) :
    Kept l o (State.lostStable x k d s) := by
  unfold State.lostStable
  repeat' first
    | with_reducible assumption
    | exact fun hw => hw
    | intro _
    | with_reducible apply State.bump_kept
    | with_reducible apply State.setTrk_kept
    | with_reducible apply State.beginTrk_kept
    | with_reducible apply State.setDir_kept
    | with_reducible apply State.shareOrFree_kept
    | with_reducible apply State.foldl_kept
    | exact ⟨Nat.le_refl _, fun hw => hw⟩
    | with_reducible apply Kept.ite
    | split
    | extract_lets
    | (dsimp +zetaDelta only; split)
    | (simp +zetaDelta [*]; done)
    | (simp only [HostIf.wf, Flt.wf, Fab.wf, Home.wf] at *; simp +zetaDelta [*]; done)

theorem State.lostPort_kept {s : State} {x : Nat} (kregs : l .regs = true) (khost : l .host = true) (kflt : l .flt = true) (kfab : l .fab = true) (khome : l .home = true) (kbel : l .bel = true) (krecorder : l .recorder = true) (kimg : l .img = true) (kout : l .out = true) (kfree : l .free = true) (h : Kept l o s) :
    Kept l o (State.lostPort x s) := by
  unfold State.lostPort
  repeat' first
    | with_reducible assumption
    | exact fun hw => hw
    | intro _
    | with_reducible apply State.forAll_kept
    | with_reducible apply State.lostTrk_kept
    | with_reducible apply State.lostStable_kept
    | with_reducible apply State.onHome_kept
    | with_reducible apply State.settle_kept
    | with_reducible apply State.foldl_kept
    | exact ⟨Nat.le_refl _, fun hw => hw⟩
    | with_reducible apply Kept.ite
    | split
    | extract_lets
    | (dsimp +zetaDelta only; split)
    | (simp +zetaDelta [*]; done)
    | (simp only [HostIf.wf, Flt.wf, Fab.wf, Home.wf, Bel.wf, Rec.wf] at *; simp +zetaDelta [*]; done)

theorem State.abortReqs_kept {s : State} {p : HReq → Bool} {st : Status} (kregs : l .regs = true) (khost : l .host = true) (kflt : l .flt = true) (kfab : l .fab = true) (khome : l .home = true) (kimg : l .img = true) (kout : l .out = true) (kfree : l .free = true) (h : Kept l o s) :
    Kept l o (State.abortReqs p st s) := by
  unfold State.abortReqs
  repeat' first
    | with_reducible assumption
    | exact fun hw => hw
    | intro _
    | with_reducible apply State.forAll_kept
    | with_reducible apply State.respondFail_kept
    | with_reducible apply State.setTrk_kept
    | with_reducible apply State.onHome_kept'
    | with_reducible apply State.foldl_kept
    | exact ⟨Nat.le_refl _, fun hw => hw⟩
    | exact fun _ => ⟨Nat.le_refl _, fun hw => hw⟩
    | with_reducible apply Kept.ite
    | split
    | extract_lets
    | (simp only [HostIf.wf, Flt.wf, Fab.wf, Home.wf] at *; simp +zetaDelta [*]; done)

theorem State.failHome_kept {s : State} {h1 : SliceId} {cause : Nat} (kregs : l .regs = true) (khost : l .host = true) (kflt : l .flt = true) (kfab : l .fab = true) (khome : l .home = true) (kbel : l .bel = true) (krecorder : l .recorder = true) (kimg : l .img = true) (kout : l .out = true) (kfree : l .free = true) (h : Kept l o s) :
    Kept l o (State.failHome h1 cause s) := by
  unfold State.failHome
  repeat' first
    | with_reducible assumption
    | exact fun hw => hw
    | intro _
    | with_reducible apply State.fault_kept
    | with_reducible apply State.onSlice_kept
    | with_reducible apply State.abortReqs_kept
    | with_reducible apply State.onHome_kept'
    | with_reducible apply State.settle_kept
    | with_reducible apply State.forAll_kept
    | with_reducible apply State.fc2_kept
    | with_reducible apply State.foldl_kept
    | exact ⟨Nat.le_refl _, fun hw => hw⟩
    | exact fun _ => ⟨Nat.le_refl _, fun hw => hw⟩
    | with_reducible apply Kept.ite
    | split
    | extract_lets
    | (simp only [HostIf.wf, Flt.wf, Fab.wf, Home.wf, Bel.wf, Rec.wf] at *; simp +zetaDelta [*]; done)

theorem State.captureEcc_kept {s : State} {inScope : Bool} {unit : Nat} {checker : Nat} {word : Nat} {unc : Bool} (kregs : l .regs = true) (krecorder : l .recorder = true) (h : Kept l o s) :
    Kept l o (State.captureEcc inScope unit checker word unc s) := by
  unfold State.captureEcc
  repeat' first
    | with_reducible assumption
    | exact fun hw => hw
    | intro _
    | with_reducible apply State.capture_kept
    | with_reducible apply State.foldl_kept
    | exact ⟨Nat.le_refl _, fun hw => hw⟩
    | with_reducible apply Kept.ite
    | split
    | extract_lets
    | (dsimp +zetaDelta only; split)
    | (simp +zetaDelta [*]; done)
    | (simp only [Rec.wf] at *; simp +zetaDelta [*]; done)

theorem State.poisonOlc_kept {s : State} {key : Nat} (kregs : l .regs = true) (khost : l .host = true) (kflt : l .flt = true) (khome : l .home = true) (kimg : l .img = true) (kout : l .out = true) (kfree : l .free = true) (h : Kept l o s) :
    Kept l o (State.poisonOlc key s) := by
  unfold State.poisonOlc
  repeat' first
    | with_reducible assumption
    | exact fun hw => hw
    | intro _
    | with_reducible apply State.setOlc_kept
    | with_reducible apply State.forAll_kept
    | with_reducible apply State.fc2_kept
    | with_reducible apply State.foldl_kept
    | exact ⟨Nat.le_refl _, fun hw => hw⟩
    | with_reducible apply Kept.ite
    | split
    | extract_lets
    | (dsimp +zetaDelta only; split)
    | (simp +zetaDelta [*]; done)
    | (simp only [HostIf.wf, Flt.wf, Home.wf] at *; simp +zetaDelta [*]; done)

theorem State.homeError_kept {s : State} {h1 : SliceId} {c : Nat} {key : Nat} {unc : Bool} (kregs : l .regs = true) (khost : l .host = true) (kflt : l .flt = true) (kfab : l .fab = true) (khome : l .home = true) (kbel : l .bel = true) (krecorder : l .recorder = true) (kimg : l .img = true) (kout : l .out = true) (kfree : l .free = true) (h : Kept l o s) :
    Kept l o (State.homeError h1 c key unc s) := by
  unfold State.homeError
  repeat' first
    | with_reducible assumption
    | exact fun hw => hw
    | intro _
    | with_reducible apply State.captureEcc_kept
    | with_reducible apply State.fault_kept
    | with_reducible apply State.bump_kept
    | with_reducible apply State.onHome_kept'
    | with_reducible apply State.failHome_kept
    | with_reducible apply State.poisonOlc_kept
    | with_reducible apply State.foldl_kept
    | exact ⟨Nat.le_refl _, fun hw => hw⟩
    | exact fun _ => ⟨Nat.le_refl _, fun hw => hw⟩
    | with_reducible apply Kept.ite
    | split
    | extract_lets
    | (simp only [HostIf.wf, Flt.wf, Fab.wf, Home.wf, Bel.wf, Rec.wf] at *; simp +zetaDelta [*]; done)

theorem State.meetInverted_kept {s : State} {h1 : SliceId} {key : Nat} (kregs : l .regs = true) (khost : l .host = true) (kflt : l .flt = true) (kfab : l .fab = true) (khome : l .home = true) (kbel : l .bel = true) (krecorder : l .recorder = true) (kimg : l .img = true) (kout : l .out = true) (kfree : l .free = true) (h : Kept l o s) :
    Kept l o (State.meetInverted h1 key s) := by
  unfold State.meetInverted
  repeat' first
    | with_reducible assumption
    | exact fun hw => hw
    | intro _
    | with_reducible apply State.onFlt_kept
    | with_reducible apply State.forAll_kept
    | with_reducible apply State.homeError_kept
    | with_reducible apply State.foldl_kept
    | exact ⟨Nat.le_refl _, fun hw => hw⟩
    | with_reducible apply Kept.ite
    | split
    | extract_lets
    | (dsimp +zetaDelta only; split)
    | (simp +zetaDelta [*]; done)
    | (simp only [HostIf.wf, Flt.wf, Fab.wf, Home.wf, Bel.wf, Rec.wf] at *; simp +zetaDelta [*]; done)

theorem State.present_kept {s : State} {q : Retry} (kregs : l .regs = true) (khost : l .host = true) (kflt : l .flt = true) (kfab : l .fab = true) (khome : l .home = true) (kbel : l .bel = true) (krecorder : l .recorder = true) (kimg : l .img = true) (kout : l .out = true) (kfree : l .free = true) (h : Kept l o s) :
    Kept l o (State.present q s) := by
  unfold State.present
  repeat' first
    | with_reducible assumption
    | exact fun hw => hw
    | intro _
    | with_reducible apply State.meetInverted_kept
    | with_reducible apply State.forAll_kept
    | with_reducible apply State.homeError_kept
    | with_reducible apply State.serveOne_kept
    | with_reducible apply State.settle_kept
    | with_reducible apply State.digest_kept
    | with_reducible apply State.foldl_kept
    | exact ⟨Nat.le_refl _, fun hw => hw⟩
    | with_reducible apply Kept.ite
    | split
    | extract_lets
    | (dsimp +zetaDelta only; split)
    | (simp +zetaDelta [*]; done)
    | (simp only [HostIf.wf, Flt.wf, Fab.wf, Home.wf, Bel.wf, Rec.wf] at *; simp +zetaDelta [*]; done)

theorem State.arrive_kept {s : State} {r : HReq} {kind : Nat} {op : Option (AtomOp × Bool × Word × Word)} (kregs : l .regs = true) (khost : l .host = true) (kflt : l .flt = true) (kfab : l .fab = true) (khome : l .home = true) (kbel : l .bel = true) (krecorder : l .recorder = true) (kimg : l .img = true) (kout : l .out = true) (kfree : l .free = true) (h : Kept l o s) :
    Kept l o (State.arrive r kind op s) := by
  unfold State.arrive
  repeat' first
    | with_reducible assumption
    | exact fun hw => hw
    | intro _
    | with_reducible apply State.present_kept
    | with_reducible apply State.count_kept
    | with_reducible apply State.foldl_kept
    | exact ⟨Nat.le_refl _, fun hw => hw⟩
    | with_reducible apply Kept.ite
    | split
    | extract_lets
    | (dsimp +zetaDelta only; split)
    | (simp +zetaDelta [*]; done)
    | (simp only [HostIf.wf, Flt.wf, Fab.wf, Home.wf, Bel.wf, Rec.wf] at *; simp +zetaDelta [*]; done)

/-! ### Machine/PortOps.lean -/

theorem State.perstAt_kept {s : State} {n : Nat} {b : Bool} (ksys : l .sys = true) (h : Kept l o s) :
    Kept l o (State.perstAt n b s) := by
  unfold State.perstAt
  repeat' first
    | with_reducible assumption
    | exact fun hw => hw
    | intro _
    | with_reducible apply State.onSys_kept
    | with_reducible apply State.foldl_kept
    | exact ⟨Nat.le_refl _, fun hw => hw⟩
    | with_reducible apply Kept.ite
    | split
    | extract_lets
    | (dsimp +zetaDelta only; split)
    | (simp +zetaDelta [*]; done)
    | (simp only [Sys.wf] at *; simp +zetaDelta [*]; done)

theorem State.pwrenAt_kept {s : State} {n : Nat} {b : Bool} (ksys : l .sys = true) (h : Kept l o s) :
    Kept l o (State.pwrenAt n b s) := by
  unfold State.pwrenAt
  repeat' first
    | with_reducible assumption
    | exact fun hw => hw
    | intro _
    | with_reducible apply State.onSys_kept
    | with_reducible apply State.foldl_kept
    | exact ⟨Nat.le_refl _, fun hw => hw⟩
    | with_reducible apply Kept.ite
    | split
    | extract_lets
    | (dsimp +zetaDelta only; split)
    | (simp +zetaDelta [*]; done)
    | (simp only [Sys.wf] at *; simp +zetaDelta [*]; done)

theorem State.dischAt_kept {s : State} {n : Nat} {b : Bool} (ksys : l .sys = true) (h : Kept l o s) :
    Kept l o (State.dischAt n b s) := by
  unfold State.dischAt
  repeat' first
    | with_reducible assumption
    | exact fun hw => hw
    | intro _
    | with_reducible apply State.onSys_kept
    | with_reducible apply State.foldl_kept
    | exact ⟨Nat.le_refl _, fun hw => hw⟩
    | with_reducible apply Kept.ite
    | split
    | extract_lets
    | (dsimp +zetaDelta only; split)
    | (simp +zetaDelta [*]; done)
    | (simp only [Sys.wf] at *; simp +zetaDelta [*]; done)

theorem State.unpower_kept {s : State} {n : Nat} (ksys : l .sys = true) (kports : l .ports = true) (h : Kept l o s) :
    Kept l o (State.unpower n s) := by
  unfold State.unpower
  repeat' first
    | with_reducible assumption
    | exact fun hw => hw
    | intro _
    | with_reducible apply State.onPortN_kept
    | with_reducible apply State.dischAt_kept
    | with_reducible apply State.pwrenAt_kept
    | with_reducible apply State.perstAt_kept
    | with_reducible apply State.foldl_kept
    | exact ⟨Nat.le_refl _, fun hw => hw⟩
    | with_reducible apply Kept.ite
    | split
    | extract_lets
    | (dsimp +zetaDelta only; split)
    | (simp +zetaDelta [*]; done)
    | (simp only [Sys.wf] at *; simp +zetaDelta [*]; done)

theorem State.sendOffer_kept {s : State} {n : Nat} {k : Nat} (kports : l .ports = true) (kout : l .out = true) (h : Kept l o s) :
    Kept l o (State.sendOffer n k s) := by
  unfold State.sendOffer
  repeat' first
    | with_reducible assumption
    | exact fun hw => hw
    | intro _
    | with_reducible apply State.onPortN_kept
    | with_reducible apply State.emit_kept
    | with_reducible apply State.foldl_kept
    | exact ⟨Nat.le_refl _, fun hw => hw⟩
    | with_reducible apply Kept.ite
    | split
    | extract_lets
    | (dsimp +zetaDelta only; split)
    | (simp +zetaDelta [*]; done)

theorem State.sendAccept_kept {s : State} {n : Nat} {ver : Nat} {respNs : Nat} (kports : l .ports = true) (kout : l .out = true) (h : Kept l o s) :
    Kept l o (State.sendAccept n ver respNs s) := by
  unfold State.sendAccept
  repeat' first
    | with_reducible assumption
    | exact fun hw => hw
    | intro _
    | with_reducible apply State.emit_kept
    | with_reducible apply State.onPortN_kept
    | with_reducible apply State.foldl_kept
    | exact ⟨Nat.le_refl _, fun hw => hw⟩
    | with_reducible apply Kept.ite
    | split
    | extract_lets
    | (dsimp +zetaDelta only; split)
    | (simp +zetaDelta [*]; done)

theorem State.openSc0_kept {s : State} {n : Nat} (kports : l .ports = true) (kout : l .out = true) (h : Kept l o s) :
    Kept l o (State.openSc0 n s) := by
  unfold State.openSc0
  repeat' first
    | with_reducible assumption
    | exact fun hw => hw
    | intro _
    | with_reducible apply State.emit_kept
    | with_reducible apply State.onCredit_kept
    | with_reducible apply State.foldl_kept
    | exact ⟨Nat.le_refl _, fun hw => hw⟩
    | with_reducible apply Kept.ite
    | split
    | extract_lets
    | (dsimp +zetaDelta only; split)
    | (simp +zetaDelta [*]; done)

theorem State.meradEnds_kept {s : State} {n : Nat} {ver : Nat} {closed : Bool} (kports : l .ports = true) (kout : l .out = true) (h : Kept l o s) :
    Kept l o (State.meradEnds n ver closed s) := by
  unfold State.meradEnds
  repeat' first
    | with_reducible assumption
    | exact fun hw => hw
    | intro _
    | with_reducible apply State.onPortN_kept
    | with_reducible apply State.openSc0_kept
    | with_reducible apply State.foldl_kept
    | exact ⟨Nat.le_refl _, fun hw => hw⟩
    | with_reducible apply Kept.ite
    | split
    | extract_lets
    | (dsimp +zetaDelta only; split)
    | (simp +zetaDelta [*]; done)

theorem State.enterActive_kept {s : State} {n : Nat} (kports : l .ports = true) (kfab : l .fab = true) (h : Kept l o s) :
    Kept l o (State.enterActive n s) := by
  unfold State.enterActive
  repeat' first
    | with_reducible assumption
    | exact fun hw => hw
    | intro _
    | with_reducible apply State.freshPort_kept
    | with_reducible apply State.onPortN_kept
    | with_reducible apply State.foldl_kept
    | exact ⟨Nat.le_refl _, fun hw => hw⟩
    | with_reducible apply Kept.ite
    | split
    | extract_lets
    | (dsimp +zetaDelta only; split)
    | (simp +zetaDelta [*]; done)
    | (simp only [Fab.wf] at *; simp +zetaDelta [*]; done)

theorem State.wantPower_kept {s : State} {n : Nat} (kports : l .ports = true) (h : Kept l o s) :
    Kept l o (State.wantPower n s) := by
  unfold State.wantPower
  repeat' first
    | with_reducible assumption
    | exact fun hw => hw
    | intro _
    | with_reducible apply State.onPortN_kept
    | with_reducible apply State.foldl_kept
    | exact ⟨Nat.le_refl _, fun hw => hw⟩
    | with_reducible apply Kept.ite
    | split
    | extract_lets
    | (dsimp +zetaDelta only; split)
    | (simp +zetaDelta [*]; done)

theorem State.latchCfg_kept {s : State} {n : Nat} (kports : l .ports = true) (h : Kept l o s) :
    Kept l o (State.latchCfg n s) := by
  unfold State.latchCfg
  repeat' first
    | with_reducible assumption
    | exact fun hw => hw
    | intro _
    | with_reducible apply State.onPortN_kept
    | with_reducible apply State.foldl_kept
    | exact ⟨Nat.le_refl _, fun hw => hw⟩
    | with_reducible apply Kept.ite
    | split
    | extract_lets
    | (dsimp +zetaDelta only; split)
    | (simp +zetaDelta [*]; done)

theorem State.startTraining_kept {s : State} {n : Nat} (kports : l .ports = true) (h : Kept l o s) :
    Kept l o (State.startTraining n s) := by
  unfold State.startTraining
  repeat' first
    | with_reducible assumption
    | exact fun hw => hw
    | intro _
    | with_reducible apply State.onPortN_kept
    | with_reducible apply State.latchCfg_kept
    | with_reducible apply State.foldl_kept
    | exact ⟨Nat.le_refl _, fun hw => hw⟩
    | with_reducible apply Kept.ite
    | split
    | extract_lets
    | (dsimp +zetaDelta only; split)
    | (simp +zetaDelta [*]; done)

theorem State.comeUp_kept {s : State} {n : Nat} (ksys : l .sys = true) (kports : l .ports = true) (h : Kept l o s) :
    Kept l o (State.comeUp n s) := by
  unfold State.comeUp
  repeat' first
    | with_reducible assumption
    | exact fun hw => hw
    | intro _
    | with_reducible apply State.startTraining_kept
    | with_reducible apply State.perstAt_kept
    | with_reducible apply State.wantPower_kept
    | with_reducible apply State.foldl_kept
    | exact ⟨Nat.le_refl _, fun hw => hw⟩
    | with_reducible apply Kept.ite
    | split
    | extract_lets
    | (dsimp +zetaDelta only; split)
    | (simp +zetaDelta [*]; done)
    | (simp only [Sys.wf] at *; simp +zetaDelta [*]; done)

theorem State.settleQuad_kept {s : State} {q : Nat} (kregs : l .regs = true) (ksys : l .sys = true) (kports : l .ports = true) (ktool : l .tool = true) (h : Kept l o s) :
    Kept l o (State.settleQuad q s) := by
  unfold State.settleQuad
  repeat' first
    | with_reducible assumption
    | exact fun hw => hw
    | intro _
    | with_reducible apply State.onTool_kept
    | with_reducible apply State.wr_kept
    | with_reducible apply State.forAll_kept
    | with_reducible apply State.comeUp_kept
    | with_reducible apply State.foldl_kept
    | exact ⟨Nat.le_refl _, fun hw => hw⟩
    | with_reducible apply Kept.ite
    | split
    | extract_lets
    | (dsimp +zetaDelta only; split)
    | (simp +zetaDelta [*]; done)
    | (simp only [Sys.wf, Tool.wf] at *; simp +zetaDelta [*]; done)

theorem State.enterOff_kept {s : State} {n : Nat} (kregs : l .regs = true) (ksys : l .sys = true) (kports : l .ports = true) (ktool : l .tool = true) (h : Kept l o s) :
    Kept l o (State.enterOff n s) := by
  unfold State.enterOff
  repeat' first
    | with_reducible assumption
    | exact fun hw => hw
    | intro _
    | with_reducible apply State.settleQuad_kept
    | with_reducible apply State.onPortN_kept
    | with_reducible apply State.foldl_kept
    | exact ⟨Nat.le_refl _, fun hw => hw⟩
    | with_reducible apply Kept.ite
    | split
    | extract_lets
    | (dsimp +zetaDelta only; split)
    | (simp +zetaDelta [*]; done)
    | (simp only [Sys.wf, Tool.wf] at *; simp +zetaDelta [*]; done)

theorem State.trainLink_kept {s : State} {n : Nat} (kregs : l .regs = true) (khost : l .host = true) (kflt : l .flt = true) (kports : l .ports = true) (kimg : l .img = true) (kout : l .out = true) (kfree : l .free = true) (h : Kept l o s) :
    Kept l o (State.trainLink n s) := by
  unfold State.trainLink
  repeat' first
    | with_reducible assumption
    | exact fun hw => hw
    | intro _
    | with_reducible apply State.onPortN_kept
    | with_reducible apply State.forAll_kept
    | with_reducible apply State.emit_kept
    | with_reducible apply State.fc0_kept
    | with_reducible apply State.foldl_kept
    | exact ⟨Nat.le_refl _, fun hw => hw⟩
    | with_reducible apply Kept.ite
    | split
    | extract_lets
    | (dsimp +zetaDelta only; split)
    | (simp +zetaDelta [*]; done)
    | (simp only [HostIf.wf, Flt.wf] at *; simp +zetaDelta [*]; done)

theorem State.breakLoads_kept {s : State} {n : Nat} (kregs : l .regs = true) (khost : l .host = true) (kflt : l .flt = true) (ktabs : l .tabs = true) (kimg : l .img = true) (kout : l .out = true) (kfree : l .free = true) (h : Kept l o s) :
    Kept l o (State.breakLoads n s) := by
  unfold State.breakLoads
  repeat' first
    | with_reducible assumption
    | exact fun hw => hw
    | intro _
    | with_reducible apply State.onTabs_kept
    | with_reducible apply State.forAll_kept
    | with_reducible apply State.tell_kept
    | with_reducible apply State.foldl_kept
    | exact ⟨Nat.le_refl _, fun hw => hw⟩
    | with_reducible apply Kept.ite
    | split
    | extract_lets
    | (dsimp +zetaDelta only; split)
    | (simp +zetaDelta [*]; done)
    | (simp only [HostIf.wf, Flt.wf, Tabs.wf] at *; simp +zetaDelta [*]; done)

theorem State.leaveActive_kept {s : State} {n : Nat} (kregs : l .regs = true) (khost : l .host = true) (kflt : l .flt = true) (kports : l .ports = true) (ktabs : l .tabs = true) (kimg : l .img = true) (kout : l .out = true) (kfree : l .free = true) (h : Kept l o s) :
    Kept l o (State.leaveActive n s) := by
  unfold State.leaveActive
  repeat' first
    | with_reducible assumption
    | exact fun hw => hw
    | intro _
    | with_reducible apply State.onPortN_kept
    | with_reducible apply State.forAll_kept
    | with_reducible apply State.ringError_kept
    | with_reducible apply State.breakLoads_kept
    | with_reducible apply State.foldl_kept
    | exact ⟨Nat.le_refl _, fun hw => hw⟩
    | with_reducible apply Kept.ite
    | split
    | extract_lets
    | (dsimp +zetaDelta only; split)
    | (simp +zetaDelta [*]; done)
    | (simp only [HostIf.wf, Flt.wf, Tabs.wf] at *; simp +zetaDelta [*]; done)

theorem State.emptyYoyo_kept {s : State} {n : Nat} (kregs : l .regs = true) (khost : l .host = true) (kflt : l .flt = true) (kports : l .ports = true) (kfab : l .fab = true) (kimg : l .img = true) (kout : l .out = true) (kfree : l .free = true) (h : Kept l o s) :
    Kept l o (State.emptyYoyo n s) := by
  unfold State.emptyYoyo
  repeat' first
    | with_reducible assumption
    | exact fun hw => hw
    | intro _
    | with_reducible apply State.onPortN_kept
    | with_reducible apply State.forAll_kept
    | with_reducible apply State.reply_kept
    | with_reducible apply State.bump_kept
    | with_reducible apply State.foldl_kept
    | exact ⟨Nat.le_refl _, fun hw => hw⟩
    | with_reducible apply Kept.ite
    | split
    | extract_lets
    | (dsimp +zetaDelta only; split)
    | (simp +zetaDelta [*]; done)
    | (simp only [HostIf.wf, Flt.wf, Fab.wf] at *; simp +zetaDelta [*]; done)

theorem State.hotPlug_kept {s : State} {n : Nat} {gone : Bool} (khost : l .host = true) (kout : l .out = true) (h : Kept l o s) :
    Kept l o (State.hotPlug n gone s) := by
  unfold State.hotPlug
  repeat' first
    | with_reducible assumption
    | exact fun hw => hw
    | intro _
    | with_reducible apply State.forAll_kept
    | with_reducible apply State.onHost_kept
    | with_reducible apply State.emit_kept
    | with_reducible apply State.foldl_kept
    | exact ⟨Nat.le_refl _, fun hw => hw⟩
    | with_reducible apply Kept.ite
    | split
    | extract_lets
    | (dsimp +zetaDelta only; split)
    | (simp +zetaDelta [*]; done)
    | (simp only [HostIf.wf] at *; simp +zetaDelta [*]; done)

theorem State.declareDown_kept {s : State} {n : Nat} {cause : Nat} {asked : Bool} (kregs : l .regs = true) (ksys : l .sys = true) (khost : l .host = true) (kflt : l .flt = true) (kports : l .ports = true) (kfab : l .fab = true) (ktabs : l .tabs = true) (khome : l .home = true) (kbel : l .bel = true) (krecorder : l .recorder = true) (kimg : l .img = true) (kout : l .out = true) (kfree : l .free = true) (h : Kept l o s) :
    Kept l o (State.declareDown n cause asked s) := by
  unfold State.declareDown
  repeat' first
    | with_reducible assumption
    | exact fun hw => hw
    | intro _
    | with_reducible apply State.leaveActive_kept
    | with_reducible apply State.onPortN_kept
    | with_reducible apply State.latchCfg_kept
    | with_reducible apply State.bump_kept
    | with_reducible apply State.captureSide_kept
    | with_reducible apply State.fc0_kept
    | with_reducible apply State.fault_kept
    | with_reducible apply State.onFab_kept
    | with_reducible apply State.emptyYoyo_kept
    | with_reducible apply State.lostPort_kept
    | with_reducible apply State.flushColumns_kept
    | with_reducible apply State.cutInputs_kept
    | with_reducible apply State.hotPlug_kept
    | with_reducible apply State.unpower_kept
    | with_reducible apply State.foldl_kept
    | exact ⟨Nat.le_refl _, fun hw => hw⟩
    | with_reducible apply Kept.ite
    | split
    | extract_lets
    | (dsimp +zetaDelta only; split)
    | (simp +zetaDelta [*]; done)
    | (simp only [Sys.wf, HostIf.wf, Flt.wf, Fab.wf, Tabs.wf, Home.wf, Bel.wf, Rec.wf] at *; simp +zetaDelta [*]; done)

theorem State.presenceLost_kept {s : State} {n : Nat} (kregs : l .regs = true) (ksys : l .sys = true) (khost : l .host = true) (kflt : l .flt = true) (kports : l .ports = true) (ktool : l .tool = true) (kfab : l .fab = true) (ktabs : l .tabs = true) (khome : l .home = true) (kbel : l .bel = true) (krecorder : l .recorder = true) (kimg : l .img = true) (kout : l .out = true) (kfree : l .free = true) (h : Kept l o s) :
    Kept l o (State.presenceLost n s) := by
  unfold State.presenceLost
  repeat' first
    | with_reducible assumption
    | exact fun hw => hw
    | intro _
    | with_reducible apply State.declareDown_kept
    | with_reducible apply State.enterOff_kept
    | with_reducible apply State.unpower_kept
    | with_reducible apply State.foldl_kept
    | exact ⟨Nat.le_refl _, fun hw => hw⟩
    | with_reducible apply Kept.ite
    | split
    | extract_lets
    | (dsimp +zetaDelta only; split)
    | (simp +zetaDelta [*]; done)
    | (simp only [Sys.wf, HostIf.wf, Flt.wf, Tool.wf, Fab.wf, Tabs.wf, Home.wf, Bel.wf, Rec.wf] at *; simp +zetaDelta [*]; done)

theorem State.powerFault_kept {s : State} {n : Nat} (kregs : l .regs = true) (ksys : l .sys = true) (khost : l .host = true) (kflt : l .flt = true) (kports : l .ports = true) (ktool : l .tool = true) (kfab : l .fab = true) (ktabs : l .tabs = true) (khome : l .home = true) (kbel : l .bel = true) (krecorder : l .recorder = true) (kimg : l .img = true) (kout : l .out = true) (kfree : l .free = true) (h : Kept l o s) :
    Kept l o (State.powerFault n s) := by
  unfold State.powerFault
  repeat' first
    | with_reducible assumption
    | exact fun hw => hw
    | intro _
    | with_reducible apply State.pwrenAt_kept
    | with_reducible apply State.fault_kept
    | with_reducible apply State.onPortN_kept
    | with_reducible apply State.declareDown_kept
    | with_reducible apply State.enterOff_kept
    | with_reducible apply State.foldl_kept
    | exact ⟨Nat.le_refl _, fun hw => hw⟩
    | with_reducible apply Kept.ite
    | split
    | extract_lets
    | (dsimp +zetaDelta only; split)
    | (simp +zetaDelta [*]; done)
    | (simp only [Sys.wf, HostIf.wf, Flt.wf, Tool.wf, Fab.wf, Tabs.wf, Home.wf, Bel.wf, Rec.wf] at *; simp +zetaDelta [*]; done)

theorem State.noteRdy_kept {s : State} (kregs : l .regs = true) (krecorder : l .recorder = true) (h : Kept l o s) :
    Kept l o (State.noteRdy s) := by
  unfold State.noteRdy
  repeat' first
    | with_reducible assumption
    | exact fun hw => hw
    | intro _
    | with_reducible apply State.forAll_kept
    | with_reducible apply State.onRec_kept
    | with_reducible apply State.capture_kept
    | with_reducible apply State.foldl_kept
    | exact ⟨Nat.le_refl _, fun hw => hw⟩
    | with_reducible apply Kept.ite
    | split
    | extract_lets
    | (dsimp +zetaDelta only; split)
    | (simp +zetaDelta [*]; done)
    | (simp only [Rec.wf] at *; simp +zetaDelta [*]; done)

theorem State.columnFault_kept {s : State} {ep : Nat} (kregs : l .regs = true) (ksys : l .sys = true) (khost : l .host = true) (kflt : l .flt = true) (keng : l .eng = true) (kports : l .ports = true) (kfab : l .fab = true) (ktabs : l .tabs = true) (khome : l .home = true) (kbel : l .bel = true) (krecorder : l .recorder = true) (kimg : l .img = true) (kout : l .out = true) (kfree : l .free = true) (h : Kept l o s) :
    Kept l o (State.columnFault ep s) := by
  unfold State.columnFault
  repeat' first
    | with_reducible assumption
    | exact fun hw => hw
    | intro _
    | with_reducible apply State.fault_kept
    | with_reducible apply State.onColumnN_kept
    | with_reducible apply State.declareDown_kept
    | with_reducible apply State.failCluster_kept
    | with_reducible apply State.failHome_kept
    | with_reducible apply State.foldl_kept
    | exact ⟨Nat.le_refl _, fun hw => hw⟩
    | with_reducible apply Kept.ite
    | split
    | extract_lets
    | (dsimp +zetaDelta only; split)
    | (simp +zetaDelta [*]; done)
    | (simp only [Sys.wf, HostIf.wf, Flt.wf, Eng.wf, Fab.wf, Tabs.wf, Home.wf, Bel.wf, Rec.wf] at *; simp +zetaDelta [*]; done)

/-! ### Machine/Home.lean -/

theorem execRds_kept {s : State} {r : HReq} (kregs : l .regs = true) (khost : l .host = true) (kflt : l .flt = true) (kfab : l .fab = true) (khome : l .home = true) (kbel : l .bel = true) (krecorder : l .recorder = true) (kimg : l .img = true) (kout : l .out = true) (kfree : l .free = true) (h : Kept l o s) {t : State} (e : execRds r s = .next t) :
    Kept l o t := by
  cases e
  repeat' first
    | with_reducible assumption
    | exact fun hw => hw
    | intro _
    | with_reducible apply State.arrive_kept
    | with_reducible apply State.foldl_kept
    | exact ⟨Nat.le_refl _, fun hw => hw⟩
    | with_reducible apply Kept.ite
    | split
    | extract_lets
    | (dsimp +zetaDelta only; split)
    | (simp +zetaDelta [*]; done)
    | (simp only [HostIf.wf, Flt.wf, Fab.wf, Home.wf, Bel.wf, Rec.wf] at *; simp +zetaDelta [*]; done)

theorem execRdx_kept {s : State} {r : HReq} (kregs : l .regs = true) (khost : l .host = true) (kflt : l .flt = true) (kfab : l .fab = true) (khome : l .home = true) (kbel : l .bel = true) (krecorder : l .recorder = true) (kimg : l .img = true) (kout : l .out = true) (kfree : l .free = true) (h : Kept l o s) {t : State} (e : execRdx r s = .next t) :
    Kept l o t := by
  cases e
  repeat' first
    | with_reducible assumption
    | exact fun hw => hw
    | intro _
    | with_reducible apply State.arrive_kept
    | with_reducible apply State.foldl_kept
    | exact ⟨Nat.le_refl _, fun hw => hw⟩
    | with_reducible apply Kept.ite
    | split
    | extract_lets
    | (dsimp +zetaDelta only; split)
    | (simp +zetaDelta [*]; done)
    | (simp only [HostIf.wf, Flt.wf, Fab.wf, Home.wf, Bel.wf, Rec.wf] at *; simp +zetaDelta [*]; done)

theorem execUpg_kept {s : State} {r : HReq} (kregs : l .regs = true) (khost : l .host = true) (kflt : l .flt = true) (kfab : l .fab = true) (khome : l .home = true) (kbel : l .bel = true) (krecorder : l .recorder = true) (kimg : l .img = true) (kout : l .out = true) (kfree : l .free = true) (h : Kept l o s) {t : State} (e : execUpg r s = .next t) :
    Kept l o t := by
  cases e
  repeat' first
    | with_reducible assumption
    | exact fun hw => hw
    | intro _
    | with_reducible apply State.arrive_kept
    | with_reducible apply State.foldl_kept
    | exact ⟨Nat.le_refl _, fun hw => hw⟩
    | with_reducible apply Kept.ite
    | split
    | extract_lets
    | (dsimp +zetaDelta only; split)
    | (simp +zetaDelta [*]; done)
    | (simp only [HostIf.wf, Flt.wf, Fab.wf, Home.wf, Bel.wf, Rec.wf] at *; simp +zetaDelta [*]; done)

theorem execRdu_kept {s : State} {r : HReq} (kregs : l .regs = true) (khost : l .host = true) (kflt : l .flt = true) (kfab : l .fab = true) (khome : l .home = true) (kbel : l .bel = true) (krecorder : l .recorder = true) (kimg : l .img = true) (kout : l .out = true) (kfree : l .free = true) (h : Kept l o s) {t : State} (e : execRdu r s = .next t) :
    Kept l o t := by
  cases e
  repeat' first
    | with_reducible assumption
    | exact fun hw => hw
    | intro _
    | with_reducible apply State.arrive_kept
    | with_reducible apply State.foldl_kept
    | exact ⟨Nat.le_refl _, fun hw => hw⟩
    | with_reducible apply Kept.ite
    | split
    | extract_lets
    | (dsimp +zetaDelta only; split)
    | (simp +zetaDelta [*]; done)
    | (simp only [HostIf.wf, Flt.wf, Fab.wf, Home.wf, Bel.wf, Rec.wf] at *; simp +zetaDelta [*]; done)

theorem execWru_kept {s : State} {r : HReq} (kregs : l .regs = true) (khost : l .host = true) (kflt : l .flt = true) (kfab : l .fab = true) (khome : l .home = true) (kbel : l .bel = true) (krecorder : l .recorder = true) (kimg : l .img = true) (kout : l .out = true) (kfree : l .free = true) (h : Kept l o s) {t : State} (e : execWru r s = .next t) :
    Kept l o t := by
  cases e
  repeat' first
    | with_reducible assumption
    | exact fun hw => hw
    | intro _
    | with_reducible apply State.arrive_kept
    | with_reducible apply State.foldl_kept
    | exact ⟨Nat.le_refl _, fun hw => hw⟩
    | with_reducible apply Kept.ite
    | split
    | extract_lets
    | (dsimp +zetaDelta only; split)
    | (simp +zetaDelta [*]; done)
    | (simp only [HostIf.wf, Flt.wf, Fab.wf, Home.wf, Bel.wf, Rec.wf] at *; simp +zetaDelta [*]; done)

theorem execAtomic_kept {s : State} {r : HReq} {op : AtomOp} {w64 : Bool} {operand : Word} {compare : Word} (kregs : l .regs = true) (khost : l .host = true) (kflt : l .flt = true) (kfab : l .fab = true) (khome : l .home = true) (kbel : l .bel = true) (krecorder : l .recorder = true) (kimg : l .img = true) (kout : l .out = true) (kfree : l .free = true) (h : Kept l o s) {t : State} (e : execAtomic r op w64 operand compare s = .next t) :
    Kept l o t := by
  cases e
  repeat' first
    | with_reducible assumption
    | exact fun hw => hw
    | intro _
    | with_reducible apply State.arrive_kept
    | with_reducible apply State.foldl_kept
    | exact ⟨Nat.le_refl _, fun hw => hw⟩
    | with_reducible apply Kept.ite
    | split
    | extract_lets
    | (dsimp +zetaDelta only; split)
    | (simp +zetaDelta [*]; done)
    | (simp only [HostIf.wf, Flt.wf, Fab.wf, Home.wf, Bel.wf, Rec.wf] at *; simp +zetaDelta [*]; done)

theorem execWb_kept {s : State} {r : HReq} (kregs : l .regs = true) (khost : l .host = true) (kflt : l .flt = true) (kfab : l .fab = true) (khome : l .home = true) (kbel : l .bel = true) (krecorder : l .recorder = true) (kimg : l .img = true) (kout : l .out = true) (kfree : l .free = true) (h : Kept l o s) {t : State} (e : execWb r s = .next t) :
    Kept l o t := by
  cases e
  repeat' first
    | with_reducible assumption
    | exact fun hw => hw
    | intro _
    | with_reducible apply State.arrive_kept
    | with_reducible apply State.foldl_kept
    | exact ⟨Nat.le_refl _, fun hw => hw⟩
    | with_reducible apply Kept.ite
    | split
    | extract_lets
    | (dsimp +zetaDelta only; split)
    | (simp +zetaDelta [*]; done)
    | (simp only [HostIf.wf, Flt.wf, Fab.wf, Home.wf, Bel.wf, Rec.wf] at *; simp +zetaDelta [*]; done)

theorem execCev_kept {s : State} {r : HReq} (kregs : l .regs = true) (khost : l .host = true) (kflt : l .flt = true) (kfab : l .fab = true) (khome : l .home = true) (kbel : l .bel = true) (krecorder : l .recorder = true) (kimg : l .img = true) (kout : l .out = true) (kfree : l .free = true) (h : Kept l o s) {t : State} (e : execCev r s = .next t) :
    Kept l o t := by
  cases e
  repeat' first
    | with_reducible assumption
    | exact fun hw => hw
    | intro _
    | with_reducible apply State.arrive_kept
    | with_reducible apply State.foldl_kept
    | exact ⟨Nat.le_refl _, fun hw => hw⟩
    | with_reducible apply Kept.ite
    | split
    | extract_lets
    | (dsimp +zetaDelta only; split)
    | (simp +zetaDelta [*]; done)
    | (simp only [HostIf.wf, Flt.wf, Fab.wf, Home.wf, Bel.wf, Rec.wf] at *; simp +zetaDelta [*]; done)

theorem execBiconflict_kept {s : State} {p : PortId} {fa : BitVec 52} (kregs : l .regs = true) (kfab : l .fab = true) (khome : l .home = true) (kout : l .out = true) (h : Kept l o s) {t : State} (e : execBiconflict p fa s = .next t) :
    Kept l o t := by
  cases e
  repeat' first
    | with_reducible assumption
    | exact fun hw => hw
    | intro _
    | with_reducible apply State.whenServing_kept
    | with_reducible apply State.settleConfs_kept
    | with_reducible apply State.onHome_kept
    | with_reducible apply State.bump_kept
    | with_reducible apply State.foldl_kept
    | exact ⟨Nat.le_refl _, fun hw => hw⟩
    | with_reducible apply Kept.ite
    | split
    | extract_lets
    | (dsimp +zetaDelta only; split)
    | (simp +zetaDelta [*]; done)
    | (simp only [Fab.wf, Home.wf] at *; simp +zetaDelta [*]; done)

theorem State.snoopAnswer_kept {s : State} {x : Nat} {la : Nat} {shared : Bool} (kregs : l .regs = true) (khost : l .host = true) (kflt : l .flt = true) (kfab : l .fab = true) (khome : l .home = true) (kbel : l .bel = true) (krecorder : l .recorder = true) (kimg : l .img = true) (kout : l .out = true) (kfree : l .free = true) (h : Kept l o s) :
    Kept l o (State.snoopAnswer x la shared s) := by
  unfold State.snoopAnswer
  repeat' first
    | with_reducible assumption
    | exact fun hw => hw
    | intro _
    | with_reducible apply State.fc2_kept
    | with_reducible apply State.settle_kept
    | with_reducible apply State.setTrk_kept
    | with_reducible apply State.foldl_kept
    | exact ⟨Nat.le_refl _, fun hw => hw⟩
    | with_reducible apply Kept.ite
    | split
    | extract_lets
    | (dsimp +zetaDelta only; split)
    | (simp +zetaDelta [*]; done)
    | (simp only [HostIf.wf, Flt.wf, Fab.wf, Home.wf, Bel.wf, Rec.wf] at *; simp +zetaDelta [*]; done)

theorem execRspi_kept {s : State} {p : PortId} {fa : BitVec 52} (kregs : l .regs = true) (khost : l .host = true) (kflt : l .flt = true) (kfab : l .fab = true) (khome : l .home = true) (kbel : l .bel = true) (krecorder : l .recorder = true) (kimg : l .img = true) (kout : l .out = true) (kfree : l .free = true) (h : Kept l o s) {t : State} (e : execRspi p fa s = .next t) :
    Kept l o t := by
  cases e
  repeat' first
    | with_reducible assumption
    | exact fun hw => hw
    | intro _
    | with_reducible apply State.whenServing_kept
    | with_reducible apply State.snoopAnswer_kept
    | with_reducible apply State.foldl_kept
    | exact ⟨Nat.le_refl _, fun hw => hw⟩
    | with_reducible apply Kept.ite
    | split
    | extract_lets
    | (dsimp +zetaDelta only; split)
    | (simp +zetaDelta [*]; done)
    | (simp only [HostIf.wf, Flt.wf, Fab.wf, Home.wf, Bel.wf, Rec.wf] at *; simp +zetaDelta [*]; done)

theorem execRsps_kept {s : State} {p : PortId} {fa : BitVec 52} (kregs : l .regs = true) (khost : l .host = true) (kflt : l .flt = true) (kfab : l .fab = true) (khome : l .home = true) (kbel : l .bel = true) (krecorder : l .recorder = true) (kimg : l .img = true) (kout : l .out = true) (kfree : l .free = true) (h : Kept l o s) {t : State} (e : execRsps p fa s = .next t) :
    Kept l o t := by
  cases e
  repeat' first
    | with_reducible assumption
    | exact fun hw => hw
    | intro _
    | with_reducible apply State.whenServing_kept
    | with_reducible apply State.snoopAnswer_kept
    | with_reducible apply State.foldl_kept
    | exact ⟨Nat.le_refl _, fun hw => hw⟩
    | with_reducible apply Kept.ite
    | split
    | extract_lets
    | (dsimp +zetaDelta only; split)
    | (simp +zetaDelta [*]; done)
    | (simp only [HostIf.wf, Flt.wf, Fab.wf, Home.wf, Bel.wf, Rec.wf] at *; simp +zetaDelta [*]; done)

theorem State.fwdAnswer_kept {s : State} {x : Nat} {la : Nat} {tag : Nat} {data : Option Line} (kregs : l .regs = true) (khost : l .host = true) (kflt : l .flt = true) (kfab : l .fab = true) (khome : l .home = true) (kbel : l .bel = true) (krecorder : l .recorder = true) (kimg : l .img = true) (kout : l .out = true) (kfree : l .free = true) (h : Kept l o s) :
    Kept l o (State.fwdAnswer x la tag data s) := by
  unfold State.fwdAnswer
  repeat' first
    | with_reducible assumption
    | exact fun hw => hw
    | intro _
    | with_reducible apply State.settle_kept
    | with_reducible apply State.setTrk_kept
    | with_reducible apply State.foldl_kept
    | exact ⟨Nat.le_refl _, fun hw => hw⟩
    | with_reducible apply Kept.ite
    | split
    | extract_lets
    | (dsimp +zetaDelta only; split)
    | (simp +zetaDelta [*]; done)
    | (simp only [HostIf.wf, Flt.wf, Fab.wf, Home.wf, Bel.wf, Rec.wf] at *; simp +zetaDelta [*]; done)

theorem execFwdData_kept {s : State} {p : PortId} {tag : BitVec 16} {fa : BitVec 52} {data : Line} (kregs : l .regs = true) (khost : l .host = true) (kflt : l .flt = true) (kfab : l .fab = true) (khome : l .home = true) (kbel : l .bel = true) (krecorder : l .recorder = true) (kimg : l .img = true) (kout : l .out = true) (kfree : l .free = true) (h : Kept l o s) {t : State} (e : execFwdData p tag fa data s = .next t) :
    Kept l o t := by
  cases e
  repeat' first
    | with_reducible assumption
    | exact fun hw => hw
    | intro _
    | with_reducible apply State.whenServing_kept
    | with_reducible apply State.fwdAnswer_kept
    | with_reducible apply State.foldl_kept
    | exact ⟨Nat.le_refl _, fun hw => hw⟩
    | with_reducible apply Kept.ite
    | split
    | extract_lets
    | (dsimp +zetaDelta only; split)
    | (simp +zetaDelta [*]; done)
    | (simp only [HostIf.wf, Flt.wf, Fab.wf, Home.wf, Bel.wf, Rec.wf] at *; simp +zetaDelta [*]; done)

theorem execFwdNack_kept {s : State} {p : PortId} {tag : BitVec 16} {fa : BitVec 52} (kregs : l .regs = true) (khost : l .host = true) (kflt : l .flt = true) (kfab : l .fab = true) (khome : l .home = true) (kbel : l .bel = true) (krecorder : l .recorder = true) (kimg : l .img = true) (kout : l .out = true) (kfree : l .free = true) (h : Kept l o s) {t : State} (e : execFwdNack p tag fa s = .next t) :
    Kept l o t := by
  cases e
  repeat' first
    | with_reducible assumption
    | exact fun hw => hw
    | intro _
    | with_reducible apply State.whenServing_kept
    | with_reducible apply State.fwdAnswer_kept
    | with_reducible apply State.foldl_kept
    | exact ⟨Nat.le_refl _, fun hw => hw⟩
    | with_reducible apply Kept.ite
    | split
    | extract_lets
    | (dsimp +zetaDelta only; split)
    | (simp +zetaDelta [*]; done)
    | (simp only [HostIf.wf, Flt.wf, Fab.wf, Home.wf, Bel.wf, Rec.wf] at *; simp +zetaDelta [*]; done)

theorem execMemd_kept {s : State} {fa : BitVec 52} {data : Line} {poison : Bool} (kregs : l .regs = true) (khost : l .host = true) (kflt : l .flt = true) (kfab : l .fab = true) (khome : l .home = true) (kbel : l .bel = true) (krecorder : l .recorder = true) (kimg : l .img = true) (kout : l .out = true) (kfree : l .free = true) (h : Kept l o s) {t : State} (e : execMemd fa data poison s = .next t) :
    Kept l o t := by
  cases e
  repeat' first
    | with_reducible assumption
    | exact fun hw => hw
    | intro _
    | with_reducible apply State.whenServing_kept
    | with_reducible apply State.onHome_kept
    | with_reducible apply State.respond_kept
    | with_reducible apply State.setTrk_kept
    | with_reducible apply State.settle_kept
    | with_reducible apply State.foldl_kept
    | exact ⟨Nat.le_refl _, fun hw => hw⟩
    | with_reducible apply Kept.ite
    | split
    | extract_lets
    | (dsimp +zetaDelta only; split)
    | (simp +zetaDelta [*]; done)
    | (simp only [HostIf.wf, Flt.wf, Fab.wf, Home.wf, Bel.wf, Rec.wf] at *; simp +zetaDelta [*]; done)

theorem execBisnpFromBacking_kept {s : State} {h1 : SliceId} {p : PortId} {fa : BitVec 52} (kregs : l .regs = true) (kfab : l .fab = true) (kout : l .out = true) (h : Kept l o s) {t : State} (e : execBisnpFromBacking h1 p fa s = .next t) :
    Kept l o t := by
  cases e
  repeat' first
    | with_reducible assumption
    | exact fun hw => hw
    | intro _
    | with_reducible apply State.whenServing_kept
    | with_reducible apply State.bump_kept
    | with_reducible apply State.sendCore_kept
    | with_reducible apply State.foldl_kept
    | exact ⟨Nat.le_refl _, fun hw => hw⟩
    | with_reducible apply Kept.ite
    | split
    | extract_lets
    | (dsimp +zetaDelta only; split)
    | (simp +zetaDelta [*]; done)
    | (simp only [Fab.wf] at *; simp +zetaDelta [*]; done)

theorem execRetryDue_kept {s : State} {h1 : SliceId} (kregs : l .regs = true) (kpit : l .pit = true) (khost : l .host = true) (kflt : l .flt = true) (keng : l .eng = true) (kfab : l .fab = true) (ktabs : l .tabs = true) (khome : l .home = true) (kbel : l .bel = true) (krecorder : l .recorder = true) (kimg : l .img = true) (kout : l .out = true) (kfree : l .free = true) (h : Kept l o s) {t : State} (e : execRetryDue h1 s = .next t) :
    Kept l o t := by
  cases e
  repeat' first
    | with_reducible assumption
    | exact fun hw => hw
    | intro _
    | with_reducible apply State.whenServing_kept
    | with_reducible apply State.present_kept
    | with_reducible apply State.onSlice_kept
    | with_reducible apply State.reach_kept
    | with_reducible apply State.foldl_kept
    | exact ⟨Nat.le_refl _, fun hw => hw⟩
    | with_reducible apply Kept.ite
    | split
    | extract_lets
    | (dsimp +zetaDelta only; split)
    | (simp +zetaDelta [*]; done)
    | (simp only [HostIf.wf, Flt.wf, Eng.wf, Fab.wf, Tabs.wf, Home.wf, Bel.wf, Rec.wf] at *; simp +zetaDelta [*]; done)

theorem execSnoopTimeout_kept {s : State} {p : PortId} {fa : BitVec 52} (kregs : l .regs = true) (ksys : l .sys = true) (kpit : l .pit = true) (khost : l .host = true) (kflt : l .flt = true) (keng : l .eng = true) (kports : l .ports = true) (kfab : l .fab = true) (ktabs : l .tabs = true) (khome : l .home = true) (kbel : l .bel = true) (krecorder : l .recorder = true) (kimg : l .img = true) (kout : l .out = true) (kfree : l .free = true) (h : Kept l o s) {t : State} (e : execSnoopTimeout p fa s = .next t) :
    Kept l o t := by
  cases e
  repeat' first
    | with_reducible assumption
    | exact fun hw => hw
    | intro _
    | with_reducible apply State.whenServing_kept
    | with_reducible apply State.reach_kept
    | with_reducible apply State.fault_kept
    | with_reducible apply State.bump_kept
    | with_reducible apply State.declareDown_kept
    | with_reducible apply State.settle_kept
    | with_reducible apply State.lostTrk_kept
    | with_reducible apply State.foldl_kept
    | exact ⟨Nat.le_refl _, fun hw => hw⟩
    | with_reducible apply Kept.ite
    | split
    | extract_lets
    | (dsimp +zetaDelta only; split)
    | (simp +zetaDelta [*]; done)
    | (simp only [Sys.wf, HostIf.wf, Flt.wf, Eng.wf, Fab.wf, Tabs.wf, Home.wf, Bel.wf, Rec.wf] at *; simp +zetaDelta [*]; done)

theorem execWatchRecall_kept {s : State} {fa : BitVec 52} (kregs : l .regs = true) (kpit : l .pit = true) (khost : l .host = true) (kflt : l .flt = true) (keng : l .eng = true) (kfab : l .fab = true) (ktabs : l .tabs = true) (khome : l .home = true) (kbel : l .bel = true) (krecorder : l .recorder = true) (kimg : l .img = true) (kout : l .out = true) (kfree : l .free = true) (h : Kept l o s) {t : State} (e : execWatchRecall fa s = .next t) :
    Kept l o t := by
  cases e
  repeat' first
    | with_reducible assumption
    | exact fun hw => hw
    | intro _
    | with_reducible apply State.whenServing_kept
    | with_reducible apply State.onHome_kept
    | with_reducible apply State.reach_kept
    | with_reducible apply State.present_kept
    | with_reducible apply State.foldl_kept
    | exact ⟨Nat.le_refl _, fun hw => hw⟩
    | with_reducible apply Kept.ite
    | split
    | extract_lets
    | (dsimp +zetaDelta only; split)
    | (simp +zetaDelta [*]; done)
    | (simp only [HostIf.wf, Flt.wf, Eng.wf, Fab.wf, Tabs.wf, Home.wf, Bel.wf, Rec.wf] at *; simp +zetaDelta [*]; done)

theorem execWritebackIssue_kept {s : State} {h1 : SliceId} (kregs : l .regs = true) (khost : l .host = true) (kflt : l .flt = true) (kfab : l .fab = true) (khome : l .home = true) (kbel : l .bel = true) (kimg : l .img = true) (kout : l .out = true) (kfree : l .free = true) (h : Kept l o s) {t : State} (e : execWritebackIssue h1 s = .next t) :
    Kept l o t := by
  cases e
  repeat' first
    | with_reducible assumption
    | exact fun hw => hw
    | intro _
    | with_reducible apply State.whenServing_kept
    | with_reducible apply State.claimWays_kept
    | with_reducible apply State.onSlice_kept
    | with_reducible apply State.issueWb_kept
    | with_reducible apply State.foldl_kept
    | exact ⟨Nat.le_refl _, fun hw => hw⟩
    | with_reducible apply Kept.ite
    | split
    | extract_lets
    | (dsimp +zetaDelta only; split)
    | (simp +zetaDelta [*]; done)
    | (simp only [HostIf.wf, Flt.wf, Fab.wf, Home.wf, Bel.wf] at *; simp +zetaDelta [*]; done)

theorem execWritebackComplete_kept {s : State} {fa : BitVec 52} (kregs : l .regs = true) (khost : l .host = true) (kflt : l .flt = true) (kfab : l .fab = true) (khome : l .home = true) (kbel : l .bel = true) (krecorder : l .recorder = true) (kimg : l .img = true) (kout : l .out = true) (kfree : l .free = true) (h : Kept l o s) {t : State} (e : execWritebackComplete fa s = .next t) :
    Kept l o t := by
  cases e
  repeat' first
    | with_reducible assumption
    | exact fun hw => hw
    | intro _
    | with_reducible apply State.whenServing_kept
    | with_reducible apply State.onHome_kept
    | with_reducible apply State.onSlice_kept
    | with_reducible apply State.setTrk_kept
    | with_reducible apply State.settle_kept
    | with_reducible apply State.resolve_kept
    | with_reducible apply State.endWb_kept
    | with_reducible apply State.foldl_kept
    | exact ⟨Nat.le_refl _, fun hw => hw⟩
    | with_reducible apply Kept.ite
    | split
    | extract_lets
    | (dsimp +zetaDelta only; split)
    | (simp +zetaDelta [*]; done)
    | (simp only [HostIf.wf, Flt.wf, Fab.wf, Home.wf, Bel.wf, Rec.wf] at *; simp +zetaDelta [*]; done)

theorem execScrubStep_kept {s : State} {h1 : SliceId} {errs : List (Fin 8 × Bool)} (kregs : l .regs = true) (kpit : l .pit = true) (khost : l .host = true) (kflt : l .flt = true) (keng : l .eng = true) (kfab : l .fab = true) (ktabs : l .tabs = true) (khome : l .home = true) (kbel : l .bel = true) (krecorder : l .recorder = true) (kimg : l .img = true) (kout : l .out = true) (kfree : l .free = true) (h : Kept l o s) {t : State} (e : execScrubStep h1 errs s = .next t) :
    Kept l o t := by
  cases e
  repeat' first
    | with_reducible assumption
    | exact fun hw => hw
    | intro _
    | with_reducible apply State.whenServing_kept
    | with_reducible apply State.onSlice_kept
    | with_reducible apply State.reach_kept
    | with_reducible apply State.bump_kept
    | with_reducible apply State.meetInverted_kept
    | with_reducible apply State.forAll_kept
    | with_reducible apply State.homeError_kept
    | with_reducible apply State.foldl_kept
    | exact ⟨Nat.le_refl _, fun hw => hw⟩
    | with_reducible apply Kept.ite
    | split
    | extract_lets
    | (dsimp +zetaDelta only; split)
    | (simp +zetaDelta [*]; done)
    | (simp only [HostIf.wf, Flt.wf, Eng.wf, Fab.wf, Tabs.wf, Home.wf, Bel.wf, Rec.wf] at *; simp +zetaDelta [*]; done)

theorem State.unpin_kept {s : State} {la : Nat} (khome : l .home = true) (h : Kept l o s) :
    Kept l o (State.unpin la s) := by
  unfold State.unpin
  repeat' first
    | with_reducible assumption
    | exact fun hw => hw
    | intro _
    | with_reducible apply State.setDir_kept
    | with_reducible apply State.setOlc_kept
    | with_reducible apply State.foldl_kept
    | exact ⟨Nat.le_refl _, fun hw => hw⟩
    | with_reducible apply Kept.ite
    | split
    | extract_lets
    | (dsimp +zetaDelta only; split)
    | (simp +zetaDelta [*]; done)
    | (simp only [Home.wf] at *; simp +zetaDelta [*]; done)

theorem State.unbindLine_kept {s : State} {la : Nat} (kregs : l .regs = true) (khost : l .host = true) (kflt : l .flt = true) (kfab : l .fab = true) (khome : l .home = true) (kimg : l .img = true) (kout : l .out = true) (kfree : l .free = true) (h : Kept l o s) :
    Kept l o (State.unbindLine la s) := by
  unfold State.unbindLine
  repeat' first
    | with_reducible assumption
    | exact fun hw => hw
    | intro _
    | with_reducible apply State.evictLine_kept
    | with_reducible apply State.unpin_kept
    | with_reducible apply State.setOlc_kept
    | with_reducible apply State.foldl_kept
    | exact ⟨Nat.le_refl _, fun hw => hw⟩
    | with_reducible apply Kept.ite
    | split
    | extract_lets
    | (dsimp +zetaDelta only; split)
    | (simp +zetaDelta [*]; done)
    | (simp only [HostIf.wf, Flt.wf, Fab.wf, Home.wf] at *; simp +zetaDelta [*]; done)

theorem execUnbindWalkStart_kept {s : State} (kregs : l .regs = true) (khost : l .host = true) (kflt : l .flt = true) (kfab : l .fab = true) (ktabs : l .tabs = true) (khome : l .home = true) (kbel : l .bel = true) (krecorder : l .recorder = true) (kimg : l .img = true) (kout : l .out = true) (kfree : l .free = true) (h : Kept l o s) {t : State} (e : execUnbindWalkStart s = .next t) :
    Kept l o t := by
  cases e
  repeat' first
    | with_reducible assumption
    | exact fun hw => hw
    | intro _
    | with_reducible apply State.whenServing_kept
    | with_reducible apply State.onTabs_kept
    | with_reducible apply State.settle_kept
    | with_reducible apply State.forAll_kept
    | with_reducible apply State.unbindLine_kept
    | with_reducible apply State.foldl_kept
    | exact ⟨Nat.le_refl _, fun hw => hw⟩
    | with_reducible apply Kept.ite
    | split
    | extract_lets
    | (dsimp +zetaDelta only; split)
    | (simp +zetaDelta [*]; done)
    | (simp only [HostIf.wf, Flt.wf, Fab.wf, Tabs.wf, Home.wf, Bel.wf, Rec.wf] at *; simp +zetaDelta [*]; done)

theorem execWbDone_kept {s : State} (kregs : l .regs = true) (kpit : l .pit = true) (khost : l .host = true) (kflt : l .flt = true) (keng : l .eng = true) (ktabs : l .tabs = true) (kbel : l .bel = true) (kimg : l .img = true) (kout : l .out = true) (kfree : l .free = true) (h : Kept l o s) {t : State} (e : execWbDone s = .next t) :
    Kept l o t := by
  cases e
  repeat' first
    | with_reducible assumption
    | exact fun hw => hw
    | intro _
    | with_reducible apply State.whenServing_kept
    | with_reducible apply State.fc0_kept
    | with_reducible apply State.onTabs_kept
    | with_reducible apply State.reach_kept
    | with_reducible apply State.foldl_kept
    | exact ⟨Nat.le_refl _, fun hw => hw⟩
    | with_reducible apply Kept.ite
    | split
    | extract_lets
    | (dsimp +zetaDelta only; split)
    | (simp +zetaDelta [*]; done)
    | (simp only [HostIf.wf, Flt.wf, Eng.wf, Tabs.wf, Bel.wf] at *; simp +zetaDelta [*]; done)

theorem execRevokeDone_kept {s : State} (kregs : l .regs = true) (kpit : l .pit = true) (khost : l .host = true) (kflt : l .flt = true) (keng : l .eng = true) (kdom : l .dom = true) (ktabs : l .tabs = true) (kbel : l .bel = true) (kimg : l .img = true) (kout : l .out = true) (kfree : l .free = true) (h : Kept l o s) {t : State} (e : execRevokeDone s = .next t) :
    Kept l o t := by
  cases e
  repeat' first
    | with_reducible assumption
    | exact fun hw => hw
    | intro _
    | with_reducible apply State.whenServing_kept
    | with_reducible apply State.fc0_kept
    | with_reducible apply State.onDom_kept
    | with_reducible apply State.reach_kept
    | with_reducible apply State.foldl_kept
    | exact ⟨Nat.le_refl _, fun hw => hw⟩
    | with_reducible apply Kept.ite
    | split
    | extract_lets
    | (dsimp +zetaDelta only; split)
    | (simp +zetaDelta [*]; done)
    | (simp only [HostIf.wf, Flt.wf, Eng.wf, Dom.wf, Tabs.wf, Bel.wf] at *; simp +zetaDelta [*]; done)

end Sys2Proof.Machine
end

