-- ==== Sys2Proof/Laws/KeptPorts.lean ====
section
/-! SUPPORT. What the operations and meanings keep (Laws/Kept.lean), for ports, links, the switch core, shaping and tool change. -/

namespace Sys2Proof.Machine

variable {l : Part → Bool} {o : State}

/-! ### Machine/Ports.lean -/

theorem execPrsntNEdge_kept {s : State} {p : PortId} {high : Bool} (kports : l .ports = true) (h : Kept l o s) {t : State} (e : execPrsntNEdge p high s = .next t) :
    Kept l o t := by
  cases e
  repeat' first
    | with_reducible assumption
    | exact fun hw => hw
    | intro _
    | with_reducible apply State.onPort_kept
    | with_reducible apply State.foldl_kept
    | exact ⟨Nat.le_refl _, fun hw => hw⟩
    | with_reducible apply Kept.ite
    | split
    | extract_lets
    | (dsimp +zetaDelta only; split)
    | (simp +zetaDelta [*]; done)

theorem execPrsntFilterExpire_kept {s : State} {p : PortId} (kregs : l .regs = true) (ksys : l .sys = true) (kpit : l .pit = true) (khost : l .host = true) (kflt : l .flt = true) (keng : l .eng = true) (kports : l .ports = true) (ktool : l .tool = true) (kfab : l .fab = true) (ktabs : l .tabs = true) (khome : l .home = true) (kbel : l .bel = true) (krecorder : l .recorder = true) (kimg : l .img = true) (kout : l .out = true) (kfree : l .free = true) (h : Kept l o s) {t : State} (e : execPrsntFilterExpire p s = .next t) :
    Kept l o t := by
  cases e
  repeat' first
    | with_reducible assumption
    | exact fun hw => hw
    | intro _
    | with_reducible apply State.whenServing_kept
    | with_reducible apply State.reach_kept
    | with_reducible apply State.captureSide_kept
    | with_reducible apply State.onPort_kept
    | with_reducible apply State.presenceLost_kept
    | with_reducible apply State.comeUp_kept
    | with_reducible apply State.foldl_kept
    | exact ⟨Nat.le_refl _, fun hw => hw⟩
    | with_reducible apply Kept.ite
    | split
    | extract_lets
    | (dsimp +zetaDelta only; split)
    | (simp +zetaDelta [*]; done)
    | (simp only [Sys.wf, HostIf.wf, Flt.wf, Eng.wf, Tool.wf, Fab.wf, Tabs.wf, Home.wf, Bel.wf, Rec.wf] at *; simp +zetaDelta [*]; done)

theorem execPortPowerUpStart_kept {s : State} {p : PortId} (ksys : l .sys = true) (kports : l .ports = true) (kout : l .out = true) (h : Kept l o s) {t : State} (e : execPortPowerUpStart p s = .next t) :
    Kept l o t := by
  cases e
  repeat' first
    | with_reducible assumption
    | exact fun hw => hw
    | intro _
    | with_reducible apply State.whenServing_kept
    | with_reducible apply State.onPort_kept
    | with_reducible apply State.latchCfg_kept
    | with_reducible apply State.perstAt_kept
    | with_reducible apply State.dischAt_kept
    | with_reducible apply State.emit_kept
    | with_reducible apply State.foldl_kept
    | exact ⟨Nat.le_refl _, fun hw => hw⟩
    | with_reducible apply Kept.ite
    | split
    | extract_lets
    | (dsimp +zetaDelta only; split)
    | (simp +zetaDelta [*]; done)
    | (simp only [Sys.wf] at *; simp +zetaDelta [*]; done)

theorem execDischLeadExpire_kept {s : State} {p : PortId} (kregs : l .regs = true) (ksys : l .sys = true) (kpit : l .pit = true) (khost : l .host = true) (kflt : l .flt = true) (keng : l .eng = true) (kports : l .ports = true) (ktabs : l .tabs = true) (kbel : l .bel = true) (kimg : l .img = true) (kout : l .out = true) (kfree : l .free = true) (h : Kept l o s) {t : State} (e : execDischLeadExpire p s = .next t) :
    Kept l o t := by
  cases e
  repeat' first
    | with_reducible assumption
    | exact fun hw => hw
    | intro _
    | with_reducible apply State.whenServing_kept
    | with_reducible apply State.reach_kept
    | with_reducible apply State.onPort_kept
    | with_reducible apply State.pwrenAt_kept
    | with_reducible apply State.foldl_kept
    | exact ⟨Nat.le_refl _, fun hw => hw⟩
    | with_reducible apply Kept.ite
    | split
    | extract_lets
    | (dsimp +zetaDelta only; split)
    | (simp +zetaDelta [*]; done)
    | (simp only [Sys.wf, HostIf.wf, Flt.wf, Eng.wf, Tabs.wf, Bel.wf] at *; simp +zetaDelta [*]; done)

theorem execPwrgdRise_kept {s : State} {p : PortId} (kregs : l .regs = true) (kports : l .ports = true) (krecorder : l .recorder = true) (h : Kept l o s) {t : State} (e : execPwrgdRise p s = .next t) :
    Kept l o t := by
  cases e
  repeat' first
    | with_reducible assumption
    | exact fun hw => hw
    | intro _
    | with_reducible apply State.captureSide_kept
    | with_reducible apply State.onPort_kept
    | with_reducible apply State.foldl_kept
    | exact ⟨Nat.le_refl _, fun hw => hw⟩
    | with_reducible apply Kept.ite
    | split
    | extract_lets
    | (dsimp +zetaDelta only; split)
    | (simp +zetaDelta [*]; done)
    | (simp only [Rec.wf] at *; simp +zetaDelta [*]; done)

theorem execPerstHoldExpire_kept {s : State} {p : PortId} (kregs : l .regs = true) (ksys : l .sys = true) (kpit : l .pit = true) (khost : l .host = true) (kflt : l .flt = true) (keng : l .eng = true) (kports : l .ports = true) (ktabs : l .tabs = true) (kbel : l .bel = true) (kimg : l .img = true) (kout : l .out = true) (kfree : l .free = true) (h : Kept l o s) {t : State} (e : execPerstHoldExpire p s = .next t) :
    Kept l o t := by
  cases e
  repeat' first
    | with_reducible assumption
    | exact fun hw => hw
    | intro _
    | with_reducible apply State.whenServing_kept
    | with_reducible apply State.startTraining_kept
    | with_reducible apply State.perstAt_kept
    | with_reducible apply State.reach_kept
    | with_reducible apply State.foldl_kept
    | exact ⟨Nat.le_refl _, fun hw => hw⟩
    | with_reducible apply Kept.ite
    | split
    | extract_lets
    | (dsimp +zetaDelta only; split)
    | (simp +zetaDelta [*]; done)
    | (simp only [Sys.wf, HostIf.wf, Flt.wf, Eng.wf, Tabs.wf, Bel.wf] at *; simp +zetaDelta [*]; done)

theorem execPwrgdFall_kept {s : State} {p : PortId} (kregs : l .regs = true) (ksys : l .sys = true) (khost : l .host = true) (kflt : l .flt = true) (kports : l .ports = true) (ktool : l .tool = true) (kfab : l .fab = true) (ktabs : l .tabs = true) (khome : l .home = true) (kbel : l .bel = true) (krecorder : l .recorder = true) (kimg : l .img = true) (kout : l .out = true) (kfree : l .free = true) (h : Kept l o s) {t : State} (e : execPwrgdFall p s = .next t) :
    Kept l o t := by
  cases e
  repeat' first
    | with_reducible assumption
    | exact fun hw => hw
    | intro _
    | with_reducible apply State.captureSide_kept
    | with_reducible apply State.onPort_kept
    | with_reducible apply State.powerFault_kept
    | with_reducible apply State.foldl_kept
    | exact ⟨Nat.le_refl _, fun hw => hw⟩
    | with_reducible apply Kept.ite
    | split
    | extract_lets
    | (dsimp +zetaDelta only; split)
    | (simp +zetaDelta [*]; done)
    | (simp only [Sys.wf, HostIf.wf, Flt.wf, Tool.wf, Fab.wf, Tabs.wf, Home.wf, Bel.wf, Rec.wf] at *; simp +zetaDelta [*]; done)

theorem execPwrgdTimeout_kept {s : State} {p : PortId} (kregs : l .regs = true) (ksys : l .sys = true) (kpit : l .pit = true) (khost : l .host = true) (kflt : l .flt = true) (keng : l .eng = true) (kports : l .ports = true) (ktool : l .tool = true) (kfab : l .fab = true) (ktabs : l .tabs = true) (khome : l .home = true) (kbel : l .bel = true) (krecorder : l .recorder = true) (kimg : l .img = true) (kout : l .out = true) (kfree : l .free = true) (h : Kept l o s) {t : State} (e : execPwrgdTimeout p s = .next t) :
    Kept l o t := by
  cases e
  repeat' first
    | with_reducible assumption
    | exact fun hw => hw
    | intro _
    | with_reducible apply State.whenServing_kept
    | with_reducible apply State.powerFault_kept
    | with_reducible apply State.reach_kept
    | with_reducible apply State.foldl_kept
    | exact ⟨Nat.le_refl _, fun hw => hw⟩
    | with_reducible apply Kept.ite
    | split
    | extract_lets
    | (dsimp +zetaDelta only; split)
    | (simp +zetaDelta [*]; done)
    | (simp only [Sys.wf, HostIf.wf, Flt.wf, Eng.wf, Tool.wf, Fab.wf, Tabs.wf, Home.wf, Bel.wf, Rec.wf] at *; simp +zetaDelta [*]; done)

theorem execLinkTrained_kept {s : State} {p : PortId} {width : Fin 6} {rate : Fin 7} {offer : FlitOffer} {isSwitch : Bool} (kregs : l .regs = true) (khost : l .host = true) (kflt : l .flt = true) (kports : l .ports = true) (krecorder : l .recorder = true) (kimg : l .img = true) (kout : l .out = true) (kfree : l .free = true) (h : Kept l o s) {t : State} (e : execLinkTrained p width rate offer isSwitch s = .next t) :
    Kept l o t := by
  cases e
  repeat' first
    | with_reducible assumption
    | exact fun hw => hw
    | intro _
    | with_reducible apply State.whenServing_kept
    | with_reducible apply State.startTraining_kept
    | with_reducible apply State.onPort_kept
    | with_reducible apply State.captureSide_kept
    | with_reducible apply State.trainLink_kept
    | with_reducible apply State.raise_kept
    | with_reducible apply State.fault_kept
    | with_reducible apply State.foldl_kept
    | exact ⟨Nat.le_refl _, fun hw => hw⟩
    | with_reducible apply Kept.ite
    | split
    | extract_lets
    | (dsimp +zetaDelta only; split)
    | (simp +zetaDelta [*]; done)
    | (simp only [HostIf.wf, Flt.wf, Rec.wf] at *; simp +zetaDelta [*]; done)

theorem execTrainModeTimeout_kept {s : State} {p : PortId} (kregs : l .regs = true) (kpit : l .pit = true) (khost : l .host = true) (kflt : l .flt = true) (keng : l .eng = true) (ktabs : l .tabs = true) (kbel : l .bel = true) (kimg : l .img = true) (kout : l .out = true) (kfree : l .free = true) (h : Kept l o s) {t : State} (e : execTrainModeTimeout p s = .next t) :
    Kept l o t := by
  cases e
  repeat' first
    | with_reducible assumption
    | exact fun hw => hw
    | intro _
    | with_reducible apply State.whenServing_kept
    | with_reducible apply State.fault_kept
    | with_reducible apply State.reach_kept
    | with_reducible apply State.foldl_kept
    | exact ⟨Nat.le_refl _, fun hw => hw⟩
    | with_reducible apply Kept.ite
    | split
    | extract_lets
    | (dsimp +zetaDelta only; split)
    | (simp +zetaDelta [*]; done)
    | (simp only [HostIf.wf, Flt.wf, Eng.wf, Tabs.wf, Bel.wf] at *; simp +zetaDelta [*]; done)

theorem execDllUp_kept {s : State} {p : PortId} (kregs : l .regs = true) (kports : l .ports = true) (krecorder : l .recorder = true) (kout : l .out = true) (h : Kept l o s) {t : State} (e : execDllUp p s = .next t) :
    Kept l o t := by
  cases e
  repeat' first
    | with_reducible assumption
    | exact fun hw => hw
    | intro _
    | with_reducible apply State.whenServing_kept
    | with_reducible apply State.onPort_kept
    | with_reducible apply State.captureSide_kept
    | with_reducible apply State.sendOffer_kept
    | with_reducible apply State.foldl_kept
    | exact ⟨Nat.le_refl _, fun hw => hw⟩
    | with_reducible apply Kept.ite
    | split
    | extract_lets
    | (dsimp +zetaDelta only; split)
    | (simp +zetaDelta [*]; done)
    | (simp only [Rec.wf] at *; simp +zetaDelta [*]; done)

theorem execMeradOfferRepeat_kept {s : State} {p : PortId} (kregs : l .regs = true) (kpit : l .pit = true) (khost : l .host = true) (kflt : l .flt = true) (keng : l .eng = true) (kports : l .ports = true) (ktabs : l .tabs = true) (kbel : l .bel = true) (kimg : l .img = true) (kout : l .out = true) (kfree : l .free = true) (h : Kept l o s) {t : State} (e : execMeradOfferRepeat p s = .next t) :
    Kept l o t := by
  cases e
  repeat' first
    | with_reducible assumption
    | exact fun hw => hw
    | intro _
    | with_reducible apply State.whenServing_kept
    | with_reducible apply State.reach_kept
    | with_reducible apply State.sendOffer_kept
    | with_reducible apply State.meradEnds_kept
    | with_reducible apply State.foldl_kept
    | exact ⟨Nat.le_refl _, fun hw => hw⟩
    | with_reducible apply Kept.ite
    | split
    | extract_lets
    | (dsimp +zetaDelta only; split)
    | (simp +zetaDelta [*]; done)
    | (simp only [HostIf.wf, Flt.wf, Eng.wf, Tabs.wf, Bel.wf] at *; simp +zetaDelta [*]; done)

theorem execMeradOfferRx_kept {s : State} {p : PortId} {verMap : Byte} {respNs : BitVec 16} {tie : Option Word} (kports : l .ports = true) (kout : l .out = true) (h : Kept l o s) {t : State} (e : execMeradOfferRx p verMap respNs tie s = .next t) :
    Kept l o t := by
  cases e
  repeat' first
    | with_reducible assumption
    | exact fun hw => hw
    | intro _
    | with_reducible apply State.whenServing_kept
    | with_reducible apply State.sendAccept_kept
    | with_reducible apply State.emit_kept
    | with_reducible apply State.foldl_kept
    | exact ⟨Nat.le_refl _, fun hw => hw⟩
    | with_reducible apply Kept.ite
    | split
    | extract_lets
    | (dsimp +zetaDelta only; split)
    | (simp +zetaDelta [*]; done)

theorem execMeradAcceptRx_kept {s : State} {p : PortId} {ver : Fin 4} {respNs : BitVec 16} (kports : l .ports = true) (kout : l .out = true) (h : Kept l o s) {t : State} (e : execMeradAcceptRx p ver respNs s = .next t) :
    Kept l o t := by
  cases e
  repeat' first
    | with_reducible assumption
    | exact fun hw => hw
    | intro _
    | with_reducible apply State.whenServing_kept
    | with_reducible apply State.meradEnds_kept
    | with_reducible apply State.emit_kept
    | with_reducible apply State.onPort_kept
    | with_reducible apply State.foldl_kept
    | exact ⟨Nat.le_refl _, fun hw => hw⟩
    | with_reducible apply Kept.ite
    | split
    | extract_lets
    | (dsimp +zetaDelta only; split)
    | (simp +zetaDelta [*]; done)

theorem execMeradConfirmRx_kept {s : State} {p : PortId} {ver : Fin 4} (kports : l .ports = true) (kout : l .out = true) (h : Kept l o s) {t : State} (e : execMeradConfirmRx p ver s = .next t) :
    Kept l o t := by
  cases e
  repeat' first
    | with_reducible assumption
    | exact fun hw => hw
    | intro _
    | with_reducible apply State.whenServing_kept
    | with_reducible apply State.meradEnds_kept
    | with_reducible apply State.foldl_kept
    | exact ⟨Nat.le_refl _, fun hw => hw⟩
    | with_reducible apply Kept.ite
    | split
    | extract_lets
    | (dsimp +zetaDelta only; split)
    | (simp +zetaDelta [*]; done)

theorem execMeradWaitExpire_kept {s : State} {p : PortId} (kregs : l .regs = true) (kpit : l .pit = true) (khost : l .host = true) (kflt : l .flt = true) (keng : l .eng = true) (kports : l .ports = true) (ktabs : l .tabs = true) (kbel : l .bel = true) (kimg : l .img = true) (kout : l .out = true) (kfree : l .free = true) (h : Kept l o s) {t : State} (e : execMeradWaitExpire p s = .next t) :
    Kept l o t := by
  cases e
  repeat' first
    | with_reducible assumption
    | exact fun hw => hw
    | intro _
    | with_reducible apply State.whenServing_kept
    | with_reducible apply State.meradEnds_kept
    | with_reducible apply State.reach_kept
    | with_reducible apply State.foldl_kept
    | exact ⟨Nat.le_refl _, fun hw => hw⟩
    | with_reducible apply Kept.ite
    | split
    | extract_lets
    | (dsimp +zetaDelta only; split)
    | (simp +zetaDelta [*]; done)
    | (simp only [HostIf.wf, Flt.wf, Eng.wf, Tabs.wf, Bel.wf] at *; simp +zetaDelta [*]; done)

theorem execAutoRebind_kept {s : State} {p : PortId} (kports : l .ports = true) (kfab : l .fab = true) (h : Kept l o s) {t : State} (e : execAutoRebind p s = .next t) :
    Kept l o t := by
  cases e
  repeat' first
    | with_reducible assumption
    | exact fun hw => hw
    | intro _
    | with_reducible apply State.whenServing_kept
    | with_reducible apply State.enterActive_kept
    | with_reducible apply State.foldl_kept
    | exact ⟨Nat.le_refl _, fun hw => hw⟩
    | with_reducible apply Kept.ite
    | split
    | extract_lets
    | (dsimp +zetaDelta only; split)
    | (simp +zetaDelta [*]; done)
    | (simp only [Fab.wf] at *; simp +zetaDelta [*]; done)

theorem State.startRetrain_kept {s : State} {n : Nat} {forced : Bool} (kregs : l .regs = true) (ksys : l .sys = true) (khost : l .host = true) (kflt : l .flt = true) (kports : l .ports = true) (kfab : l .fab = true) (ktabs : l .tabs = true) (khome : l .home = true) (kbel : l .bel = true) (krecorder : l .recorder = true) (kimg : l .img = true) (kout : l .out = true) (kfree : l .free = true) (h : Kept l o s) :
    Kept l o (State.startRetrain n forced s) := by
  unfold State.startRetrain
  repeat' first
    | with_reducible assumption
    | exact fun hw => hw
    | intro _
    | with_reducible apply State.emit_kept
    | with_reducible apply State.onPortN_kept
    | with_reducible apply State.bump_kept
    | with_reducible apply State.declareDown_kept
    | with_reducible apply State.fault_kept
    | with_reducible apply State.foldl_kept
    | exact ⟨Nat.le_refl _, fun hw => hw⟩
    | with_reducible apply Kept.ite
    | split
    | extract_lets
    | (dsimp +zetaDelta only; split)
    | (simp +zetaDelta [*]; done)
    | (simp only [Sys.wf, HostIf.wf, Flt.wf, Fab.wf, Tabs.wf, Home.wf, Bel.wf, Rec.wf] at *; simp +zetaDelta [*]; done)

theorem execRetrainStart_kept {s : State} {p : PortId} {forced : Bool} (kregs : l .regs = true) (ksys : l .sys = true) (khost : l .host = true) (kflt : l .flt = true) (kports : l .ports = true) (kfab : l .fab = true) (ktabs : l .tabs = true) (khome : l .home = true) (kbel : l .bel = true) (krecorder : l .recorder = true) (kimg : l .img = true) (kout : l .out = true) (kfree : l .free = true) (h : Kept l o s) {t : State} (e : execRetrainStart p forced s = .next t) :
    Kept l o t := by
  cases e
  repeat' first
    | with_reducible assumption
    | exact fun hw => hw
    | intro _
    | with_reducible apply State.startRetrain_kept
    | with_reducible apply State.foldl_kept
    | exact ⟨Nat.le_refl _, fun hw => hw⟩
    | with_reducible apply Kept.ite
    | split
    | extract_lets
    | (dsimp +zetaDelta only; split)
    | (simp +zetaDelta [*]; done)
    | (simp only [Sys.wf, HostIf.wf, Flt.wf, Fab.wf, Tabs.wf, Home.wf, Bel.wf, Rec.wf] at *; simp +zetaDelta [*]; done)

theorem State.replay_kept {s : State} {n : Nat} {l1 : List YoFlit} (kregs : l .regs = true) (ksys : l .sys = true) (khost : l .host = true) (kflt : l .flt = true) (kports : l .ports = true) (kfab : l .fab = true) (ktabs : l .tabs = true) (khome : l .home = true) (kbel : l .bel = true) (krecorder : l .recorder = true) (kimg : l .img = true) (kout : l .out = true) (kfree : l .free = true) (h : Kept l o s) :
    Kept l o (State.replay n l1 s) := by
  unfold State.replay
  repeat' first
    | with_reducible assumption
    | exact fun hw => hw
    | intro _
    | with_reducible apply State.bump_kept
    | with_reducible apply State.forAll_kept
    | with_reducible apply State.emit_kept
    | with_reducible apply State.onPortN_kept
    | with_reducible apply State.startRetrain_kept
    | with_reducible apply State.fault_kept
    | with_reducible apply State.foldl_kept
    | exact ⟨Nat.le_refl _, fun hw => hw⟩
    | with_reducible apply Kept.ite
    | split
    | extract_lets
    | (dsimp +zetaDelta only; split)
    | (simp +zetaDelta [*]; done)
    | (simp only [Sys.wf, HostIf.wf, Flt.wf, Fab.wf, Tabs.wf, Home.wf, Bel.wf, Rec.wf] at *; simp +zetaDelta [*]; done)

theorem execRetrainEnd_kept {s : State} {p : PortId} {width : Fin 6} {rate : Fin 7} (kregs : l .regs = true) (ksys : l .sys = true) (khost : l .host = true) (kflt : l .flt = true) (kports : l .ports = true) (kfab : l .fab = true) (ktabs : l .tabs = true) (khome : l .home = true) (kbel : l .bel = true) (krecorder : l .recorder = true) (kimg : l .img = true) (kout : l .out = true) (kfree : l .free = true) (h : Kept l o s) {t : State} (e : execRetrainEnd p width rate s = .next t) :
    Kept l o t := by
  cases e
  repeat' first
    | with_reducible assumption
    | exact fun hw => hw
    | intro _
    | with_reducible apply State.onPort_kept
    | with_reducible apply State.emit_kept
    | with_reducible apply State.captureSide_kept
    | with_reducible apply State.replay_kept
    | with_reducible apply State.forAll_kept
    | with_reducible apply State.sendCredit_kept
    | with_reducible apply State.foldl_kept
    | exact ⟨Nat.le_refl _, fun hw => hw⟩
    | with_reducible apply Kept.ite
    | split
    | extract_lets
    | (dsimp +zetaDelta only; split)
    | (simp +zetaDelta [*]; done)
    | (simp only [Sys.wf, HostIf.wf, Flt.wf, Fab.wf, Tabs.wf, Home.wf, Bel.wf, Rec.wf] at *; simp +zetaDelta [*]; done)

theorem execL0pRequestRx_kept {s : State} {p : PortId} {width : Fin 6} (kports : l .ports = true) (kout : l .out = true) (h : Kept l o s) {t : State} (e : execL0pRequestRx p width s = .next t) :
    Kept l o t := by
  cases e
  repeat' first
    | with_reducible assumption
    | exact fun hw => hw
    | intro _
    | with_reducible apply State.whenServing_kept
    | with_reducible apply State.emit_kept
    | with_reducible apply State.onPort_kept
    | with_reducible apply State.foldl_kept
    | exact ⟨Nat.le_refl _, fun hw => hw⟩
    | with_reducible apply Kept.ite
    | split
    | extract_lets
    | (dsimp +zetaDelta only; split)
    | (simp +zetaDelta [*]; done)

theorem execL0pWidenTimer_kept {s : State} {p : PortId} {w : WinId} (kregs : l .regs = true) (kpit : l .pit = true) (khost : l .host = true) (kflt : l .flt = true) (keng : l .eng = true) (kports : l .ports = true) (ktabs : l .tabs = true) (kbel : l .bel = true) (kimg : l .img = true) (kout : l .out = true) (kfree : l .free = true) (h : Kept l o s) {t : State} (e : execL0pWidenTimer p w s = .next t) :
    Kept l o t := by
  cases e
  repeat' first
    | with_reducible assumption
    | exact fun hw => hw
    | intro _
    | with_reducible apply State.whenServing_kept
    | with_reducible apply State.onPort_kept
    | with_reducible apply State.emit_kept
    | with_reducible apply State.reach_kept
    | with_reducible apply State.foldl_kept
    | exact ⟨Nat.le_refl _, fun hw => hw⟩
    | with_reducible apply Kept.ite
    | split
    | extract_lets
    | (dsimp +zetaDelta only; split)
    | (simp +zetaDelta [*]; done)
    | (simp only [HostIf.wf, Flt.wf, Eng.wf, Tabs.wf, Bel.wf] at *; simp +zetaDelta [*]; done)

theorem execL0pWidthChangeEnd_kept {s : State} {p : PortId} (kregs : l .regs = true) (kports : l .ports = true) (krecorder : l .recorder = true) (h : Kept l o s) {t : State} (e : execL0pWidthChangeEnd p s = .next t) :
    Kept l o t := by
  cases e
  repeat' first
    | with_reducible assumption
    | exact fun hw => hw
    | intro _
    | with_reducible apply State.captureSide_kept
    | with_reducible apply State.onPort_kept
    | with_reducible apply State.foldl_kept
    | exact ⟨Nat.le_refl _, fun hw => hw⟩
    | with_reducible apply Kept.ite
    | split
    | extract_lets
    | (dsimp +zetaDelta only; split)
    | (simp +zetaDelta [*]; done)
    | (simp only [Rec.wf] at *; simp +zetaDelta [*]; done)

theorem execL0pProtectStart_kept {s : State} {p : PortId} {w : WinId} (kregs : l .regs = true) (kpit : l .pit = true) (khost : l .host = true) (kflt : l .flt = true) (keng : l .eng = true) (kports : l .ports = true) (ktabs : l .tabs = true) (kbel : l .bel = true) (kimg : l .img = true) (kout : l .out = true) (kfree : l .free = true) (h : Kept l o s) {t : State} (e : execL0pProtectStart p w s = .next t) :
    Kept l o t := by
  cases e
  repeat' first
    | with_reducible assumption
    | exact fun hw => hw
    | intro _
    | with_reducible apply State.whenServing_kept
    | with_reducible apply State.onPort_kept
    | with_reducible apply State.reach_kept
    | with_reducible apply State.fc0_kept
    | with_reducible apply State.foldl_kept
    | exact ⟨Nat.le_refl _, fun hw => hw⟩
    | with_reducible apply Kept.ite
    | split
    | extract_lets
    | (dsimp +zetaDelta only; split)
    | (simp +zetaDelta [*]; done)
    | (simp only [HostIf.wf, Flt.wf, Eng.wf, Tabs.wf, Bel.wf] at *; simp +zetaDelta [*]; done)

theorem execLinkDown_kept {s : State} {p : PortId} {cause : DownCause} (kregs : l .regs = true) (ksys : l .sys = true) (khost : l .host = true) (kflt : l .flt = true) (kports : l .ports = true) (kfab : l .fab = true) (ktabs : l .tabs = true) (khome : l .home = true) (kbel : l .bel = true) (krecorder : l .recorder = true) (kimg : l .img = true) (kout : l .out = true) (kfree : l .free = true) (h : Kept l o s) {t : State} (e : execLinkDown p cause s = .next t) :
    Kept l o t := by
  cases e
  repeat' first
    | with_reducible assumption
    | exact fun hw => hw
    | intro _
    | with_reducible apply State.declareDown_kept
    | with_reducible apply State.foldl_kept
    | exact ⟨Nat.le_refl _, fun hw => hw⟩
    | with_reducible apply Kept.ite
    | split
    | extract_lets
    | (dsimp +zetaDelta only; split)
    | (simp +zetaDelta [*]; done)
    | (simp only [Sys.wf, HostIf.wf, Flt.wf, Fab.wf, Tabs.wf, Home.wf, Bel.wf, Rec.wf] at *; simp +zetaDelta [*]; done)

theorem State.released_kept {s : State} {n : Nat} (ksys : l .sys = true) (kports : l .ports = true) (h : Kept l o s) :
    Kept l o (State.released n s) := by
  unfold State.released
  repeat' first
    | with_reducible assumption
    | exact fun hw => hw
    | intro _
    | with_reducible apply State.onPortN_kept
    | with_reducible apply State.unpower_kept
    | with_reducible apply State.perstAt_kept
    | with_reducible apply State.foldl_kept
    | exact ⟨Nat.le_refl _, fun hw => hw⟩
    | with_reducible apply Kept.ite
    | split
    | extract_lets
    | (dsimp +zetaDelta only; split)
    | (simp +zetaDelta [*]; done)
    | (simp only [Sys.wf] at *; simp +zetaDelta [*]; done)

theorem execFlushEnd_kept {s : State} {p : PortId} (kregs : l .regs = true) (ksys : l .sys = true) (kports : l .ports = true) (ktool : l .tool = true) (h : Kept l o s) {t : State} (e : execFlushEnd p s = .next t) :
    Kept l o t := by
  cases e
  repeat' first
    | with_reducible assumption
    | exact fun hw => hw
    | intro _
    | with_reducible apply State.onPort_kept
    | with_reducible apply State.released_kept
    | with_reducible apply State.comeUp_kept
    | with_reducible apply State.enterOff_kept
    | with_reducible apply State.foldl_kept
    | exact ⟨Nat.le_refl _, fun hw => hw⟩
    | with_reducible apply Kept.ite
    | split
    | extract_lets
    | (dsimp +zetaDelta only; split)
    | (simp +zetaDelta [*]; done)
    | (simp only [Sys.wf, Tool.wf] at *; simp +zetaDelta [*]; done)

theorem execLostPortWalkEnd_kept {s : State} {h1 : SliceId} {p : PortId} (kports : l .ports = true) (h : Kept l o s) {t : State} (e : execLostPortWalkEnd h1 p s = .next t) :
    Kept l o t := by
  cases e
  repeat' first
    | with_reducible assumption
    | exact fun hw => hw
    | intro _
    | with_reducible apply State.whenServing_kept
    | with_reducible apply State.onPort_kept
    | with_reducible apply State.foldl_kept
    | exact ⟨Nat.le_refl _, fun hw => hw⟩
    | with_reducible apply Kept.ite
    | split
    | extract_lets
    | (dsimp +zetaDelta only; split)
    | (simp +zetaDelta [*]; done)

theorem execHotResetRx_kept {s : State} {p : PortId} {kind : HotReset} (kregs : l .regs = true) (ksys : l .sys = true) (khost : l .host = true) (kflt : l .flt = true) (kports : l .ports = true) (kfab : l .fab = true) (ktabs : l .tabs = true) (khome : l .home = true) (kbel : l .bel = true) (krecorder : l .recorder = true) (kimg : l .img = true) (kout : l .out = true) (kfree : l .free = true) (h : Kept l o s) {t : State} (e : execHotResetRx p kind s = .next t) :
    Kept l o t := by
  cases e
  repeat' first
    | with_reducible assumption
    | exact fun hw => hw
    | intro _
    | with_reducible apply State.whenServing_kept
    | with_reducible apply State.declareDown_kept
    | with_reducible apply State.emit_kept
    | with_reducible apply State.foldl_kept
    | exact ⟨Nat.le_refl _, fun hw => hw⟩
    | with_reducible apply Kept.ite
    | split
    | extract_lets
    | (dsimp +zetaDelta only; split)
    | (simp +zetaDelta [*]; done)
    | (simp only [Sys.wf, HostIf.wf, Flt.wf, Fab.wf, Tabs.wf, Home.wf, Bel.wf, Rec.wf] at *; simp +zetaDelta [*]; done)

theorem execIdeCheckFail_kept {s : State} {p : PortId} {stream : Fin 9} (kregs : l .regs = true) (ksys : l .sys = true) (khost : l .host = true) (kflt : l .flt = true) (kports : l .ports = true) (kfab : l .fab = true) (ktabs : l .tabs = true) (khome : l .home = true) (kbel : l .bel = true) (krecorder : l .recorder = true) (kimg : l .img = true) (kout : l .out = true) (kfree : l .free = true) (h : Kept l o s) {t : State} (e : execIdeCheckFail p stream s = .next t) :
    Kept l o t := by
  cases e
  repeat' first
    | with_reducible assumption
    | exact fun hw => hw
    | intro _
    | with_reducible apply State.whenServing_kept
    | with_reducible apply State.onPort_kept
    | with_reducible apply State.declareDown_kept
    | with_reducible apply State.fault_kept
    | with_reducible apply State.foldl_kept
    | exact ⟨Nat.le_refl _, fun hw => hw⟩
    | with_reducible apply Kept.ite
    | split
    | extract_lets
    | (dsimp +zetaDelta only; split)
    | (simp +zetaDelta [*]; done)
    | (simp only [Sys.wf, HostIf.wf, Flt.wf, Fab.wf, Tabs.wf, Home.wf, Bel.wf, Rec.wf] at *; simp +zetaDelta [*]; done)

theorem State.putKey_kept {s : State} {n : Nat} {k : IdeKeySlot} (kports : l .ports = true) (h : Kept l o s) :
    Kept l o (State.putKey n k s) := by
  unfold State.putKey
  repeat' first
    | with_reducible assumption
    | exact fun hw => hw
    | intro _
    | with_reducible apply State.onPortN_kept
    | with_reducible apply State.foldl_kept
    | exact ⟨Nat.le_refl _, fun hw => hw⟩
    | with_reducible apply Kept.ite
    | split
    | extract_lets
    | (dsimp +zetaDelta only; split)
    | (simp +zetaDelta [*]; done)

theorem State.streamGo_kept {s : State} {n : Nat} {stream : Nat} (kports : l .ports = true) (h : Kept l o s) :
    Kept l o (State.streamGo n stream s) := by
  unfold State.streamGo
  repeat' first
    | with_reducible assumption
    | exact fun hw => hw
    | intro _
    | with_reducible apply State.onPortN_kept
    | with_reducible apply State.foldl_kept
    | exact ⟨Nat.le_refl _, fun hw => hw⟩
    | with_reducible apply Kept.ite
    | split
    | extract_lets
    | (dsimp +zetaDelta only; split)
    | (simp +zetaDelta [*]; done)

theorem State.streamStop_kept {s : State} {n : Nat} {stream : Nat} (kports : l .ports = true) (h : Kept l o s) :
    Kept l o (State.streamStop n stream s) := by
  unfold State.streamStop
  repeat' first
    | with_reducible assumption
    | exact fun hw => hw
    | intro _
    | with_reducible apply State.onPortN_kept
    | with_reducible apply State.foldl_kept
    | exact ⟨Nat.le_refl _, fun hw => hw⟩
    | with_reducible apply Kept.ite
    | split
    | extract_lets
    | (dsimp +zetaDelta only; split)
    | (simp +zetaDelta [*]; done)

theorem State.answerFree_kept {s : State} {n : Nat} (kout : l .out = true) (kfree : l .free = true) (h : Kept l o s) :
    Kept l o (State.answerFree n s) := by
  unfold State.answerFree
  repeat' first
    | with_reducible assumption
    | exact fun hw => hw
    | intro _
    | with_reducible apply State.nextFree_kept
    | with_reducible apply State.emit_kept
    | with_reducible apply State.foldl_kept
    | exact ⟨Nat.le_refl _, fun hw => hw⟩
    | with_reducible apply Kept.ite
    | split
    | extract_lets
    | (dsimp +zetaDelta only; split)
    | (simp +zetaDelta [*]; done)

theorem execIdeKmRequest_kept {s : State} {p : PortId} {r : IdeReq} (kports : l .ports = true) (kout : l .out = true) (kfree : l .free = true) (h : Kept l o s) {t : State} (e : execIdeKmRequest p r s = .next t) :
    Kept l o t := by
  cases e
  repeat' first
    | with_reducible assumption
    | exact fun hw => hw
    | intro _
    | with_reducible apply State.whenServing_kept
    | with_reducible apply State.putKey_kept
    | with_reducible apply State.streamGo_kept
    | with_reducible apply State.streamStop_kept
    | with_reducible apply State.answerFree_kept
    | with_reducible apply State.foldl_kept
    | exact ⟨Nat.le_refl _, fun hw => hw⟩
    | with_reducible apply Kept.ite
    | split
    | extract_lets
    | (dsimp +zetaDelta only; split)
    | (simp +zetaDelta [*]; done)

theorem State.writeMsix_kept {s : State} {n : Nat} {vec : Nat} {addr : Nat} {data : Nat} {mask : Bool} (khost : l .host = true) (kout : l .out = true) (h : Kept l o s) :
    Kept l o (State.writeMsix n vec addr data mask s) := by
  unfold State.writeMsix
  repeat' first
    | with_reducible assumption
    | exact fun hw => hw
    | intro _
    | with_reducible apply State.onHost_kept
    | with_reducible apply State.emit_kept
    | with_reducible apply State.foldl_kept
    | exact ⟨Nat.le_refl _, fun hw => hw⟩
    | with_reducible apply Kept.ite
    | split
    | extract_lets
    | (dsimp +zetaDelta only; split)
    | (simp +zetaDelta [*]; done)
    | (simp only [HostIf.wf] at *; simp +zetaDelta [*]; done)

theorem State.onBridge_kept {s : State} {n : Nat} {ds : Nat} {ld : Nat} {f : State → State} (kout : l .out = true) (fK : ∀ x, Kept l o x → Kept l o (f x)) (h : Kept l o s) :
    Kept l o (State.onBridge n ds ld f s) := by
  unfold State.onBridge
  repeat' first
    | with_reducible assumption
    | exact fun hw => hw
    | intro _
    | with_reducible apply fK
    | with_reducible apply State.emit_kept
    | with_reducible apply State.foldl_kept
    | exact ⟨Nat.le_refl _, fun hw => hw⟩
    | with_reducible apply Kept.ite
    | split
    | extract_lets
    | (dsimp +zetaDelta only; split)
    | (simp +zetaDelta [*]; done)

theorem execConfigRequest_kept {s : State} {p : PortId} {r : CfgReq} (khost : l .host = true) (kout : l .out = true) (kfree : l .free = true) (h : Kept l o s) {t : State} (e : execConfigRequest p r s = .next t) :
    Kept l o t := by
  cases e
  repeat' first
    | with_reducible assumption
    | exact fun hw => hw
    | intro _
    | with_reducible apply State.nextFree_kept
    | with_reducible apply State.emit_kept
    | with_reducible apply State.onBridge_kept
    | with_reducible apply State.answerFree_kept
    | with_reducible apply State.onHost_kept
    | with_reducible apply State.writeMsix_kept
    | with_reducible apply State.foldl_kept
    | exact ⟨Nat.le_refl _, fun hw => hw⟩
    | with_reducible apply Kept.ite
    | split
    | extract_lets
    | (dsimp +zetaDelta only; split)
    | (simp +zetaDelta [*]; done)
    | (simp only [HostIf.wf] at *; simp +zetaDelta [*]; done)

/-! ### Machine/RecOps.lean -/

theorem State.sinkLine_kept {s : State} {w : List Nat} (krecorder : l .recorder = true) (kout : l .out = true) (h : Kept l o s) :
    Kept l o (State.sinkLine w s) := by
  unfold State.sinkLine
  repeat' first
    | with_reducible assumption
    | exact fun hw => hw
    | intro _
    | with_reducible apply State.onRec_kept
    | with_reducible apply State.emit_kept
    | with_reducible apply State.foldl_kept
    | exact ⟨Nat.le_refl _, fun hw => hw⟩
    | with_reducible apply Kept.ite
    | split
    | extract_lets
    | (dsimp +zetaDelta only; split)
    | (simp +zetaDelta [*]; done)
    | (simp only [Rec.wf] at *; simp +zetaDelta [*]; done)

theorem State.toSink_kept {s : State} {w : List Nat} (krecorder : l .recorder = true) (kout : l .out = true) (h : Kept l o s) :
    Kept l o (State.toSink w s) := by
  unfold State.toSink
  repeat' first
    | with_reducible assumption
    | exact fun hw => hw
    | intro _
    | with_reducible apply State.forAll_kept
    | with_reducible apply State.sinkLine_kept
    | with_reducible apply State.foldl_kept
    | exact ⟨Nat.le_refl _, fun hw => hw⟩
    | with_reducible apply Kept.ite
    | split
    | extract_lets
    | (dsimp +zetaDelta only; split)
    | (simp +zetaDelta [*]; done)
    | (simp only [Rec.wf] at *; simp +zetaDelta [*]; done)

theorem State.spillAll_kept {s : State} (krecorder : l .recorder = true) (kout : l .out = true) (h : Kept l o s) :
    Kept l o (State.spillAll s) := by
  unfold State.spillAll
  repeat' first
    | with_reducible assumption
    | exact fun hw => hw
    | intro _
    | with_reducible apply State.onRec_kept
    | with_reducible apply State.toSink_kept
    | with_reducible apply State.foldl_kept
    | exact ⟨Nat.le_refl _, fun hw => hw⟩
    | with_reducible apply Kept.ite
    | split
    | extract_lets
    | (dsimp +zetaDelta only; split)
    | (simp +zetaDelta [*]; done)
    | (simp only [Rec.wf] at *; simp +zetaDelta [*]; done)

theorem State.closeEpoch_kept {s : State} (krecorder : l .recorder = true) (h : Kept l o s) :
    Kept l o (State.closeEpoch s) := by
  unfold State.closeEpoch
  refine Kept.ite (fun _ => State.onRec_kept krecorder (fun hw => ?_) h) (fun _ => h)
  have hc := Rec.closeChunk_wf (r := s.rec_) s.pit.tick true s.rec_.chunk hw
  exact ⟨hc.1, hc.2⟩

theorem State.pushGap_kept {s : State} (krecorder : l .recorder = true) (h : Kept l o s) :
    Kept l o (State.pushGap s) := by
  unfold State.pushGap
  repeat' first
    | with_reducible assumption
    | exact fun hw => hw
    | intro _
    | with_reducible apply State.onRec_kept
    | with_reducible apply State.foldl_kept
    | exact ⟨Nat.le_refl _, fun hw => hw⟩
    | with_reducible apply Kept.ite
    | split
    | extract_lets
    | (dsimp +zetaDelta only; split)
    | (simp +zetaDelta [*]; done)
    | (simp only [Rec.wf] at *; simp +zetaDelta [*]; done)

theorem State.endSpan_kept {s : State} (kregs : l .regs = true) (krecorder : l .recorder = true) (h : Kept l o s) :
    Kept l o (State.endSpan s) := by
  unfold State.endSpan
  refine State.onRec_kept krecorder (fun hw => ⟨rfl, hw.2⟩) ?_
  exact State.forAll_kept (fun _ _ k => State.capture_kept kregs krecorder k) h


theorem State.lastSpan_kept {s : State} (kregs : l .regs = true) (krecorder : l .recorder = true) (h : Kept l o s) :
    Kept l o (State.lastSpan s) := by
  unfold State.lastSpan
  repeat' first
    | with_reducible assumption
    | exact fun hw => hw
    | intro _
    | with_reducible apply State.endSpan_kept
    | with_reducible apply State.foldl_kept
    | exact ⟨Nat.le_refl _, fun hw => hw⟩
    | with_reducible apply Kept.ite
    | split
    | extract_lets
    | (dsimp +zetaDelta only; split)
    | (simp +zetaDelta [*]; done)
    | (simp only [Rec.wf] at *; simp +zetaDelta [*]; done)

theorem State.recClose_kept {s : State} {cause : Nat} (kregs : l .regs = true) (khost : l .host = true) (kflt : l .flt = true) (krecorder : l .recorder = true) (kimg : l .img = true) (kout : l .out = true) (kfree : l .free = true) (h : Kept l o s) :
    Kept l o (State.recClose cause s) := by
  unfold State.recClose
  repeat' first
    | with_reducible assumption
    | exact fun hw => hw
    | intro _
    | with_reducible apply State.spillAll_kept
    | with_reducible apply State.closeEpoch_kept
    | with_reducible apply State.lastSpan_kept
    | with_reducible apply State.toSink_kept
    | with_reducible apply State.onRec_kept
    | with_reducible apply State.done_kept
    | with_reducible apply State.foldl_kept
    | exact ⟨Nat.le_refl _, fun hw => hw⟩
    | with_reducible apply Kept.ite
    | split
    | extract_lets
    | (dsimp +zetaDelta only; split)
    | (simp +zetaDelta [*]; done)
    | (simp only [HostIf.wf, Flt.wf, Rec.wf] at *; simp +zetaDelta [*]; done)

theorem State.recCloseGap_kept {s : State} {cause : Nat} (kregs : l .regs = true) (khost : l .host = true) (kflt : l .flt = true) (krecorder : l .recorder = true) (kimg : l .img = true) (kout : l .out = true) (kfree : l .free = true) (h : Kept l o s) :
    Kept l o (State.recCloseGap cause s) := by
  unfold State.recCloseGap
  repeat' first
    | with_reducible assumption
    | exact fun hw => hw
    | intro _
    | with_reducible apply State.closeEpoch_kept
    | with_reducible apply State.lastSpan_kept
    | with_reducible apply State.recClose_kept
    | with_reducible apply State.pushGap_kept
    | with_reducible apply State.beginGap_kept
    | with_reducible apply State.foldl_kept
    | exact ⟨Nat.le_refl _, fun hw => hw⟩
    | with_reducible apply Kept.ite
    | split
    | extract_lets
    | (dsimp +zetaDelta only; split)
    | (simp +zetaDelta [*]; done)
    | (simp only [HostIf.wf, Flt.wf, Rec.wf] at *; simp +zetaDelta [*]; done)

theorem State.cuFail_kept {s : State} {u : Nat} {cause : Nat} (kregs : l .regs = true) (ksys : l .sys = true) (khost : l .host = true) (kflt : l .flt = true) (keng : l .eng = true) (kports : l .ports = true) (ktool : l .tool = true) (kfab : l .fab = true) (ktabs : l .tabs = true) (khome : l .home = true) (kbel : l .bel = true) (krecorder : l .recorder = true) (kimg : l .img = true) (kout : l .out = true) (kfree : l .free = true) (h : Kept l o s) :
    Kept l o (State.cuFail u cause s) := by
  unfold State.cuFail
  repeat' first
    | with_reducible assumption
    | exact fun hw => hw
    | intro _
    | with_reducible apply State.fault_kept
    | with_reducible apply State.wr_kept
    | with_reducible apply State.onPortN_kept
    | with_reducible apply State.declareDown_kept
    | with_reducible apply State.enterOff_kept
    | with_reducible apply State.unpower_kept
    | with_reducible apply State.failEngine_kept
    | with_reducible apply State.recCloseGap_kept
    | with_reducible apply State.foldl_kept
    | exact ⟨Nat.le_refl _, fun hw => hw⟩
    | with_reducible apply Kept.ite
    | split
    | extract_lets
    | (dsimp +zetaDelta only; split)
    | (simp +zetaDelta [*]; done)
    | (simp only [Sys.wf, HostIf.wf, Flt.wf, Eng.wf, Tool.wf, Fab.wf, Tabs.wf, Home.wf, Bel.wf, Rec.wf] at *; simp +zetaDelta [*]; done)

/-! ### Machine/Fabric.lean -/

theorem State.took_kept {s : State} {m : InMsg} (kports : l .ports = true) (h : Kept l o s) :
    Kept l o (State.took m s) := by
  unfold State.took
  repeat' first
    | with_reducible assumption
    | exact fun hw => hw
    | intro _
    | with_reducible apply State.onPortN_kept
    | with_reducible apply State.foldl_kept
    | exact ⟨Nat.le_refl _, fun hw => hw⟩
    | with_reducible apply Kept.ite
    | split
    | extract_lets
    | (dsimp +zetaDelta only; split)
    | (simp +zetaDelta [*]; done)

theorem State.tookAnswer_kept {s : State} {m : InMsg} {t1 : Nat} (kports : l .ports = true) (h : Kept l o s) :
    Kept l o (State.tookAnswer m t1 s) := by
  unfold State.tookAnswer
  repeat' first
    | with_reducible assumption
    | exact fun hw => hw
    | intro _
    | with_reducible apply State.onPortN_kept
    | with_reducible apply State.foldl_kept
    | exact ⟨Nat.le_refl _, fun hw => hw⟩
    | with_reducible apply Kept.ite
    | split
    | extract_lets
    | (dsimp +zetaDelta only; split)
    | (simp +zetaDelta [*]; done)

theorem State.turnAway_kept {s : State} {m : InMsg} {e : Ending} (kregs : l .regs = true) (khost : l .host = true) (kflt : l .flt = true) (kports : l .ports = true) (kfab : l .fab = true) (kimg : l .img = true) (kout : l .out = true) (kfree : l .free = true) (h : Kept l o s) :
    Kept l o (State.turnAway m e s) := by
  unfold State.turnAway
  repeat' first
    | with_reducible assumption
    | exact fun hw => hw
    | intro _
    | with_reducible apply State.reply_kept
    | with_reducible apply State.foldl_kept
    | exact ⟨Nat.le_refl _, fun hw => hw⟩
    | with_reducible apply Kept.ite
    | split
    | extract_lets
    | (dsimp +zetaDelta only; split)
    | (simp +zetaDelta [*]; done)
    | (simp only [HostIf.wf, Flt.wf, Fab.wf] at *; simp +zetaDelta [*]; done)

theorem State.awayDown_kept {s : State} {m : InMsg} {d : Nat} (kregs : l .regs = true) (khost : l .host = true) (kflt : l .flt = true) (kports : l .ports = true) (kfab : l .fab = true) (kimg : l .img = true) (kout : l .out = true) (kfree : l .free = true) (h : Kept l o s) :
    Kept l o (State.awayDown m d s) := by
  unfold State.awayDown
  repeat' first
    | with_reducible assumption
    | exact fun hw => hw
    | intro _
    | with_reducible apply State.bump_kept
    | with_reducible apply State.turnAway_kept
    | with_reducible apply State.fc2_kept
    | with_reducible apply State.foldl_kept
    | exact ⟨Nat.le_refl _, fun hw => hw⟩
    | with_reducible apply Kept.ite
    | split
    | extract_lets
    | (dsimp +zetaDelta only; split)
    | (simp +zetaDelta [*]; done)
    | (simp only [HostIf.wf, Flt.wf, Fab.wf] at *; simp +zetaDelta [*]; done)

theorem State.engineRefused_kept {s : State} {e : EngineId} {tag : Nat} {addr : Nat} (kregs : l .regs = true) (khost : l .host = true) (kflt : l .flt = true) (keng : l .eng = true) (kfab : l .fab = true) (krecorder : l .recorder = true) (kimg : l .img = true) (kout : l .out = true) (kfree : l .free = true) (h : Kept l o s) :
    Kept l o (State.engineRefused e tag addr s) := by
  unfold State.engineRefused
  repeat' first
    | with_reducible assumption
    | exact fun hw => hw
    | intro _
    | with_reducible apply State.settleAccs_kept
    | with_reducible apply State.settleEngine_kept
    | with_reducible apply State.refusedReq_kept
    | with_reducible apply State.popReq_kept
    | with_reducible apply State.foldl_kept
    | exact ⟨Nat.le_refl _, fun hw => hw⟩
    | with_reducible apply Kept.ite
    | split
    | extract_lets
    | (dsimp +zetaDelta only; split)
    | (simp +zetaDelta [*]; done)
    | (simp only [HostIf.wf, Flt.wf, Eng.wf, Fab.wf, Rec.wf] at *; simp +zetaDelta [*]; done)

theorem State.missed_kept {s : State} {m : InMsg} {d : Nat} (kregs : l .regs = true) (khost : l .host = true) (kflt : l .flt = true) (keng : l .eng = true) (kports : l .ports = true) (kfab : l .fab = true) (krecorder : l .recorder = true) (kimg : l .img = true) (kout : l .out = true) (kfree : l .free = true) (h : Kept l o s) :
    Kept l o (State.missed m d s) := by
  unfold State.missed
  repeat' first
    | with_reducible assumption
    | exact fun hw => hw
    | intro _
    | with_reducible apply State.countMiss_kept
    | with_reducible apply State.engineRefused_kept
    | with_reducible apply State.fc2_kept
    | with_reducible apply State.aer_kept
    | with_reducible apply State.turnAway_kept
    | with_reducible apply State.reply_kept
    | with_reducible apply State.foldl_kept
    | exact ⟨Nat.le_refl _, fun hw => hw⟩
    | with_reducible apply Kept.ite
    | split
    | extract_lets
    | (dsimp +zetaDelta only; split)
    | (simp +zetaDelta [*]; done)
    | (simp only [HostIf.wf, Flt.wf, Eng.wf, Fab.wf, Rec.wf] at *; simp +zetaDelta [*]; done)

theorem State.sc0Begin_kept {s : State} {m : InMsg} {w : Nat} {x : Counted} (kregs : l .regs = true) (khost : l .host = true) (kflt : l .flt = true) (kfab : l .fab = true) (kimg : l .img = true) (kout : l .out = true) (kfree : l .free = true) (h : Kept l o s) :
    Kept l o (State.sc0Begin m w x s) := by
  unfold State.sc0Begin
  repeat' first
    | with_reducible assumption
    | exact fun hw => hw
    | intro _
    | with_reducible apply State.onFab_kept
    | with_reducible apply State.count_kept
    | with_reducible apply State.foldl_kept
    | exact ⟨Nat.le_refl _, fun hw => hw⟩
    | with_reducible apply Kept.ite
    | split
    | extract_lets
    | (dsimp +zetaDelta only; split)
    | (simp +zetaDelta [*]; done)
    | (simp only [HostIf.wf, Flt.wf, Fab.wf] at *; simp +zetaDelta [*]; done)

theorem State.captureHead_kept {s : State} {kind : Nat} {unit : Nat} {m : Msg} (kregs : l .regs = true) (krecorder : l .recorder = true) (h : Kept l o s) :
    Kept l o (State.captureHead kind unit m s) := by
  unfold State.captureHead
  repeat' first
    | with_reducible assumption
    | exact fun hw => hw
    | intro _
    | with_reducible apply State.capture_kept
    | with_reducible apply State.foldl_kept
    | exact ⟨Nat.le_refl _, fun hw => hw⟩
    | with_reducible apply Kept.ite
    | split
    | extract_lets
    | (dsimp +zetaDelta only; split)
    | (simp +zetaDelta [*]; done)
    | (simp only [Rec.wf] at *; simp +zetaDelta [*]; done)

theorem State.captureTail_kept {s : State} {unit : Nat} {m : Msg} (kregs : l .regs = true) (krecorder : l .recorder = true) (h : Kept l o s) :
    Kept l o (State.captureTail unit m s) := by
  unfold State.captureTail
  repeat' first
    | with_reducible assumption
    | exact fun hw => hw
    | intro _
    | with_reducible apply State.capture_kept
    | with_reducible apply State.foldl_kept
    | exact ⟨Nat.le_refl _, fun hw => hw⟩
    | with_reducible apply Kept.ite
    | split
    | extract_lets
    | (dsimp +zetaDelta only; split)
    | (simp +zetaDelta [*]; done)
    | (simp only [Rec.wf] at *; simp +zetaDelta [*]; done)

theorem State.enterMsg_kept {s : State} {x : Msg} (kregs : l .regs = true) (kfab : l .fab = true) (ktabs : l .tabs = true) (h : Kept l o s) :
    Kept l o (State.enterMsg x s) := by
  unfold State.enterMsg
  repeat' first
    | with_reducible assumption
    | exact fun hw => hw
    | intro _
    | with_reducible apply State.ledgerAdd_kept
    | with_reducible apply State.onFab_kept
    | with_reducible apply State.stampSeq_kept
    | with_reducible apply State.chargeBuckets_kept
    | with_reducible apply State.countNc_kept
    | with_reducible apply State.bump_kept
    | with_reducible apply State.foldl_kept
    | exact ⟨Nat.le_refl _, fun hw => hw⟩
    | with_reducible apply Kept.ite
    | split
    | extract_lets
    | (dsimp +zetaDelta only; split)
    | (simp +zetaDelta [*]; done)
    | (simp only [Fab.wf, Tabs.wf] at *; simp +zetaDelta [*]; done)

theorem State.acceptCounts_kept {s : State} {x : Msg} (kregs : l .regs = true) (khost : l .host = true) (kflt : l .flt = true) (kbel : l .bel = true) (krecorder : l .recorder = true) (kimg : l .img = true) (kout : l .out = true) (kfree : l .free = true) (h : Kept l o s) :
    Kept l o (State.acceptCounts x s) := by
  unfold State.acceptCounts
  repeat' first
    | with_reducible assumption
    | exact fun hw => hw
    | intro _
    | with_reducible apply State.count_kept
    | with_reducible apply State.onBel_kept
    | with_reducible apply State.countRx_kept
    | with_reducible apply State.captureHead_kept
    | with_reducible apply State.captureTail_kept
    | with_reducible apply State.foldl_kept
    | exact ⟨Nat.le_refl _, fun hw => hw⟩
    | with_reducible apply Kept.ite
    | split
    | extract_lets
    | (dsimp +zetaDelta only; split)
    | (simp +zetaDelta [*]; done)
    | (simp only [HostIf.wf, Flt.wf, Bel.wf, Rec.wf] at *; simp +zetaDelta [*]; done)

theorem State.forward_kept {s : State} {m : InMsg} {r : Route} {d : Nat} {addr : Nat} {off : Nat} {bytes : Nat} {group : Nat} {win : Option Nat} (kregs : l .regs = true) (khost : l .host = true) (kflt : l .flt = true) (kports : l .ports = true) (kfab : l .fab = true) (ktabs : l .tabs = true) (kbel : l .bel = true) (krecorder : l .recorder = true) (kimg : l .img = true) (kout : l .out = true) (kfree : l .free = true) (h : Kept l o s) :
    Kept l o (State.forward m r d addr off bytes group win s) := by
  unfold State.forward
  repeat' first
    | with_reducible assumption
    | exact fun hw => hw
    | intro _
    | with_reducible apply State.acceptCounts_kept
    | with_reducible apply State.awayDown_kept
    | with_reducible apply State.turnAway_kept
    | with_reducible apply State.sc0Begin_kept
    | with_reducible apply State.noteRdy_kept
    | with_reducible apply State.enterMsg_kept
    | with_reducible apply State.foldl_kept
    | exact ⟨Nat.le_refl _, fun hw => hw⟩
    | with_reducible apply Kept.ite
    | split
    | extract_lets
    | (dsimp +zetaDelta only; split)
    | (simp +zetaDelta [*]; done)
    | (simp only [HostIf.wf, Flt.wf, Fab.wf, Tabs.wf, Bel.wf, Rec.wf] at *; simp +zetaDelta [*]; done)

theorem State.noteDemoted_kept {s t1 : State} {m : InMsg} {r : Route} {d : Nat} {win : Option Nat} (kregs : l .regs = true) (khost : l .host = true) (kflt : l .flt = true) (kimg : l .img = true) (kout : l .out = true) (kfree : l .free = true) (h : Kept l o t1) :
    Kept l o (State.noteDemoted m r d win s t1) := by
  unfold State.noteDemoted
  repeat' first
    | with_reducible assumption
    | exact fun hw => hw
    | intro _
    | with_reducible apply State.count_kept
    | with_reducible apply State.bump_kept
    | with_reducible apply State.foldl_kept
    | exact ⟨Nat.le_refl _, fun hw => hw⟩
    | with_reducible apply Kept.ite
    | split
    | extract_lets
    | (dsimp +zetaDelta only; split)
    | (simp +zetaDelta [*]; done)
    | (simp only [HostIf.wf, Flt.wf] at *; simp +zetaDelta [*]; done)

theorem State.forwardWhole_kept {s : State} {m : InMsg} {r : Route} {d : Nat} (kregs : l .regs = true) (khost : l .host = true) (kflt : l .flt = true) (kports : l .ports = true) (kfab : l .fab = true) (ktabs : l .tabs = true) (kbel : l .bel = true) (krecorder : l .recorder = true) (kimg : l .img = true) (kout : l .out = true) (kfree : l .free = true) (h : Kept l o s) :
    Kept l o (State.forwardWhole m r d s) := by
  unfold State.forwardWhole
  repeat' first
    | with_reducible assumption
    | exact fun hw => hw
    | intro _
    | with_reducible apply State.noteDemoted_kept
    | with_reducible apply State.forward_kept
    | with_reducible apply State.tookAnswer_kept
    | with_reducible apply State.foldl_kept
    | exact ⟨Nat.le_refl _, fun hw => hw⟩
    | with_reducible apply Kept.ite
    | split
    | extract_lets
    | (dsimp +zetaDelta only; split)
    | (simp +zetaDelta [*]; done)
    | (simp only [HostIf.wf, Flt.wf, Fab.wf, Tabs.wf, Bel.wf, Rec.wf] at *; simp +zetaDelta [*]; done)

theorem State.joinEngine_kept {s : State} {e : EngineId} {tag : Nat} {kind : Nat} {ds : List (Nat × Decision)} (keng : l .eng = true) (h : Kept l o s) :
    Kept l o (State.joinEngine e tag kind ds s) := by
  unfold State.joinEngine
  repeat' first
    | with_reducible assumption
    | exact fun hw => hw
    | intro _
    | with_reducible apply State.onItem_kept
    | with_reducible apply State.foldl_kept
    | exact ⟨Nat.le_refl _, fun hw => hw⟩
    | with_reducible apply Kept.ite
    | split
    | extract_lets
    | (dsimp +zetaDelta only; split)
    | (simp +zetaDelta [*]; done)
    | (simp only [Eng.wf] at *; simp +zetaDelta [*]; done)

theorem State.forwardPart_kept {s : State} {m : InMsg} {r : Route} {d : Nat} {group : Nat} {win : Option Nat} {a : Nat} (kregs : l .regs = true) (khost : l .host = true) (kflt : l .flt = true) (kports : l .ports = true) (kfab : l .fab = true) (ktabs : l .tabs = true) (kbel : l .bel = true) (krecorder : l .recorder = true) (kimg : l .img = true) (kout : l .out = true) (kfree : l .free = true) (h : Kept l o s) :
    Kept l o (State.forwardPart m r d group win a s) := by
  unfold State.forwardPart
  repeat' first
    | with_reducible assumption
    | exact fun hw => hw
    | intro _
    | with_reducible apply State.forward_kept
    | with_reducible apply State.turnAway_kept
    | with_reducible apply State.foldl_kept
    | exact ⟨Nat.le_refl _, fun hw => hw⟩
    | with_reducible apply Kept.ite
    | split
    | extract_lets
    | (dsimp +zetaDelta only; split)
    | (simp +zetaDelta [*]; done)
    | (simp only [HostIf.wf, Flt.wf, Fab.wf, Tabs.wf, Bel.wf, Rec.wf] at *; simp +zetaDelta [*]; done)

theorem State.forwardParts_kept {s : State} {m : InMsg} {r : Route} {d : Nat} {ds : List (Nat × Decision)} (kregs : l .regs = true) (khost : l .host = true) (kflt : l .flt = true) (keng : l .eng = true) (kports : l .ports = true) (kfab : l .fab = true) (ktabs : l .tabs = true) (kbel : l .bel = true) (krecorder : l .recorder = true) (kimg : l .img = true) (kout : l .out = true) (kfree : l .free = true) (h : Kept l o s) :
    Kept l o (State.forwardParts m r d ds s) := by
  unfold State.forwardParts
  repeat' first
    | with_reducible assumption
    | exact fun hw => hw
    | intro _
    | with_reducible apply State.turnAway_kept
    | with_reducible apply State.onFab_kept
    | with_reducible apply State.noteDemoted_kept
    | with_reducible apply State.forAll_kept
    | with_reducible apply State.forwardPart_kept
    | with_reducible apply State.forwardWhole_kept
    | with_reducible apply State.engineRefused_kept
    | with_reducible apply State.foldl_kept
    | exact ⟨Nat.le_refl _, fun hw => hw⟩
    | with_reducible apply Kept.ite
    | split
    | extract_lets
    | (dsimp +zetaDelta only; split)
    | (simp +zetaDelta [*]; done)
    | (simp only [HostIf.wf, Flt.wf, Eng.wf, Fab.wf, Tabs.wf, Bel.wf, Rec.wf] at *; simp +zetaDelta [*]; done)

theorem State.checked_kept {s : State} {m : InMsg} {r : Route} {d : Nat} {need : Need} (kregs : l .regs = true) (ksys : l .sys = true) (khost : l .host = true) (kflt : l .flt = true) (keng : l .eng = true) (kports : l .ports = true) (ktool : l .tool = true) (kfab : l .fab = true) (ktabs : l .tabs = true) (khome : l .home = true) (kbel : l .bel = true) (krecorder : l .recorder = true) (kimg : l .img = true) (kout : l .out = true) (kfree : l .free = true) (h : Kept l o s) :
    Kept l o (State.checked m r d need s) := by
  unfold State.checked
  repeat' first
    | with_reducible assumption
    | exact fun hw => hw
    | intro _
    | with_reducible apply State.turnAway_kept
    | with_reducible apply State.countParts_kept
    | with_reducible apply State.settleAccs_kept
    | with_reducible apply State.joinEngine_kept
    | with_reducible apply State.reportAcc_kept
    | with_reducible apply State.forwardParts_kept
    | with_reducible apply State.cuFail_kept
    | with_reducible apply State.foldl_kept
    | exact ⟨Nat.le_refl _, fun hw => hw⟩
    | with_reducible apply Kept.ite
    | split
    | extract_lets
    | (dsimp +zetaDelta only; split)
    | (simp +zetaDelta [*]; done)
    | (simp only [Sys.wf, HostIf.wf, Flt.wf, Eng.wf, Tool.wf, Fab.wf, Tabs.wf, Home.wf, Bel.wf, Rec.wf] at *; simp +zetaDelta [*]; done)

theorem State.routed_kept {s : State} {m : InMsg} {r : Route} (kregs : l .regs = true) (ksys : l .sys = true) (khost : l .host = true) (kflt : l .flt = true) (keng : l .eng = true) (kports : l .ports = true) (ktool : l .tool = true) (kfab : l .fab = true) (ktabs : l .tabs = true) (khome : l .home = true) (kbel : l .bel = true) (krecorder : l .recorder = true) (kimg : l .img = true) (kout : l .out = true) (kfree : l .free = true) (h : Kept l o s) :
    Kept l o (State.routed m r s) := by
  unfold State.routed
  repeat' first
    | with_reducible assumption
    | exact fun hw => hw
    | intro _
    | with_reducible apply State.missed_kept
    | with_reducible apply State.forwardWhole_kept
    | with_reducible apply State.checked_kept
    | with_reducible apply State.foldl_kept
    | exact ⟨Nat.le_refl _, fun hw => hw⟩
    | with_reducible apply Kept.ite
    | split
    | extract_lets
    | (dsimp +zetaDelta only; split)
    | (simp +zetaDelta [*]; done)
    | (simp only [Sys.wf, HostIf.wf, Flt.wf, Eng.wf, Tool.wf, Fab.wf, Tabs.wf, Home.wf, Bel.wf, Rec.wf] at *; simp +zetaDelta [*]; done)

theorem State.clusterServed_kept {s : State} {src : Src} (kfab : l .fab = true) (h : Kept l o s) :
    Kept l o (State.clusterServed src s) := by
  unfold State.clusterServed
  repeat' first
    | with_reducible assumption
    | exact fun hw => hw
    | intro _
    | with_reducible apply State.onFab_kept
    | with_reducible apply State.foldl_kept
    | exact ⟨Nat.le_refl _, fun hw => hw⟩
    | with_reducible apply Kept.ite
    | split
    | extract_lets
    | (dsimp +zetaDelta only; split)
    | (simp +zetaDelta [*]; done)
    | (simp only [Fab.wf] at *; simp +zetaDelta [*]; done)

theorem State.notEntered_kept {s t1 : State} {m : InMsg} (kports : l .ports = true) (kout : l .out = true) (h : Kept l o t1) :
    Kept l o (State.notEntered m s t1) := by
  unfold State.notEntered
  repeat' first
    | with_reducible assumption
    | exact fun hw => hw
    | intro _
    | with_reducible apply State.giveBack_kept
    | with_reducible apply State.foldl_kept
    | exact ⟨Nat.le_refl _, fun hw => hw⟩
    | with_reducible apply Kept.ite
    | split
    | extract_lets
    | (dsimp +zetaDelta only; split)
    | (simp +zetaDelta [*]; done)

theorem State.malformed_kept {s : State} {m : InMsg} (kports : l .ports = true) (h : Kept l o s) :
    Kept l o (State.malformed m s) := by
  unfold State.malformed
  repeat' first
    | with_reducible assumption
    | exact fun hw => hw
    | intro _
    | with_reducible apply State.aer_kept
    | with_reducible apply State.foldl_kept
    | exact ⟨Nat.le_refl _, fun hw => hw⟩
    | with_reducible apply Kept.ite
    | split
    | extract_lets
    | (dsimp +zetaDelta only; split)
    | (simp +zetaDelta [*]; done)

theorem State.answerSafe_kept {s : State} {m : InMsg} (kregs : l .regs = true) (khost : l .host = true) (kflt : l .flt = true) (kports : l .ports = true) (kfab : l .fab = true) (kimg : l .img = true) (kout : l .out = true) (kfree : l .free = true) (h : Kept l o s) :
    Kept l o (State.answerSafe m s) := by
  unfold State.answerSafe
  repeat' first
    | with_reducible assumption
    | exact fun hw => hw
    | intro _
    | with_reducible apply State.awayDown_kept
    | with_reducible apply State.foldl_kept
    | exact ⟨Nat.le_refl _, fun hw => hw⟩
    | with_reducible apply Kept.ite
    | split
    | extract_lets
    | (dsimp +zetaDelta only; split)
    | (simp +zetaDelta [*]; done)
    | (simp only [HostIf.wf, Flt.wf, Fab.wf] at *; simp +zetaDelta [*]; done)

theorem State.takeIn_kept {s : State} {m : InMsg} (kregs : l .regs = true) (ksys : l .sys = true) (khost : l .host = true) (kflt : l .flt = true) (keng : l .eng = true) (kports : l .ports = true) (ktool : l .tool = true) (kfab : l .fab = true) (ktabs : l .tabs = true) (khome : l .home = true) (kbel : l .bel = true) (krecorder : l .recorder = true) (kimg : l .img = true) (kout : l .out = true) (kfree : l .free = true) (h : Kept l o s) :
    Kept l o (State.takeIn m s) := by
  unfold State.takeIn
  repeat' first
    | with_reducible assumption
    | exact fun hw => hw
    | intro _
    | with_reducible apply State.notEntered_kept
    | with_reducible apply State.malformed_kept
    | with_reducible apply State.clusterServed_kept
    | with_reducible apply State.took_kept
    | with_reducible apply State.answerSafe_kept
    | with_reducible apply State.missed_kept
    | with_reducible apply State.routed_kept
    | with_reducible apply State.onFab_kept
    | with_reducible apply State.foldl_kept
    | exact ⟨Nat.le_refl _, fun hw => hw⟩
    | with_reducible apply Kept.ite
    | split
    | extract_lets
    | (dsimp +zetaDelta only; split)
    | (simp +zetaDelta [*]; done)
    | (simp only [Sys.wf, HostIf.wf, Flt.wf, Eng.wf, Tool.wf, Fab.wf, Tabs.wf, Home.wf, Bel.wf, Rec.wf] at *; simp +zetaDelta [*]; done)

theorem execMessageIngress_kept {s : State} {m : InMsg} (kregs : l .regs = true) (ksys : l .sys = true) (khost : l .host = true) (kflt : l .flt = true) (keng : l .eng = true) (kports : l .ports = true) (ktool : l .tool = true) (kfab : l .fab = true) (ktabs : l .tabs = true) (khome : l .home = true) (kbel : l .bel = true) (krecorder : l .recorder = true) (kimg : l .img = true) (kout : l .out = true) (kfree : l .free = true) (h : Kept l o s) {t : State} (e : execMessageIngress m s = .next t) :
    Kept l o t := by
  cases e
  repeat' first
    | with_reducible assumption
    | exact fun hw => hw
    | intro _
    | with_reducible apply State.takeIn_kept
    | with_reducible apply State.foldl_kept
    | exact ⟨Nat.le_refl _, fun hw => hw⟩
    | with_reducible apply Kept.ite
    | split
    | extract_lets
    | (dsimp +zetaDelta only; split)
    | (simp +zetaDelta [*]; done)
    | (simp only [Sys.wf, HostIf.wf, Flt.wf, Eng.wf, Tool.wf, Fab.wf, Tabs.wf, Home.wf, Bel.wf, Rec.wf] at *; simp +zetaDelta [*]; done)

theorem execIngressHoldRelease_kept {s : State} {id : Nat} (kregs : l .regs = true) (khost : l .host = true) (kflt : l .flt = true) (kports : l .ports = true) (kfab : l .fab = true) (ktabs : l .tabs = true) (krecorder : l .recorder = true) (kimg : l .img = true) (kout : l .out = true) (kfree : l .free = true) (h : Kept l o s) {t : State} (e : execIngressHoldRelease id s = .next t) :
    Kept l o t := by
  cases e
  repeat' first
    | with_reducible assumption
    | exact fun hw => hw
    | intro _
    | with_reducible apply State.chargeBuckets_kept
    | with_reducible apply State.takeOff_kept
    | with_reducible apply State.flushResult_kept
    | with_reducible apply State.noteRdy_kept
    | with_reducible apply State.stampSeq_kept
    | with_reducible apply State.foldl_kept
    | exact ⟨Nat.le_refl _, fun hw => hw⟩
    | with_reducible apply Kept.ite
    | split
    | extract_lets
    | (dsimp +zetaDelta only; split)
    | (simp +zetaDelta [*]; done)
    | (simp only [HostIf.wf, Flt.wf, Fab.wf, Tabs.wf, Rec.wf] at *; simp +zetaDelta [*]; done)

theorem State.genDrop_kept {s : State} {m : Msg} (kregs : l .regs = true) (khost : l .host = true) (kflt : l .flt = true) (kports : l .ports = true) (kfab : l .fab = true) (kimg : l .img = true) (kout : l .out = true) (kfree : l .free = true) (h : Kept l o s) :
    Kept l o (State.genDrop m s) := by
  unfold State.genDrop
  repeat' first
    | with_reducible assumption
    | exact fun hw => hw
    | intro _
    | with_reducible apply State.takeOff_kept
    | with_reducible apply State.flushResult_kept
    | with_reducible apply State.count_kept
    | with_reducible apply State.bump_kept
    | with_reducible apply State.foldl_kept
    | exact ⟨Nat.le_refl _, fun hw => hw⟩
    | with_reducible apply Kept.ite
    | split
    | extract_lets
    | (dsimp +zetaDelta only; split)
    | (simp +zetaDelta [*]; done)
    | (simp only [HostIf.wf, Flt.wf, Fab.wf] at *; simp +zetaDelta [*]; done)

theorem State.admitMsg_kept {s : State} {m : Msg} (kregs : l .regs = true) (khost : l .host = true) (kflt : l .flt = true) (kports : l .ports = true) (kfab : l .fab = true) (kbel : l .bel = true) (krecorder : l .recorder = true) (kimg : l .img = true) (kout : l .out = true) (kfree : l .free = true) (h : Kept l o s) :
    Kept l o (State.admitMsg m s) := by
  unfold State.admitMsg
  repeat' first
    | with_reducible assumption
    | exact fun hw => hw
    | intro _
    | with_reducible apply State.onColumnN_kept
    | with_reducible apply State.owedLeaves_kept
    | with_reducible apply State.leaveBuffer_kept
    | with_reducible apply State.settleRsv_kept
    | with_reducible apply State.onMsg_kept
    | with_reducible apply State.onFab_kept
    | with_reducible apply State.bump_kept
    | with_reducible apply State.count_kept
    | with_reducible apply State.spend_kept
    | with_reducible apply State.captureHead_kept
    | with_reducible apply State.captureTail_kept
    | with_reducible apply State.foldl_kept
    | exact ⟨Nat.le_refl _, fun hw => hw⟩
    | with_reducible apply Kept.ite
    | split
    | extract_lets
    | (dsimp +zetaDelta only; split)
    | (simp +zetaDelta [*]; done)
    | (simp only [HostIf.wf, Flt.wf, Fab.wf, Bel.wf, Rec.wf] at *; simp +zetaDelta [*]; done)

theorem execColumnAdmit_kept {s : State} {ep : Endpoint} {input : Endpoint} {cls : Fin 8} (kregs : l .regs = true) (khost : l .host = true) (kflt : l .flt = true) (kports : l .ports = true) (kfab : l .fab = true) (kbel : l .bel = true) (krecorder : l .recorder = true) (kimg : l .img = true) (kout : l .out = true) (kfree : l .free = true) (h : Kept l o s) {t : State} (e : execColumnAdmit ep input cls s = .next t) :
    Kept l o t := by
  cases e
  repeat' first
    | with_reducible assumption
    | exact fun hw => hw
    | intro _
    | with_reducible apply State.bump_kept
    | with_reducible apply State.genDrop_kept
    | with_reducible apply State.noteRdy_kept
    | with_reducible apply State.admitMsg_kept
    | with_reducible apply State.count_kept
    | with_reducible apply State.foldl_kept
    | exact ⟨Nat.le_refl _, fun hw => hw⟩
    | with_reducible apply Kept.ite
    | split
    | extract_lets
    | (dsimp +zetaDelta only; split)
    | (simp +zetaDelta [*]; done)
    | (simp only [HostIf.wf, Flt.wf, Fab.wf, Bel.wf, Rec.wf] at *; simp +zetaDelta [*]; done)

theorem State.markWaits_kept {s : State} {n : Nat} (kregs : l .regs = true) (khost : l .host = true) (kflt : l .flt = true) (kfab : l .fab = true) (kimg : l .img = true) (kout : l .out = true) (kfree : l .free = true) (h : Kept l o s) :
    Kept l o (State.markWaits n s) := by
  unfold State.markWaits
  repeat' first
    | with_reducible assumption
    | exact fun hw => hw
    | intro _
    | with_reducible apply State.forAll_kept
    | with_reducible apply State.count_kept
    | with_reducible apply State.onMsg_kept
    | with_reducible apply State.foldl_kept
    | exact ⟨Nat.le_refl _, fun hw => hw⟩
    | with_reducible apply Kept.ite
    | split
    | extract_lets
    | (dsimp +zetaDelta only; split)
    | (simp +zetaDelta [*]; done)
    | (simp only [HostIf.wf, Flt.wf, Fab.wf] at *; simp +zetaDelta [*]; done)

theorem State.arbitrate_kept {s : State} {port : Nat} (kregs : l .regs = true) (khost : l .host = true) (kflt : l .flt = true) (kports : l .ports = true) (kfab : l .fab = true) (ktabs : l .tabs = true) (kbel : l .bel = true) (krecorder : l .recorder = true) (kimg : l .img = true) (kout : l .out = true) (kfree : l .free = true) (h : Kept l o s) :
    Kept l o (State.arbitrate port s) := by
  unfold State.arbitrate
  repeat' first
    | with_reducible assumption
    | exact fun hw => hw
    | intro _
    | with_reducible apply State.leave_kept
    | with_reducible apply State.bump_kept
    | with_reducible apply State.advanceFlow_kept
    | with_reducible apply State.genDrop_kept
    | with_reducible apply State.startMsg_kept
    | with_reducible apply State.onArb_kept
    | with_reducible apply State.foldl_kept
    | exact ⟨Nat.le_refl _, fun hw => hw⟩
    | with_reducible apply Kept.ite
    | split
    | extract_lets
    | (dsimp +zetaDelta only; split)
    | (simp +zetaDelta [*]; done)
    | (simp only [HostIf.wf, Flt.wf, Fab.wf, Tabs.wf, Bel.wf, Rec.wf] at *; simp +zetaDelta [*]; done)

theorem State.cellError_kept {s : State} {m : Msg} {i : Nat} (kregs : l .regs = true) (khost : l .host = true) (kflt : l .flt = true) (kfab : l .fab = true) (kimg : l .img = true) (kout : l .out = true) (kfree : l .free = true) (h : Kept l o s) :
    Kept l o (State.cellError m i s) := by
  unfold State.cellError
  repeat' first
    | with_reducible assumption
    | exact fun hw => hw
    | intro _
    | with_reducible apply State.bump_kept
    | with_reducible apply State.fc2_kept
    | with_reducible apply State.onMsg_kept
    | with_reducible apply State.foldl_kept
    | exact ⟨Nat.le_refl _, fun hw => hw⟩
    | with_reducible apply Kept.ite
    | split
    | extract_lets
    | (dsimp +zetaDelta only; split)
    | (simp +zetaDelta [*]; done)
    | (simp only [HostIf.wf, Flt.wf, Fab.wf] at *; simp +zetaDelta [*]; done)

theorem execArbiterChoose_kept {s : State} {ep : Endpoint} {ecc : Fin 4} {cell : Fin 8} (kregs : l .regs = true) (ksys : l .sys = true) (khost : l .host = true) (kflt : l .flt = true) (keng : l .eng = true) (kports : l .ports = true) (kfab : l .fab = true) (ktabs : l .tabs = true) (khome : l .home = true) (kbel : l .bel = true) (krecorder : l .recorder = true) (kimg : l .img = true) (kout : l .out = true) (kfree : l .free = true) (h : Kept l o s) {t : State} (e : execArbiterChoose ep ecc cell s = .next t) :
    Kept l o t := by
  cases e
  repeat' first
    | with_reducible assumption
    | exact fun hw => hw
    | intro _
    | with_reducible apply State.markWaits_kept
    | with_reducible apply State.noteRdy_kept
    | with_reducible apply State.arbitrate_kept
    | with_reducible apply State.capture_kept
    | with_reducible apply State.fault_kept
    | with_reducible apply State.bump_kept
    | with_reducible apply State.cellError_kept
    | with_reducible apply State.columnFault_kept
    | with_reducible apply State.foldl_kept
    | exact ⟨Nat.le_refl _, fun hw => hw⟩
    | with_reducible apply Kept.ite
    | split
    | extract_lets
    | (dsimp +zetaDelta only; split)
    | (simp +zetaDelta [*]; done)
    | (simp only [Sys.wf, HostIf.wf, Flt.wf, Eng.wf, Fab.wf, Tabs.wf, Home.wf, Bel.wf, Rec.wf] at *; simp +zetaDelta [*]; done)

theorem execEgressRestart_kept {s : State} {id : Nat} (kregs : l .regs = true) (kfab : l .fab = true) (kout : l .out = true) (h : Kept l o s) {t : State} (e : execEgressRestart id s = .next t) :
    Kept l o t := by
  cases e
  repeat' first
    | with_reducible assumption
    | exact fun hw => hw
    | intro _
    | with_reducible apply State.emit_kept
    | with_reducible apply State.onMsg_kept
    | with_reducible apply State.onFab_kept
    | with_reducible apply State.bump_kept
    | with_reducible apply State.foldl_kept
    | exact ⟨Nat.le_refl _, fun hw => hw⟩
    | with_reducible apply Kept.ite
    | split
    | extract_lets
    | (dsimp +zetaDelta only; split)
    | (simp +zetaDelta [*]; done)
    | (simp only [Fab.wf] at *; simp +zetaDelta [*]; done)

theorem execAgeLimitExpire_kept {s : State} {id : Nat} (kregs : l .regs = true) (kpit : l .pit = true) (khost : l .host = true) (kflt : l .flt = true) (keng : l .eng = true) (kports : l .ports = true) (kfab : l .fab = true) (ktabs : l .tabs = true) (kbel : l .bel = true) (kimg : l .img = true) (kout : l .out = true) (kfree : l .free = true) (h : Kept l o s) {t : State} (e : execAgeLimitExpire id s = .next t) :
    Kept l o t := by
  cases e
  repeat' first
    | with_reducible assumption
    | exact fun hw => hw
    | intro _
    | with_reducible apply State.reach_kept
    | with_reducible apply State.bump_kept
    | with_reducible apply State.discardMsg_kept
    | with_reducible apply State.reply_kept
    | with_reducible apply State.foldl_kept
    | exact ⟨Nat.le_refl _, fun hw => hw⟩
    | with_reducible apply Kept.ite
    | split
    | extract_lets
    | (dsimp +zetaDelta only; split)
    | (simp +zetaDelta [*]; done)
    | (simp only [HostIf.wf, Flt.wf, Eng.wf, Fab.wf, Tabs.wf, Bel.wf] at *; simp +zetaDelta [*]; done)

theorem execReseqTimeout_kept {s : State} {src : Fin 88} {dst : Endpoint} {cls : Fin 8} (kregs : l .regs = true) (kpit : l .pit = true) (khost : l .host = true) (kflt : l .flt = true) (keng : l .eng = true) (kfab : l .fab = true) (ktabs : l .tabs = true) (kbel : l .bel = true) (kimg : l .img = true) (kout : l .out = true) (kfree : l .free = true) (h : Kept l o s) {t : State} (e : execReseqTimeout src dst cls s = .next t) :
    Kept l o t := by
  cases e
  repeat' first
    | with_reducible assumption
    | exact fun hw => hw
    | intro _
    | with_reducible apply State.bump_kept
    | with_reducible apply State.reach_kept
    | with_reducible apply State.fault_kept
    | with_reducible apply State.advanceFlow_kept
    | with_reducible apply State.foldl_kept
    | exact ⟨Nat.le_refl _, fun hw => hw⟩
    | with_reducible apply Kept.ite
    | split
    | extract_lets
    | (dsimp +zetaDelta only; split)
    | (simp +zetaDelta [*]; done)
    | (simp only [HostIf.wf, Flt.wf, Eng.wf, Fab.wf, Tabs.wf, Bel.wf] at *; simp +zetaDelta [*]; done)

theorem execBarrierComplete_kept {s : State} (kregs : l .regs = true) (khost : l .host = true) (kflt : l .flt = true) (kfab : l .fab = true) (kimg : l .img = true) (kout : l .out = true) (kfree : l .free = true) (h : Kept l o s) {t : State} (e : execBarrierComplete s = .next t) :
    Kept l o t := by
  cases e
  repeat' first
    | with_reducible assumption
    | exact fun hw => hw
    | intro _
    | with_reducible apply State.onFab_kept
    | with_reducible apply State.forAll_kept
    | with_reducible apply State.done_kept
    | with_reducible apply State.foldl_kept
    | exact ⟨Nat.le_refl _, fun hw => hw⟩
    | with_reducible apply Kept.ite
    | split
    | extract_lets
    | (dsimp +zetaDelta only; split)
    | (simp +zetaDelta [*]; done)
    | (simp only [HostIf.wf, Flt.wf, Fab.wf] at *; simp +zetaDelta [*]; done)

theorem State.auditColumn_kept {s : State} {ep : Nat} (kregs : l .regs = true) (ksys : l .sys = true) (khost : l .host = true) (kflt : l .flt = true) (keng : l .eng = true) (kports : l .ports = true) (kfab : l .fab = true) (ktabs : l .tabs = true) (khome : l .home = true) (kbel : l .bel = true) (krecorder : l .recorder = true) (kimg : l .img = true) (kout : l .out = true) (kfree : l .free = true) (h : Kept l o s) :
    Kept l o (State.auditColumn ep s) := by
  unfold State.auditColumn
  repeat' first
    | with_reducible assumption
    | exact fun hw => hw
    | intro _
    | with_reducible apply State.columnFault_kept
    | with_reducible apply State.onColumnN_kept
    | with_reducible apply State.foldl_kept
    | exact ⟨Nat.le_refl _, fun hw => hw⟩
    | with_reducible apply Kept.ite
    | split
    | extract_lets
    | (dsimp +zetaDelta only; split)
    | (simp +zetaDelta [*]; done)
    | (simp only [Sys.wf, HostIf.wf, Flt.wf, Eng.wf, Fab.wf, Tabs.wf, Home.wf, Bel.wf, Rec.wf] at *; simp +zetaDelta [*]; done)

theorem execColumnAudit_kept {s : State} {upsets : List (Endpoint × Int)} (kregs : l .regs = true) (ksys : l .sys = true) (khost : l .host = true) (kflt : l .flt = true) (keng : l .eng = true) (kports : l .ports = true) (kfab : l .fab = true) (ktabs : l .tabs = true) (khome : l .home = true) (kbel : l .bel = true) (krecorder : l .recorder = true) (kimg : l .img = true) (kout : l .out = true) (kfree : l .free = true) (h : Kept l o s) {t : State} (e : execColumnAudit upsets s = .next t) :
    Kept l o t := by
  cases e
  repeat' first
    | with_reducible assumption
    | exact fun hw => hw
    | intro _
    | with_reducible apply State.onFab_kept
    | with_reducible apply State.forAll_kept
    | with_reducible apply State.onColumnN_kept
    | with_reducible apply State.auditColumn_kept
    | with_reducible apply State.foldl_kept
    | exact ⟨Nat.le_refl _, fun hw => hw⟩
    | with_reducible apply Kept.ite
    | split
    | extract_lets
    | (dsimp +zetaDelta only; split)
    | (simp +zetaDelta [*]; done)
    | (simp only [Sys.wf, HostIf.wf, Flt.wf, Eng.wf, Fab.wf, Tabs.wf, Home.wf, Bel.wf, Rec.wf] at *; simp +zetaDelta [*]; done)

theorem execAuditReclaimEnd_kept {s : State} {ep : Endpoint} (kregs : l .regs = true) (khost : l .host = true) (kflt : l .flt = true) (kfab : l .fab = true) (kimg : l .img = true) (kout : l .out = true) (kfree : l .free = true) (h : Kept l o s) {t : State} (e : execAuditReclaimEnd ep s = .next t) :
    Kept l o t := by
  cases e
  repeat' first
    | with_reducible assumption
    | exact fun hw => hw
    | intro _
    | with_reducible apply State.onColumn_kept
    | with_reducible apply State.fault_kept
    | with_reducible apply State.bump_kept
    | with_reducible apply State.settleRsv_kept
    | with_reducible apply State.foldl_kept
    | exact ⟨Nat.le_refl _, fun hw => hw⟩
    | with_reducible apply Kept.ite
    | split
    | extract_lets
    | (dsimp +zetaDelta only; split)
    | (simp +zetaDelta [*]; done)
    | (simp only [HostIf.wf, Flt.wf, Fab.wf] at *; simp +zetaDelta [*]; done)

/-! ### Machine/Shaping.lean -/

theorem execShaperRefresh_kept {s : State} (kregs : l .regs = true) (kpit : l .pit = true) (khost : l .host = true) (kflt : l .flt = true) (keng : l .eng = true) (ktabs : l .tabs = true) (kbel : l .bel = true) (kimg : l .img = true) (kout : l .out = true) (kfree : l .free = true) (h : Kept l o s) {t : State} (e : execShaperRefresh s = .next t) :
    Kept l o t := by
  cases e
  repeat' first
    | with_reducible assumption
    | exact fun hw => hw
    | intro _
    | with_reducible apply State.reach_kept
    | with_reducible apply State.onTabs_kept
    | with_reducible apply State.foldl_kept
    | exact ⟨Nat.le_refl _, fun hw => hw⟩
    | with_reducible apply Kept.ite
    | split
    | extract_lets
    | (dsimp +zetaDelta only; split)
    | (simp +zetaDelta [*]; done)
    | (simp only [HostIf.wf, Flt.wf, Eng.wf, Tabs.wf, Bel.wf] at *; simp +zetaDelta [*]; done)

theorem execBucketSlotRelease_kept {s : State} {domain : Fin 4096} {slot : Nat} (ktabs : l .tabs = true) (h : Kept l o s) {t : State} (e : execBucketSlotRelease domain slot s = .next t) :
    Kept l o t := by
  cases e
  repeat' first
    | with_reducible assumption
    | exact fun hw => hw
    | intro _
    | with_reducible apply State.setBucket_kept
    | with_reducible apply State.foldl_kept
    | exact ⟨Nat.le_refl _, fun hw => hw⟩
    | with_reducible apply Kept.ite
    | split
    | extract_lets
    | (dsimp +zetaDelta only; split)
    | (simp +zetaDelta [*]; done)
    | (simp only [Tabs.wf] at *; simp +zetaDelta [*]; done)

theorem State.putBucket_kept {s : State} {d : Nat} {slot : Nat} {b : Bucket} (kregs : l .regs = true) (ktabs : l .tabs = true) (krecorder : l .recorder = true) (h : Kept l o s) :
    Kept l o (State.putBucket d slot b s) := by
  unfold State.putBucket
  repeat' first
    | with_reducible assumption
    | exact fun hw => hw
    | intro _
    | with_reducible apply State.captureCfg_kept
    | with_reducible apply State.setBucket_kept
    | with_reducible apply State.foldl_kept
    | exact ⟨Nat.le_refl _, fun hw => hw⟩
    | with_reducible apply Kept.ite
    | split
    | extract_lets
    | (dsimp +zetaDelta only; split)
    | (simp +zetaDelta [*]; done)
    | (simp only [Tabs.wf, Rec.wf] at *; simp +zetaDelta [*]; done)

theorem State.clearBucket_kept {s : State} {d : Nat} {slot : Nat} (kregs : l .regs = true) (ktabs : l .tabs = true) (krecorder : l .recorder = true) (h : Kept l o s) :
    Kept l o (State.clearBucket d slot s) := by
  unfold State.clearBucket
  repeat' first
    | with_reducible assumption
    | exact fun hw => hw
    | intro _
    | with_reducible apply State.onBucket_kept
    | with_reducible apply State.captureCfg_kept
    | with_reducible apply State.foldl_kept
    | exact ⟨Nat.le_refl _, fun hw => hw⟩
    | with_reducible apply Kept.ite
    | split
    | extract_lets
    | (dsimp +zetaDelta only; split)
    | (simp +zetaDelta [*]; done)
    | (simp only [Tabs.wf, Rec.wf] at *; simp +zetaDelta [*]; done)

theorem State.runBucketClear_kept {s : State} {h1 : Hdr} {index : Word32} {c : Instr} (kregs : l .regs = true) (khost : l .host = true) (kflt : l .flt = true) (kfab : l .fab = true) (ktabs : l .tabs = true) (krecorder : l .recorder = true) (kimg : l .img = true) (kout : l .out = true) (kfree : l .free = true) (h : Kept l o s) :
    Kept l o (State.runBucketClear h1 index c s) := by
  unfold State.runBucketClear
  repeat' first
    | with_reducible assumption
    | exact fun hw => hw
    | intro _
    | with_reducible apply State.denied_kept
    | with_reducible apply State.done_kept
    | with_reducible apply State.tableChange_kept
    | with_reducible apply State.clearBucket_kept
    | with_reducible apply State.foldl_kept
    | exact ⟨Nat.le_refl _, fun hw => hw⟩
    | with_reducible apply Kept.ite
    | split
    | extract_lets
    | (dsimp +zetaDelta only; split)
    | (simp +zetaDelta [*]; done)
    | (simp only [HostIf.wf, Flt.wf, Fab.wf, Tabs.wf, Rec.wf] at *; simp +zetaDelta [*]; done)

theorem execBucketClear_kept {s : State} {h1 : Hdr} {index : Word32} (kregs : l .regs = true) (khost : l .host = true) (kflt : l .flt = true) (kfab : l .fab = true) (ktabs : l .tabs = true) (krecorder : l .recorder = true) (kimg : l .img = true) (kout : l .out = true) (kfree : l .free = true) (h : Kept l o s) {t : State} (e : execBucketClear h1 index s = .next t) :
    Kept l o t := by
  cases e
  repeat' first
    | with_reducible assumption
    | exact fun hw => hw
    | intro _
    | with_reducible apply State.manager_kept
    | with_reducible apply State.runBucketClear_kept
    | with_reducible apply State.foldl_kept
    | exact ⟨Nat.le_refl _, fun hw => hw⟩
    | with_reducible apply Kept.ite
    | split
    | extract_lets
    | (dsimp +zetaDelta only; split)
    | (simp +zetaDelta [*]; done)
    | (simp only [HostIf.wf, Flt.wf, Fab.wf, Tabs.wf, Rec.wf] at *; simp +zetaDelta [*]; done)

theorem execBucketWrite_kept {s : State} {h1 : Hdr} {index : Word32} {entry : Entry} (kregs : l .regs = true) (khost : l .host = true) (kflt : l .flt = true) (kfab : l .fab = true) (ktabs : l .tabs = true) (krecorder : l .recorder = true) (kimg : l .img = true) (kout : l .out = true) (kfree : l .free = true) (h : Kept l o s) {t : State} (e : execBucketWrite h1 index entry s = .next t) :
    Kept l o t := by
  cases e
  repeat' first
    | with_reducible assumption
    | exact fun hw => hw
    | intro _
    | with_reducible apply State.manager_kept
    | with_reducible apply State.runBucketClear_kept
    | with_reducible apply State.denied_kept
    | with_reducible apply State.done_kept
    | with_reducible apply State.tableChange_kept
    | with_reducible apply State.putBucket_kept
    | with_reducible apply State.foldl_kept
    | exact ⟨Nat.le_refl _, fun hw => hw⟩
    | with_reducible apply Kept.ite
    | split
    | extract_lets
    | (dsimp +zetaDelta only; split)
    | (simp +zetaDelta [*]; done)
    | (simp only [HostIf.wf, Flt.wf, Fab.wf, Tabs.wf, Rec.wf] at *; simp +zetaDelta [*]; done)

theorem State.restartShapers_kept {s : State} (ktabs : l .tabs = true) (h : Kept l o s) :
    Kept l o (State.restartShapers s) := by
  unfold State.restartShapers
  repeat' first
    | with_reducible assumption
    | exact fun hw => hw
    | intro _
    | with_reducible apply State.onTabs_kept
    | with_reducible apply State.foldl_kept
    | exact ⟨Nat.le_refl _, fun hw => hw⟩
    | with_reducible apply Kept.ite
    | split
    | extract_lets
    | (dsimp +zetaDelta only; split)
    | (simp +zetaDelta [*]; done)
    | (simp only [Tabs.wf] at *; simp +zetaDelta [*]; done)

/-! ### Machine/LinkLayer.lean -/

theorem State.sendNak_kept {s : State} {n : Nat} (kregs : l .regs = true) (kout : l .out = true) (h : Kept l o s) :
    Kept l o (State.sendNak n s) := by
  unfold State.sendNak
  repeat' first
    | with_reducible assumption
    | exact fun hw => hw
    | intro _
    | with_reducible apply State.bump_kept
    | with_reducible apply State.emit_kept
    | with_reducible apply State.foldl_kept
    | exact ⟨Nat.le_refl _, fun hw => hw⟩
    | with_reducible apply Kept.ite
    | split
    | extract_lets
    | (dsimp +zetaDelta only; split)
    | (simp +zetaDelta [*]; done)

theorem State.sendAck_kept {s : State} {n : Nat} (kports : l .ports = true) (kout : l .out = true) (h : Kept l o s) :
    Kept l o (State.sendAck n s) := by
  unfold State.sendAck
  repeat' first
    | with_reducible assumption
    | exact fun hw => hw
    | intro _
    | with_reducible apply State.onPortN_kept
    | with_reducible apply State.emit_kept
    | with_reducible apply State.foldl_kept
    | exact ⟨Nat.le_refl _, fun hw => hw⟩
    | with_reducible apply Kept.ite
    | split
    | extract_lets
    | (dsimp +zetaDelta only; split)
    | (simp +zetaDelta [*]; done)

theorem State.rxConsume_kept {s : State} {n : Nat} {u : ChUse} (kports : l .ports = true) (h : Kept l o s) :
    Kept l o (State.rxConsume n u s) := by
  unfold State.rxConsume
  repeat' first
    | with_reducible assumption
    | exact fun hw => hw
    | intro _
    | with_reducible apply State.onCredit_kept
    | with_reducible apply State.foldl_kept
    | exact ⟨Nat.le_refl _, fun hw => hw⟩
    | with_reducible apply Kept.ite
    | split
    | extract_lets
    | (dsimp +zetaDelta only; split)
    | (simp +zetaDelta [*]; done)

theorem State.tailArrives_kept {s : State} {n : Nat} (kregs : l .regs = true) (kfab : l .fab = true) (krecorder : l .recorder = true) (h : Kept l o s) :
    Kept l o (State.tailArrives n s) := by
  unfold State.tailArrives
  repeat' first
    | with_reducible assumption
    | exact fun hw => hw
    | intro _
    | with_reducible apply State.onMsg_kept
    | with_reducible apply State.captureTail_kept
    | with_reducible apply State.foldl_kept
    | exact ⟨Nat.le_refl _, fun hw => hw⟩
    | with_reducible apply Kept.ite
    | split
    | extract_lets
    | (dsimp +zetaDelta only; split)
    | (simp +zetaDelta [*]; done)
    | (simp only [Fab.wf, Rec.wf] at *; simp +zetaDelta [*]; done)

theorem State.tailBad_kept {s : State} {n : Nat} (kregs : l .regs = true) (khost : l .host = true) (kflt : l .flt = true) (kports : l .ports = true) (kfab : l .fab = true) (krecorder : l .recorder = true) (kimg : l .img = true) (kout : l .out = true) (kfree : l .free = true) (h : Kept l o s) :
    Kept l o (State.tailBad n s) := by
  unfold State.tailBad
  repeat' first
    | with_reducible assumption
    | exact fun hw => hw
    | intro _
    | with_reducible apply State.captureTail_kept
    | with_reducible apply State.bump_kept
    | with_reducible apply State.advanceFlow_kept
    | with_reducible apply State.takeOff_kept
    | with_reducible apply State.emit_kept
    | with_reducible apply State.discardMsg_kept
    | with_reducible apply State.reply_kept
    | with_reducible apply State.foldl_kept
    | exact ⟨Nat.le_refl _, fun hw => hw⟩
    | with_reducible apply Kept.ite
    | split
    | extract_lets
    | (dsimp +zetaDelta only; split)
    | (simp +zetaDelta [*]; done)
    | (simp only [HostIf.wf, Flt.wf, Fab.wf, Rec.wf] at *; simp +zetaDelta [*]; done)

theorem State.acceptFlit_kept {s : State} {n : Nat} {uses : List ChUse} (kregs : l .regs = true) (kports : l .ports = true) (kfab : l .fab = true) (krecorder : l .recorder = true) (kout : l .out = true) (h : Kept l o s) :
    Kept l o (State.acceptFlit n uses s) := by
  unfold State.acceptFlit
  repeat' first
    | with_reducible assumption
    | exact fun hw => hw
    | intro _
    | with_reducible apply State.onPortN_kept
    | with_reducible apply State.tailArrives_kept
    | with_reducible apply State.forAll_kept
    | with_reducible apply State.rxConsume_kept
    | with_reducible apply State.sendAck_kept
    | with_reducible apply State.foldl_kept
    | exact ⟨Nat.le_refl _, fun hw => hw⟩
    | with_reducible apply Kept.ite
    | split
    | extract_lets
    | (dsimp +zetaDelta only; split)
    | (simp +zetaDelta [*]; done)
    | (simp only [Fab.wf, Rec.wf] at *; simp +zetaDelta [*]; done)

theorem execFlitReceived_kept {s : State} {p : PortId} {fecCorrected : Bool} {fecBad : Bool} {crcOk : Bool} {seq : Nat} {tl : Bool} {uses : List ChUse} (kregs : l .regs = true) (ksys : l .sys = true) (khost : l .host = true) (kflt : l .flt = true) (kports : l .ports = true) (kfab : l .fab = true) (ktabs : l .tabs = true) (khome : l .home = true) (kbel : l .bel = true) (krecorder : l .recorder = true) (kimg : l .img = true) (kout : l .out = true) (kfree : l .free = true) (h : Kept l o s) {t : State} (e : execFlitReceived p fecCorrected fecBad crcOk seq tl uses s = .next t) :
    Kept l o t := by
  cases e
  repeat' first
    | with_reducible assumption
    | exact fun hw => hw
    | intro _
    | with_reducible apply State.bump_kept
    | with_reducible apply State.sendNak_kept
    | with_reducible apply State.tailBad_kept
    | with_reducible apply State.acceptFlit_kept
    | with_reducible apply State.declareDown_kept
    | with_reducible apply State.fault_kept
    | with_reducible apply State.aer_kept
    | with_reducible apply State.foldl_kept
    | exact ⟨Nat.le_refl _, fun hw => hw⟩
    | with_reducible apply Kept.ite
    | split
    | extract_lets
    | (dsimp +zetaDelta only; split)
    | (simp +zetaDelta [*]; done)
    | (simp only [Sys.wf, HostIf.wf, Flt.wf, Fab.wf, Tabs.wf, Home.wf, Bel.wf, Rec.wf] at *; simp +zetaDelta [*]; done)

theorem execAckTimerExpire_kept {s : State} {p : PortId} (kregs : l .regs = true) (kpit : l .pit = true) (khost : l .host = true) (kflt : l .flt = true) (keng : l .eng = true) (kports : l .ports = true) (ktabs : l .tabs = true) (kbel : l .bel = true) (kimg : l .img = true) (kout : l .out = true) (kfree : l .free = true) (h : Kept l o s) {t : State} (e : execAckTimerExpire p s = .next t) :
    Kept l o t := by
  cases e
  repeat' first
    | with_reducible assumption
    | exact fun hw => hw
    | intro _
    | with_reducible apply State.sendAck_kept
    | with_reducible apply State.reach_kept
    | with_reducible apply State.foldl_kept
    | exact ⟨Nat.le_refl _, fun hw => hw⟩
    | with_reducible apply Kept.ite
    | split
    | extract_lets
    | (dsimp +zetaDelta only; split)
    | (simp +zetaDelta [*]; done)
    | (simp only [HostIf.wf, Flt.wf, Eng.wf, Tabs.wf, Bel.wf] at *; simp +zetaDelta [*]; done)

theorem State.keepYoyo_kept {s : State} {n : Nat} {keep : List YoFlit} (kports : l .ports = true) (h : Kept l o s) :
    Kept l o (State.keepYoyo n keep s) := by
  unfold State.keepYoyo
  repeat' first
    | with_reducible assumption
    | exact fun hw => hw
    | intro _
    | with_reducible apply State.onPortN_kept
    | with_reducible apply State.foldl_kept
    | exact ⟨Nat.le_refl _, fun hw => hw⟩
    | with_reducible apply Kept.ite
    | split
    | extract_lets
    | (dsimp +zetaDelta only; split)
    | (simp +zetaDelta [*]; done)

theorem execAckReceived_kept {s : State} {p : PortId} {seq : Nat} (kports : l .ports = true) (h : Kept l o s) {t : State} (e : execAckReceived p seq s = .next t) :
    Kept l o t := by
  cases e
  repeat' first
    | with_reducible assumption
    | exact fun hw => hw
    | intro _
    | with_reducible apply State.keepYoyo_kept
    | with_reducible apply State.foldl_kept
    | exact ⟨Nat.le_refl _, fun hw => hw⟩
    | with_reducible apply Kept.ite
    | split
    | extract_lets
    | (dsimp +zetaDelta only; split)
    | (simp +zetaDelta [*]; done)

theorem execNakReceived_kept {s : State} {p : PortId} {seq : Nat} {selective : Bool} (kregs : l .regs = true) (ksys : l .sys = true) (khost : l .host = true) (kflt : l .flt = true) (kports : l .ports = true) (kfab : l .fab = true) (ktabs : l .tabs = true) (khome : l .home = true) (kbel : l .bel = true) (krecorder : l .recorder = true) (kimg : l .img = true) (kout : l .out = true) (kfree : l .free = true) (h : Kept l o s) {t : State} (e : execNakReceived p seq selective s = .next t) :
    Kept l o t := by
  cases e
  repeat' first
    | with_reducible assumption
    | exact fun hw => hw
    | intro _
    | with_reducible apply State.bump_kept
    | with_reducible apply State.replay_kept
    | with_reducible apply State.keepYoyo_kept
    | with_reducible apply State.foldl_kept
    | exact ⟨Nat.le_refl _, fun hw => hw⟩
    | with_reducible apply Kept.ite
    | split
    | extract_lets
    | (dsimp +zetaDelta only; split)
    | (simp +zetaDelta [*]; done)
    | (simp only [Sys.wf, HostIf.wf, Flt.wf, Fab.wf, Tabs.wf, Home.wf, Bel.wf, Rec.wf] at *; simp +zetaDelta [*]; done)

theorem execReplayTimerExpire_kept {s : State} {p : PortId} (kregs : l .regs = true) (ksys : l .sys = true) (kpit : l .pit = true) (khost : l .host = true) (kflt : l .flt = true) (keng : l .eng = true) (kports : l .ports = true) (kfab : l .fab = true) (ktabs : l .tabs = true) (khome : l .home = true) (kbel : l .bel = true) (krecorder : l .recorder = true) (kimg : l .img = true) (kout : l .out = true) (kfree : l .free = true) (h : Kept l o s) {t : State} (e : execReplayTimerExpire p s = .next t) :
    Kept l o t := by
  cases e
  repeat' first
    | with_reducible assumption
    | exact fun hw => hw
    | intro _
    | with_reducible apply State.reach_kept
    | with_reducible apply State.replay_kept
    | with_reducible apply State.bump_kept
    | with_reducible apply State.foldl_kept
    | exact ⟨Nat.le_refl _, fun hw => hw⟩
    | with_reducible apply Kept.ite
    | split
    | extract_lets
    | (dsimp +zetaDelta only; split)
    | (simp +zetaDelta [*]; done)
    | (simp only [Sys.wf, HostIf.wf, Flt.wf, Eng.wf, Fab.wf, Tabs.wf, Home.wf, Bel.wf, Rec.wf] at *; simp +zetaDelta [*]; done)

theorem execFlitTransmit_kept {s : State} {p : PortId} {flit : TxFlit} (kports : l .ports = true) (kout : l .out = true) (h : Kept l o s) {t : State} (e : execFlitTransmit p flit s = .next t) :
    Kept l o t := by
  cases e
  repeat' first
    | with_reducible assumption
    | exact fun hw => hw
    | intro _
    | with_reducible apply State.onPort_kept
    | with_reducible apply State.forAll_kept
    | with_reducible apply State.onCredit_kept
    | with_reducible apply State.sendFlit_kept
    | with_reducible apply State.emit_kept
    | with_reducible apply State.foldl_kept
    | exact ⟨Nat.le_refl _, fun hw => hw⟩
    | with_reducible apply Kept.ite
    | split
    | extract_lets
    | (dsimp +zetaDelta only; split)
    | (simp +zetaDelta [*]; done)

theorem execCreditUpdateRx_kept {s : State} {p : PortId} {ch : Fin 16} {data : Bool} {limit : BitVec 16} {infinite : Bool} (kregs : l .regs = true) (kports : l .ports = true) (h : Kept l o s) {t : State} (e : execCreditUpdateRx p ch data limit infinite s = .next t) :
    Kept l o t := by
  cases e
  repeat' first
    | with_reducible assumption
    | exact fun hw => hw
    | intro _
    | with_reducible apply State.onCredit_kept
    | with_reducible apply State.bump_kept
    | with_reducible apply State.foldl_kept
    | exact ⟨Nat.le_refl _, fun hw => hw⟩
    | with_reducible apply Kept.ite
    | split
    | extract_lets
    | (dsimp +zetaDelta only; split)
    | (simp +zetaDelta [*]; done)

theorem execCreditUpdateTimer_kept {s : State} {p : PortId} {ch : Fin 16} (kregs : l .regs = true) (kpit : l .pit = true) (khost : l .host = true) (kflt : l .flt = true) (keng : l .eng = true) (kports : l .ports = true) (ktabs : l .tabs = true) (kbel : l .bel = true) (kimg : l .img = true) (kout : l .out = true) (kfree : l .free = true) (h : Kept l o s) {t : State} (e : execCreditUpdateTimer p ch s = .next t) :
    Kept l o t := by
  cases e
  repeat' first
    | with_reducible assumption
    | exact fun hw => hw
    | intro _
    | with_reducible apply State.sendCredit_kept
    | with_reducible apply State.reach_kept
    | with_reducible apply State.foldl_kept
    | exact ⟨Nat.le_refl _, fun hw => hw⟩
    | with_reducible apply Kept.ite
    | split
    | extract_lets
    | (dsimp +zetaDelta only; split)
    | (simp +zetaDelta [*]; done)
    | (simp only [HostIf.wf, Flt.wf, Eng.wf, Tabs.wf, Bel.wf] at *; simp +zetaDelta [*]; done)

/-! ### Machine/Tool.lean -/

theorem State.tcokAt_kept {s : State} {g : Nat} {b : Bool} (ksys : l .sys = true) (h : Kept l o s) :
    Kept l o (State.tcokAt g b s) := by
  unfold State.tcokAt
  repeat' first
    | with_reducible assumption
    | exact fun hw => hw
    | intro _
    | with_reducible apply State.onSys_kept
    | with_reducible apply State.foldl_kept
    | exact ⟨Nat.le_refl _, fun hw => hw⟩
    | with_reducible apply Kept.ite
    | split
    | extract_lets
    | (dsimp +zetaDelta only; split)
    | (simp +zetaDelta [*]; done)
    | (simp only [Sys.wf] at *; simp +zetaDelta [*]; done)

theorem State.endRelease_kept {s : State} {n : Nat} (kregs : l .regs = true) (ksys : l .sys = true) (kports : l .ports = true) (ktool : l .tool = true) (h : Kept l o s) :
    Kept l o (State.endRelease n s) := by
  unfold State.endRelease
  repeat' first
    | with_reducible assumption
    | exact fun hw => hw
    | intro _
    | with_reducible apply State.comeUp_kept
    | with_reducible apply State.enterOff_kept
    | with_reducible apply State.onPortN_kept
    | with_reducible apply State.foldl_kept
    | exact ⟨Nat.le_refl _, fun hw => hw⟩
    | with_reducible apply Kept.ite
    | split
    | extract_lets
    | (dsimp +zetaDelta only; split)
    | (simp +zetaDelta [*]; done)
    | (simp only [Sys.wf, Tool.wf] at *; simp +zetaDelta [*]; done)

theorem State.settleGroup_kept {s : State} {g : Nat} (kregs : l .regs = true) (ksys : l .sys = true) (kports : l .ports = true) (ktool : l .tool = true) (h : Kept l o s) :
    Kept l o (State.settleGroup g s) := by
  unfold State.settleGroup
  repeat' first
    | with_reducible assumption
    | exact fun hw => hw
    | intro _
    | with_reducible apply State.tcokAt_kept
    | with_reducible apply State.endRelease_kept
    | with_reducible apply State.foldl_kept
    | exact ⟨Nat.le_refl _, fun hw => hw⟩
    | with_reducible apply Kept.ite
    | split
    | extract_lets
    | (dsimp +zetaDelta only; split)
    | (simp +zetaDelta [*]; done)
    | (simp only [Sys.wf, Tool.wf] at *; simp +zetaDelta [*]; done)

theorem State.beginRelease_kept {s : State} {n : Nat} (kregs : l .regs = true) (ksys : l .sys = true) (khost : l .host = true) (kflt : l .flt = true) (kports : l .ports = true) (ktabs : l .tabs = true) (kimg : l .img = true) (kout : l .out = true) (kfree : l .free = true) (h : Kept l o s) :
    Kept l o (State.beginRelease n s) := by
  unfold State.beginRelease
  repeat' first
    | with_reducible assumption
    | exact fun hw => hw
    | intro _
    | with_reducible apply State.leaveActive_kept
    | with_reducible apply State.onPortN_kept
    | with_reducible apply State.unpower_kept
    | with_reducible apply State.released_kept
    | with_reducible apply State.foldl_kept
    | exact ⟨Nat.le_refl _, fun hw => hw⟩
    | with_reducible apply Kept.ite
    | split
    | extract_lets
    | (dsimp +zetaDelta only; split)
    | (simp +zetaDelta [*]; done)
    | (simp only [Sys.wf, HostIf.wf, Flt.wf, Tabs.wf] at *; simp +zetaDelta [*]; done)

theorem State.beginDeferred_kept {s : State} (kregs : l .regs = true) (ksys : l .sys = true) (khost : l .host = true) (kflt : l .flt = true) (kports : l .ports = true) (ktabs : l .tabs = true) (kimg : l .img = true) (kout : l .out = true) (kfree : l .free = true) (h : Kept l o s) :
    Kept l o (State.beginDeferred s) := by
  unfold State.beginDeferred
  repeat' first
    | with_reducible assumption
    | exact fun hw => hw
    | intro _
    | with_reducible apply State.forAll_kept
    | with_reducible apply State.beginRelease_kept
    | with_reducible apply State.onPortN_kept
    | with_reducible apply State.foldl_kept
    | exact ⟨Nat.le_refl _, fun hw => hw⟩
    | with_reducible apply Kept.ite
    | split
    | extract_lets
    | (dsimp +zetaDelta only; split)
    | (simp +zetaDelta [*]; done)
    | (simp only [Sys.wf, HostIf.wf, Flt.wf, Tabs.wf] at *; simp +zetaDelta [*]; done)

theorem State.tcrEdge_kept {s : State} {g : Nat} (ktool : l .tool = true) (h : Kept l o s) :
    Kept l o (State.tcrEdge g s) := by
  unfold State.tcrEdge
  repeat' first
    | with_reducible assumption
    | exact fun hw => hw
    | intro _
    | with_reducible apply State.onTool_kept
    | with_reducible apply State.foldl_kept
    | exact ⟨Nat.le_refl _, fun hw => hw⟩
    | with_reducible apply Kept.ite
    | split
    | extract_lets
    | (dsimp +zetaDelta only; split)
    | (simp +zetaDelta [*]; done)
    | (simp only [Tool.wf] at *; simp +zetaDelta [*]; done)

theorem State.tcrFiltered_kept {s : State} {g : Nat} (kregs : l .regs = true) (kpit : l .pit = true) (khost : l .host = true) (kflt : l .flt = true) (keng : l .eng = true) (ktabs : l .tabs = true) (kbel : l .bel = true) (kimg : l .img = true) (kout : l .out = true) (kfree : l .free = true) (h : Kept l o s) :
    Kept l o (State.tcrFiltered g s) := by
  unfold State.tcrFiltered
  repeat' first
    | with_reducible assumption
    | exact fun hw => hw
    | intro _
    | with_reducible apply State.reach_kept
    | with_reducible apply State.foldl_kept
    | exact ⟨Nat.le_refl _, fun hw => hw⟩
    | with_reducible apply Kept.ite
    | split
    | extract_lets
    | (dsimp +zetaDelta only; split)
    | (simp +zetaDelta [*]; done)
    | (simp only [HostIf.wf, Flt.wf, Eng.wf, Tabs.wf, Bel.wf] at *; simp +zetaDelta [*]; done)

theorem execTcrNFall_kept {s : State} {g : GroupId} (ksys : l .sys = true) (ktool : l .tool = true) (h : Kept l o s) {t : State} (e : execTcrNFall g s = .next t) :
    Kept l o t := by
  cases e
  repeat' first
    | with_reducible assumption
    | exact fun hw => hw
    | intro _
    | with_reducible apply State.onSys_kept
    | with_reducible apply State.tcrEdge_kept
    | with_reducible apply State.foldl_kept
    | exact ⟨Nat.le_refl _, fun hw => hw⟩
    | with_reducible apply Kept.ite
    | split
    | extract_lets
    | (dsimp +zetaDelta only; split)
    | (simp +zetaDelta [*]; done)
    | (simp only [Sys.wf, Tool.wf] at *; simp +zetaDelta [*]; done)

theorem execToolReleaseRequest_kept {s : State} {g : GroupId} (kregs : l .regs = true) (ksys : l .sys = true) (kpit : l .pit = true) (khost : l .host = true) (kflt : l .flt = true) (keng : l .eng = true) (kports : l .ports = true) (ktool : l .tool = true) (ktabs : l .tabs = true) (kbel : l .bel = true) (krecorder : l .recorder = true) (kimg : l .img = true) (kout : l .out = true) (kfree : l .free = true) (h : Kept l o s) {t : State} (e : execToolReleaseRequest g s = .next t) :
    Kept l o t := by
  cases e
  repeat' first
    | with_reducible assumption
    | exact fun hw => hw
    | intro _
    | with_reducible apply State.whenServing_kept
    | with_reducible apply State.onTool_kept
    | with_reducible apply State.tcrFiltered_kept
    | with_reducible apply State.forAll_kept
    | with_reducible apply State.captureSide_kept
    | with_reducible apply State.beginRelease_kept
    | with_reducible apply State.onPortN_kept
    | with_reducible apply State.foldl_kept
    | exact ⟨Nat.le_refl _, fun hw => hw⟩
    | with_reducible apply Kept.ite
    | split
    | extract_lets
    | (dsimp +zetaDelta only; split)
    | (simp +zetaDelta [*]; done)
    | (simp only [Sys.wf, HostIf.wf, Flt.wf, Eng.wf, Tool.wf, Tabs.wf, Bel.wf, Rec.wf] at *; simp +zetaDelta [*]; done)

theorem State.disableLink_kept {s : State} {n : Nat} (kregs : l .regs = true) (ksys : l .sys = true) (khost : l .host = true) (kflt : l .flt = true) (kports : l .ports = true) (kfab : l .fab = true) (ktabs : l .tabs = true) (khome : l .home = true) (kbel : l .bel = true) (krecorder : l .recorder = true) (kimg : l .img = true) (kout : l .out = true) (kfree : l .free = true) (h : Kept l o s) :
    Kept l o (State.disableLink n s) := by
  unfold State.disableLink
  repeat' first
    | with_reducible assumption
    | exact fun hw => hw
    | intro _
    | with_reducible apply State.onPortN_kept
    | with_reducible apply State.declareDown_kept
    | with_reducible apply State.emit_kept
    | with_reducible apply State.foldl_kept
    | exact ⟨Nat.le_refl _, fun hw => hw⟩
    | with_reducible apply Kept.ite
    | split
    | extract_lets
    | (dsimp +zetaDelta only; split)
    | (simp +zetaDelta [*]; done)
    | (simp only [Sys.wf, HostIf.wf, Flt.wf, Fab.wf, Tabs.wf, Home.wf, Bel.wf, Rec.wf] at *; simp +zetaDelta [*]; done)

theorem execToolDrainEnd_kept {s : State} {p : PortId} (kregs : l .regs = true) (ksys : l .sys = true) (khost : l .host = true) (kflt : l .flt = true) (kports : l .ports = true) (kfab : l .fab = true) (ktabs : l .tabs = true) (khome : l .home = true) (kbel : l .bel = true) (krecorder : l .recorder = true) (kimg : l .img = true) (kout : l .out = true) (kfree : l .free = true) (h : Kept l o s) {t : State} (e : execToolDrainEnd p s = .next t) :
    Kept l o t := by
  cases e
  repeat' first
    | with_reducible assumption
    | exact fun hw => hw
    | intro _
    | with_reducible apply State.whenServing_kept
    | with_reducible apply State.disableLink_kept
    | with_reducible apply State.foldl_kept
    | exact ⟨Nat.le_refl _, fun hw => hw⟩
    | with_reducible apply Kept.ite
    | split
    | extract_lets
    | (dsimp +zetaDelta only; split)
    | (simp +zetaDelta [*]; done)
    | (simp only [Sys.wf, HostIf.wf, Flt.wf, Fab.wf, Tabs.wf, Home.wf, Bel.wf, Rec.wf] at *; simp +zetaDelta [*]; done)

theorem execToolDrainCut_kept {s : State} {p : PortId} (kregs : l .regs = true) (ksys : l .sys = true) (kpit : l .pit = true) (khost : l .host = true) (kflt : l .flt = true) (keng : l .eng = true) (kports : l .ports = true) (kfab : l .fab = true) (ktabs : l .tabs = true) (khome : l .home = true) (kbel : l .bel = true) (krecorder : l .recorder = true) (kimg : l .img = true) (kout : l .out = true) (kfree : l .free = true) (h : Kept l o s) {t : State} (e : execToolDrainCut p s = .next t) :
    Kept l o t := by
  cases e
  repeat' first
    | with_reducible assumption
    | exact fun hw => hw
    | intro _
    | with_reducible apply State.whenServing_kept
    | with_reducible apply State.reach_kept
    | with_reducible apply State.disableLink_kept
    | with_reducible apply State.fc0_kept
    | with_reducible apply State.foldl_kept
    | exact ⟨Nat.le_refl _, fun hw => hw⟩
    | with_reducible apply Kept.ite
    | split
    | extract_lets
    | (dsimp +zetaDelta only; split)
    | (simp +zetaDelta [*]; done)
    | (simp only [Sys.wf, HostIf.wf, Flt.wf, Eng.wf, Fab.wf, Tabs.wf, Home.wf, Bel.wf, Rec.wf] at *; simp +zetaDelta [*]; done)

theorem State.proofExpires_kept {s : State} {n : Nat} (kregs : l .regs = true) (khost : l .host = true) (kflt : l .flt = true) (kports : l .ports = true) (kimg : l .img = true) (kout : l .out = true) (kfree : l .free = true) (h : Kept l o s) :
    Kept l o (State.proofExpires n s) := by
  unfold State.proofExpires
  repeat' first
    | with_reducible assumption
    | exact fun hw => hw
    | intro _
    | with_reducible apply State.condition_kept
    | with_reducible apply State.onPortN_kept
    | with_reducible apply State.foldl_kept
    | exact ⟨Nat.le_refl _, fun hw => hw⟩
    | with_reducible apply Kept.ite
    | split
    | extract_lets
    | (dsimp +zetaDelta only; split)
    | (simp +zetaDelta [*]; done)
    | (simp only [HostIf.wf, Flt.wf] at *; simp +zetaDelta [*]; done)

theorem execProofSample_kept {s : State} {p : PortId} {reading : Option (BitVec 16)} (kregs : l .regs = true) (ksys : l .sys = true) (kpit : l .pit = true) (khost : l .host = true) (kflt : l .flt = true) (keng : l .eng = true) (kports : l .ports = true) (ktool : l .tool = true) (ktabs : l .tabs = true) (kbel : l .bel = true) (krecorder : l .recorder = true) (kimg : l .img = true) (kout : l .out = true) (kfree : l .free = true) (h : Kept l o s) {t : State} (e : execProofSample p reading s = .next t) :
    Kept l o t := by
  cases e
  repeat' first
    | with_reducible assumption
    | exact fun hw => hw
    | intro _
    | with_reducible apply State.whenServing_kept
    | with_reducible apply State.reach_kept
    | with_reducible apply State.onTool_kept
    | with_reducible apply State.emit_kept
    | with_reducible apply State.captureSide_kept
    | with_reducible apply State.onPort_kept
    | with_reducible apply State.proofExpires_kept
    | with_reducible apply State.settleGroup_kept
    | with_reducible apply State.foldl_kept
    | exact ⟨Nat.le_refl _, fun hw => hw⟩
    | with_reducible apply Kept.ite
    | split
    | extract_lets
    | (dsimp +zetaDelta only; split)
    | (simp +zetaDelta [*]; done)
    | (simp only [Sys.wf, HostIf.wf, Flt.wf, Eng.wf, Tool.wf, Tabs.wf, Bel.wf, Rec.wf] at *; simp +zetaDelta [*]; done)

theorem execProofDeadline_kept {s : State} {p : PortId} (kregs : l .regs = true) (kpit : l .pit = true) (khost : l .host = true) (kflt : l .flt = true) (keng : l .eng = true) (kports : l .ports = true) (ktabs : l .tabs = true) (kbel : l .bel = true) (kimg : l .img = true) (kout : l .out = true) (kfree : l .free = true) (h : Kept l o s) {t : State} (e : execProofDeadline p s = .next t) :
    Kept l o t := by
  cases e
  repeat' first
    | with_reducible assumption
    | exact fun hw => hw
    | intro _
    | with_reducible apply State.whenServing_kept
    | with_reducible apply State.proofExpires_kept
    | with_reducible apply State.reach_kept
    | with_reducible apply State.foldl_kept
    | exact ⟨Nat.le_refl _, fun hw => hw⟩
    | with_reducible apply Kept.ite
    | split
    | extract_lets
    | (dsimp +zetaDelta only; split)
    | (simp +zetaDelta [*]; done)
    | (simp only [HostIf.wf, Flt.wf, Eng.wf, Tabs.wf, Bel.wf] at *; simp +zetaDelta [*]; done)

theorem execTcrNRise_kept {s : State} {g : GroupId} (kregs : l .regs = true) (ksys : l .sys = true) (kpit : l .pit = true) (khost : l .host = true) (kflt : l .flt = true) (keng : l .eng = true) (kports : l .ports = true) (ktool : l .tool = true) (ktabs : l .tabs = true) (kbel : l .bel = true) (krecorder : l .recorder = true) (kimg : l .img = true) (kout : l .out = true) (kfree : l .free = true) (h : Kept l o s) {t : State} (e : execTcrNRise g s = .next t) :
    Kept l o t := by
  cases e
  repeat' first
    | with_reducible assumption
    | exact fun hw => hw
    | intro _
    | with_reducible apply State.tcrEdge_kept
    | with_reducible apply State.onSys_kept
    | with_reducible apply State.whenServing_kept
    | with_reducible apply State.onTool_kept
    | with_reducible apply State.tcrFiltered_kept
    | with_reducible apply State.forAll_kept
    | with_reducible apply State.captureSide_kept
    | with_reducible apply State.settleGroup_kept
    | with_reducible apply State.foldl_kept
    | exact ⟨Nat.le_refl _, fun hw => hw⟩
    | with_reducible apply Kept.ite
    | split
    | extract_lets
    | (dsimp +zetaDelta only; split)
    | (simp +zetaDelta [*]; done)
    | (simp only [Sys.wf, HostIf.wf, Flt.wf, Eng.wf, Tool.wf, Tabs.wf, Bel.wf, Rec.wf] at *; simp +zetaDelta [*]; done)

end Sys2Proof.Machine
end

