-- ==== Sys2Proof/Laws/KeptHost.lean ====
section
/-! SUPPORT. What the operations and meanings keep (Laws/Kept.lean), for the host interface's commands and the recorder. -/

namespace Sys2Proof.Machine

variable {l : Part → Bool} {o : State}

/-! ### Machine/Tables.lean -/

theorem State.withObject_kept {s : State} {h1 : Hdr} {o1 : HRef} {len : Nat} {need : Need} {f : State → State} (kregs : l .regs = true) (khost : l .host = true) (kflt : l .flt = true) (kbel : l .bel = true) (kimg : l .img = true) (kout : l .out = true) (kfree : l .free = true) (fK : ∀ x, Kept l o x → Kept l o (f x)) (h : Kept l o s) :
    Kept l o (State.withObject h1 o1 len need f s) := by
  unfold State.withObject
  repeat' first
    | with_reducible assumption
    | exact fun hw => hw
    | intro _
    | with_reducible apply fK
    | with_reducible apply State.countParts_kept
    | with_reducible apply State.complete_kept
    | with_reducible apply State.reportAcc_kept
    | with_reducible apply State.countMiss_kept
    | with_reducible apply State.foldl_kept
    | exact ⟨Nat.le_refl _, fun hw => hw⟩
    | with_reducible apply Kept.ite
    | split
    | extract_lets
    | (dsimp +zetaDelta only; split)
    | (simp +zetaDelta [*]; done)
    | (simp only [HostIf.wf, Flt.wf, Bel.wf] at *; simp +zetaDelta [*]; done)

theorem State.setWin_kept {s : State} {i : Nat} {w : Option DWin} (ktabs : l .tabs = true) (h : Kept l o s) :
    Kept l o (State.setWin i w s) := by
  unfold State.setWin
  repeat' first
    | with_reducible assumption
    | exact fun hw => hw
    | intro _
    | with_reducible apply State.onTabs_kept
    | with_reducible apply State.foldl_kept
    | exact ⟨Nat.le_refl _, fun hw => hw⟩
    | with_reducible apply Kept.ite
    | split
    | extract_lets
    | (dsimp +zetaDelta only; split)
    | (simp +zetaDelta [*]; done)
    | (simp only [Tabs.wf] at *; simp +zetaDelta [*]; done)

theorem State.beginUnbind_kept {s : State} {l1 : List (Nat × Nat)} {old : DWin} (ktabs : l .tabs = true) (h : Kept l o s) :
    Kept l o (State.beginUnbind l1 old s) := by
  unfold State.beginUnbind
  repeat' first
    | with_reducible assumption
    | exact fun hw => hw
    | intro _
    | with_reducible apply State.onTabs_kept
    | with_reducible apply State.foldl_kept
    | exact ⟨Nat.le_refl _, fun hw => hw⟩
    | with_reducible apply Kept.ite
    | split
    | extract_lets
    | (dsimp +zetaDelta only; split)
    | (simp +zetaDelta [*]; done)
    | (simp only [Tabs.wf] at *; simp +zetaDelta [*]; done)

theorem State.putWin_kept {s : State} {i : Nat} {w : Option DWin} (kregs : l .regs = true) (ktabs : l .tabs = true) (krecorder : l .recorder = true) (h : Kept l o s) :
    Kept l o (State.putWin i w s) := by
  unfold State.putWin
  repeat' first
    | with_reducible assumption
    | exact fun hw => hw
    | intro _
    | with_reducible apply State.beginUnbind_kept
    | with_reducible apply State.captureCfg_kept
    | with_reducible apply State.setWin_kept
    | with_reducible apply State.foldl_kept
    | exact ⟨Nat.le_refl _, fun hw => hw⟩
    | with_reducible apply Kept.ite
    | split
    | extract_lets
    | (dsimp +zetaDelta only; split)
    | (simp +zetaDelta [*]; done)
    | (simp only [Tabs.wf, Rec.wf] at *; simp +zetaDelta [*]; done)

theorem State.putRule_kept {s : State} {key : Nat} {r : Option Rule} (kregs : l .regs = true) (kdom : l .dom = true) (krecorder : l .recorder = true) (h : Kept l o s) :
    Kept l o (State.putRule key r s) := by
  unfold State.putRule
  repeat' first
    | with_reducible assumption
    | exact fun hw => hw
    | intro _
    | with_reducible apply State.captureCfg_kept
    | with_reducible apply State.onDom_kept
    | with_reducible apply State.foldl_kept
    | exact ⟨Nat.le_refl _, fun hw => hw⟩
    | with_reducible apply Kept.ite
    | split
    | extract_lets
    | (dsimp +zetaDelta only; split)
    | (simp +zetaDelta [*]; done)
    | (simp only [Dom.wf, Rec.wf] at *; simp +zetaDelta [*]; done)

theorem State.revoke_kept {s : State} {d : Nat} {old : Option Rule} (kregs : l .regs = true) (khost : l .host = true) (kflt : l .flt = true) (kdom : l .dom = true) (kfab : l .fab = true) (khome : l .home = true) (kbel : l .bel = true) (krecorder : l .recorder = true) (kimg : l .img = true) (kout : l .out = true) (kfree : l .free = true) (h : Kept l o s) :
    Kept l o (State.revoke d old s) := by
  unfold State.revoke
  repeat' first
    | with_reducible assumption
    | exact fun hw => hw
    | intro _
    | with_reducible apply State.fc0_kept
    | with_reducible apply State.onDom_kept
    | with_reducible apply State.settle_kept
    | with_reducible apply State.forAll_kept
    | with_reducible apply State.evictLine_kept
    | with_reducible apply State.foldl_kept
    | exact ⟨Nat.le_refl _, fun hw => hw⟩
    | with_reducible apply Kept.ite
    | split
    | extract_lets
    | (dsimp +zetaDelta only; split)
    | (simp +zetaDelta [*]; done)
    | (simp only [HostIf.wf, Flt.wf, Dom.wf, Fab.wf, Home.wf, Bel.wf, Rec.wf] at *; simp +zetaDelta [*]; done)

theorem State.put_kept {s : State} {x : TabWrite} (kregs : l .regs = true) (kdom : l .dom = true) (ktabs : l .tabs = true) (krecorder : l .recorder = true) (h : Kept l o s) :
    Kept l o (State.put x s) := by
  unfold State.put
  repeat' first
    | with_reducible assumption
    | exact fun hw => hw
    | intro _
    | with_reducible apply State.putWin_kept
    | with_reducible apply State.captureCfg_kept
    | with_reducible apply State.onTabs_kept
    | with_reducible apply State.onDom_kept
    | with_reducible apply State.putRule_kept
    | with_reducible apply State.putBucket_kept
    | with_reducible apply State.clearBucket_kept
    | with_reducible apply State.foldl_kept
    | exact ⟨Nat.le_refl _, fun hw => hw⟩
    | with_reducible apply Kept.ite
    | split
    | extract_lets
    | (dsimp +zetaDelta only; split)
    | (simp +zetaDelta [*]; done)
    | (simp only [Dom.wf, Tabs.wf, Rec.wf] at *; simp +zetaDelta [*]; done)

theorem State.tableCommand_kept {s : State} {h1 : Hdr} {c : Instr} {x : TabWrite} {after : State → State} (kregs : l .regs = true) (khost : l .host = true) (kflt : l .flt = true) (kdom : l .dom = true) (kfab : l .fab = true) (ktabs : l .tabs = true) (krecorder : l .recorder = true) (kimg : l .img = true) (kout : l .out = true) (kfree : l .free = true) (afterK : ∀ x, Kept l o x → Kept l o (after x)) (h : Kept l o s) :
    Kept l o (State.tableCommand h1 c x after s) := by
  unfold State.tableCommand
  repeat' first
    | with_reducible assumption
    | exact fun hw => hw
    | intro _
    | with_reducible apply afterK
    | with_reducible apply State.done_kept
    | with_reducible apply State.tableChange_kept
    | with_reducible apply State.put_kept
    | with_reducible apply State.foldl_kept
    | exact ⟨Nat.le_refl _, fun hw => hw⟩
    | with_reducible apply Kept.ite
    | split
    | extract_lets
    | (dsimp +zetaDelta only; split)
    | (simp +zetaDelta [*]; done)
    | (simp only [HostIf.wf, Flt.wf, Dom.wf, Fab.wf, Tabs.wf, Rec.wf] at *; simp +zetaDelta [*]; done)

theorem execWindowBind_kept {s : State} {h1 : Hdr} {index : Word32} {entry : Entry} (kregs : l .regs = true) (khost : l .host = true) (kflt : l .flt = true) (kdom : l .dom = true) (kfab : l .fab = true) (ktabs : l .tabs = true) (krecorder : l .recorder = true) (kimg : l .img = true) (kout : l .out = true) (kfree : l .free = true) (h : Kept l o s) {t : State} (e : execWindowBind h1 index entry s = .next t) :
    Kept l o t := by
  cases e
  repeat' first
    | with_reducible assumption
    | exact fun hw => hw
    | intro _
    | with_reducible apply State.manager_kept
    | with_reducible apply State.done_kept
    | with_reducible apply State.onTabs_kept
    | with_reducible apply State.tableCommand_kept
    | with_reducible apply State.foldl_kept
    | exact ⟨Nat.le_refl _, fun hw => hw⟩
    | with_reducible apply Kept.ite
    | split
    | extract_lets
    | (dsimp +zetaDelta only; split)
    | (simp +zetaDelta [*]; done)
    | (simp only [HostIf.wf, Flt.wf, Dom.wf, Fab.wf, Tabs.wf, Rec.wf] at *; simp +zetaDelta [*]; done)

theorem execWindowUnbind_kept {s : State} {h1 : Hdr} {index : Word32} (kregs : l .regs = true) (khost : l .host = true) (kflt : l .flt = true) (kdom : l .dom = true) (kfab : l .fab = true) (ktabs : l .tabs = true) (krecorder : l .recorder = true) (kimg : l .img = true) (kout : l .out = true) (kfree : l .free = true) (h : Kept l o s) {t : State} (e : execWindowUnbind h1 index s = .next t) :
    Kept l o t := by
  cases e
  repeat' first
    | with_reducible assumption
    | exact fun hw => hw
    | intro _
    | with_reducible apply State.manager_kept
    | with_reducible apply State.done_kept
    | with_reducible apply State.tableCommand_kept
    | with_reducible apply State.foldl_kept
    | exact ⟨Nat.le_refl _, fun hw => hw⟩
    | with_reducible apply Kept.ite
    | split
    | extract_lets
    | (dsimp +zetaDelta only; split)
    | (simp +zetaDelta [*]; done)
    | (simp only [HostIf.wf, Flt.wf, Dom.wf, Fab.wf, Tabs.wf, Rec.wf] at *; simp +zetaDelta [*]; done)

theorem execTlistWrite_kept {s : State} {h1 : Hdr} {index : Word32} {o1 : HRef} {targets : List Word32} (kregs : l .regs = true) (khost : l .host = true) (kflt : l .flt = true) (kdom : l .dom = true) (kfab : l .fab = true) (ktabs : l .tabs = true) (kbel : l .bel = true) (krecorder : l .recorder = true) (kimg : l .img = true) (kout : l .out = true) (kfree : l .free = true) (h : Kept l o s) {t : State} (e : execTlistWrite h1 index o1 targets s = .next t) :
    Kept l o t := by
  cases e
  repeat' first
    | with_reducible assumption
    | exact fun hw => hw
    | intro _
    | with_reducible apply State.manager_kept
    | with_reducible apply State.withObject_kept
    | with_reducible apply State.bad_kept
    | with_reducible apply State.tableCommand_kept
    | with_reducible apply State.foldl_kept
    | exact ⟨Nat.le_refl _, fun hw => hw⟩
    | with_reducible apply Kept.ite
    | split
    | extract_lets
    | (dsimp +zetaDelta only; split)
    | (simp +zetaDelta [*]; done)
    | (simp only [HostIf.wf, Flt.wf, Dom.wf, Fab.wf, Tabs.wf, Bel.wf, Rec.wf] at *; simp +zetaDelta [*]; done)

theorem execPbrWrite_kept {s : State} {h1 : Hdr} {index : Word32} {entry : BitVec 16} (kregs : l .regs = true) (khost : l .host = true) (kflt : l .flt = true) (kdom : l .dom = true) (kfab : l .fab = true) (ktabs : l .tabs = true) (krecorder : l .recorder = true) (kimg : l .img = true) (kout : l .out = true) (kfree : l .free = true) (h : Kept l o s) {t : State} (e : execPbrWrite h1 index entry s = .next t) :
    Kept l o t := by
  cases e
  repeat' first
    | with_reducible assumption
    | exact fun hw => hw
    | intro _
    | with_reducible apply State.manager_kept
    | with_reducible apply State.tableCommand_kept
    | with_reducible apply State.foldl_kept
    | exact ⟨Nat.le_refl _, fun hw => hw⟩
    | with_reducible apply Kept.ite
    | split
    | extract_lets
    | (dsimp +zetaDelta only; split)
    | (simp +zetaDelta [*]; done)
    | (simp only [HostIf.wf, Flt.wf, Dom.wf, Fab.wf, Tabs.wf, Rec.wf] at *; simp +zetaDelta [*]; done)

theorem execLdBind_kept {s : State} {h1 : Hdr} {index : Word32} {aux : Word32} (kregs : l .regs = true) (khost : l .host = true) (kflt : l .flt = true) (kdom : l .dom = true) (kfab : l .fab = true) (ktabs : l .tabs = true) (krecorder : l .recorder = true) (kimg : l .img = true) (kout : l .out = true) (kfree : l .free = true) (h : Kept l o s) {t : State} (e : execLdBind h1 index aux s = .next t) :
    Kept l o t := by
  cases e
  repeat' first
    | with_reducible assumption
    | exact fun hw => hw
    | intro _
    | with_reducible apply State.manager_kept
    | with_reducible apply State.denied_kept
    | with_reducible apply State.tableCommand_kept
    | with_reducible apply State.foldl_kept
    | exact ⟨Nat.le_refl _, fun hw => hw⟩
    | with_reducible apply Kept.ite
    | split
    | extract_lets
    | (dsimp +zetaDelta only; split)
    | (simp +zetaDelta [*]; done)
    | (simp only [HostIf.wf, Flt.wf, Dom.wf, Fab.wf, Tabs.wf, Rec.wf] at *; simp +zetaDelta [*]; done)

theorem execLdUnbind_kept {s : State} {h1 : Hdr} {index : Word32} {aux : Word32} (kregs : l .regs = true) (khost : l .host = true) (kflt : l .flt = true) (kdom : l .dom = true) (kfab : l .fab = true) (ktabs : l .tabs = true) (krecorder : l .recorder = true) (kimg : l .img = true) (kout : l .out = true) (kfree : l .free = true) (h : Kept l o s) {t : State} (e : execLdUnbind h1 index aux s = .next t) :
    Kept l o t := by
  cases e
  repeat' first
    | with_reducible assumption
    | exact fun hw => hw
    | intro _
    | with_reducible apply State.manager_kept
    | with_reducible apply State.denied_kept
    | with_reducible apply State.done_kept
    | with_reducible apply State.tableCommand_kept
    | with_reducible apply State.foldl_kept
    | exact ⟨Nat.le_refl _, fun hw => hw⟩
    | with_reducible apply Kept.ite
    | split
    | extract_lets
    | (dsimp +zetaDelta only; split)
    | (simp +zetaDelta [*]; done)
    | (simp only [HostIf.wf, Flt.wf, Dom.wf, Fab.wf, Tabs.wf, Rec.wf] at *; simp +zetaDelta [*]; done)

theorem execPortRidmap_kept {s : State} {h1 : Hdr} {index : Word32} {sub : Fin 16} {entry : Word} (kregs : l .regs = true) (khost : l .host = true) (kflt : l .flt = true) (kdom : l .dom = true) (kfab : l .fab = true) (ktabs : l .tabs = true) (krecorder : l .recorder = true) (kimg : l .img = true) (kout : l .out = true) (kfree : l .free = true) (h : Kept l o s) {t : State} (e : execPortRidmap h1 index sub entry s = .next t) :
    Kept l o t := by
  cases e
  repeat' first
    | with_reducible assumption
    | exact fun hw => hw
    | intro _
    | with_reducible apply State.manager_kept
    | with_reducible apply State.tableCommand_kept
    | with_reducible apply State.foldl_kept
    | exact ⟨Nat.le_refl _, fun hw => hw⟩
    | with_reducible apply Kept.ite
    | split
    | extract_lets
    | (dsimp +zetaDelta only; split)
    | (simp +zetaDelta [*]; done)
    | (simp only [HostIf.wf, Flt.wf, Dom.wf, Fab.wf, Tabs.wf, Rec.wf] at *; simp +zetaDelta [*]; done)

theorem State.runRule_kept {s : State} {h1 : Hdr} {key : Nat} {r : Option Rule} {revoke : Bool} {c : Instr} (kregs : l .regs = true) (khost : l .host = true) (kflt : l .flt = true) (kdom : l .dom = true) (kfab : l .fab = true) (ktabs : l .tabs = true) (khome : l .home = true) (kbel : l .bel = true) (krecorder : l .recorder = true) (kimg : l .img = true) (kout : l .out = true) (kfree : l .free = true) (h : Kept l o s) :
    Kept l o (State.runRule h1 key r revoke c s) := by
  unfold State.runRule
  repeat' first
    | with_reducible assumption
    | exact fun hw => hw
    | intro _
    | with_reducible apply State.tableCommand_kept
    | with_reducible apply State.revoke_kept
    | with_reducible apply State.foldl_kept
    | exact ⟨Nat.le_refl _, fun hw => hw⟩
    | with_reducible apply Kept.ite
    | split
    | extract_lets
    | (dsimp +zetaDelta only; split)
    | (simp +zetaDelta [*]; done)
    | (simp only [HostIf.wf, Flt.wf, Dom.wf, Fab.wf, Tabs.wf, Home.wf, Bel.wf, Rec.wf] at *; simp +zetaDelta [*]; done)

theorem execRuleWrite_kept {s : State} {h1 : Hdr} {index : Word32} {revoke : Bool} {entry : Entry} (kregs : l .regs = true) (khost : l .host = true) (kflt : l .flt = true) (kdom : l .dom = true) (kfab : l .fab = true) (ktabs : l .tabs = true) (khome : l .home = true) (kbel : l .bel = true) (krecorder : l .recorder = true) (kimg : l .img = true) (kout : l .out = true) (kfree : l .free = true) (h : Kept l o s) {t : State} (e : execRuleWrite h1 index revoke entry s = .next t) :
    Kept l o t := by
  cases e
  repeat' first
    | with_reducible assumption
    | exact fun hw => hw
    | intro _
    | with_reducible apply State.manager_kept
    | with_reducible apply State.runRule_kept
    | with_reducible apply State.foldl_kept
    | exact ⟨Nat.le_refl _, fun hw => hw⟩
    | with_reducible apply Kept.ite
    | split
    | extract_lets
    | (dsimp +zetaDelta only; split)
    | (simp +zetaDelta [*]; done)
    | (simp only [HostIf.wf, Flt.wf, Dom.wf, Fab.wf, Tabs.wf, Home.wf, Bel.wf, Rec.wf] at *; simp +zetaDelta [*]; done)

theorem execRuleClear_kept {s : State} {h1 : Hdr} {index : Word32} {revoke : Bool} (kregs : l .regs = true) (khost : l .host = true) (kflt : l .flt = true) (kdom : l .dom = true) (kfab : l .fab = true) (ktabs : l .tabs = true) (khome : l .home = true) (kbel : l .bel = true) (krecorder : l .recorder = true) (kimg : l .img = true) (kout : l .out = true) (kfree : l .free = true) (h : Kept l o s) {t : State} (e : execRuleClear h1 index revoke s = .next t) :
    Kept l o t := by
  cases e
  repeat' first
    | with_reducible assumption
    | exact fun hw => hw
    | intro _
    | with_reducible apply State.manager_kept
    | with_reducible apply State.runRule_kept
    | with_reducible apply State.foldl_kept
    | exact ⟨Nat.le_refl _, fun hw => hw⟩
    | with_reducible apply Kept.ite
    | split
    | extract_lets
    | (dsimp +zetaDelta only; split)
    | (simp +zetaDelta [*]; done)
    | (simp only [HostIf.wf, Flt.wf, Dom.wf, Fab.wf, Tabs.wf, Home.wf, Bel.wf, Rec.wf] at *; simp +zetaDelta [*]; done)

theorem execTableRead_kept {s : State} {h1 : Hdr} {table : Byte} {index : Word32} {sub : Fin 16} {o1 : HRef} (kregs : l .regs = true) (khost : l .host = true) (kflt : l .flt = true) (kbel : l .bel = true) (kimg : l .img = true) (kout : l .out = true) (kfree : l .free = true) (h : Kept l o s) {t : State} (e : execTableRead h1 table index sub o1 s = .next t) :
    Kept l o t := by
  cases e
  repeat' first
    | with_reducible assumption
    | exact fun hw => hw
    | intro _
    | with_reducible apply State.command_kept
    | with_reducible apply State.bad_kept
    | with_reducible apply State.withObject_kept
    | with_reducible apply State.done_kept
    | with_reducible apply State.emit_kept
    | with_reducible apply State.foldl_kept
    | exact ⟨Nat.le_refl _, fun hw => hw⟩
    | with_reducible apply Kept.ite
    | split
    | extract_lets
    | (dsimp +zetaDelta only; split)
    | (simp +zetaDelta [*]; done)
    | (simp only [HostIf.wf, Flt.wf, Bel.wf] at *; simp +zetaDelta [*]; done)

theorem State.rtMakeRoom_kept {s : State} {la : Nat} (kregs : l .regs = true) (khost : l .host = true) (kflt : l .flt = true) (kfab : l .fab = true) (khome : l .home = true) (kbel : l .bel = true) (kimg : l .img = true) (kout : l .out = true) (kfree : l .free = true) (h : Kept l o s) :
    Kept l o (State.rtMakeRoom la s) := by
  unfold State.rtMakeRoom
  repeat' first
    | with_reducible assumption
    | exact fun hw => hw
    | intro _
    | with_reducible apply State.evictLine_kept
    | with_reducible apply State.bump_kept
    | with_reducible apply State.issueWb_kept
    | with_reducible apply State.foldl_kept
    | exact ⟨Nat.le_refl _, fun hw => hw⟩
    | with_reducible apply Kept.ite
    | split
    | extract_lets
    | (dsimp +zetaDelta only; split)
    | (simp +zetaDelta [*]; done)
    | (simp only [HostIf.wf, Flt.wf, Fab.wf, Home.wf, Bel.wf] at *; simp +zetaDelta [*]; done)

theorem State.installRt_kept {s : State} {la : Nat} (khome : l .home = true) (kfree : l .free = true) (h : Kept l o s) :
    Kept l o (State.installRt la s) := by
  unfold State.installRt
  repeat' first
    | with_reducible assumption
    | exact fun hw => hw
    | intro _
    | with_reducible apply State.touchDir_kept
    | with_reducible apply State.setDir_kept
    | with_reducible apply State.nextFree_kept
    | with_reducible apply State.touchOlc_kept
    | with_reducible apply State.setOlc_kept
    | with_reducible apply State.foldl_kept
    | exact ⟨Nat.le_refl _, fun hw => hw⟩
    | with_reducible apply Kept.ite
    | split
    | extract_lets
    | (dsimp +zetaDelta only; split)
    | (simp +zetaDelta [*]; done)
    | (simp only [Home.wf] at *; simp +zetaDelta [*]; done)

theorem execRtLoadEnd_kept {s : State} {index : Fin 16384} (kregs : l .regs = true) (khost : l .host = true) (kflt : l .flt = true) (kfab : l .fab = true) (ktabs : l .tabs = true) (khome : l .home = true) (kbel : l .bel = true) (krecorder : l .recorder = true) (kimg : l .img = true) (kout : l .out = true) (kfree : l .free = true) (h : Kept l o s) {t : State} (e : execRtLoadEnd index s = .next t) :
    Kept l o t := by
  cases e
  repeat' first
    | with_reducible assumption
    | exact fun hw => hw
    | intro _
    | with_reducible apply State.settle_kept
    | with_reducible apply State.forAll_kept
    | with_reducible apply State.rtMakeRoom_kept
    | with_reducible apply State.installRt_kept
    | with_reducible apply State.onTabs_kept
    | with_reducible apply State.tell_kept
    | with_reducible apply State.putWin_kept
    | with_reducible apply State.openEpoch_kept
    | with_reducible apply State.foldl_kept
    | exact ⟨Nat.le_refl _, fun hw => hw⟩
    | with_reducible apply Kept.ite
    | split
    | extract_lets
    | (dsimp +zetaDelta only; split)
    | (simp +zetaDelta [*]; done)
    | (simp only [HostIf.wf, Flt.wf, Fab.wf, Tabs.wf, Home.wf, Bel.wf, Rec.wf] at *; simp +zetaDelta [*]; done)

/-! ### Machine/RingOps.lean -/

theorem State.watch_kept {s : State} {r : Ring} (kregs : l .regs = true) (khost : l .host = true) (kflt : l .flt = true) (kfab : l .fab = true) (khome : l .home = true) (kbel : l .bel = true) (krecorder : l .recorder = true) (kimg : l .img = true) (kout : l .out = true) (kfree : l .free = true) (h : Kept l o s) :
    Kept l o (State.watch r s) := by
  unfold State.watch
  repeat' first
    | with_reducible assumption
    | exact fun hw => hw
    | intro _
    | with_reducible apply State.settle_kept
    | with_reducible apply State.onHome_kept
    | with_reducible apply State.foldl_kept
    | exact ⟨Nat.le_refl _, fun hw => hw⟩
    | with_reducible apply Kept.ite
    | split
    | extract_lets
    | (dsimp +zetaDelta only; split)
    | (simp +zetaDelta [*]; done)
    | (simp only [HostIf.wf, Flt.wf, Fab.wf, Home.wf, Bel.wf, Rec.wf] at *; simp +zetaDelta [*]; done)

theorem State.unwatch_kept {s : State} {r : Ring} (kregs : l .regs = true) (khost : l .host = true) (kflt : l .flt = true) (kfab : l .fab = true) (khome : l .home = true) (kbel : l .bel = true) (krecorder : l .recorder = true) (kimg : l .img = true) (kout : l .out = true) (kfree : l .free = true) (h : Kept l o s) :
    Kept l o (State.unwatch r s) := by
  unfold State.unwatch
  repeat' first
    | with_reducible assumption
    | exact fun hw => hw
    | intro _
    | with_reducible apply State.onHome_kept
    | with_reducible apply State.setDir_kept
    | with_reducible apply State.settle_kept
    | with_reducible apply State.resolve_kept
    | with_reducible apply State.foldl_kept
    | exact ⟨Nat.le_refl _, fun hw => hw⟩
    | with_reducible apply Kept.ite
    | split
    | extract_lets
    | (dsimp +zetaDelta only; split)
    | (simp +zetaDelta [*]; done)
    | (simp only [HostIf.wf, Flt.wf, Fab.wf, Home.wf, Bel.wf, Rec.wf] at *; simp +zetaDelta [*]; done)

theorem State.setQueue_kept {s : State} {n : Nat} {isEvq : Bool} {r : Option Ring} (khost : l .host = true) (h : Kept l o s) :
    Kept l o (State.setQueue n isEvq r s) := by
  unfold State.setQueue
  repeat' first
    | with_reducible assumption
    | exact fun hw => hw
    | intro _
    | with_reducible apply State.setEvq_kept
    | with_reducible apply State.setRing_kept
    | with_reducible apply State.foldl_kept
    | exact ⟨Nat.le_refl _, fun hw => hw⟩
    | with_reducible apply Kept.ite
    | split
    | extract_lets
    | (dsimp +zetaDelta only; split)
    | (simp +zetaDelta [*]; done)
    | (simp only [HostIf.wf] at *; simp +zetaDelta [*]; done)

theorem State.readDoorbell_kept {s : State} {n : Nat} {isEvq : Bool} (kout : l .out = true) (h : Kept l o s) :
    Kept l o (State.readDoorbell n isEvq s) := by
  unfold State.readDoorbell
  repeat' first
    | with_reducible assumption
    | exact fun hw => hw
    | intro _
    | with_reducible apply State.emit_kept
    | with_reducible apply State.foldl_kept
    | exact ⟨Nat.le_refl _, fun hw => hw⟩
    | with_reducible apply Kept.ite
    | split
    | extract_lets
    | (dsimp +zetaDelta only; split)
    | (simp +zetaDelta [*]; done)

theorem State.addQueue_kept {s : State} {n : Nat} {isEvq : Bool} {r : Ring} (kregs : l .regs = true) (khost : l .host = true) (kflt : l .flt = true) (kfab : l .fab = true) (khome : l .home = true) (kbel : l .bel = true) (krecorder : l .recorder = true) (kimg : l .img = true) (kout : l .out = true) (kfree : l .free = true) (h : Kept l o s) :
    Kept l o (State.addQueue n isEvq r s) := by
  unfold State.addQueue
  repeat' first
    | with_reducible assumption
    | exact fun hw => hw
    | intro _
    | with_reducible apply State.readDoorbell_kept
    | with_reducible apply State.watch_kept
    | with_reducible apply State.setQueue_kept
    | with_reducible apply State.foldl_kept
    | exact ⟨Nat.le_refl _, fun hw => hw⟩
    | with_reducible apply Kept.ite
    | split
    | extract_lets
    | (dsimp +zetaDelta only; split)
    | (simp +zetaDelta [*]; done)
    | (simp only [HostIf.wf, Flt.wf, Fab.wf, Home.wf, Bel.wf, Rec.wf] at *; simp +zetaDelta [*]; done)

theorem State.dropQueue_kept {s : State} {n : Nat} {isEvq : Bool} (kregs : l .regs = true) (khost : l .host = true) (kflt : l .flt = true) (kfab : l .fab = true) (khome : l .home = true) (kbel : l .bel = true) (krecorder : l .recorder = true) (kimg : l .img = true) (kout : l .out = true) (kfree : l .free = true) (h : Kept l o s) :
    Kept l o (State.dropQueue n isEvq s) := by
  unfold State.dropQueue
  repeat' first
    | with_reducible assumption
    | exact fun hw => hw
    | intro _
    | with_reducible apply State.unwatch_kept
    | with_reducible apply State.setQueue_kept
    | with_reducible apply State.foldl_kept
    | exact ⟨Nat.le_refl _, fun hw => hw⟩
    | with_reducible apply Kept.ite
    | split
    | extract_lets
    | (dsimp +zetaDelta only; split)
    | (simp +zetaDelta [*]; done)
    | (simp only [HostIf.wf, Flt.wf, Fab.wf, Home.wf, Bel.wf, Rec.wf] at *; simp +zetaDelta [*]; done)

theorem State.takeIndex_kept {s : State} {n : Nat} {isEvq : Bool} {r : Ring} {idx : Nat} (kregs : l .regs = true) (khost : l .host = true) (kflt : l .flt = true) (kimg : l .img = true) (kout : l .out = true) (kfree : l .free = true) (h : Kept l o s) :
    Kept l o (State.takeIndex n isEvq r idx s) := by
  unfold State.takeIndex
  repeat' first
    | with_reducible assumption
    | exact fun hw => hw
    | intro _
    | with_reducible apply State.ringError_kept
    | with_reducible apply State.setQueue_kept
    | with_reducible apply State.signal_kept
    | with_reducible apply State.foldl_kept
    | exact ⟨Nat.le_refl _, fun hw => hw⟩
    | with_reducible apply Kept.ite
    | split
    | extract_lets
    | (dsimp +zetaDelta only; split)
    | (simp +zetaDelta [*]; done)
    | (simp only [HostIf.wf, Flt.wf] at *; simp +zetaDelta [*]; done)

theorem State.takeDoorbell_kept {s : State} {n : Nat} {isEvq : Bool} {w : Nat} (kregs : l .regs = true) (khost : l .host = true) (kflt : l .flt = true) (kimg : l .img = true) (kout : l .out = true) (kfree : l .free = true) (h : Kept l o s) :
    Kept l o (State.takeDoorbell n isEvq w s) := by
  unfold State.takeDoorbell
  repeat' first
    | with_reducible assumption
    | exact fun hw => hw
    | intro _
    | with_reducible apply State.bump_kept
    | with_reducible apply State.takeIndex_kept
    | with_reducible apply State.foldl_kept
    | exact ⟨Nat.le_refl _, fun hw => hw⟩
    | with_reducible apply Kept.ite
    | split
    | extract_lets
    | (dsimp +zetaDelta only; split)
    | (simp +zetaDelta [*]; done)
    | (simp only [HostIf.wf, Flt.wf] at *; simp +zetaDelta [*]; done)

theorem State.forgetRing_kept {s : State} {n : Nat} (keng : l .eng = true) (kfab : l .fab = true) (h : Kept l o s) :
    Kept l o (State.forgetRing n s) := by
  unfold State.forgetRing
  repeat' first
    | with_reducible assumption
    | exact fun hw => hw
    | intro _
    | with_reducible apply State.onFab_kept
    | with_reducible apply State.onEng_kept
    | with_reducible apply State.foldl_kept
    | exact ⟨Nat.le_refl _, fun hw => hw⟩
    | with_reducible apply Kept.ite
    | split
    | extract_lets
    | (dsimp +zetaDelta only; split)
    | (simp +zetaDelta [*]; done)
    | (simp only [Eng.wf, Fab.wf] at *; simp +zetaDelta [*]; done)

theorem State.destroyRing_kept {s : State} {n : Nat} (kregs : l .regs = true) (khost : l .host = true) (kflt : l .flt = true) (keng : l .eng = true) (kfab : l .fab = true) (khome : l .home = true) (kbel : l .bel = true) (krecorder : l .recorder = true) (kimg : l .img = true) (kout : l .out = true) (kfree : l .free = true) (h : Kept l o s) :
    Kept l o (State.destroyRing n s) := by
  unfold State.destroyRing
  repeat' first
    | with_reducible assumption
    | exact fun hw => hw
    | intro _
    | with_reducible apply State.setRing_kept
    | with_reducible apply State.dropQueue_kept
    | with_reducible apply State.forgetRing_kept
    | with_reducible apply State.forAll_kept
    | with_reducible apply State.done_kept
    | with_reducible apply State.foldl_kept
    | exact ⟨Nat.le_refl _, fun hw => hw⟩
    | with_reducible apply Kept.ite
    | split
    | extract_lets
    | (dsimp +zetaDelta only; split)
    | (simp +zetaDelta [*]; done)
    | (simp only [HostIf.wf, Flt.wf, Eng.wf, Fab.wf, Home.wf, Bel.wf, Rec.wf] at *; simp +zetaDelta [*]; done)

/-! ### Machine/Domains.lean -/

theorem State.zeroScratches_kept {s : State} {d : Nat} (keng : l .eng = true) (h : Kept l o s) :
    Kept l o (State.zeroScratches d s) := by
  unfold State.zeroScratches
  repeat' first
    | with_reducible assumption
    | exact fun hw => hw
    | intro _
    | with_reducible apply State.forAll_kept
    | with_reducible apply State.zeroScratch_kept
    | with_reducible apply State.foldl_kept
    | exact ⟨Nat.le_refl _, fun hw => hw⟩
    | with_reducible apply Kept.ite
    | split
    | extract_lets
    | (dsimp +zetaDelta only; split)
    | (simp +zetaDelta [*]; done)
    | (simp only [Eng.wf] at *; simp +zetaDelta [*]; done)

theorem execDomainCreate_kept {s : State} {h1 : Hdr} {w10 : Word} {w18 : Word} {w20 : Word} (kregs : l .regs = true) (khost : l .host = true) (kflt : l .flt = true) (keng : l .eng = true) (kdom : l .dom = true) (kimg : l .img = true) (kout : l .out = true) (kfree : l .free = true) (h : Kept l o s) {t : State} (e : execDomainCreate h1 w10 w18 w20 s = .next t) :
    Kept l o t := by
  cases e
  repeat' first
    | with_reducible assumption
    | exact fun hw => hw
    | intro _
    | with_reducible apply State.manager_kept
    | with_reducible apply State.denied_kept
    | with_reducible apply State.done_kept
    | with_reducible apply State.zeroScratches_kept
    | with_reducible apply State.setDomain_kept
    | with_reducible apply State.foldl_kept
    | exact ⟨Nat.le_refl _, fun hw => hw⟩
    | with_reducible apply Kept.ite
    | split
    | extract_lets
    | (dsimp +zetaDelta only; split)
    | (simp +zetaDelta [*]; done)
    | (simp only [HostIf.wf, Flt.wf, Eng.wf, Dom.wf] at *; simp +zetaDelta [*]; done)

theorem State.stopRing_kept {s : State} {n : Nat} {r : Ring} (kregs : l .regs = true) (khost : l .host = true) (kflt : l .flt = true) (kimg : l .img = true) (kout : l .out = true) (kfree : l .free = true) (h : Kept l o s) :
    Kept l o (State.stopRing n r s) := by
  unfold State.stopRing
  repeat' first
    | with_reducible assumption
    | exact fun hw => hw
    | intro _
    | with_reducible apply State.setRing_kept
    | with_reducible apply State.forAll_kept
    | with_reducible apply State.done_kept
    | with_reducible apply State.foldl_kept
    | exact ⟨Nat.le_refl _, fun hw => hw⟩
    | with_reducible apply Kept.ite
    | split
    | extract_lets
    | (dsimp +zetaDelta only; split)
    | (simp +zetaDelta [*]; done)
    | (simp only [HostIf.wf, Flt.wf] at *; simp +zetaDelta [*]; done)

theorem State.stopSlots_kept {s : State} {d : Nat} (kregs : l .regs = true) (khost : l .host = true) (kflt : l .flt = true) (keng : l .eng = true) (kimg : l .img = true) (kout : l .out = true) (kfree : l .free = true) (h : Kept l o s) :
    Kept l o (State.stopSlots d s) := by
  unfold State.stopSlots
  repeat' first
    | with_reducible assumption
    | exact fun hw => hw
    | intro _
    | with_reducible apply State.forAll_kept
    | with_reducible apply State.complete_kept
    | with_reducible apply State.setSlot_kept
    | with_reducible apply State.foldl_kept
    | exact ⟨Nat.le_refl _, fun hw => hw⟩
    | with_reducible apply Kept.ite
    | split
    | extract_lets
    | (dsimp +zetaDelta only; split)
    | (simp +zetaDelta [*]; done)
    | (simp only [HostIf.wf, Flt.wf, Eng.wf] at *; simp +zetaDelta [*]; done)

theorem State.stopItems_kept {s : State} {d : Nat} (kregs : l .regs = true) (khost : l .host = true) (kflt : l .flt = true) (keng : l .eng = true) (kfab : l .fab = true) (krecorder : l .recorder = true) (kimg : l .img = true) (kout : l .out = true) (kfree : l .free = true) (h : Kept l o s) :
    Kept l o (State.stopItems d s) := by
  unfold State.stopItems
  repeat' first
    | with_reducible assumption
    | exact fun hw => hw
    | intro _
    | with_reducible apply State.forAll_kept
    | with_reducible apply State.stopItem_kept
    | with_reducible apply State.foldl_kept
    | exact ⟨Nat.le_refl _, fun hw => hw⟩
    | with_reducible apply Kept.ite
    | split
    | extract_lets
    | (dsimp +zetaDelta only; split)
    | (simp +zetaDelta [*]; done)
    | (simp only [HostIf.wf, Flt.wf, Eng.wf, Fab.wf, Rec.wf] at *; simp +zetaDelta [*]; done)

theorem State.squashMsgs_kept {s : State} {d : Nat} {epoch : Nat} (kregs : l .regs = true) (khost : l .host = true) (kflt : l .flt = true) (kports : l .ports = true) (kfab : l .fab = true) (kimg : l .img = true) (kout : l .out = true) (kfree : l .free = true) (h : Kept l o s) :
    Kept l o (State.squashMsgs d epoch s) := by
  unfold State.squashMsgs
  repeat' first
    | with_reducible assumption
    | exact fun hw => hw
    | intro _
    | with_reducible apply State.forAll_kept
    | with_reducible apply State.bump_kept
    | with_reducible apply State.discardMsg_kept
    | with_reducible apply State.reply_kept
    | with_reducible apply State.foldl_kept
    | exact ⟨Nat.le_refl _, fun hw => hw⟩
    | with_reducible apply Kept.ite
    | split
    | extract_lets
    | (dsimp +zetaDelta only; split)
    | (simp +zetaDelta [*]; done)
    | (simp only [HostIf.wf, Flt.wf, Fab.wf] at *; simp +zetaDelta [*]; done)

theorem State.beginReset_kept {s : State} {h1 : Hdr} {d : Nat} {squash : Bool} {destroy : Bool} (kregs : l .regs = true) (khost : l .host = true) (kflt : l .flt = true) (keng : l .eng = true) (kdom : l .dom = true) (kports : l .ports = true) (kfab : l .fab = true) (krecorder : l .recorder = true) (kimg : l .img = true) (kout : l .out = true) (kfree : l .free = true) (h : Kept l o s) :
    Kept l o (State.beginReset h1 d squash destroy s) := by
  unfold State.beginReset
  repeat' first
    | with_reducible assumption
    | exact fun hw => hw
    | intro _
    | with_reducible apply State.onDom_kept
    | with_reducible apply State.setDomain_kept
    | with_reducible apply State.forAll_kept
    | with_reducible apply State.stopRing_kept
    | with_reducible apply State.stopItems_kept
    | with_reducible apply State.stopSlots_kept
    | with_reducible apply State.squashMsgs_kept
    | with_reducible apply State.foldl_kept
    | exact ⟨Nat.le_refl _, fun hw => hw⟩
    | with_reducible apply Kept.ite
    | split
    | extract_lets
    | (dsimp +zetaDelta only; split)
    | (simp +zetaDelta [*]; done)
    | (simp only [HostIf.wf, Flt.wf, Eng.wf, Dom.wf, Fab.wf, Rec.wf] at *; simp +zetaDelta [*]; done)

theorem execDomainReset_kept {s : State} {h1 : Hdr} {squash : Bool} (kregs : l .regs = true) (khost : l .host = true) (kflt : l .flt = true) (keng : l .eng = true) (kdom : l .dom = true) (kports : l .ports = true) (kfab : l .fab = true) (krecorder : l .recorder = true) (kimg : l .img = true) (kout : l .out = true) (kfree : l .free = true) (h : Kept l o s) {t : State} (e : execDomainReset h1 squash s = .next t) :
    Kept l o t := by
  cases e
  repeat' first
    | with_reducible assumption
    | exact fun hw => hw
    | intro _
    | with_reducible apply State.manager_kept
    | with_reducible apply State.denied_kept
    | with_reducible apply State.done_kept
    | with_reducible apply State.tableChange_kept
    | with_reducible apply State.beginReset_kept
    | with_reducible apply State.foldl_kept
    | exact ⟨Nat.le_refl _, fun hw => hw⟩
    | with_reducible apply Kept.ite
    | split
    | extract_lets
    | (dsimp +zetaDelta only; split)
    | (simp +zetaDelta [*]; done)
    | (simp only [HostIf.wf, Flt.wf, Eng.wf, Dom.wf, Fab.wf, Rec.wf] at *; simp +zetaDelta [*]; done)

theorem execDomainDestroy_kept {s : State} {h1 : Hdr} (kregs : l .regs = true) (khost : l .host = true) (kflt : l .flt = true) (keng : l .eng = true) (kdom : l .dom = true) (kports : l .ports = true) (kfab : l .fab = true) (krecorder : l .recorder = true) (kimg : l .img = true) (kout : l .out = true) (kfree : l .free = true) (h : Kept l o s) {t : State} (e : execDomainDestroy h1 s = .next t) :
    Kept l o t := by
  obtain rfl := Host.Outcome.next.inj e
  refine State.manager_kept kregs khost kflt kimg kout kfree (fun x hx => ?_) h
  extract_lets
  split
  · apply State.denied_kept <;> with_reducible assumption
  · split
    · apply State.done_kept <;> with_reducible assumption
    · apply State.tableChange_kept <;> try with_reducible assumption
      intro y hy
      apply State.beginReset_kept <;> with_reducible assumption

theorem execDomainResetDrained_kept {s : State} (kregs : l .regs = true) (khost : l .host = true) (kflt : l .flt = true) (kdom : l .dom = true) (kfab : l .fab = true) (khome : l .home = true) (kbel : l .bel = true) (krecorder : l .recorder = true) (kimg : l .img = true) (kout : l .out = true) (kfree : l .free = true) (h : Kept l o s) {t : State} (e : execDomainResetDrained s = .next t) :
    Kept l o t := by
  cases e
  repeat' first
    | with_reducible assumption
    | exact fun hw => hw
    | intro _
    | with_reducible apply State.whenServing_kept
    | with_reducible apply State.onDom_kept
    | with_reducible apply State.abortReqs_kept
    | with_reducible apply State.settle_kept
    | with_reducible apply State.forAll_kept
    | with_reducible apply State.evictLine_kept
    | with_reducible apply State.foldl_kept
    | exact ⟨Nat.le_refl _, fun hw => hw⟩
    | with_reducible apply Kept.ite
    | split
    | extract_lets
    | (dsimp +zetaDelta only; split)
    | (simp +zetaDelta [*]; done)
    | (simp only [HostIf.wf, Flt.wf, Dom.wf, Fab.wf, Home.wf, Bel.wf, Rec.wf] at *; simp +zetaDelta [*]; done)

theorem execDomainResetWalkEnd_kept {s : State} (kregs : l .regs = true) (kpit : l .pit = true) (khost : l .host = true) (kflt : l .flt = true) (keng : l .eng = true) (kdom : l .dom = true) (ktabs : l .tabs = true) (kbel : l .bel = true) (kimg : l .img = true) (kout : l .out = true) (kfree : l .free = true) (h : Kept l o s) {t : State} (e : execDomainResetWalkEnd s = .next t) :
    Kept l o t := by
  cases e
  repeat' first
    | with_reducible assumption
    | exact fun hw => hw
    | intro _
    | with_reducible apply State.whenServing_kept
    | with_reducible apply State.onDom_kept
    | with_reducible apply State.reach_kept
    | with_reducible apply State.foldl_kept
    | exact ⟨Nat.le_refl _, fun hw => hw⟩
    | with_reducible apply Kept.ite
    | split
    | extract_lets
    | (dsimp +zetaDelta only; split)
    | (simp +zetaDelta [*]; done)
    | (simp only [HostIf.wf, Flt.wf, Eng.wf, Dom.wf, Tabs.wf, Bel.wf] at *; simp +zetaDelta [*]; done)

theorem State.restartDomain_kept {s : State} {d : Nat} (keng : l .eng = true) (ktabs : l .tabs = true) (h : Kept l o s) :
    Kept l o (State.restartDomain d s) := by
  unfold State.restartDomain
  repeat' first
    | with_reducible assumption
    | exact fun hw => hw
    | intro _
    | with_reducible apply State.onTabs_kept
    | with_reducible apply State.zeroScratches_kept
    | with_reducible apply State.foldl_kept
    | exact ⟨Nat.le_refl _, fun hw => hw⟩
    | with_reducible apply Kept.ite
    | split
    | extract_lets
    | (dsimp +zetaDelta only; split)
    | (simp +zetaDelta [*]; done)
    | (simp only [Eng.wf, Tabs.wf] at *; simp +zetaDelta [*]; done)

theorem State.freeDomain_kept {s : State} {d : Nat} (kregs : l .regs = true) (khost : l .host = true) (kflt : l .flt = true) (keng : l .eng = true) (kdom : l .dom = true) (kfab : l .fab = true) (ktabs : l .tabs = true) (khome : l .home = true) (kbel : l .bel = true) (krecorder : l .recorder = true) (kimg : l .img = true) (kout : l .out = true) (kfree : l .free = true) (h : Kept l o s) :
    Kept l o (State.freeDomain d s) := by
  unfold State.freeDomain
  repeat' first
    | with_reducible assumption
    | exact fun hw => hw
    | intro _
    | with_reducible apply State.forAll_kept
    | with_reducible apply State.dropQueue_kept
    | with_reducible apply State.onDom_kept'
    | with_reducible apply State.onTabs_kept'
    | with_reducible apply State.onHost_kept'
    | with_reducible apply State.done_kept
    | with_reducible apply State.onEng_kept'
    | with_reducible apply State.setDomain_kept
    | with_reducible apply State.foldl_kept
    | exact ⟨Nat.le_refl _, fun hw => hw⟩
    | exact fun _ => ⟨Nat.le_refl _, fun hw => hw⟩
    | with_reducible apply Kept.ite
    | split
    | extract_lets
    | (simp only [HostIf.wf, Flt.wf, Eng.wf, Dom.wf, Fab.wf, Tabs.wf, Home.wf, Bel.wf, Rec.wf] at *; simp +zetaDelta [*]; done)

theorem execDomainResetDone_kept {s : State} (kregs : l .regs = true) (khost : l .host = true) (kflt : l .flt = true) (keng : l .eng = true) (kdom : l .dom = true) (kfab : l .fab = true) (ktabs : l .tabs = true) (khome : l .home = true) (kbel : l .bel = true) (krecorder : l .recorder = true) (kimg : l .img = true) (kout : l .out = true) (kfree : l .free = true) (h : Kept l o s) {t : State} (e : execDomainResetDone s = .next t) :
    Kept l o t := by
  cases e
  repeat' first
    | with_reducible assumption
    | exact fun hw => hw
    | intro _
    | with_reducible apply State.whenServing_kept
    | with_reducible apply State.onDom_kept
    | with_reducible apply State.restartDomain_kept
    | with_reducible apply State.done_kept
    | with_reducible apply State.freeDomain_kept
    | with_reducible apply State.setDomain_kept
    | with_reducible apply State.forAll_kept
    | with_reducible apply State.setRing_kept
    | with_reducible apply State.fc0_kept
    | with_reducible apply State.foldl_kept
    | exact ⟨Nat.le_refl _, fun hw => hw⟩
    | with_reducible apply Kept.ite
    | split
    | extract_lets
    | (dsimp +zetaDelta only; split)
    | (simp +zetaDelta [*]; done)
    | (simp only [HostIf.wf, Flt.wf, Eng.wf, Dom.wf, Fab.wf, Tabs.wf, Home.wf, Bel.wf, Rec.wf] at *; simp +zetaDelta [*]; done)

/-! ### Machine/Faults.lean -/

theorem State.clearedCause_kept {s : State} {cause : Nat} {unit : Nat} (kregs : l .regs = true) (ksys : l .sys = true) (kpit : l .pit = true) (kflt : l .flt = true) (kports : l .ports = true) (ktool : l .tool = true) (h : Kept l o s) :
    Kept l o (State.clearedCause cause unit s) := by
  unfold State.clearedCause
  repeat' first
    | with_reducible assumption
    | exact fun hw => hw
    | intro _
    | with_reducible apply State.conditionEnd_kept
    | with_reducible apply State.onPit_kept
    | with_reducible apply State.settleGroup_kept
    | with_reducible apply State.foldl_kept
    | exact ⟨Nat.le_refl _, fun hw => hw⟩
    | with_reducible apply Kept.ite
    | split
    | extract_lets
    | (dsimp +zetaDelta only; split)
    | (simp +zetaDelta [*]; done)
    | (simp only [Sys.wf, Flt.wf, Tool.wf] at *; simp +zetaDelta [*]; done)

theorem State.clearFlt_kept {s : State} {i : Nat} (kregs : l .regs = true) (ksys : l .sys = true) (kpit : l .pit = true) (kflt : l .flt = true) (kports : l .ports = true) (ktool : l .tool = true) (h : Kept l o s) :
    Kept l o (State.clearFlt i s) := by
  unfold State.clearFlt
  repeat' first
    | with_reducible assumption
    | exact fun hw => hw
    | intro _
    | with_reducible apply State.driveFaultN_kept
    | with_reducible apply State.clearedCause_kept
    | with_reducible apply State.setFltEntry_kept
    | with_reducible apply State.foldl_kept
    | exact ⟨Nat.le_refl _, fun hw => hw⟩
    | with_reducible apply Kept.ite
    | split
    | extract_lets
    | (dsimp +zetaDelta only; split)
    | (simp +zetaDelta [*]; done)
    | (simp only [Sys.wf, Flt.wf, Tool.wf] at *; simp +zetaDelta [*]; done)

theorem State.clearFltClass_kept {s : State} {cls : Nat} (kregs : l .regs = true) (ksys : l .sys = true) (kpit : l .pit = true) (kflt : l .flt = true) (kports : l .ports = true) (ktool : l .tool = true) (h : Kept l o s) :
    Kept l o (State.clearFltClass cls s) := by
  unfold State.clearFltClass
  repeat' first
    | with_reducible assumption
    | exact fun hw => hw
    | intro _
    | with_reducible apply State.forAll_kept
    | with_reducible apply State.clearFlt_kept
    | with_reducible apply State.foldl_kept
    | exact ⟨Nat.le_refl _, fun hw => hw⟩
    | with_reducible apply Kept.ite
    | split
    | extract_lets
    | (dsimp +zetaDelta only; split)
    | (simp +zetaDelta [*]; done)
    | (simp only [Sys.wf, Flt.wf, Tool.wf] at *; simp +zetaDelta [*]; done)

theorem State.scanCondition_kept {s : State} {cause : Nat} {unit : Nat} {holds : Bool} (kregs : l .regs = true) (khost : l .host = true) (kflt : l .flt = true) (kimg : l .img = true) (kout : l .out = true) (kfree : l .free = true) (h : Kept l o s) :
    Kept l o (State.scanCondition cause unit holds s) := by
  unfold State.scanCondition
  repeat' first
    | with_reducible assumption
    | exact fun hw => hw
    | intro _
    | with_reducible apply State.condition_kept
    | with_reducible apply State.conditionEnd_kept
    | with_reducible apply State.foldl_kept
    | exact ⟨Nat.le_refl _, fun hw => hw⟩
    | with_reducible apply Kept.ite
    | split
    | extract_lets
    | (dsimp +zetaDelta only; split)
    | (simp +zetaDelta [*]; done)
    | (simp only [HostIf.wf, Flt.wf] at *; simp +zetaDelta [*]; done)

theorem State.scanOvf_kept {s : State} (kregs : l .regs = true) (khost : l .host = true) (kflt : l .flt = true) (kimg : l .img = true) (kout : l .out = true) (kfree : l .free = true) (h : Kept l o s) :
    Kept l o (State.scanOvf s) := by
  unfold State.scanOvf
  repeat' first
    | with_reducible assumption
    | exact fun hw => hw
    | intro _
    | with_reducible apply State.onFlt_kept
    | with_reducible apply State.bump_kept
    | with_reducible apply State.fillFlt_kept
    | with_reducible apply State.foldl_kept
    | exact ⟨Nat.le_refl _, fun hw => hw⟩
    | with_reducible apply Kept.ite
    | split
    | extract_lets
    | (dsimp +zetaDelta only; split)
    | (simp +zetaDelta [*]; done)
    | (simp only [HostIf.wf, Flt.wf] at *; simp +zetaDelta [*]; done)

theorem State.scanWords_kept {s : State} (kregs : l .regs = true) (ksys : l .sys = true) (khost : l .host = true) (kflt : l .flt = true) (keng : l .eng = true) (kfab : l .fab = true) (kbel : l .bel = true) (krecorder : l .recorder = true) (kimg : l .img = true) (kout : l .out = true) (kfree : l .free = true) (h : Kept l o s) :
    Kept l o (State.scanWords s) := by
  unfold State.scanWords
  repeat' first
    | with_reducible assumption
    | exact fun hw => hw
    | intro _
    | with_reducible apply State.onFlt_kept
    | with_reducible apply State.forAll_kept
    | with_reducible apply State.fc4_kept
    | with_reducible apply State.fault_kept
    | with_reducible apply State.foldl_kept
    | exact ⟨Nat.le_refl _, fun hw => hw⟩
    | with_reducible apply Kept.ite
    | split
    | extract_lets
    | (dsimp +zetaDelta only; split)
    | (simp +zetaDelta [*]; done)
    | (simp only [Sys.wf, HostIf.wf, Flt.wf, Eng.wf, Fab.wf, Bel.wf, Rec.wf] at *; simp +zetaDelta [*]; done)

theorem State.scanMonitors_kept {s : State} (kregs : l .regs = true) (ksys : l .sys = true) (khost : l .host = true) (kflt : l .flt = true) (keng : l .eng = true) (kfab : l .fab = true) (kbel : l .bel = true) (krecorder : l .recorder = true) (kimg : l .img = true) (kout : l .out = true) (kfree : l .free = true) (h : Kept l o s) :
    Kept l o (State.scanMonitors s) := by
  unfold State.scanMonitors
  repeat' first
    | with_reducible assumption
    | exact fun hw => hw
    | intro _
    | with_reducible apply State.fc4_kept
    | with_reducible apply State.onFlt_kept
    | with_reducible apply State.foldl_kept
    | exact ⟨Nat.le_refl _, fun hw => hw⟩
    | with_reducible apply Kept.ite
    | split
    | extract_lets
    | (dsimp +zetaDelta only; split)
    | (simp +zetaDelta [*]; done)
    | (simp only [Sys.wf, HostIf.wf, Flt.wf, Eng.wf, Fab.wf, Bel.wf, Rec.wf] at *; simp +zetaDelta [*]; done)

theorem State.faultScan_kept {s : State} (kregs : l .regs = true) (ksys : l .sys = true) (khost : l .host = true) (kflt : l .flt = true) (keng : l .eng = true) (kfab : l .fab = true) (kbel : l .bel = true) (krecorder : l .recorder = true) (kimg : l .img = true) (kout : l .out = true) (kfree : l .free = true) (h : Kept l o s) :
    Kept l o (State.faultScan s) := by
  unfold State.faultScan
  repeat' first
    | with_reducible assumption
    | exact fun hw => hw
    | intro _
    | with_reducible apply State.forAll_kept
    | with_reducible apply State.scanCondition_kept
    | with_reducible apply State.scanMonitors_kept
    | with_reducible apply State.scanWords_kept
    | with_reducible apply State.scanOvf_kept
    | with_reducible apply State.driveFaultN_kept
    | with_reducible apply State.onFlt_kept
    | with_reducible apply State.foldl_kept
    | exact ⟨Nat.le_refl _, fun hw => hw⟩
    | with_reducible apply Kept.ite
    | split
    | extract_lets
    | (dsimp +zetaDelta only; split)
    | (simp +zetaDelta [*]; done)
    | (simp only [Sys.wf, HostIf.wf, Flt.wf, Eng.wf, Fab.wf, Bel.wf, Rec.wf] at *; simp +zetaDelta [*]; done)

theorem execFaultClear_kept {s : State} {h1 : Hdr} {index : Byte} (kregs : l .regs = true) (ksys : l .sys = true) (kpit : l .pit = true) (khost : l .host = true) (kflt : l .flt = true) (kports : l .ports = true) (ktool : l .tool = true) (kimg : l .img = true) (kout : l .out = true) (kfree : l .free = true) (h : Kept l o s) {t : State} (e : execFaultClear h1 index s = .next t) :
    Kept l o t := by
  cases e
  repeat' first
    | with_reducible assumption
    | exact fun hw => hw
    | intro _
    | with_reducible apply State.manager_kept
    | with_reducible apply State.done_kept
    | with_reducible apply State.clearFlt_kept
    | with_reducible apply State.foldl_kept
    | exact ⟨Nat.le_refl _, fun hw => hw⟩
    | with_reducible apply Kept.ite
    | split
    | extract_lets
    | (dsimp +zetaDelta only; split)
    | (simp +zetaDelta [*]; done)
    | (simp only [Sys.wf, HostIf.wf, Flt.wf, Tool.wf] at *; simp +zetaDelta [*]; done)

theorem execFaultClearAll_kept {s : State} {h1 : Hdr} {cls : BitVec 3} (kregs : l .regs = true) (ksys : l .sys = true) (kpit : l .pit = true) (khost : l .host = true) (kflt : l .flt = true) (kports : l .ports = true) (ktool : l .tool = true) (kimg : l .img = true) (kout : l .out = true) (kfree : l .free = true) (h : Kept l o s) {t : State} (e : execFaultClearAll h1 cls s = .next t) :
    Kept l o t := by
  obtain rfl := Host.Outcome.next.inj e
  refine State.manager_kept kregs khost kflt kimg kout kfree (fun x hx => ?_) h
  refine State.done_kept kregs khost kflt kimg kout kfree ?_
  apply State.clearFltClass_kept <;> with_reducible assumption

theorem execFaultnHoldExpire_kept {s : State} (kregs : l .regs = true) (kpit : l .pit = true) (khost : l .host = true) (kflt : l .flt = true) (keng : l .eng = true) (ktabs : l .tabs = true) (kbel : l .bel = true) (kimg : l .img = true) (kout : l .out = true) (kfree : l .free = true) (h : Kept l o s) {t : State} (e : execFaultnHoldExpire s = .next t) :
    Kept l o t := by
  cases e
  repeat' first
    | with_reducible assumption
    | exact fun hw => hw
    | intro _
    | with_reducible apply State.driveFaultN_kept
    | with_reducible apply State.onFlt_kept
    | with_reducible apply State.reach_kept
    | with_reducible apply State.foldl_kept
    | exact ⟨Nat.le_refl _, fun hw => hw⟩
    | with_reducible apply Kept.ite
    | split
    | extract_lets
    | (dsimp +zetaDelta only; split)
    | (simp +zetaDelta [*]; done)
    | (simp only [HostIf.wf, Flt.wf, Eng.wf, Tabs.wf, Bel.wf] at *; simp +zetaDelta [*]; done)

theorem execClockMonitorLoss_kept {s : State} (kregs : l .regs = true) (ksys : l .sys = true) (khost : l .host = true) (kflt : l .flt = true) (keng : l .eng = true) (kfab : l .fab = true) (kbel : l .bel = true) (krecorder : l .recorder = true) (kimg : l .img = true) (kout : l .out = true) (kfree : l .free = true) (h : Kept l o s) {t : State} (e : execClockMonitorLoss s = .next t) :
    Kept l o t := by
  cases e
  repeat' first
    | with_reducible assumption
    | exact fun hw => hw
    | intro _
    | with_reducible apply State.onSys_kept
    | with_reducible apply State.wr_kept
    | with_reducible apply State.onFlt_kept
    | with_reducible apply State.fc4_kept
    | with_reducible apply State.foldl_kept
    | exact ⟨Nat.le_refl _, fun hw => hw⟩
    | with_reducible apply Kept.ite
    | split
    | extract_lets
    | (dsimp +zetaDelta only; split)
    | (simp +zetaDelta [*]; done)
    | (simp only [Sys.wf, HostIf.wf, Flt.wf, Eng.wf, Fab.wf, Bel.wf, Rec.wf] at *; simp +zetaDelta [*]; done)

theorem execSupplyMonitorFault_kept {s : State} (kregs : l .regs = true) (ksys : l .sys = true) (kpit : l .pit = true) (khost : l .host = true) (kflt : l .flt = true) (keng : l .eng = true) (kfab : l .fab = true) (ktabs : l .tabs = true) (kbel : l .bel = true) (krecorder : l .recorder = true) (kimg : l .img = true) (kout : l .out = true) (kfree : l .free = true) (h : Kept l o s) {t : State} (e : execSupplyMonitorFault s = .next t) :
    Kept l o t := by
  cases e
  repeat' first
    | with_reducible assumption
    | exact fun hw => hw
    | intro _
    | with_reducible apply State.reach_kept
    | with_reducible apply State.onFlt_kept
    | with_reducible apply State.fc4_kept
    | with_reducible apply State.foldl_kept
    | exact ⟨Nat.le_refl _, fun hw => hw⟩
    | with_reducible apply Kept.ite
    | split
    | extract_lets
    | (dsimp +zetaDelta only; split)
    | (simp +zetaDelta [*]; done)
    | (simp only [Sys.wf, HostIf.wf, Flt.wf, Eng.wf, Fab.wf, Tabs.wf, Bel.wf, Rec.wf] at *; simp +zetaDelta [*]; done)

/-! ### Machine/HostCmds.lean -/

theorem execDoorbellPoll_kept {s : State} {ring : Fin 8192} {evq : Bool} (kregs : l .regs = true) (kpit : l .pit = true) (khost : l .host = true) (kflt : l .flt = true) (keng : l .eng = true) (ktabs : l .tabs = true) (kbel : l .bel = true) (kimg : l .img = true) (kout : l .out = true) (kfree : l .free = true) (h : Kept l o s) {t : State} (e : execDoorbellPoll ring evq s = .next t) :
    Kept l o t := by
  cases e
  repeat' first
    | with_reducible assumption
    | exact fun hw => hw
    | intro _
    | with_reducible apply State.whenServing_kept
    | with_reducible apply State.setQueue_kept
    | with_reducible apply State.reach_kept
    | with_reducible apply State.readDoorbell_kept
    | with_reducible apply State.bump_kept
    | with_reducible apply State.foldl_kept
    | exact ⟨Nat.le_refl _, fun hw => hw⟩
    | with_reducible apply Kept.ite
    | split
    | extract_lets
    | (dsimp +zetaDelta only; split)
    | (simp +zetaDelta [*]; done)
    | (simp only [HostIf.wf, Flt.wf, Eng.wf, Tabs.wf, Bel.wf] at *; simp +zetaDelta [*]; done)

theorem execDoorbellReadComplete_kept {s : State} {ring : Fin 8192} {evq : Bool} {word : Option Word} (kregs : l .regs = true) (khost : l .host = true) (kflt : l .flt = true) (kimg : l .img = true) (kout : l .out = true) (kfree : l .free = true) (h : Kept l o s) {t : State} (e : execDoorbellReadComplete ring evq word s = .next t) :
    Kept l o t := by
  cases e
  repeat' first
    | with_reducible assumption
    | exact fun hw => hw
    | intro _
    | with_reducible apply State.whenServing_kept
    | with_reducible apply State.ringError_kept
    | with_reducible apply State.refuseHost_kept
    | with_reducible apply State.takeDoorbell_kept
    | with_reducible apply State.foldl_kept
    | exact ⟨Nat.le_refl _, fun hw => hw⟩
    | with_reducible apply Kept.ite
    | split
    | extract_lets
    | (dsimp +zetaDelta only; split)
    | (simp +zetaDelta [*]; done)
    | (simp only [HostIf.wf, Flt.wf] at *; simp +zetaDelta [*]; done)

theorem execDescriptorFetch_kept {s : State} {ring : Fin 8192} {desc : Option (List Word)} (kregs : l .regs = true) (khost : l .host = true) (kflt : l .flt = true) (kimg : l .img = true) (kout : l .out = true) (kfree : l .free = true) (h : Kept l o s) {t : State} (e : execDescriptorFetch ring desc s = .next t) :
    Kept l o t := by
  cases e
  repeat' first
    | with_reducible assumption
    | exact fun hw => hw
    | intro _
    | with_reducible apply State.whenServing_kept
    | with_reducible apply State.onHost_kept
    | with_reducible apply State.emit_kept
    | with_reducible apply State.ringError_kept
    | with_reducible apply State.refuseHost_kept
    | with_reducible apply State.bump_kept
    | with_reducible apply State.setRing_kept
    | with_reducible apply State.foldl_kept
    | exact ⟨Nat.le_refl _, fun hw => hw⟩
    | with_reducible apply Kept.ite
    | split
    | extract_lets
    | (dsimp +zetaDelta only; split)
    | (simp +zetaDelta [*]; done)
    | (simp only [HostIf.wf, Flt.wf] at *; simp +zetaDelta [*]; done)

theorem execDescriptorStart_kept {s : State} {ring : Fin 8192} (kregs : l .regs = true) (khost : l .host = true) (kflt : l .flt = true) (kimg : l .img = true) (kout : l .out = true) (kfree : l .free = true) (h : Kept l o s) {t : State} (e : execDescriptorStart ring s = .next t) :
    Kept l o t := by
  cases e
  repeat' first
    | with_reducible assumption
    | exact fun hw => hw
    | intro _
    | with_reducible apply State.whenServing_kept
    | with_reducible apply State.setRing_kept
    | with_reducible apply State.complete_kept
    | with_reducible apply State.foldl_kept
    | exact ⟨Nat.le_refl _, fun hw => hw⟩
    | with_reducible apply Kept.ite
    | split
    | extract_lets
    | (dsimp +zetaDelta only; split)
    | (simp +zetaDelta [*]; done)
    | (simp only [HostIf.wf, Flt.wf] at *; simp +zetaDelta [*]; done)

theorem execNop_kept {s : State} {h1 : Hdr} (kregs : l .regs = true) (khost : l .host = true) (kflt : l .flt = true) (kimg : l .img = true) (kout : l .out = true) (kfree : l .free = true) (h : Kept l o s) {t : State} (e : execNop h1 s = .next t) :
    Kept l o t := by
  cases e
  repeat' first
    | with_reducible assumption
    | exact fun hw => hw
    | intro _
    | with_reducible apply State.command_kept
    | with_reducible apply State.done_kept
    | with_reducible apply State.foldl_kept
    | exact ⟨Nat.le_refl _, fun hw => hw⟩
    | with_reducible apply Kept.ite
    | split
    | extract_lets
    | (dsimp +zetaDelta only; split)
    | (simp +zetaDelta [*]; done)
    | (simp only [HostIf.wf, Flt.wf] at *; simp +zetaDelta [*]; done)

theorem execBarrier_kept {s : State} {h1 : Hdr} (kregs : l .regs = true) (khost : l .host = true) (kflt : l .flt = true) (kfab : l .fab = true) (kimg : l .img = true) (kout : l .out = true) (kfree : l .free = true) (h : Kept l o s) {t : State} (e : execBarrier h1 s = .next t) :
    Kept l o t := by
  cases e
  repeat' first
    | with_reducible assumption
    | exact fun hw => hw
    | intro _
    | with_reducible apply State.command_kept
    | with_reducible apply State.done_kept
    | with_reducible apply State.onFab_kept
    | with_reducible apply State.foldl_kept
    | exact ⟨Nat.le_refl _, fun hw => hw⟩
    | with_reducible apply Kept.ite
    | split
    | extract_lets
    | (dsimp +zetaDelta only; split)
    | (simp +zetaDelta [*]; done)
    | (simp only [HostIf.wf, Flt.wf, Fab.wf] at *; simp +zetaDelta [*]; done)

theorem execRingCreate_kept {s : State} {h1 : Hdr} {w10 : Word} {w18 : Word} {w20 : Word} {w28 : Word} {w30 : Word} (kregs : l .regs = true) (khost : l .host = true) (kflt : l .flt = true) (kfab : l .fab = true) (khome : l .home = true) (kbel : l .bel = true) (krecorder : l .recorder = true) (kimg : l .img = true) (kout : l .out = true) (kfree : l .free = true) (h : Kept l o s) {t : State} (e : execRingCreate h1 w10 w18 w20 w28 w30 s = .next t) :
    Kept l o t := by
  cases e
  repeat' first
    | with_reducible assumption
    | exact fun hw => hw
    | intro _
    | with_reducible apply State.manager_kept
    | with_reducible apply State.denied_kept
    | with_reducible apply State.done_kept
    | with_reducible apply State.addQueue_kept
    | with_reducible apply State.foldl_kept
    | exact ⟨Nat.le_refl _, fun hw => hw⟩
    | with_reducible apply Kept.ite
    | split
    | extract_lets
    | (dsimp +zetaDelta only; split)
    | (simp +zetaDelta [*]; done)
    | (simp only [HostIf.wf, Flt.wf, Fab.wf, Home.wf, Bel.wf, Rec.wf] at *; simp +zetaDelta [*]; done)

theorem execRingDestroy_kept {s : State} {h1 : Hdr} {index : Word32} (kregs : l .regs = true) (khost : l .host = true) (kflt : l .flt = true) (keng : l .eng = true) (kfab : l .fab = true) (khome : l .home = true) (kbel : l .bel = true) (krecorder : l .recorder = true) (kimg : l .img = true) (kout : l .out = true) (kfree : l .free = true) (h : Kept l o s) {t : State} (e : execRingDestroy h1 index s = .next t) :
    Kept l o t := by
  cases e
  repeat' first
    | with_reducible assumption
    | exact fun hw => hw
    | intro _
    | with_reducible apply State.manager_kept
    | with_reducible apply State.denied_kept
    | with_reducible apply State.done_kept
    | with_reducible apply State.destroyRing_kept
    | with_reducible apply State.foldl_kept
    | exact ⟨Nat.le_refl _, fun hw => hw⟩
    | with_reducible apply Kept.ite
    | split
    | extract_lets
    | (dsimp +zetaDelta only; split)
    | (simp +zetaDelta [*]; done)
    | (simp only [HostIf.wf, Flt.wf, Eng.wf, Fab.wf, Home.wf, Bel.wf, Rec.wf] at *; simp +zetaDelta [*]; done)

theorem execRingReset_kept {s : State} {h1 : Hdr} {index : Word32} {w18 : Word} (kregs : l .regs = true) (khost : l .host = true) (kflt : l .flt = true) (kimg : l .img = true) (kout : l .out = true) (kfree : l .free = true) (h : Kept l o s) {t : State} (e : execRingReset h1 index w18 s = .next t) :
    Kept l o t := by
  cases e
  repeat' first
    | with_reducible assumption
    | exact fun hw => hw
    | intro _
    | with_reducible apply State.manager_kept
    | with_reducible apply State.denied_kept
    | with_reducible apply State.setRing_kept
    | with_reducible apply State.done_kept
    | with_reducible apply State.readDoorbell_kept
    | with_reducible apply State.foldl_kept
    | exact ⟨Nat.le_refl _, fun hw => hw⟩
    | with_reducible apply Kept.ite
    | split
    | extract_lets
    | (dsimp +zetaDelta only; split)
    | (simp +zetaDelta [*]; done)
    | (simp only [HostIf.wf, Flt.wf] at *; simp +zetaDelta [*]; done)

theorem execRingDoorbell_kept {s : State} {h1 : Hdr} {index : Word32} {w20 : Word} {w28 : Word} (kregs : l .regs = true) (khost : l .host = true) (kflt : l .flt = true) (kfab : l .fab = true) (khome : l .home = true) (kbel : l .bel = true) (krecorder : l .recorder = true) (kimg : l .img = true) (kout : l .out = true) (kfree : l .free = true) (h : Kept l o s) {t : State} (e : execRingDoorbell h1 index w20 w28 s = .next t) :
    Kept l o t := by
  cases e
  repeat' first
    | with_reducible assumption
    | exact fun hw => hw
    | intro _
    | with_reducible apply State.manager_kept
    | with_reducible apply State.denied_kept
    | with_reducible apply State.done_kept
    | with_reducible apply State.readDoorbell_kept
    | with_reducible apply State.watch_kept
    | with_reducible apply State.unwatch_kept
    | with_reducible apply State.setRing_kept
    | with_reducible apply State.foldl_kept
    | exact ⟨Nat.le_refl _, fun hw => hw⟩
    | with_reducible apply Kept.ite
    | split
    | extract_lets
    | (dsimp +zetaDelta only; split)
    | (simp +zetaDelta [*]; done)
    | (simp only [HostIf.wf, Flt.wf, Fab.wf, Home.wf, Bel.wf, Rec.wf] at *; simp +zetaDelta [*]; done)

theorem execRingStatus_kept {s : State} {h1 : Hdr} {index : Word32} (kregs : l .regs = true) (khost : l .host = true) (kflt : l .flt = true) (kimg : l .img = true) (kout : l .out = true) (kfree : l .free = true) (h : Kept l o s) {t : State} (e : execRingStatus h1 index s = .next t) :
    Kept l o t := by
  cases e
  repeat' first
    | with_reducible assumption
    | exact fun hw => hw
    | intro _
    | with_reducible apply State.command_kept
    | with_reducible apply State.complete_kept
    | with_reducible apply State.foldl_kept
    | exact ⟨Nat.le_refl _, fun hw => hw⟩
    | with_reducible apply Kept.ite
    | split
    | extract_lets
    | (dsimp +zetaDelta only; split)
    | (simp +zetaDelta [*]; done)
    | (simp only [HostIf.wf, Flt.wf] at *; simp +zetaDelta [*]; done)

theorem execEvqCreate_kept {s : State} {h1 : Hdr} {w10 : Word} {w18 : Word} {w20 : Word} {w28 : Word} {w30 : Word} {w38 : Word} (kregs : l .regs = true) (khost : l .host = true) (kflt : l .flt = true) (kfab : l .fab = true) (khome : l .home = true) (kbel : l .bel = true) (krecorder : l .recorder = true) (kimg : l .img = true) (kout : l .out = true) (kfree : l .free = true) (h : Kept l o s) {t : State} (e : execEvqCreate h1 w10 w18 w20 w28 w30 w38 s = .next t) :
    Kept l o t := by
  cases e
  repeat' first
    | with_reducible assumption
    | exact fun hw => hw
    | intro _
    | with_reducible apply State.manager_kept
    | with_reducible apply State.denied_kept
    | with_reducible apply State.done_kept
    | with_reducible apply State.addQueue_kept
    | with_reducible apply State.foldl_kept
    | exact ⟨Nat.le_refl _, fun hw => hw⟩
    | with_reducible apply Kept.ite
    | split
    | extract_lets
    | (dsimp +zetaDelta only; split)
    | (simp +zetaDelta [*]; done)
    | (simp only [HostIf.wf, Flt.wf, Fab.wf, Home.wf, Bel.wf, Rec.wf] at *; simp +zetaDelta [*]; done)

theorem execEvqDestroy_kept {s : State} {h1 : Hdr} {index : Word32} (kregs : l .regs = true) (khost : l .host = true) (kflt : l .flt = true) (kfab : l .fab = true) (khome : l .home = true) (kbel : l .bel = true) (krecorder : l .recorder = true) (kimg : l .img = true) (kout : l .out = true) (kfree : l .free = true) (h : Kept l o s) {t : State} (e : execEvqDestroy h1 index s = .next t) :
    Kept l o t := by
  cases e
  repeat' first
    | with_reducible assumption
    | exact fun hw => hw
    | intro _
    | with_reducible apply State.manager_kept
    | with_reducible apply State.denied_kept
    | with_reducible apply State.done_kept
    | with_reducible apply State.dropQueue_kept
    | with_reducible apply State.foldl_kept
    | exact ⟨Nat.le_refl _, fun hw => hw⟩
    | with_reducible apply Kept.ite
    | split
    | extract_lets
    | (dsimp +zetaDelta only; split)
    | (simp +zetaDelta [*]; done)
    | (simp only [HostIf.wf, Flt.wf, Fab.wf, Home.wf, Bel.wf, Rec.wf] at *; simp +zetaDelta [*]; done)

theorem State.sourceRead_kept {s : State} {h1 : Hdr} {index : Word32} (kregs : l .regs = true) (khost : l .host = true) (kflt : l .flt = true) (kimg : l .img = true) (kout : l .out = true) (kfree : l .free = true) (h : Kept l o s) :
    Kept l o (State.sourceRead h1 index s) := by
  unfold State.sourceRead
  repeat' first
    | with_reducible assumption
    | exact fun hw => hw
    | intro _
    | with_reducible apply State.complete_kept
    | with_reducible apply State.foldl_kept
    | exact ⟨Nat.le_refl _, fun hw => hw⟩
    | with_reducible apply Kept.ite
    | split
    | extract_lets
    | (dsimp +zetaDelta only; split)
    | (simp +zetaDelta [*]; done)
    | (simp only [HostIf.wf, Flt.wf] at *; simp +zetaDelta [*]; done)

theorem execSourceMap_kept {s : State} {h1 : Hdr} {index : Word32} {entry : Word} (kregs : l .regs = true) (khost : l .host = true) (kflt : l .flt = true) (kimg : l .img = true) (kout : l .out = true) (kfree : l .free = true) (h : Kept l o s) {t : State} (e : execSourceMap h1 index entry s = .next t) :
    Kept l o t := by
  cases e
  repeat' first
    | with_reducible assumption
    | exact fun hw => hw
    | intro _
    | with_reducible apply State.manager_kept
    | with_reducible apply State.sourceRead_kept
    | with_reducible apply State.denied_kept
    | with_reducible apply State.setSource_kept
    | with_reducible apply State.done_kept
    | with_reducible apply State.summary_kept
    | with_reducible apply State.foldl_kept
    | exact ⟨Nat.le_refl _, fun hw => hw⟩
    | with_reducible apply Kept.ite
    | split
    | extract_lets
    | (dsimp +zetaDelta only; split)
    | (simp +zetaDelta [*]; done)
    | (simp only [HostIf.wf, Flt.wf] at *; simp +zetaDelta [*]; done)

theorem execSourceMapRead_kept {s : State} {h1 : Hdr} {index : Word32} (kregs : l .regs = true) (khost : l .host = true) (kflt : l .flt = true) (kimg : l .img = true) (kout : l .out = true) (kfree : l .free = true) (h : Kept l o s) {t : State} (e : execSourceMapRead h1 index s = .next t) :
    Kept l o t := by
  cases e
  repeat' first
    | with_reducible assumption
    | exact fun hw => hw
    | intro _
    | with_reducible apply State.manager_kept
    | with_reducible apply State.sourceRead_kept
    | with_reducible apply State.foldl_kept
    | exact ⟨Nat.le_refl _, fun hw => hw⟩
    | with_reducible apply Kept.ite
    | split
    | extract_lets
    | (dsimp +zetaDelta only; split)
    | (simp +zetaDelta [*]; done)
    | (simp only [HostIf.wf, Flt.wf] at *; simp +zetaDelta [*]; done)

theorem execCounterCfg_kept {s : State} {h1 : Hdr} {index : Word32} {entry : Entry} (kregs : l .regs = true) (khost : l .host = true) (kflt : l .flt = true) (kimg : l .img = true) (kout : l .out = true) (kfree : l .free = true) (h : Kept l o s) {t : State} (e : execCounterCfg h1 index entry s = .next t) :
    Kept l o t := by
  cases e
  repeat' first
    | with_reducible assumption
    | exact fun hw => hw
    | intro _
    | with_reducible apply State.manager_kept
    | with_reducible apply State.denied_kept
    | with_reducible apply State.done_kept
    | with_reducible apply State.onHost_kept
    | with_reducible apply State.foldl_kept
    | exact ⟨Nat.le_refl _, fun hw => hw⟩
    | with_reducible apply Kept.ite
    | split
    | extract_lets
    | (dsimp +zetaDelta only; split)
    | (simp +zetaDelta [*]; done)
    | (simp only [HostIf.wf, Flt.wf] at *; simp +zetaDelta [*]; done)

theorem execCounterRead_kept {s : State} {h1 : Hdr} {index : Word32} (kregs : l .regs = true) (khost : l .host = true) (kflt : l .flt = true) (kimg : l .img = true) (kout : l .out = true) (kfree : l .free = true) (h : Kept l o s) {t : State} (e : execCounterRead h1 index s = .next t) :
    Kept l o t := by
  cases e
  repeat' first
    | with_reducible assumption
    | exact fun hw => hw
    | intro _
    | with_reducible apply State.command_kept
    | with_reducible apply State.denied_kept
    | with_reducible apply State.complete_kept
    | with_reducible apply State.foldl_kept
    | exact ⟨Nat.le_refl _, fun hw => hw⟩
    | with_reducible apply Kept.ite
    | split
    | extract_lets
    | (dsimp +zetaDelta only; split)
    | (simp +zetaDelta [*]; done)
    | (simp only [HostIf.wf, Flt.wf] at *; simp +zetaDelta [*]; done)

theorem execBwWindow_kept {s : State} {h1 : Hdr} {index : Word32} {nTick : BitVec 16} (kregs : l .regs = true) (khost : l .host = true) (kflt : l .flt = true) (kimg : l .img = true) (kout : l .out = true) (kfree : l .free = true) (h : Kept l o s) {t : State} (e : execBwWindow h1 index nTick s = .next t) :
    Kept l o t := by
  cases e
  repeat' first
    | with_reducible assumption
    | exact fun hw => hw
    | intro _
    | with_reducible apply State.manager_kept
    | with_reducible apply State.done_kept
    | with_reducible apply State.onHost_kept
    | with_reducible apply State.foldl_kept
    | exact ⟨Nat.le_refl _, fun hw => hw⟩
    | with_reducible apply Kept.ite
    | split
    | extract_lets
    | (dsimp +zetaDelta only; split)
    | (simp +zetaDelta [*]; done)
    | (simp only [HostIf.wf, Flt.wf] at *; simp +zetaDelta [*]; done)

theorem execPortBind_kept {s : State} {h1 : Hdr} {index : Word32} (kregs : l .regs = true) (khost : l .host = true) (kflt : l .flt = true) (kports : l .ports = true) (kfab : l .fab = true) (kimg : l .img = true) (kout : l .out = true) (kfree : l .free = true) (h : Kept l o s) {t : State} (e : execPortBind h1 index s = .next t) :
    Kept l o t := by
  cases e
  repeat' first
    | with_reducible assumption
    | exact fun hw => hw
    | intro _
    | with_reducible apply State.manager_kept
    | with_reducible apply State.denied_kept
    | with_reducible apply State.done_kept
    | with_reducible apply State.enterActive_kept
    | with_reducible apply State.foldl_kept
    | exact ⟨Nat.le_refl _, fun hw => hw⟩
    | with_reducible apply Kept.ite
    | split
    | extract_lets
    | (dsimp +zetaDelta only; split)
    | (simp +zetaDelta [*]; done)
    | (simp only [HostIf.wf, Flt.wf, Fab.wf] at *; simp +zetaDelta [*]; done)

theorem execPortDown_kept {s : State} {h1 : Hdr} {index : Word32} (kregs : l .regs = true) (ksys : l .sys = true) (khost : l .host = true) (kflt : l .flt = true) (kports : l .ports = true) (kfab : l .fab = true) (ktabs : l .tabs = true) (khome : l .home = true) (kbel : l .bel = true) (krecorder : l .recorder = true) (kimg : l .img = true) (kout : l .out = true) (kfree : l .free = true) (h : Kept l o s) {t : State} (e : execPortDown h1 index s = .next t) :
    Kept l o t := by
  cases e
  repeat' first
    | with_reducible assumption
    | exact fun hw => hw
    | intro _
    | with_reducible apply State.manager_kept
    | with_reducible apply State.done_kept
    | with_reducible apply State.declareDown_kept
    | with_reducible apply State.foldl_kept
    | exact ⟨Nat.le_refl _, fun hw => hw⟩
    | with_reducible apply Kept.ite
    | split
    | extract_lets
    | (dsimp +zetaDelta only; split)
    | (simp +zetaDelta [*]; done)
    | (simp only [Sys.wf, HostIf.wf, Flt.wf, Fab.wf, Tabs.wf, Home.wf, Bel.wf, Rec.wf] at *; simp +zetaDelta [*]; done)

theorem execIdeKey_kept {s : State} {h1 : Hdr} {index : Word32} {aux : Word32} {key : Entry} (kregs : l .regs = true) (khost : l .host = true) (kflt : l .flt = true) (kports : l .ports = true) (kimg : l .img = true) (kout : l .out = true) (kfree : l .free = true) (h : Kept l o s) {t : State} (e : execIdeKey h1 index aux key s = .next t) :
    Kept l o t := by
  cases e
  repeat' first
    | with_reducible assumption
    | exact fun hw => hw
    | intro _
    | with_reducible apply State.manager_kept
    | with_reducible apply State.denied_kept
    | with_reducible apply State.putKey_kept
    | with_reducible apply State.done_kept
    | with_reducible apply State.streamGo_kept
    | with_reducible apply State.foldl_kept
    | exact ⟨Nat.le_refl _, fun hw => hw⟩
    | with_reducible apply Kept.ite
    | split
    | extract_lets
    | (dsimp +zetaDelta only; split)
    | (simp +zetaDelta [*]; done)
    | (simp only [HostIf.wf, Flt.wf] at *; simp +zetaDelta [*]; done)

theorem State.mringOn_kept {s : State} (kregs : l .regs = true) (khost : l .host = true) (kflt : l .flt = true) (kimg : l .img = true) (kout : l .out = true) (kfree : l .free = true) (h : Kept l o s) :
    Kept l o (State.mringOn s) := by
  unfold State.mringOn
  repeat' first
    | with_reducible assumption
    | exact fun hw => hw
    | intro _
    | with_reducible apply State.setRing_kept
    | with_reducible apply State.setEvq_kept
    | with_reducible apply State.wr_kept
    | with_reducible apply State.readDoorbell_kept
    | with_reducible apply State.forAll_kept
    | with_reducible apply State.summary_kept
    | with_reducible apply State.foldl_kept
    | exact ⟨Nat.le_refl _, fun hw => hw⟩
    | with_reducible apply Kept.ite
    | split
    | extract_lets
    | (dsimp +zetaDelta only; split)
    | (simp +zetaDelta [*]; done)
    | (simp only [HostIf.wf, Flt.wf] at *; simp +zetaDelta [*]; done)

theorem State.mringOff_kept {s : State} (kregs : l .regs = true) (khost : l .host = true) (kflt : l .flt = true) (kfab : l .fab = true) (khome : l .home = true) (kbel : l .bel = true) (krecorder : l .recorder = true) (kimg : l .img = true) (kout : l .out = true) (kfree : l .free = true) (h : Kept l o s) :
    Kept l o (State.mringOff s) := by
  unfold State.mringOff
  repeat' first
    | with_reducible assumption
    | exact fun hw => hw
    | intro _
    | with_reducible apply State.inTrial_kept
    | with_reducible apply State.wr_kept
    | with_reducible apply State.dropQueue_kept
    | with_reducible apply State.foldl_kept
    | exact ⟨Nat.le_refl _, fun hw => hw⟩
    | with_reducible apply Kept.ite
    | split
    | extract_lets
    | (dsimp +zetaDelta only; split)
    | (simp +zetaDelta [*]; done)
    | (simp only [HostIf.wf, Flt.wf, Fab.wf, Home.wf, Bel.wf, Rec.wf] at *; simp +zetaDelta [*]; done)

theorem execFunctionLevelReset_kept {s : State} {p : PortId} (kregs : l .regs = true) (khost : l .host = true) (kflt : l .flt = true) (kfab : l .fab = true) (khome : l .home = true) (kbel : l .bel = true) (krecorder : l .recorder = true) (kimg : l .img = true) (kout : l .out = true) (kfree : l .free = true) (h : Kept l o s) {t : State} (e : execFunctionLevelReset p s = .next t) :
    Kept l o t := by
  cases e
  repeat' first
    | with_reducible assumption
    | exact fun hw => hw
    | intro _
    | with_reducible apply State.onHost_kept
    | with_reducible apply State.mringOff_kept
    | with_reducible apply State.wr_kept
    | with_reducible apply State.foldl_kept
    | exact ⟨Nat.le_refl _, fun hw => hw⟩
    | with_reducible apply Kept.ite
    | split
    | extract_lets
    | (dsimp +zetaDelta only; split)
    | (simp +zetaDelta [*]; done)
    | (simp only [HostIf.wf, Flt.wf, Fab.wf, Home.wf, Bel.wf, Rec.wf] at *; simp +zetaDelta [*]; done)

/-! ### Machine/PlanCmds.lean -/

theorem State.shedSlot_kept {s : State} {n : Nat} (kregs : l .regs = true) (khost : l .host = true) (kflt : l .flt = true) (keng : l .eng = true) (kimg : l .img = true) (kout : l .out = true) (kfree : l .free = true) (h : Kept l o s) :
    Kept l o (State.shedSlot n s) := by
  unfold State.shedSlot
  repeat' first
    | with_reducible assumption
    | exact fun hw => hw
    | intro _
    | with_reducible apply State.forAll_kept
    | with_reducible apply State.complete_kept
    | with_reducible apply State.setSlot_kept
    | with_reducible apply State.foldl_kept
    | exact ⟨Nat.le_refl _, fun hw => hw⟩
    | with_reducible apply Kept.ite
    | split
    | extract_lets
    | (dsimp +zetaDelta only; split)
    | (simp +zetaDelta [*]; done)
    | (simp only [HostIf.wf, Flt.wf, Eng.wf] at *; simp +zetaDelta [*]; done)

theorem State.shedSlots_kept {s : State} {p : Nat → Bool} (kregs : l .regs = true) (khost : l .host = true) (kflt : l .flt = true) (keng : l .eng = true) (kimg : l .img = true) (kout : l .out = true) (kfree : l .free = true) (h : Kept l o s) :
    Kept l o (State.shedSlots p s) := by
  unfold State.shedSlots
  repeat' first
    | with_reducible assumption
    | exact fun hw => hw
    | intro _
    | with_reducible apply State.forAll_kept
    | with_reducible apply State.shedSlot_kept
    | with_reducible apply State.foldl_kept
    | exact ⟨Nat.le_refl _, fun hw => hw⟩
    | with_reducible apply Kept.ite
    | split
    | extract_lets
    | (dsimp +zetaDelta only; split)
    | (simp +zetaDelta [*]; done)
    | (simp only [HostIf.wf, Flt.wf, Eng.wf] at *; simp +zetaDelta [*]; done)

theorem State.setPending_kept {s : State} {p : Plan} (kregs : l .regs = true) (kpit : l .pit = true) (khost : l .host = true) (kflt : l .flt = true) (keng : l .eng = true) (kimg : l .img = true) (kout : l .out = true) (kfree : l .free = true) (h : Kept l o s) :
    Kept l o (State.setPending p s) := by
  unfold State.setPending
  repeat' first
    | with_reducible assumption
    | exact fun hw => hw
    | intro _
    | with_reducible apply State.onPit_kept
    | with_reducible apply State.shedSlots_kept
    | with_reducible apply State.foldl_kept
    | exact ⟨Nat.le_refl _, fun hw => hw⟩
    | with_reducible apply Kept.ite
    | split
    | extract_lets
    | (dsimp +zetaDelta only; split)
    | (simp +zetaDelta [*]; done)
    | (simp only [HostIf.wf, Flt.wf, Eng.wf] at *; simp +zetaDelta [*]; done)

theorem execPlanLoad_kept {s : State} {h1 : Hdr} {o1 : HRef} {plan : List Word} (kregs : l .regs = true) (kpit : l .pit = true) (khost : l .host = true) (kflt : l .flt = true) (keng : l .eng = true) (kbel : l .bel = true) (kimg : l .img = true) (kout : l .out = true) (kfree : l .free = true) (h : Kept l o s) {t : State} (e : execPlanLoad h1 o1 plan s = .next t) :
    Kept l o t := by
  cases e
  repeat' first
    | with_reducible assumption
    | exact fun hw => hw
    | intro _
    | with_reducible apply State.manager_kept
    | with_reducible apply State.withObject_kept
    | with_reducible apply State.bad_kept
    | with_reducible apply State.denied_kept
    | with_reducible apply State.done_kept
    | with_reducible apply State.setPending_kept
    | with_reducible apply State.foldl_kept
    | exact ⟨Nat.le_refl _, fun hw => hw⟩
    | with_reducible apply Kept.ite
    | split
    | extract_lets
    | (dsimp +zetaDelta only; split)
    | (simp +zetaDelta [*]; done)
    | (simp only [HostIf.wf, Flt.wf, Eng.wf, Bel.wf] at *; simp +zetaDelta [*]; done)

theorem execPlanSwitch_kept {s : State} {h1 : Hdr} {tick : BitVec 48} {next : Bool} (kregs : l .regs = true) (kpit : l .pit = true) (khost : l .host = true) (kflt : l .flt = true) (kimg : l .img = true) (kout : l .out = true) (kfree : l .free = true) (h : Kept l o s) {t : State} (e : execPlanSwitch h1 tick next s = .next t) :
    Kept l o t := by
  cases e
  repeat' first
    | with_reducible assumption
    | exact fun hw => hw
    | intro _
    | with_reducible apply State.manager_kept
    | with_reducible apply State.bad_kept
    | with_reducible apply State.onPit_kept
    | with_reducible apply State.foldl_kept
    | exact ⟨Nat.le_refl _, fun hw => hw⟩
    | with_reducible apply Kept.ite
    | split
    | extract_lets
    | (dsimp +zetaDelta only; split)
    | (simp +zetaDelta [*]; done)
    | (simp only [HostIf.wf, Flt.wf] at *; simp +zetaDelta [*]; done)

theorem execTimeStep_kept {s : State} {h1 : Hdr} {delta : Int} (kregs : l .regs = true) (kpit : l .pit = true) (khost : l .host = true) (kflt : l .flt = true) (kimg : l .img = true) (kout : l .out = true) (kfree : l .free = true) (h : Kept l o s) {t : State} (e : execTimeStep h1 delta s = .next t) :
    Kept l o t := by
  cases e
  repeat' first
    | with_reducible assumption
    | exact fun hw => hw
    | intro _
    | with_reducible apply State.manager_kept
    | with_reducible apply State.bad_kept
    | with_reducible apply State.onPit_kept
    | with_reducible apply State.foldl_kept
    | exact ⟨Nat.le_refl _, fun hw => hw⟩
    | with_reducible apply Kept.ite
    | split
    | extract_lets
    | (dsimp +zetaDelta only; split)
    | (simp +zetaDelta [*]; done)
    | (simp only [HostIf.wf, Flt.wf] at *; simp +zetaDelta [*]; done)

theorem execProgLoad_kept {s : State} {h1 : Hdr} {index : Word32} {o1 : HRef} {image : List Word} (kregs : l .regs = true) (khost : l .host = true) (kflt : l .flt = true) (keng : l .eng = true) (kbel : l .bel = true) (kimg : l .img = true) (kout : l .out = true) (kfree : l .free = true) (h : Kept l o s) {t : State} (e : execProgLoad h1 index o1 image s = .next t) :
    Kept l o t := by
  cases e
  repeat' first
    | with_reducible assumption
    | exact fun hw => hw
    | intro _
    | with_reducible apply State.command_kept
    | with_reducible apply State.withObject_kept
    | with_reducible apply State.bad_kept
    | with_reducible apply State.done_kept
    | with_reducible apply State.denied_kept
    | with_reducible apply State.onEng_kept
    | with_reducible apply State.foldl_kept
    | exact ⟨Nat.le_refl _, fun hw => hw⟩
    | with_reducible apply Kept.ite
    | split
    | extract_lets
    | (dsimp +zetaDelta only; split)
    | (simp +zetaDelta [*]; done)
    | (simp only [HostIf.wf, Flt.wf, Eng.wf, Bel.wf] at *; simp +zetaDelta [*]; done)

theorem execProgCopyEnd_kept {s : State} {domain : Fin 4096} {handle : BitVec 12} (kregs : l .regs = true) (kpit : l .pit = true) (khost : l .host = true) (kflt : l .flt = true) (keng : l .eng = true) (ktabs : l .tabs = true) (kbel : l .bel = true) (kimg : l .img = true) (kout : l .out = true) (kfree : l .free = true) (h : Kept l o s) {t : State} (e : execProgCopyEnd domain handle s = .next t) :
    Kept l o t := by
  cases e
  repeat' first
    | with_reducible assumption
    | exact fun hw => hw
    | intro _
    | with_reducible apply State.onEng_kept
    | with_reducible apply State.reach_kept
    | with_reducible apply State.done_kept
    | with_reducible apply State.foldl_kept
    | exact ⟨Nat.le_refl _, fun hw => hw⟩
    | with_reducible apply Kept.ite
    | split
    | extract_lets
    | (dsimp +zetaDelta only; split)
    | (simp +zetaDelta [*]; done)
    | (simp only [HostIf.wf, Flt.wf, Eng.wf, Tabs.wf, Bel.wf] at *; simp +zetaDelta [*]; done)

theorem execProgUnload_kept {s : State} {h1 : Hdr} {index : Word32} (kregs : l .regs = true) (khost : l .host = true) (kflt : l .flt = true) (keng : l .eng = true) (kimg : l .img = true) (kout : l .out = true) (kfree : l .free = true) (h : Kept l o s) {t : State} (e : execProgUnload h1 index s = .next t) :
    Kept l o t := by
  cases e
  repeat' first
    | with_reducible assumption
    | exact fun hw => hw
    | intro _
    | with_reducible apply State.command_kept
    | with_reducible apply State.done_kept
    | with_reducible apply State.denied_kept
    | with_reducible apply State.onEng_kept
    | with_reducible apply State.foldl_kept
    | exact ⟨Nat.le_refl _, fun hw => hw⟩
    | with_reducible apply Kept.ite
    | split
    | extract_lets
    | (dsimp +zetaDelta only; split)
    | (simp +zetaDelta [*]; done)
    | (simp only [HostIf.wf, Flt.wf, Eng.wf] at *; simp +zetaDelta [*]; done)

theorem execBlwCoefLoad_kept {s : State} {h1 : Hdr} {o1 : HRef} {table : List Word32} (kregs : l .regs = true) (khost : l .host = true) (kflt : l .flt = true) (kbel : l .bel = true) (kimg : l .img = true) (kout : l .out = true) (kfree : l .free = true) (h : Kept l o s) {t : State} (e : execBlwCoefLoad h1 o1 table s = .next t) :
    Kept l o t := by
  cases e
  repeat' first
    | with_reducible assumption
    | exact fun hw => hw
    | intro _
    | with_reducible apply State.manager_kept
    | with_reducible apply State.withObject_kept
    | with_reducible apply State.bad_kept
    | with_reducible apply State.denied_kept
    | with_reducible apply State.done_kept
    | with_reducible apply State.onBel_kept
    | with_reducible apply State.foldl_kept
    | exact ⟨Nat.le_refl _, fun hw => hw⟩
    | with_reducible apply Kept.ite
    | split
    | extract_lets
    | (dsimp +zetaDelta only; split)
    | (simp +zetaDelta [*]; done)
    | (simp only [HostIf.wf, Flt.wf, Bel.wf] at *; simp +zetaDelta [*]; done)

/-! ### Machine/Recorder.lean -/

theorem execRecStart_kept {s : State} {h1 : Hdr} {w10 : Word} {w18 : Word} {w20 : Word} {w28 : Word} {w30 : Word} {w38 : Word} {wlist : List Word32} (kregs : l .regs = true) (khost : l .host = true) (kflt : l .flt = true) (kbel : l .bel = true) (krecorder : l .recorder = true) (kimg : l .img = true) (kout : l .out = true) (kfree : l .free = true) (h : Kept l o s) {t : State} (e : execRecStart h1 w10 w18 w20 w28 w30 w38 wlist s = .next t) :
    Kept l o t := by
  cases e
  repeat' first
    | with_reducible assumption
    | exact fun hw => hw
    | intro _
    | with_reducible apply State.manager_kept
    | with_reducible apply State.bad_kept
    | with_reducible apply State.denied_kept
    | with_reducible apply State.onRec_kept
    | with_reducible apply State.withObject_kept
    | with_reducible apply State.foldl_kept
    | exact ⟨Nat.le_refl _, fun hw => hw⟩
    | with_reducible apply Kept.ite
    | split
    | extract_lets
    | (dsimp +zetaDelta only; split)
    | (simp +zetaDelta [*]; done)
    | (simp only [HostIf.wf, Flt.wf, Bel.wf, Rec.wf] at *; simp +zetaDelta [*]; done)

theorem execRecQuiesceStart_kept {s : State} (kregs : l .regs = true) (kpit : l .pit = true) (khost : l .host = true) (kflt : l .flt = true) (keng : l .eng = true) (kfab : l .fab = true) (ktabs : l .tabs = true) (khome : l .home = true) (kbel : l .bel = true) (krecorder : l .recorder = true) (kimg : l .img = true) (kout : l .out = true) (kfree : l .free = true) (h : Kept l o s) {t : State} (e : execRecQuiesceStart s = .next t) :
    Kept l o t := by
  cases e
  repeat' first
    | with_reducible assumption
    | exact fun hw => hw
    | intro _
    | with_reducible apply State.whenServing_kept
    | with_reducible apply State.openEpoch_kept
    | with_reducible apply State.reach_kept
    | with_reducible apply State.onRec_kept
    | with_reducible apply State.settle_kept
    | with_reducible apply State.forAll_kept
    | with_reducible apply State.evictLine_kept
    | with_reducible apply State.foldl_kept
    | exact ⟨Nat.le_refl _, fun hw => hw⟩
    | with_reducible apply Kept.ite
    | split
    | extract_lets
    | (dsimp +zetaDelta only; split)
    | (simp +zetaDelta [*]; done)
    | (simp only [HostIf.wf, Flt.wf, Eng.wf, Fab.wf, Tabs.wf, Home.wf, Bel.wf, Rec.wf] at *; simp +zetaDelta [*]; done)

theorem State.endHold_kept {s : State} (kregs : l .regs = true) (kpit : l .pit = true) (khost : l .host = true) (kflt : l .flt = true) (keng : l .eng = true) (kfab : l .fab = true) (ktabs : l .tabs = true) (kbel : l .bel = true) (krecorder : l .recorder = true) (kimg : l .img = true) (kout : l .out = true) (kfree : l .free = true) (h : Kept l o s) :
    Kept l o (State.endHold s) := by
  unfold State.endHold
  repeat' first
    | with_reducible assumption
    | exact fun hw => hw
    | intro _
    | with_reducible apply State.onRec_kept
    | with_reducible apply State.forAll_kept
    | with_reducible apply State.settleEngine_kept
    | with_reducible apply State.dispatchAllDue_kept
    | with_reducible apply State.foldl_kept
    | exact ⟨Nat.le_refl _, fun hw => hw⟩
    | with_reducible apply Kept.ite
    | split
    | extract_lets
    | (dsimp +zetaDelta only; split)
    | (simp +zetaDelta [*]; done)
    | (simp only [HostIf.wf, Flt.wf, Eng.wf, Fab.wf, Tabs.wf, Bel.wf, Rec.wf] at *; simp +zetaDelta [*]; done)

theorem State.writeSections_kept {s : State} {c : RecCfg} {id : Nat} (krecorder : l .recorder = true) (kout : l .out = true) (h : Kept l o s) :
    Kept l o (State.writeSections c id s) := by
  unfold State.writeSections
  repeat' first
    | with_reducible assumption
    | exact fun hw => hw
    | intro _
    | with_reducible apply State.toSink_kept
    | with_reducible apply State.onRec_kept
    | with_reducible apply State.foldl_kept
    | exact ⟨Nat.le_refl _, fun hw => hw⟩
    | with_reducible apply Kept.ite
    | split
    | extract_lets
    | (dsimp +zetaDelta only; split)
    | (simp +zetaDelta [*]; done)
    | (simp only [Rec.wf] at *; simp +zetaDelta [*]; done)

theorem execRecQuiescePoint_kept {s : State} (kregs : l .regs = true) (kpit : l .pit = true) (khost : l .host = true) (kflt : l .flt = true) (keng : l .eng = true) (ktabs : l .tabs = true) (kbel : l .bel = true) (krecorder : l .recorder = true) (kimg : l .img = true) (kout : l .out = true) (kfree : l .free = true) (h : Kept l o s) {t : State} (e : execRecQuiescePoint s = .next t) :
    Kept l o t := by
  cases e
  repeat' first
    | with_reducible assumption
    | exact fun hw => hw
    | intro _
    | with_reducible apply State.whenServing_kept
    | with_reducible apply State.reach_kept
    | with_reducible apply State.onRec_kept
    | with_reducible apply State.writeSections_kept
    | with_reducible apply State.recClose_kept
    | with_reducible apply State.forAll_kept
    | with_reducible apply State.emit_kept
    | with_reducible apply State.foldl_kept
    | exact ⟨Nat.le_refl _, fun hw => hw⟩
    | with_reducible apply Kept.ite
    | split
    | extract_lets
    | (dsimp +zetaDelta only; split)
    | (simp +zetaDelta [*]; done)
    | (simp only [HostIf.wf, Flt.wf, Eng.wf, Tabs.wf, Bel.wf, Rec.wf] at *; simp +zetaDelta [*]; done)

theorem execRecSectionsDone_kept {s : State} (kregs : l .regs = true) (kpit : l .pit = true) (khost : l .host = true) (kflt : l .flt = true) (keng : l .eng = true) (kfab : l .fab = true) (ktabs : l .tabs = true) (kbel : l .bel = true) (krecorder : l .recorder = true) (kimg : l .img = true) (kout : l .out = true) (kfree : l .free = true) (h : Kept l o s) {t : State} (e : execRecSectionsDone s = .next t) :
    Kept l o t := by
  cases e
  repeat' first
    | with_reducible assumption
    | exact fun hw => hw
    | intro _
    | with_reducible apply State.whenServing_kept
    | with_reducible apply State.endHold_kept
    | with_reducible apply State.onRec_kept
    | with_reducible apply State.complete_kept
    | with_reducible apply State.foldl_kept
    | exact ⟨Nat.le_refl _, fun hw => hw⟩
    | with_reducible apply Kept.ite
    | split
    | extract_lets
    | (dsimp +zetaDelta only; split)
    | (simp +zetaDelta [*]; done)
    | (simp only [HostIf.wf, Flt.wf, Eng.wf, Fab.wf, Tabs.wf, Bel.wf, Rec.wf] at *; simp +zetaDelta [*]; done)

theorem State.quiesceFails_kept {s : State} (kregs : l .regs = true) (kpit : l .pit = true) (khost : l .host = true) (kflt : l .flt = true) (keng : l .eng = true) (kfab : l .fab = true) (ktabs : l .tabs = true) (kbel : l .bel = true) (krecorder : l .recorder = true) (kimg : l .img = true) (kout : l .out = true) (kfree : l .free = true) (h : Kept l o s) :
    Kept l o (State.quiesceFails s) := by
  unfold State.quiesceFails
  repeat' first
    | with_reducible assumption
    | exact fun hw => hw
    | intro _
    | with_reducible apply State.tell_kept
    | with_reducible apply State.endHold_kept
    | with_reducible apply State.onRec_kept
    | with_reducible apply State.foldl_kept
    | exact ⟨Nat.le_refl _, fun hw => hw⟩
    | with_reducible apply Kept.ite
    | split
    | extract_lets
    | (dsimp +zetaDelta only; split)
    | (simp +zetaDelta [*]; done)
    | (simp only [HostIf.wf, Flt.wf, Eng.wf, Fab.wf, Tabs.wf, Bel.wf, Rec.wf] at *; simp +zetaDelta [*]; done)

theorem execRecQlimitExpire_kept {s : State} (kregs : l .regs = true) (kpit : l .pit = true) (khost : l .host = true) (kflt : l .flt = true) (keng : l .eng = true) (kfab : l .fab = true) (ktabs : l .tabs = true) (kbel : l .bel = true) (krecorder : l .recorder = true) (kimg : l .img = true) (kout : l .out = true) (kfree : l .free = true) (h : Kept l o s) {t : State} (e : execRecQlimitExpire s = .next t) :
    Kept l o t := by
  cases e
  repeat' first
    | with_reducible assumption
    | exact fun hw => hw
    | intro _
    | with_reducible apply State.whenServing_kept
    | with_reducible apply State.quiesceFails_kept
    | with_reducible apply State.reach_kept
    | with_reducible apply State.foldl_kept
    | exact ⟨Nat.le_refl _, fun hw => hw⟩
    | with_reducible apply Kept.ite
    | split
    | extract_lets
    | (dsimp +zetaDelta only; split)
    | (simp +zetaDelta [*]; done)
    | (simp only [HostIf.wf, Flt.wf, Eng.wf, Fab.wf, Tabs.wf, Bel.wf, Rec.wf] at *; simp +zetaDelta [*]; done)

theorem execDigestSpanEnd_kept {s : State} (kregs : l .regs = true) (kpit : l .pit = true) (khost : l .host = true) (kflt : l .flt = true) (keng : l .eng = true) (ktabs : l .tabs = true) (kbel : l .bel = true) (krecorder : l .recorder = true) (kimg : l .img = true) (kout : l .out = true) (kfree : l .free = true) (h : Kept l o s) {t : State} (e : execDigestSpanEnd s = .next t) :
    Kept l o t := by
  cases e
  repeat' first
    | with_reducible assumption
    | exact fun hw => hw
    | intro _
    | with_reducible apply State.whenServing_kept
    | with_reducible apply State.endSpan_kept
    | with_reducible apply State.reach_kept
    | with_reducible apply State.foldl_kept
    | exact ⟨Nat.le_refl _, fun hw => hw⟩
    | with_reducible apply Kept.ite
    | split
    | extract_lets
    | (dsimp +zetaDelta only; split)
    | (simp +zetaDelta [*]; done)
    | (simp only [HostIf.wf, Flt.wf, Eng.wf, Tabs.wf, Bel.wf, Rec.wf] at *; simp +zetaDelta [*]; done)

theorem execSpillWriteComplete_kept {s : State} {status : RspStatus} (kregs : l .regs = true) (khost : l .host = true) (kflt : l .flt = true) (kbel : l .bel = true) (krecorder : l .recorder = true) (kimg : l .img = true) (kout : l .out = true) (kfree : l .free = true) (h : Kept l o s) {t : State} (e : execSpillWriteComplete status s = .next t) :
    Kept l o t := by
  cases e
  repeat' first
    | with_reducible assumption
    | exact fun hw => hw
    | intro _
    | with_reducible apply State.onRec_kept
    | with_reducible apply State.countParts_kept
    | with_reducible apply State.beginGap_kept
    | with_reducible apply State.reportAcc_kept
    | with_reducible apply State.sinkLine_kept
    | with_reducible apply State.recClose_kept
    | with_reducible apply State.foldl_kept
    | exact ⟨Nat.le_refl _, fun hw => hw⟩
    | with_reducible apply Kept.ite
    | split
    | extract_lets
    | (dsimp +zetaDelta only; split)
    | (simp +zetaDelta [*]; done)
    | (simp only [HostIf.wf, Flt.wf, Bel.wf, Rec.wf] at *; simp +zetaDelta [*]; done)

theorem State.recBoundary_kept {s : State} (kregs : l .regs = true) (krecorder : l .recorder = true) (h : Kept l o s) :
    Kept l o (State.recBoundary s) := by
  unfold State.recBoundary
  repeat' first
    | with_reducible assumption
    | exact fun hw => hw
    | intro _
    | with_reducible apply State.closeEpoch_kept
    | with_reducible apply State.endSpan_kept
    | with_reducible apply State.onRec_kept
    | with_reducible apply State.pushGap_kept
    | with_reducible apply State.foldl_kept
    | exact ⟨Nat.le_refl _, fun hw => hw⟩
    | with_reducible apply Kept.ite
    | split
    | extract_lets
    | (dsimp +zetaDelta only; split)
    | (simp +zetaDelta [*]; done)
    | (simp only [Rec.wf] at *; simp +zetaDelta [*]; done)

theorem execRecMarkRx_kept {s : State} {p : PortId} {value : Word32} {tag : BitVec 16} (kregs : l .regs = true) (krecorder : l .recorder = true) (h : Kept l o s) {t : State} (e : execRecMarkRx p value tag s = .next t) :
    Kept l o t := by
  cases e
  repeat' first
    | with_reducible assumption
    | exact fun hw => hw
    | intro _
    | with_reducible apply State.capture_kept
    | with_reducible apply State.foldl_kept
    | exact ⟨Nat.le_refl _, fun hw => hw⟩
    | with_reducible apply Kept.ite
    | split
    | extract_lets
    | (dsimp +zetaDelta only; split)
    | (simp +zetaDelta [*]; done)
    | (simp only [Rec.wf] at *; simp +zetaDelta [*]; done)

theorem execRecStop_kept {s : State} {h1 : Hdr} (kregs : l .regs = true) (khost : l .host = true) (kflt : l .flt = true) (krecorder : l .recorder = true) (kimg : l .img = true) (kout : l .out = true) (kfree : l .free = true) (h : Kept l o s) {t : State} (e : execRecStop h1 s = .next t) :
    Kept l o t := by
  cases e
  repeat' first
    | with_reducible assumption
    | exact fun hw => hw
    | intro _
    | with_reducible apply State.manager_kept
    | with_reducible apply State.done_kept
    | with_reducible apply State.recClose_kept
    | with_reducible apply State.complete_kept
    | with_reducible apply State.denied_kept
    | with_reducible apply State.foldl_kept
    | exact ⟨Nat.le_refl _, fun hw => hw⟩
    | with_reducible apply Kept.ite
    | split
    | extract_lets
    | (dsimp +zetaDelta only; split)
    | (simp +zetaDelta [*]; done)
    | (simp only [HostIf.wf, Flt.wf, Rec.wf] at *; simp +zetaDelta [*]; done)

theorem execRecBufRead_kept {s : State} (krecorder : l .recorder = true) (kout : l .out = true) (h : Kept l o s) {t : State} (e : execRecBufRead s = .next t) :
    Kept l o t := by
  cases e
  repeat' first
    | with_reducible assumption
    | exact fun hw => hw
    | intro _
    | with_reducible apply State.onRec_kept
    | with_reducible apply State.emit_kept
    | with_reducible apply State.foldl_kept
    | exact ⟨Nat.le_refl _, fun hw => hw⟩
    | with_reducible apply Kept.ite
    | split
    | extract_lets
    | (dsimp +zetaDelta only; split)
    | (simp +zetaDelta [*]; done)
    | (simp only [Rec.wf] at *; simp +zetaDelta [*]; done)

/-! ### Machine/Life.lean -/

theorem State.healthDue_kept {s : State} (kregs : l .regs = true) (ksys : l .sys = true) (khost : l .host = true) (kflt : l .flt = true) (kimg : l .img = true) (kout : l .out = true) (kfree : l .free = true) (h : Kept l o s) :
    Kept l o (State.healthDue s) := by
  unfold State.healthDue
  repeat' first
    | with_reducible assumption
    | exact fun hw => hw
    | intro _
    | with_reducible apply State.onLife_kept
    | with_reducible apply State.takeFree_kept
    | with_reducible apply State.stat_kept
    | with_reducible apply State.bump_kept
    | with_reducible apply State.foldl_kept
    | exact ⟨Nat.le_refl _, fun hw => hw⟩
    | exact rfl
    | with_reducible apply Kept.ite
    | split
    | extract_lets
    | (dsimp +zetaDelta only; split)
    | (simp +zetaDelta [*]; done)
    | (simp only [Sys.wf, HostIf.wf, Flt.wf] at *; simp +zetaDelta [*]; done)

theorem execHealthRecord_kept {s : State} (kregs : l .regs = true) (ksys : l .sys = true) (khost : l .host = true) (kflt : l .flt = true) (kimg : l .img = true) (kout : l .out = true) (kfree : l .free = true) (h : Kept l o s) {t : State} (e : execHealthRecord s = .next t) :
    Kept l o t := by
  cases e
  repeat' first
    | with_reducible assumption
    | exact fun hw => hw
    | intro _
    | with_reducible apply State.healthDue_kept
    | with_reducible apply State.foldl_kept
    | exact ⟨Nat.le_refl _, fun hw => hw⟩
    | with_reducible apply Kept.ite
    | split
    | extract_lets
    | (dsimp +zetaDelta only; split)
    | (simp +zetaDelta [*]; done)
    | (simp only [Sys.wf, HostIf.wf, Flt.wf] at *; simp +zetaDelta [*]; done)

theorem State.ageSample_kept {s : State} {age : List Nat} {margin : List Nat} {x2 : Nat} (kregs : l .regs = true) (ksys : l .sys = true) (kpit : l .pit = true) (khost : l .host = true) (kflt : l .flt = true) (keng : l .eng = true) (ktabs : l .tabs = true) (kbel : l .bel = true) (kimg : l .img = true) (kout : l .out = true) (kfree : l .free = true) (h : Kept l o s) :
    Kept l o (State.ageSample age margin x2 s) := by
  unfold State.ageSample
  repeat' first
    | with_reducible assumption
    | exact fun hw => hw
    | intro _
    | with_reducible apply State.onLife_kept
    | with_reducible apply State.onSys_kept
    | with_reducible apply State.reach_kept
    | with_reducible apply State.foldl_kept
    | exact ⟨Nat.le_refl _, fun hw => hw⟩
    | with_reducible apply Kept.ite
    | split
    | extract_lets
    | (dsimp +zetaDelta only; split)
    | (simp +zetaDelta [*]; done)
    | (simp only [Sys.wf, HostIf.wf, Flt.wf, Eng.wf, Tabs.wf, Bel.wf] at *; simp +zetaDelta [*]; done)

theorem execAgeingSample_kept {s : State} {age : List Nat} {margin : List Nat} (kregs : l .regs = true) (ksys : l .sys = true) (kpit : l .pit = true) (khost : l .host = true) (kflt : l .flt = true) (keng : l .eng = true) (ktabs : l .tabs = true) (kbel : l .bel = true) (kimg : l .img = true) (kout : l .out = true) (kfree : l .free = true) (h : Kept l o s) {t : State} (e : execAgeingSample age margin s = .next t) :
    Kept l o t := by
  obtain rfl := Host.Outcome.next.inj e
  exact Kept.ite (fun _ => h) (fun _ => State.ageSample_kept kregs ksys kpit khost kflt keng ktabs kbel kimg kout kfree h)

end Sys2Proof.Machine
end

