-- ==== Sys2Proof/Laws/KeptTick.lean ====
section
/-! SUPPORT. What the operations and meanings keep (Laws/Kept.lean), for the tick, setup writes and the cold start. -/

namespace Sys2Proof.Machine

variable {l : Part → Bool} {o : State}

/-! ### Machine/Tick.lean -/

theorem State.setRate_kept {s : State} {r : Nat} (kregs : l .regs = true) (kpit : l .pit = true) (krecorder : l .recorder = true) (h : Kept l o s) :
    Kept l o (State.setRate r s) := by
  unfold State.setRate
  repeat' first
    | with_reducible assumption
    | exact fun hw => hw
    | intro _
    | with_reducible apply State.capture_kept
    | with_reducible apply State.onPit_kept
    | with_reducible apply State.foldl_kept
    | exact ⟨Nat.le_refl _, fun hw => hw⟩
    | with_reducible apply Kept.ite
    | split
    | extract_lets
    | (dsimp +zetaDelta only; split)
    | (simp +zetaDelta [*]; done)
    | (simp only [Rec.wf] at *; simp +zetaDelta [*]; done)

theorem State.slew_kept {s : State} (kregs : l .regs = true) (kpit : l .pit = true) (krecorder : l .recorder = true) (kfree : l .free = true) (h : Kept l o s) :
    Kept l o (State.slew s) := by
  unfold State.slew
  repeat' first
    | with_reducible assumption
    | exact fun hw => hw
    | intro _
    | with_reducible apply State.setRate_kept
    | with_reducible apply State.nextFree_kept
    | with_reducible apply State.foldl_kept
    | exact ⟨Nat.le_refl _, fun hw => hw⟩
    | with_reducible apply Kept.ite
    | split
    | extract_lets
    | (dsimp +zetaDelta only; split)
    | (simp +zetaDelta [*]; done)
    | (simp only [Rec.wf] at *; simp +zetaDelta [*]; done)

theorem State.selectSource_kept {s : State} {src : BitVec 2} (kregs : l .regs = true) (kpit : l .pit = true) (krecorder : l .recorder = true) (kfree : l .free = true) (h : Kept l o s) :
    Kept l o (State.selectSource src s) := by
  unfold State.selectSource
  repeat' first
    | with_reducible assumption
    | exact fun hw => hw
    | intro _
    | with_reducible apply State.onPit_kept
    | with_reducible apply State.setRate_kept
    | with_reducible apply State.slew_kept
    | with_reducible apply State.foldl_kept
    | exact ⟨Nat.le_refl _, fun hw => hw⟩
    | with_reducible apply Kept.ite
    | split
    | extract_lets
    | (dsimp +zetaDelta only; split)
    | (simp +zetaDelta [*]; done)
    | (simp only [Rec.wf] at *; simp +zetaDelta [*]; done)

theorem State.writeSource_kept {s : State} {src : BitVec 2} (kregs : l .regs = true) (kpit : l .pit = true) (krecorder : l .recorder = true) (kfree : l .free = true) (h : Kept l o s) :
    Kept l o (State.writeSource src s) := by
  unfold State.writeSource
  repeat' first
    | with_reducible assumption
    | exact fun hw => hw
    | intro _
    | with_reducible apply State.onPit_kept
    | with_reducible apply State.selectSource_kept
    | with_reducible apply State.foldl_kept
    | exact ⟨Nat.le_refl _, fun hw => hw⟩
    | with_reducible apply Kept.ite
    | split
    | extract_lets
    | (dsimp +zetaDelta only; split)
    | (simp +zetaDelta [*]; done)
    | (simp only [Rec.wf] at *; simp +zetaDelta [*]; done)

theorem State.phaseSample_kept {s : State} {err : Int} (kregs : l .regs = true) (kpit : l .pit = true) (krecorder : l .recorder = true) (kfree : l .free = true) (h : Kept l o s) :
    Kept l o (State.phaseSample err s) := by
  unfold State.phaseSample
  repeat' first
    | with_reducible assumption
    | exact fun hw => hw
    | intro _
    | with_reducible apply State.onPit_kept
    | with_reducible apply State.slew_kept
    | with_reducible apply State.foldl_kept
    | exact ⟨Nat.le_refl _, fun hw => hw⟩
    | with_reducible apply Kept.ite
    | split
    | extract_lets
    | (dsimp +zetaDelta only; split)
    | (simp +zetaDelta [*]; done)
    | (simp only [Rec.wf] at *; simp +zetaDelta [*]; done)

theorem State.loseSource_kept {s : State} (kregs : l .regs = true) (kpit : l .pit = true) (khost : l .host = true) (kflt : l .flt = true) (krecorder : l .recorder = true) (kimg : l .img = true) (kout : l .out = true) (kfree : l .free = true) (h : Kept l o s) :
    Kept l o (State.loseSource s) := by
  unfold State.loseSource
  repeat' first
    | with_reducible assumption
    | exact fun hw => hw
    | intro _
    | with_reducible apply State.slew_kept
    | with_reducible apply State.onPit_kept
    | with_reducible apply State.fc0_kept
    | with_reducible apply State.foldl_kept
    | exact ⟨Nat.le_refl _, fun hw => hw⟩
    | with_reducible apply Kept.ite
    | split
    | extract_lets
    | (dsimp +zetaDelta only; split)
    | (simp +zetaDelta [*]; done)
    | (simp only [HostIf.wf, Flt.wf, Rec.wf] at *; simp +zetaDelta [*]; done)

theorem execPtmDialogue_kept {s : State} (kregs : l .regs = true) (kpit : l .pit = true) (khost : l .host = true) (kflt : l .flt = true) (keng : l .eng = true) (ktabs : l .tabs = true) (kbel : l .bel = true) (kimg : l .img = true) (kout : l .out = true) (kfree : l .free = true) (h : Kept l o s) {t : State} (e : execPtmDialogue s = .next t) :
    Kept l o t := by
  cases e
  repeat' first
    | with_reducible assumption
    | exact fun hw => hw
    | intro _
    | with_reducible apply State.onPit_kept
    | with_reducible apply State.reach_kept
    | with_reducible apply State.emit_kept
    | with_reducible apply State.foldl_kept
    | exact ⟨Nat.le_refl _, fun hw => hw⟩
    | with_reducible apply Kept.ite
    | split
    | extract_lets
    | (dsimp +zetaDelta only; split)
    | (simp +zetaDelta [*]; done)
    | (simp only [HostIf.wf, Flt.wf, Eng.wf, Tabs.wf, Bel.wf] at *; simp +zetaDelta [*]; done)

theorem execPtmResponseRx_kept {s : State} {failed : Bool} {err : Int} (kregs : l .regs = true) (kpit : l .pit = true) (khost : l .host = true) (kflt : l .flt = true) (krecorder : l .recorder = true) (kimg : l .img = true) (kout : l .out = true) (kfree : l .free = true) (h : Kept l o s) {t : State} (e : execPtmResponseRx failed err s = .next t) :
    Kept l o t := by
  cases e
  repeat' first
    | with_reducible assumption
    | exact fun hw => hw
    | intro _
    | with_reducible apply State.onPit_kept
    | with_reducible apply State.loseSource_kept
    | with_reducible apply State.phaseSample_kept
    | with_reducible apply State.foldl_kept
    | exact ⟨Nat.le_refl _, fun hw => hw⟩
    | with_reducible apply Kept.ite
    | split
    | extract_lets
    | (dsimp +zetaDelta only; split)
    | (simp +zetaDelta [*]; done)
    | (simp only [HostIf.wf, Flt.wf, Rec.wf] at *; simp +zetaDelta [*]; done)

theorem execPpsInEdge_kept {s : State} (kregs : l .regs = true) (kpit : l .pit = true) (krecorder : l .recorder = true) (kfree : l .free = true) (h : Kept l o s) {t : State} (e : execPpsInEdge s = .next t) :
    Kept l o t := by
  cases e
  repeat' first
    | with_reducible assumption
    | exact fun hw => hw
    | intro _
    | with_reducible apply State.onPit_kept
    | with_reducible apply State.phaseSample_kept
    | with_reducible apply State.foldl_kept
    | exact ⟨Nat.le_refl _, fun hw => hw⟩
    | with_reducible apply Kept.ite
    | split
    | extract_lets
    | (dsimp +zetaDelta only; split)
    | (simp +zetaDelta [*]; done)
    | (simp only [Rec.wf] at *; simp +zetaDelta [*]; done)

theorem execTimeSourceLoss_kept {s : State} {why : SourceLoss} (kregs : l .regs = true) (kpit : l .pit = true) (khost : l .host = true) (kflt : l .flt = true) (keng : l .eng = true) (ktabs : l .tabs = true) (kbel : l .bel = true) (krecorder : l .recorder = true) (kimg : l .img = true) (kout : l .out = true) (kfree : l .free = true) (h : Kept l o s) {t : State} (e : execTimeSourceLoss why s = .next t) :
    Kept l o t := by
  cases e
  repeat' first
    | with_reducible assumption
    | exact fun hw => hw
    | intro _
    | with_reducible apply State.loseSource_kept
    | with_reducible apply State.onPit_kept
    | with_reducible apply State.reach_kept
    | with_reducible apply State.foldl_kept
    | exact ⟨Nat.le_refl _, fun hw => hw⟩
    | with_reducible apply Kept.ite
    | split
    | extract_lets
    | (dsimp +zetaDelta only; split)
    | (simp +zetaDelta [*]; done)
    | (simp only [HostIf.wf, Flt.wf, Eng.wf, Tabs.wf, Bel.wf, Rec.wf] at *; simp +zetaDelta [*]; done)

theorem execHoldoverLimitExpire_kept {s : State} (kregs : l .regs = true) (kpit : l .pit = true) (khost : l .host = true) (kflt : l .flt = true) (keng : l .eng = true) (ktabs : l .tabs = true) (kbel : l .bel = true) (kimg : l .img = true) (kout : l .out = true) (kfree : l .free = true) (h : Kept l o s) {t : State} (e : execHoldoverLimitExpire s = .next t) :
    Kept l o t := by
  cases e
  repeat' first
    | with_reducible assumption
    | exact fun hw => hw
    | intro _
    | with_reducible apply State.reach_kept
    | with_reducible apply State.onPit_kept
    | with_reducible apply State.condition_kept
    | with_reducible apply State.foldl_kept
    | exact ⟨Nat.le_refl _, fun hw => hw⟩
    | with_reducible apply Kept.ite
    | split
    | extract_lets
    | (dsimp +zetaDelta only; split)
    | (simp +zetaDelta [*]; done)
    | (simp only [HostIf.wf, Flt.wf, Eng.wf, Tabs.wf, Bel.wf] at *; simp +zetaDelta [*]; done)

theorem execTimeClkReturn_kept {s : State} (kregs : l .regs = true) (kpit : l .pit = true) (krecorder : l .recorder = true) (kfree : l .free = true) (h : Kept l o s) {t : State} (e : execTimeClkReturn s = .next t) :
    Kept l o t := by
  cases e
  repeat' first
    | with_reducible assumption
    | exact fun hw => hw
    | intro _
    | with_reducible apply State.onPit_kept
    | with_reducible apply State.slew_kept
    | with_reducible apply State.foldl_kept
    | exact ⟨Nat.le_refl _, fun hw => hw⟩
    | with_reducible apply Kept.ite
    | split
    | extract_lets
    | (dsimp +zetaDelta only; split)
    | (simp +zetaDelta [*]; done)
    | (simp only [Rec.wf] at *; simp +zetaDelta [*]; done)

theorem State.commitSwitch_kept {s : State} {w : Wait} {done : Option (Plan × Option Hdr)} (kregs : l .regs = true) (kpit : l .pit = true) (khost : l .host = true) (kflt : l .flt = true) (kimg : l .img = true) (kout : l .out = true) (kfree : l .free = true) (h : Kept l o s) :
    Kept l o (State.commitSwitch w done s).2 := by
  unfold State.commitSwitch
  repeat' first
    | with_reducible assumption
    | exact fun hw => hw
    | intro _
    | with_reducible apply State.tell_kept
    | with_reducible apply State.onPit_kept
    | with_reducible apply State.foldl_kept
    | exact ⟨Nat.le_refl _, fun hw => hw⟩
    | with_reducible apply Kept.ite
    | split
    | extract_lets
    | (dsimp +zetaDelta only; split)
    | (simp +zetaDelta [*]; done)
    | (simp only [HostIf.wf, Flt.wf] at *; simp +zetaDelta [*]; done)

theorem State.commitSwitches_kept {s : State} {k : Nat} (kregs : l .regs = true) (kpit : l .pit = true) (khost : l .host = true) (kflt : l .flt = true) (kimg : l .img = true) (kout : l .out = true) (kfree : l .free = true) (h : Kept l o s) :
    Kept l o (State.commitSwitches k s).2 := by
  unfold State.commitSwitches
  extract_lets mine s'
  have key : ∀ (xs : List Wait) (a : Option (Plan × Option Hdr) × State), Kept l o a.2 →
      Kept l o (xs.foldl (fun a w => State.commitSwitch w a.1 a.2) a).2 := by
    intro xs
    induction xs with
    | nil => exact fun _ ha => ha
    | cons w xs ih => exact fun a ha => ih _ (State.commitSwitch_kept kregs kpit khost kflt kimg kout kfree ha)
  refine key mine (none, s') ?_
  show Kept l o s'
  exact State.onPit_kept kpit h

theorem State.commitStep_kept {s : State} {k : Nat} (kregs : l .regs = true) (kpit : l .pit = true) (khost : l .host = true) (kflt : l .flt = true) (kimg : l .img = true) (kout : l .out = true) (kfree : l .free = true) (h : Kept l o s) :
    Kept l o (State.commitStep k s).2 := by
  unfold State.commitStep
  repeat' first
    | with_reducible assumption
    | exact fun hw => hw
    | intro _
    | with_reducible apply State.onPit_kept
    | with_reducible apply State.tell_kept
    | with_reducible apply State.foldl_kept
    | exact ⟨Nat.le_refl _, fun hw => hw⟩
    | with_reducible apply Kept.ite
    | split
    | extract_lets
    | (dsimp +zetaDelta only; split)
    | (simp +zetaDelta [*]; done)
    | (simp only [HostIf.wf, Flt.wf] at *; simp +zetaDelta [*]; done)

theorem State.tickEdges_kept {s : State} {f : FixedB} (kout : l .out = true) (h : Kept l o s) :
    Kept l o (State.tickEdges f s) := by
  unfold State.tickEdges
  repeat' first
    | with_reducible assumption
    | exact fun hw => hw
    | intro _
    | with_reducible apply State.forAll_kept
    | with_reducible apply State.emit_kept
    | with_reducible apply State.foldl_kept
    | exact ⟨Nat.le_refl _, fun hw => hw⟩
    | with_reducible apply Kept.ite
    | split
    | extract_lets
    | (dsimp +zetaDelta only; split)
    | (simp +zetaDelta [*]; done)

theorem execBoundaryFix_kept {s : State} (kregs : l .regs = true) (kpit : l .pit = true) (khost : l .host = true) (kflt : l .flt = true) (keng : l .eng = true) (ktabs : l .tabs = true) (kbel : l .bel = true) (kimg : l .img = true) (kout : l .out = true) (kfree : l .free = true) (h : Kept l o s) {t : State} (e : execBoundaryFix s = .next t) :
    Kept l o t := by
  cases e
  repeat' first
    | with_reducible assumption
    | exact fun hw => hw
    | intro _
    | with_reducible apply State.reach_kept
    | with_reducible apply State.commitStep_kept
    | with_reducible apply State.commitSwitches_kept
    | with_reducible apply State.onPit_kept
    | with_reducible apply State.tickEdges_kept
    | with_reducible apply State.foldl_kept
    | exact ⟨Nat.le_refl _, fun hw => hw⟩
    | with_reducible apply Kept.ite
    | split
    | extract_lets
    | (dsimp +zetaDelta only; split)
    | (simp +zetaDelta [*]; done)
    | (simp only [HostIf.wf, Flt.wf, Eng.wf, Tabs.wf, Bel.wf] at *; simp +zetaDelta [*]; done)

theorem State.applyReserves_kept {s : State} (kfab : l .fab = true) (h : Kept l o s) :
    Kept l o (State.applyReserves s) := by
  unfold State.applyReserves
  repeat' first
    | with_reducible assumption
    | exact fun hw => hw
    | intro _
    | with_reducible apply State.forAll_kept
    | with_reducible apply State.settleRsv_kept
    | with_reducible apply State.onColumnN_kept
    | with_reducible apply State.foldl_kept
    | exact ⟨Nat.le_refl _, fun hw => hw⟩
    | with_reducible apply Kept.ite
    | split
    | extract_lets
    | (dsimp +zetaDelta only; split)
    | (simp +zetaDelta [*]; done)
    | (simp only [Fab.wf] at *; simp +zetaDelta [*]; done)

theorem State.drivePin_kept {s : State} {n : Nat} {x1 : Nat} {b : Bool} (ksys : l .sys = true) (kout : l .out = true) (h : Kept l o s) :
    Kept l o (State.drivePin n x1 b s) := by
  unfold State.drivePin
  repeat' first
    | with_reducible assumption
    | exact fun hw => hw
    | intro _
    | with_reducible apply State.emit_kept
    | with_reducible apply State.onSys_kept
    | with_reducible apply State.foldl_kept
    | exact ⟨Nat.le_refl _, fun hw => hw⟩
    | with_reducible apply Kept.ite
    | split
    | extract_lets
    | (dsimp +zetaDelta only; split)
    | (simp +zetaDelta [*]; done)
    | (simp only [Sys.wf] at *; simp +zetaDelta [*]; done)

theorem State.openWindow_kept {s : State} {w : WinId} (ksys : l .sys = true) (kpit : l .pit = true) (kfab : l .fab = true) (kout : l .out = true) (h : Kept l o s) :
    Kept l o (State.openWindow w s) := by
  unfold State.openWindow
  repeat' first
    | with_reducible assumption
    | exact fun hw => hw
    | intro _
    | with_reducible apply State.applyReserves_kept
    | with_reducible apply State.onPit_kept
    | with_reducible apply State.forAll_kept
    | with_reducible apply State.drivePin_kept
    | with_reducible apply State.foldl_kept
    | exact ⟨Nat.le_refl _, fun hw => hw⟩
    | with_reducible apply Kept.ite
    | split
    | extract_lets
    | (dsimp +zetaDelta only; split)
    | (simp +zetaDelta [*]; done)
    | (simp only [Sys.wf, Fab.wf] at *; simp +zetaDelta [*]; done)

theorem State.closeWindow_kept {s : State} {w : WinId} (kregs : l .regs = true) (ksys : l .sys = true) (kpit : l .pit = true) (khost : l .host = true) (kflt : l .flt = true) (kports : l .ports = true) (kfab : l .fab = true) (ktabs : l .tabs = true) (kbel : l .bel = true) (kimg : l .img = true) (kout : l .out = true) (kfree : l .free = true) (h : Kept l o s) :
    Kept l o (State.closeWindow w s) := by
  unfold State.closeWindow
  repeat' first
    | with_reducible assumption
    | exact fun hw => hw
    | intro _
    | with_reducible apply State.applyReserves_kept
    | with_reducible apply State.onPit_kept
    | with_reducible apply State.forAll_kept
    | with_reducible apply State.drivePin_kept
    | with_reducible apply State.beginDeferred_kept
    | with_reducible apply State.rtOver_kept
    | with_reducible apply State.foldl_kept
    | exact ⟨Nat.le_refl _, fun hw => hw⟩
    | with_reducible apply Kept.ite
    | split
    | extract_lets
    | (dsimp +zetaDelta only; split)
    | (simp +zetaDelta [*]; done)
    | (simp only [Sys.wf, HostIf.wf, Flt.wf, Fab.wf, Tabs.wf, Bel.wf] at *; simp +zetaDelta [*]; done)

theorem execWindowOpen_kept {s : State} {w : WinId} (kregs : l .regs = true) (ksys : l .sys = true) (kpit : l .pit = true) (khost : l .host = true) (kflt : l .flt = true) (keng : l .eng = true) (kfab : l .fab = true) (ktabs : l .tabs = true) (kbel : l .bel = true) (kimg : l .img = true) (kout : l .out = true) (kfree : l .free = true) (h : Kept l o s) {t : State} (e : execWindowOpen w s = .next t) :
    Kept l o t := by
  cases e
  repeat' first
    | with_reducible assumption
    | exact fun hw => hw
    | intro _
    | with_reducible apply State.openWindow_kept
    | with_reducible apply State.reach_kept
    | with_reducible apply State.foldl_kept
    | exact ⟨Nat.le_refl _, fun hw => hw⟩
    | with_reducible apply Kept.ite
    | split
    | extract_lets
    | (dsimp +zetaDelta only; split)
    | (simp +zetaDelta [*]; done)
    | (simp only [Sys.wf, HostIf.wf, Flt.wf, Eng.wf, Fab.wf, Tabs.wf, Bel.wf] at *; simp +zetaDelta [*]; done)

theorem execWindowClose_kept {s : State} {w : WinId} (kregs : l .regs = true) (ksys : l .sys = true) (kpit : l .pit = true) (khost : l .host = true) (kflt : l .flt = true) (keng : l .eng = true) (kports : l .ports = true) (kfab : l .fab = true) (ktabs : l .tabs = true) (kbel : l .bel = true) (kimg : l .img = true) (kout : l .out = true) (kfree : l .free = true) (h : Kept l o s) {t : State} (e : execWindowClose w s = .next t) :
    Kept l o t := by
  cases e
  repeat' first
    | with_reducible assumption
    | exact fun hw => hw
    | intro _
    | with_reducible apply State.closeWindow_kept
    | with_reducible apply State.reach_kept
    | with_reducible apply State.foldl_kept
    | exact ⟨Nat.le_refl _, fun hw => hw⟩
    | with_reducible apply Kept.ite
    | split
    | extract_lets
    | (dsimp +zetaDelta only; split)
    | (simp +zetaDelta [*]; done)
    | (simp only [Sys.wf, HostIf.wf, Flt.wf, Eng.wf, Fab.wf, Tabs.wf, Bel.wf] at *; simp +zetaDelta [*]; done)

theorem execAdmissionIntervalOpen_kept {s : State} {w : WinId} (kregs : l .regs = true) (kpit : l .pit = true) (khost : l .host = true) (kflt : l .flt = true) (keng : l .eng = true) (kfab : l .fab = true) (ktabs : l .tabs = true) (kbel : l .bel = true) (krecorder : l .recorder = true) (kimg : l .img = true) (kout : l .out = true) (kfree : l .free = true) (h : Kept l o s) {t : State} (e : execAdmissionIntervalOpen w s = .next t) :
    Kept l o t := by
  cases e
  repeat' first
    | with_reducible assumption
    | exact fun hw => hw
    | intro _
    | with_reducible apply State.onPit_kept
    | with_reducible apply State.reach_kept
    | with_reducible apply State.forAll_kept
    | with_reducible apply State.settleEngine_kept
    | with_reducible apply State.foldl_kept
    | exact ⟨Nat.le_refl _, fun hw => hw⟩
    | with_reducible apply Kept.ite
    | split
    | extract_lets
    | (dsimp +zetaDelta only; split)
    | (simp +zetaDelta [*]; done)
    | (simp only [HostIf.wf, Flt.wf, Eng.wf, Fab.wf, Tabs.wf, Bel.wf, Rec.wf] at *; simp +zetaDelta [*]; done)

theorem execTickOutPulseEnd_kept {s : State} {n : Fin 4} (kregs : l .regs = true) (ksys : l .sys = true) (kpit : l .pit = true) (khost : l .host = true) (kflt : l .flt = true) (keng : l .eng = true) (ktabs : l .tabs = true) (kbel : l .bel = true) (kimg : l .img = true) (kout : l .out = true) (kfree : l .free = true) (h : Kept l o s) {t : State} (e : execTickOutPulseEnd n s = .next t) :
    Kept l o t := by
  cases e
  repeat' first
    | with_reducible assumption
    | exact fun hw => hw
    | intro _
    | with_reducible apply State.onPit_kept
    | with_reducible apply State.reach_kept
    | with_reducible apply State.drivePin_kept
    | with_reducible apply State.foldl_kept
    | exact ⟨Nat.le_refl _, fun hw => hw⟩
    | with_reducible apply Kept.ite
    | split
    | extract_lets
    | (dsimp +zetaDelta only; split)
    | (simp +zetaDelta [*]; done)
    | (simp only [Sys.wf, HostIf.wf, Flt.wf, Eng.wf, Tabs.wf, Bel.wf] at *; simp +zetaDelta [*]; done)

theorem State.pmcRecord_kept {s : State} {d : Nat} {w : List Nat} (kregs : l .regs = true) (khost : l .host = true) (kflt : l .flt = true) (kimg : l .img = true) (kout : l .out = true) (kfree : l .free = true) (h : Kept l o s) :
    Kept l o (State.pmcRecord d w s) := by
  unfold State.pmcRecord
  repeat' first
    | with_reducible assumption
    | exact fun hw => hw
    | intro _
    | with_reducible apply State.bump_kept
    | with_reducible apply State.stat_kept
    | with_reducible apply State.foldl_kept
    | exact ⟨Nat.le_refl _, fun hw => hw⟩
    | with_reducible apply Kept.ite
    | split
    | extract_lets
    | (dsimp +zetaDelta only; split)
    | (simp +zetaDelta [*]; done)
    | (simp only [HostIf.wf, Flt.wf] at *; simp +zetaDelta [*]; done)

theorem State.snapRecord_kept {s : State} {key : Nat} (kregs : l .regs = true) (khost : l .host = true) (kflt : l .flt = true) (kimg : l .img = true) (kout : l .out = true) (kfree : l .free = true) (h : Kept l o s) :
    Kept l o (State.snapRecord key s) := by
  unfold State.snapRecord
  repeat' first
    | with_reducible assumption
    | exact fun hw => hw
    | intro _
    | with_reducible apply State.onHost_kept
    | with_reducible apply State.pmcRecord_kept
    | with_reducible apply State.foldl_kept
    | exact ⟨Nat.le_refl _, fun hw => hw⟩
    | with_reducible apply Kept.ite
    | split
    | extract_lets
    | (dsimp +zetaDelta only; split)
    | (simp +zetaDelta [*]; done)
    | (simp only [HostIf.wf, Flt.wf] at *; simp +zetaDelta [*]; done)

theorem execCounterSnapshot_kept {s : State} {domain : Fin 4096} {index : Nat} (kregs : l .regs = true) (khost : l .host = true) (kflt : l .flt = true) (kimg : l .img = true) (kout : l .out = true) (kfree : l .free = true) (h : Kept l o s) {t : State} (e : execCounterSnapshot domain index s = .next t) :
    Kept l o t := by
  cases e
  repeat' first
    | with_reducible assumption
    | exact fun hw => hw
    | intro _
    | with_reducible apply State.snapRecord_kept
    | with_reducible apply State.foldl_kept
    | exact ⟨Nat.le_refl _, fun hw => hw⟩
    | with_reducible apply Kept.ite
    | split
    | extract_lets
    | (dsimp +zetaDelta only; split)
    | (simp +zetaDelta [*]; done)
    | (simp only [HostIf.wf, Flt.wf] at *; simp +zetaDelta [*]; done)

theorem State.latchSnaps_kept {s : State} (khost : l .host = true) (h : Kept l o s) :
    Kept l o (State.latchSnaps s) := by
  unfold State.latchSnaps
  repeat' first
    | with_reducible assumption
    | exact fun hw => hw
    | intro _
    | with_reducible apply State.onHost_kept
    | with_reducible apply State.foldl_kept
    | exact ⟨Nat.le_refl _, fun hw => hw⟩
    | with_reducible apply Kept.ite
    | split
    | extract_lets
    | (dsimp +zetaDelta only; split)
    | (simp +zetaDelta [*]; done)
    | (simp only [HostIf.wf] at *; simp +zetaDelta [*]; done)

theorem State.bwRecord_kept {s : State} {n : Nat} (kregs : l .regs = true) (khost : l .host = true) (kflt : l .flt = true) (kimg : l .img = true) (kout : l .out = true) (kfree : l .free = true) (h : Kept l o s) :
    Kept l o (State.bwRecord n s) := by
  unfold State.bwRecord
  repeat' first
    | with_reducible assumption
    | exact fun hw => hw
    | intro _
    | with_reducible apply State.onHost_kept
    | with_reducible apply State.pmcRecord_kept
    | with_reducible apply State.foldl_kept
    | exact ⟨Nat.le_refl _, fun hw => hw⟩
    | with_reducible apply Kept.ite
    | split
    | extract_lets
    | (dsimp +zetaDelta only; split)
    | (simp +zetaDelta [*]; done)
    | (simp only [HostIf.wf, Flt.wf] at *; simp +zetaDelta [*]; done)

theorem execBwWindowClose_kept {s : State} {p : PortId} (kregs : l .regs = true) (khost : l .host = true) (kflt : l .flt = true) (kimg : l .img = true) (kout : l .out = true) (kfree : l .free = true) (h : Kept l o s) {t : State} (e : execBwWindowClose p s = .next t) :
    Kept l o t := by
  cases e
  repeat' first
    | with_reducible assumption
    | exact fun hw => hw
    | intro _
    | with_reducible apply State.bwRecord_kept
    | with_reducible apply State.foldl_kept
    | exact ⟨Nat.le_refl _, fun hw => hw⟩
    | with_reducible apply Kept.ite
    | split
    | extract_lets
    | (dsimp +zetaDelta only; split)
    | (simp +zetaDelta [*]; done)
    | (simp only [HostIf.wf, Flt.wf] at *; simp +zetaDelta [*]; done)

theorem State.owedRecords_kept {s : State} (kregs : l .regs = true) (ksys : l .sys = true) (khost : l .host = true) (kflt : l .flt = true) (kimg : l .img = true) (kout : l .out = true) (kfree : l .free = true) (h : Kept l o s) :
    Kept l o (State.owedRecords s) := by
  unfold State.owedRecords
  repeat' first
    | with_reducible assumption
    | exact fun hw => hw
    | intro _
    | with_reducible apply State.forAll_kept
    | with_reducible apply State.snapRecord_kept
    | with_reducible apply State.healthDue_kept
    | with_reducible apply State.bwRecord_kept
    | with_reducible apply State.foldl_kept
    | exact ⟨Nat.le_refl _, fun hw => hw⟩
    | with_reducible apply Kept.ite
    | split
    | extract_lets
    | (dsimp +zetaDelta only; split)
    | (simp +zetaDelta [*]; done)
    | (simp only [Sys.wf, HostIf.wf, Flt.wf] at *; simp +zetaDelta [*]; done)

theorem State.pulses_kept {s : State} (ksys : l .sys = true) (kpit : l .pit = true) (kout : l .out = true) (h : Kept l o s) :
    Kept l o (State.pulses s) := by
  unfold State.pulses
  repeat' first
    | with_reducible assumption
    | exact fun hw => hw
    | intro _
    | with_reducible apply State.onPit_kept
    | with_reducible apply State.forAll_kept
    | with_reducible apply State.drivePin_kept
    | with_reducible apply State.foldl_kept
    | exact ⟨Nat.le_refl _, fun hw => hw⟩
    | with_reducible apply Kept.ite
    | split
    | extract_lets
    | (dsimp +zetaDelta only; split)
    | (simp +zetaDelta [*]; done)
    | (simp only [Sys.wf] at *; simp +zetaDelta [*]; done)

theorem State.latchBoundary_kept {s : State} {f : FixedB} (kregs : l .regs = true) (ksys : l .sys = true) (kpit : l .pit = true) (krecorder : l .recorder = true) (kout : l .out = true) (h : Kept l o s) :
    Kept l o (State.latchBoundary f s) := by
  unfold State.latchBoundary
  repeat' first
    | with_reducible assumption
    | exact fun hw => hw
    | intro _
    | with_reducible apply State.onPit_kept
    | with_reducible apply State.when_kept
    | with_reducible apply State.capture_kept
    | with_reducible apply State.pulses_kept
    | with_reducible apply State.foldl_kept
    | exact ⟨Nat.le_refl _, fun hw => hw⟩
    | with_reducible apply Kept.ite
    | split
    | extract_lets
    | (dsimp +zetaDelta only; split)
    | (simp +zetaDelta [*]; done)
    | (simp only [Sys.wf, Rec.wf] at *; simp +zetaDelta [*]; done)

theorem State.confirmFence_kept {s : State} (kregs : l .regs = true) (khost : l .host = true) (kflt : l .flt = true) (keng : l .eng = true) (kfab : l .fab = true) (krecorder : l .recorder = true) (kimg : l .img = true) (kout : l .out = true) (kfree : l .free = true) (h : Kept l o s) :
    Kept l o (State.confirmFence s) := by
  unfold State.confirmFence
  repeat' first
    | with_reducible assumption
    | exact fun hw => hw
    | intro _
    | with_reducible apply State.forAll_kept
    | with_reducible apply State.stopOverrun_kept
    | with_reducible apply State.foldl_kept
    | exact ⟨Nat.le_refl _, fun hw => hw⟩
    | with_reducible apply Kept.ite
    | split
    | extract_lets
    | (dsimp +zetaDelta only; split)
    | (simp +zetaDelta [*]; done)
    | (simp only [HostIf.wf, Flt.wf, Eng.wf, Fab.wf, Rec.wf] at *; simp +zetaDelta [*]; done)

theorem State.switchPlan_kept {s : State} {p : Plan} {h1 : Option Hdr} (kregs : l .regs = true) (kpit : l .pit = true) (khost : l .host = true) (kflt : l .flt = true) (keng : l .eng = true) (kbel : l .bel = true) (kimg : l .img = true) (kout : l .out = true) (kfree : l .free = true) (h : Kept l o s) :
    Kept l o (State.switchPlan p h1 s) := by
  unfold State.switchPlan
  extract_lets old spares s1 s2 dead s3 kept s4
  have k1 : Kept l o s1 := State.onPit_kept kpit h
  have k2 : Kept l o s2 := State.onEng_kept' keng (fun _ hx => ⟨hx.1, hx.2.1, hx.2.2.1, hx.2.2.2⟩) k1
  have k3 : Kept l o s3 := by
    show Kept l o (if dead = [] then s2 else s2.takeovers dead none 64)
    split
    · exact k2
    · apply State.takeovers_kept <;> with_reducible assumption
  have k4 : Kept l o s4 := by apply State.shedSlots_kept <;> with_reducible assumption
  apply State.tell_kept <;> try with_reducible assumption
  apply State.fc0_kept <;> with_reducible assumption

theorem State.enterPlan_kept {s : State} {f : FixedB} (kregs : l .regs = true) (kpit : l .pit = true) (khost : l .host = true) (kflt : l .flt = true) (keng : l .eng = true) (kfab : l .fab = true) (kbel : l .bel = true) (krecorder : l .recorder = true) (kimg : l .img = true) (kout : l .out = true) (kfree : l .free = true) (h : Kept l o s) :
    Kept l o (State.enterPlan f s) := by
  unfold State.enterPlan
  repeat' first
    | with_reducible assumption
    | exact fun hw => hw
    | intro _
    | with_reducible apply State.confirmFence_kept
    | with_reducible apply State.switchPlan_kept
    | with_reducible apply State.reassignLost_kept
    | with_reducible apply State.foldl_kept
    | exact ⟨Nat.le_refl _, fun hw => hw⟩
    | with_reducible apply Kept.ite
    | split
    | extract_lets
    | (dsimp +zetaDelta only; split)
    | (simp +zetaDelta [*]; done)
    | (simp only [HostIf.wf, Flt.wf, Eng.wf, Fab.wf, Bel.wf, Rec.wf] at *; simp +zetaDelta [*]; done)

theorem State.turnAccount_kept {s : State} (kregs : l .regs = true) (khost : l .host = true) (kflt : l .flt = true) (kbel : l .bel = true) (krecorder : l .recorder = true) (kimg : l .img = true) (kout : l .out = true) (kfree : l .free = true) (h : Kept l o s) :
    Kept l o (State.turnAccount s) := by
  unfold State.turnAccount
  repeat' first
    | with_reducible assumption
    | exact fun hw => hw
    | intro _
    | with_reducible apply State.openInterval_kept
    | with_reducible apply State.closeAccount_kept
    | with_reducible apply State.foldl_kept
    | exact ⟨Nat.le_refl _, fun hw => hw⟩
    | with_reducible apply Kept.ite
    | split
    | extract_lets
    | (dsimp +zetaDelta only; split)
    | (simp +zetaDelta [*]; done)
    | (simp only [HostIf.wf, Flt.wf, Bel.wf, Rec.wf] at *; simp +zetaDelta [*]; done)

theorem State.queueRecords_kept {s : State} {l1 : List (Nat × List Nat)} (kregs : l .regs = true) (khost : l .host = true) (kflt : l .flt = true) (kimg : l .img = true) (kout : l .out = true) (kfree : l .free = true) (h : Kept l o s) :
    Kept l o (State.queueRecords l1 s) := by
  unfold State.queueRecords
  repeat' first
    | with_reducible assumption
    | exact fun hw => hw
    | intro _
    | with_reducible apply State.forAll_kept
    | with_reducible apply State.stat_kept
    | with_reducible apply State.foldl_kept
    | exact ⟨Nat.le_refl _, fun hw => hw⟩
    | with_reducible apply Kept.ite
    | split
    | extract_lets
    | (dsimp +zetaDelta only; split)
    | (simp +zetaDelta [*]; done)
    | (simp only [HostIf.wf, Flt.wf] at *; simp +zetaDelta [*]; done)

theorem State.turnCounters_kept {s : State} {period : Nat} (khost : l .host = true) (kports : l .ports = true) (h : Kept l o s) :
    Kept l o (State.turnCounters period s) := by
  unfold State.turnCounters
  repeat' first
    | with_reducible assumption
    | exact fun hw => hw
    | intro _
    | with_reducible apply State.latchSnaps_kept
    | with_reducible apply State.onHost_kept
    | with_reducible apply State.forAll_kept
    | with_reducible apply State.onPortN_kept
    | with_reducible apply State.foldl_kept
    | exact ⟨Nat.le_refl _, fun hw => hw⟩
    | with_reducible apply Kept.ite
    | split
    | extract_lets
    | (dsimp +zetaDelta only; split)
    | (simp +zetaDelta [*]; done)
    | (simp only [HostIf.wf] at *; simp +zetaDelta [*]; done)

theorem State.openFirst_kept {s : State} (ksys : l .sys = true) (kpit : l .pit = true) (kfab : l .fab = true) (kout : l .out = true) (h : Kept l o s) :
    Kept l o (State.openFirst s) := by
  unfold State.openFirst
  repeat' first
    | with_reducible assumption
    | exact fun hw => hw
    | intro _
    | with_reducible apply State.forAll_kept
    | with_reducible apply State.openWindow_kept
    | with_reducible apply State.foldl_kept
    | exact ⟨Nat.le_refl _, fun hw => hw⟩
    | with_reducible apply Kept.ite
    | split
    | extract_lets
    | (dsimp +zetaDelta only; split)
    | (simp +zetaDelta [*]; done)
    | (simp only [Sys.wf, Fab.wf] at *; simp +zetaDelta [*]; done)

theorem State.dispatchFirst_kept {s : State} (kregs : l .regs = true) (kpit : l .pit = true) (khost : l .host = true) (kflt : l .flt = true) (keng : l .eng = true) (kfab : l .fab = true) (ktabs : l .tabs = true) (kbel : l .bel = true) (krecorder : l .recorder = true) (kimg : l .img = true) (kout : l .out = true) (kfree : l .free = true) (h : Kept l o s) :
    Kept l o (State.dispatchFirst s) := by
  unfold State.dispatchFirst
  repeat' first
    | with_reducible assumption
    | exact fun hw => hw
    | intro _
    | with_reducible apply State.onEng_kept
    | with_reducible apply State.forAll_kept
    | with_reducible apply State.dispatchDue_kept
    | with_reducible apply State.foldl_kept
    | exact ⟨Nat.le_refl _, fun hw => hw⟩
    | with_reducible apply Kept.ite
    | split
    | extract_lets
    | (dsimp +zetaDelta only; split)
    | (simp +zetaDelta [*]; done)
    | (simp only [HostIf.wf, Flt.wf, Eng.wf, Fab.wf, Tabs.wf, Bel.wf, Rec.wf] at *; simp +zetaDelta [*]; done)

theorem State.tickDoorbells_kept {s : State} (kout : l .out = true) (h : Kept l o s) :
    Kept l o (State.tickDoorbells s) := by
  unfold State.tickDoorbells
  repeat' first
    | with_reducible assumption
    | exact fun hw => hw
    | intro _
    | with_reducible apply State.forAll_kept
    | with_reducible apply State.readDoorbell_kept
    | with_reducible apply State.foldl_kept
    | exact ⟨Nat.le_refl _, fun hw => hw⟩
    | with_reducible apply Kept.ite
    | split
    | extract_lets
    | (dsimp +zetaDelta only; split)
    | (simp +zetaDelta [*]; done)

theorem State.freshTick_kept {s : State} (khost : l .host = true) (h : Kept l o s) :
    Kept l o (State.freshTick s) := by
  unfold State.freshTick
  repeat' first
    | with_reducible assumption
    | exact fun hw => hw
    | intro _
    | with_reducible apply State.onHost_kept
    | with_reducible apply State.foldl_kept
    | exact ⟨Nat.le_refl _, fun hw => hw⟩
    | with_reducible apply Kept.ite
    | split
    | extract_lets
    | (dsimp +zetaDelta only; split)
    | (simp +zetaDelta [*]; done)
    | (simp only [HostIf.wf] at *; simp +zetaDelta [*]; done)

theorem State.boundary_kept {s : State} {f : FixedB} (kregs : l .regs = true) (ksys : l .sys = true) (kpit : l .pit = true) (khost : l .host = true) (kflt : l .flt = true) (keng : l .eng = true) (kports : l .ports = true) (kfab : l .fab = true) (ktabs : l .tabs = true) (kbel : l .bel = true) (krecorder : l .recorder = true) (kimg : l .img = true) (kout : l .out = true) (kfree : l .free = true) (h : Kept l o s) :
    Kept l o (State.boundary f s) := by
  unfold State.boundary
  repeat' first
    | with_reducible assumption
    | exact fun hw => hw
    | intro _
    | with_reducible apply State.reach_kept
    | with_reducible apply State.forAll_kept
    | with_reducible apply State.closeWindow_kept
    | with_reducible apply State.recBoundary_kept
    | with_reducible apply State.owedRecords_kept
    | with_reducible apply State.latchBoundary_kept
    | with_reducible apply State.closeInterval_kept
    | with_reducible apply State.selectSource_kept
    | with_reducible apply State.enterPlan_kept
    | with_reducible apply State.freshTick_kept
    | with_reducible apply State.turnCounters_kept
    | with_reducible apply State.turnAccount_kept
    | with_reducible apply State.queueRecords_kept
    | with_reducible apply State.faultScan_kept
    | with_reducible apply State.tickDoorbells_kept
    | with_reducible apply State.dispatchFirst_kept
    | with_reducible apply State.openFirst_kept
    | with_reducible apply State.restartShapers_kept
    | with_reducible apply State.tell_kept
    | with_reducible apply State.onPit_kept
    | with_reducible apply State.foldl_kept
    | exact ⟨Nat.le_refl _, fun hw => hw⟩
    | with_reducible apply Kept.ite
    | split
    | extract_lets
    | (dsimp +zetaDelta only; split)
    | (simp +zetaDelta [*]; done)
    | (simp only [Sys.wf, HostIf.wf, Flt.wf, Eng.wf, Fab.wf, Tabs.wf, Bel.wf, Rec.wf] at *; simp +zetaDelta [*]; done)

theorem execTickBoundary_kept {s : State} (kregs : l .regs = true) (ksys : l .sys = true) (kpit : l .pit = true) (khost : l .host = true) (kflt : l .flt = true) (keng : l .eng = true) (kports : l .ports = true) (kfab : l .fab = true) (ktabs : l .tabs = true) (kbel : l .bel = true) (krecorder : l .recorder = true) (kimg : l .img = true) (kout : l .out = true) (kfree : l .free = true) (h : Kept l o s) {t : State} (e : execTickBoundary s = .next t) :
    Kept l o t := by
  cases e
  repeat' first
    | with_reducible assumption
    | exact fun hw => hw
    | intro _
    | with_reducible apply State.boundary_kept
    | with_reducible apply State.foldl_kept
    | exact ⟨Nat.le_refl _, fun hw => hw⟩
    | with_reducible apply Kept.ite
    | split
    | extract_lets
    | (dsimp +zetaDelta only; split)
    | (simp +zetaDelta [*]; done)
    | (simp only [Sys.wf, HostIf.wf, Flt.wf, Eng.wf, Fab.wf, Tabs.wf, Bel.wf, Rec.wf] at *; simp +zetaDelta [*]; done)

/-! ### Machine/Trial.lean -/

theorem State.fallBack_kept {s : State} {st : Status} {code : Nat} (kregs : l .regs = true) (khost : l .host = true) (kflt : l .flt = true) (kimg : l .img = true) (kout : l .out = true) (kfree : l .free = true) (h : Kept l o s) :
    Kept l o (State.fallBack st code s) := by
  unfold State.fallBack
  repeat' first
    | with_reducible assumption
    | exact fun hw => hw
    | intro _
    | with_reducible apply State.bump_kept
    | with_reducible apply State.onImg_kept
    | with_reducible apply State.complete_kept
    | with_reducible apply State.foldl_kept
    | exact ⟨Nat.le_refl _, fun hw => hw⟩
    | with_reducible apply Kept.ite
    | split
    | extract_lets
    | (dsimp +zetaDelta only; split)
    | (simp +zetaDelta [*]; done)
    | (simp only [HostIf.wf, Flt.wf] at *; simp +zetaDelta [*]; done)

theorem State.trialWatch_kept {s : State} (kregs : l .regs = true) (khost : l .host = true) (kflt : l .flt = true) (kimg : l .img = true) (kout : l .out = true) (kfree : l .free = true) (h : Kept l o s) :
    Kept l o (State.trialWatch s) := by
  unfold State.trialWatch
  repeat' first
    | with_reducible assumption
    | exact fun hw => hw
    | intro _
    | with_reducible apply State.fallBack_kept
    | with_reducible apply State.foldl_kept
    | exact ⟨Nat.le_refl _, fun hw => hw⟩
    | with_reducible apply Kept.ite
    | split
    | extract_lets
    | (dsimp +zetaDelta only; split)
    | (simp +zetaDelta [*]; done)
    | (simp only [HostIf.wf, Flt.wf] at *; simp +zetaDelta [*]; done)

/-! ### Machine/Setup.lean -/

theorem State.applyPreset_kept {s : State} (kregs : l .regs = true) (h : Kept l o s) :
    Kept l o (State.applyPreset s) := by
  unfold State.applyPreset
  repeat' first
    | with_reducible assumption
    | exact fun hw => hw
    | intro _
    | with_reducible apply State.setReg_kept
    | with_reducible apply State.foldl_kept
    | exact ⟨Nat.le_refl _, fun hw => hw⟩
    | with_reducible apply Kept.ite
    | split
    | extract_lets
    | (dsimp +zetaDelta only; split)
    | (simp +zetaDelta [*]; done)

theorem State.stopTicks_kept {s : State} (kpit : l .pit = true) (h : Kept l o s) :
    Kept l o (State.stopTicks s) := by
  unfold State.stopTicks
  repeat' first
    | with_reducible assumption
    | exact fun hw => hw
    | intro _
    | with_reducible apply State.onPit_kept
    | with_reducible apply State.foldl_kept
    | exact ⟨Nat.le_refl _, fun hw => hw⟩
    | with_reducible apply Kept.ite
    | split
    | extract_lets
    | (dsimp +zetaDelta only; split)
    | (simp +zetaDelta [*]; done)

theorem State.resumeTicks_kept {s : State} (kpit : l .pit = true) (h : Kept l o s) :
    Kept l o (State.resumeTicks s) := by
  unfold State.resumeTicks
  repeat' first
    | with_reducible assumption
    | exact fun hw => hw
    | intro _
    | with_reducible apply State.onPit_kept
    | with_reducible apply State.foldl_kept
    | exact ⟨Nat.le_refl _, fun hw => hw⟩
    | with_reducible apply Kept.ite
    | split
    | extract_lets
    | (dsimp +zetaDelta only; split)
    | (simp +zetaDelta [*]; done)

theorem State.settlePin_kept {s : State} {n : Nat} (ksys : l .sys = true) (kout : l .out = true) (h : Kept l o s) :
    Kept l o (State.settlePin n s) := by
  unfold State.settlePin
  repeat' first
    | with_reducible assumption
    | exact fun hw => hw
    | intro _
    | with_reducible apply State.drivePin_kept
    | with_reducible apply State.foldl_kept
    | exact ⟨Nat.le_refl _, fun hw => hw⟩
    | with_reducible apply Kept.ite
    | split
    | extract_lets
    | (dsimp +zetaDelta only; split)
    | (simp +zetaDelta [*]; done)
    | (simp only [Sys.wf] at *; simp +zetaDelta [*]; done)

theorem State.applyRole_kept {s : State} {n : Nat} (ksys : l .sys = true) (kports : l .ports = true) (h : Kept l o s) :
    Kept l o (State.applyRole n s) := by
  unfold State.applyRole
  repeat' first
    | with_reducible assumption
    | exact fun hw => hw
    | intro _
    | with_reducible apply State.comeUp_kept
    | with_reducible apply State.foldl_kept
    | exact ⟨Nat.le_refl _, fun hw => hw⟩
    | with_reducible apply Kept.ite
    | split
    | extract_lets
    | (dsimp +zetaDelta only; split)
    | (simp +zetaDelta [*]; done)
    | (simp only [Sys.wf] at *; simp +zetaDelta [*]; done)

theorem State.globalReset_kept {s : State} (kregs : l .regs = true) (ksys : l .sys = true) (keng : l .eng = true) (kfab : l .fab = true) (kbel : l .bel = true) (krecorder : l .recorder = true) (kout : l .out = true) (h : Kept l o s) :
    Kept l o (State.globalReset s) := by
  unfold State.globalReset
  repeat' first
    | with_reducible assumption
    | exact fun hw => hw
    | intro _
    | with_reducible apply State.onSys_kept
    | with_reducible apply State.powerFall_kept
    | with_reducible apply State.foldl_kept
    | exact ⟨Nat.le_refl _, fun hw => hw⟩
    | with_reducible apply Kept.ite
    | split
    | extract_lets
    | (dsimp +zetaDelta only; split)
    | (simp +zetaDelta [*]; done)
    | (simp only [Sys.wf, Eng.wf, Fab.wf, Bel.wf, Rec.wf] at *; simp +zetaDelta [*]; done)

theorem State.programKey_kept {s : State} {blown : Bool} (kimg : l .img = true) (h : Kept l o s) :
    Kept l o (State.programKey blown s) := by
  unfold State.programKey
  apply State.onImg_kept kimg _ h
  refine ⟨?_, ?_⟩ <;> (split <;> try split) <;> simp_all

theorem State.recoveryStart_kept {s : State} (kregs : l .regs = true) (ksys : l .sys = true) (h : Kept l o s) :
    Kept l o (State.recoveryStart s) := by
  unfold State.recoveryStart
  repeat' first
    | with_reducible assumption
    | exact fun hw => hw
    | intro _
    | with_reducible apply State.onSys_kept
    | with_reducible apply State.wr_kept
    | with_reducible apply State.foldl_kept
    | exact ⟨Nat.le_refl _, fun hw => hw⟩
    | with_reducible apply Kept.ite
    | split
    | extract_lets
    | (dsimp +zetaDelta only; split)
    | (simp +zetaDelta [*]; done)
    | (simp only [Sys.wf] at *; simp +zetaDelta [*]; done)

theorem State.afterWrite_kept {s : State} {off : Nat} {old : Word} {v : Word} (kregs : l .regs = true) (ksys : l .sys = true) (kpit : l .pit = true) (khost : l .host = true) (kflt : l .flt = true) (keng : l .eng = true) (kports : l .ports = true) (ktool : l .tool = true) (kfab : l .fab = true) (khome : l .home = true) (kbel : l .bel = true) (krecorder : l .recorder = true) (kimg : l .img = true) (kout : l .out = true) (kfree : l .free = true) (h : Kept l o s) :
    Kept l o (State.afterWrite off old v s) := by
  unfold State.afterWrite
  extract_lets c b p
  repeat' first
    | with_reducible apply Kept.ite
    | exact fun hw => Tab.wf_set hw
    | exact ⟨Nat.le_refl _, fun hw => hw⟩
    | exact fun hw : Sys.wf _ => hw
    | intro _
    | with_reducible refine State.onTool_kept ktool (fun hw => ⟨hw.1, Tab.wf_set hw.2⟩) ?_
    | with_reducible assumption
    | with_reducible apply State.globalReset_kept
    | with_reducible apply State.recoveryStart_kept
    | with_reducible apply State.onSys_kept
    | with_reducible apply State.mringOn_kept
    | with_reducible apply State.trialWatch_kept
    | with_reducible apply State.mringOff_kept
    | with_reducible apply State.onImg_kept
    | with_reducible apply State.programKey_kept
    | with_reducible apply State.nextFree_kept
    | with_reducible apply State.writeSource_kept
    | with_reducible apply State.resumeTicks_kept
    | with_reducible apply State.stopTicks_kept
    | with_reducible apply State.settlePin_kept
    | with_reducible apply State.applyRole_kept
    | with_reducible apply State.settleQuad_kept
    | with_reducible apply State.onTool_kept
    | with_reducible apply State.applyPreset_kept
    | with_reducible apply State.driveFaultN_kept
    | with_reducible apply State.clearFltClass_kept
    | with_reducible apply State.clearFlt_kept
    | exact ⟨Nat.le_refl _, fun hw => hw⟩
    | exact fun hw => Tab.wf_set hw
    | exact fun hw => hw
    | (simp only [Tool.wf] at *; exact ⟨And.left (by assumption), Tab.wf_set (And.right (by assumption))⟩)
    | split
    | extract_lets

theorem State.takeFields_kept {s : State} {off : Nat} {r : RegRow} {p : Field → Bool} {v : Word} (kregs : l .regs = true) (ksys : l .sys = true) (kpit : l .pit = true) (khost : l .host = true) (kflt : l .flt = true) (keng : l .eng = true) (kports : l .ports = true) (ktool : l .tool = true) (kfab : l .fab = true) (khome : l .home = true) (kbel : l .bel = true) (krecorder : l .recorder = true) (kimg : l .img = true) (kout : l .out = true) (kfree : l .free = true) (h : Kept l o s) :
    Kept l o (State.takeFields off r p v s) := by
  unfold State.takeFields
  repeat' first
    | with_reducible assumption
    | exact fun hw => hw
    | intro _
    | with_reducible apply State.setReg_kept
    | with_reducible apply State.afterWrite_kept
    | with_reducible apply State.captureCfg_kept
    | with_reducible apply State.foldl_kept
    | exact ⟨Nat.le_refl _, fun hw => hw⟩
    | with_reducible apply Kept.ite
    | split
    | extract_lets
    | (dsimp +zetaDelta only; split)
    | (simp +zetaDelta [*]; done)
    | (simp only [Sys.wf, HostIf.wf, Flt.wf, Eng.wf, Tool.wf, Fab.wf, Home.wf, Bel.wf, Rec.wf] at *; simp +zetaDelta [*]; done)

theorem State.writeFields_kept {s : State} {path : Nat} {off : Nat} {n : Nat} {r : RegRow} {v : Word} (kregs : l .regs = true) (ksys : l .sys = true) (kpit : l .pit = true) (khost : l .host = true) (kflt : l .flt = true) (keng : l .eng = true) (kports : l .ports = true) (ktool : l .tool = true) (kfab : l .fab = true) (khome : l .home = true) (kbel : l .bel = true) (krecorder : l .recorder = true) (kimg : l .img = true) (kout : l .out = true) (kfree : l .free = true) (h : Kept l o s) :
    Kept l o (State.writeFields path off n r v s) := by
  unfold State.writeFields
  repeat' first
    | with_reducible assumption
    | exact fun hw => hw
    | intro _
    | with_reducible apply State.takeFields_kept
    | with_reducible apply State.discard_kept
    | with_reducible apply State.foldl_kept
    | exact ⟨Nat.le_refl _, fun hw => hw⟩
    | with_reducible apply Kept.ite
    | split
    | extract_lets
    | (dsimp +zetaDelta only; split)
    | (simp +zetaDelta [*]; done)
    | (simp only [Sys.wf, HostIf.wf, Flt.wf, Eng.wf, Tool.wf, Fab.wf, Home.wf, Bel.wf, Rec.wf] at *; simp +zetaDelta [*]; done)

theorem State.setupWrite_kept {s : State} {path : Path} {off : Nat} {size : Nat} {v : Word} (kregs : l .regs = true) (ksys : l .sys = true) (kpit : l .pit = true) (khost : l .host = true) (kflt : l .flt = true) (keng : l .eng = true) (kports : l .ports = true) (ktool : l .tool = true) (kfab : l .fab = true) (khome : l .home = true) (kbel : l .bel = true) (krecorder : l .recorder = true) (kimg : l .img = true) (kout : l .out = true) (kfree : l .free = true) (h : Kept l o s) :
    Kept l o (State.setupWrite path off size v s) := by
  unfold State.setupWrite
  repeat' first
    | with_reducible assumption
    | exact fun hw => hw
    | intro _
    | with_reducible apply State.discard_kept
    | with_reducible apply State.writeFields_kept
    | with_reducible apply State.foldl_kept
    | exact ⟨Nat.le_refl _, fun hw => hw⟩
    | with_reducible apply Kept.ite
    | split
    | extract_lets
    | (dsimp +zetaDelta only; split)
    | (simp +zetaDelta [*]; done)
    | (simp only [Sys.wf, HostIf.wf, Flt.wf, Eng.wf, Tool.wf, Fab.wf, Home.wf, Bel.wf, Rec.wf] at *; simp +zetaDelta [*]; done)

theorem State.writeField_kept {s : State} {path : Path} {f : FRef} {i : Nat} {v : Nat} (kregs : l .regs = true) (ksys : l .sys = true) (kpit : l .pit = true) (khost : l .host = true) (kflt : l .flt = true) (keng : l .eng = true) (kports : l .ports = true) (ktool : l .tool = true) (kfab : l .fab = true) (khome : l .home = true) (kbel : l .bel = true) (krecorder : l .recorder = true) (kimg : l .img = true) (kout : l .out = true) (kfree : l .free = true) (h : Kept l o s) :
    Kept l o (State.writeField path f i v s) := by
  unfold State.writeField
  repeat' first
    | with_reducible assumption
    | exact fun hw => hw
    | intro _
    | with_reducible apply State.setupWrite_kept
    | with_reducible apply State.foldl_kept
    | exact ⟨Nat.le_refl _, fun hw => hw⟩
    | with_reducible apply Kept.ite
    | split
    | extract_lets
    | (dsimp +zetaDelta only; split)
    | (simp +zetaDelta [*]; done)
    | (simp only [Sys.wf, HostIf.wf, Flt.wf, Eng.wf, Tool.wf, Fab.wf, Home.wf, Bel.wf, Rec.wf] at *; simp +zetaDelta [*]; done)

theorem execSetupWrite_kept {s : State} {path : Path} {off : BitVec 24} {size : Nat} {value : Word} (kregs : l .regs = true) (ksys : l .sys = true) (kpit : l .pit = true) (khost : l .host = true) (kflt : l .flt = true) (keng : l .eng = true) (kports : l .ports = true) (ktool : l .tool = true) (kfab : l .fab = true) (khome : l .home = true) (kbel : l .bel = true) (krecorder : l .recorder = true) (kimg : l .img = true) (kout : l .out = true) (kfree : l .free = true) (h : Kept l o s) {t : State} (e : execSetupWrite path off size value s = .next t) :
    Kept l o t := by
  cases e
  repeat' first
    | with_reducible assumption
    | exact fun hw => hw
    | intro _
    | with_reducible apply State.setupWrite_kept
    | with_reducible apply State.foldl_kept
    | exact ⟨Nat.le_refl _, fun hw => hw⟩
    | with_reducible apply Kept.ite
    | split
    | extract_lets
    | (dsimp +zetaDelta only; split)
    | (simp +zetaDelta [*]; done)
    | (simp only [Sys.wf, HostIf.wf, Flt.wf, Eng.wf, Tool.wf, Fab.wf, Home.wf, Bel.wf, Rec.wf] at *; simp +zetaDelta [*]; done)

theorem execTikFtimeLowRead_kept {s : State} (kpit : l .pit = true) (kout : l .out = true) (h : Kept l o s) {t : State} (e : execTikFtimeLowRead s = .next t) :
    Kept l o t := by
  cases e
  repeat' first
    | with_reducible assumption
    | exact fun hw => hw
    | intro _
    | with_reducible apply State.emit_kept
    | with_reducible apply State.onPit_kept
    | with_reducible apply State.foldl_kept
    | exact ⟨Nat.le_refl _, fun hw => hw⟩
    | with_reducible apply Kept.ite
    | split
    | extract_lets
    | (dsimp +zetaDelta only; split)
    | (simp +zetaDelta [*]; done)

theorem execTickEnableClear_kept {s : State} {path : Path} (kregs : l .regs = true) (ksys : l .sys = true) (kpit : l .pit = true) (khost : l .host = true) (kflt : l .flt = true) (keng : l .eng = true) (kports : l .ports = true) (ktool : l .tool = true) (kfab : l .fab = true) (khome : l .home = true) (kbel : l .bel = true) (krecorder : l .recorder = true) (kimg : l .img = true) (kout : l .out = true) (kfree : l .free = true) (h : Kept l o s) {t : State} (e : execTickEnableClear path s = .next t) :
    Kept l o t := by
  cases e
  repeat' first
    | with_reducible assumption
    | exact fun hw => hw
    | intro _
    | with_reducible apply State.writeField_kept
    | with_reducible apply State.foldl_kept
    | exact ⟨Nat.le_refl _, fun hw => hw⟩
    | with_reducible apply Kept.ite
    | split
    | extract_lets
    | (dsimp +zetaDelta only; split)
    | (simp +zetaDelta [*]; done)
    | (simp only [Sys.wf, HostIf.wf, Flt.wf, Eng.wf, Tool.wf, Fab.wf, Home.wf, Bel.wf, Rec.wf] at *; simp +zetaDelta [*]; done)

theorem execTickEnableSet_kept {s : State} {path : Path} (kregs : l .regs = true) (ksys : l .sys = true) (kpit : l .pit = true) (khost : l .host = true) (kflt : l .flt = true) (keng : l .eng = true) (kports : l .ports = true) (ktool : l .tool = true) (kfab : l .fab = true) (khome : l .home = true) (kbel : l .bel = true) (krecorder : l .recorder = true) (kimg : l .img = true) (kout : l .out = true) (kfree : l .free = true) (h : Kept l o s) {t : State} (e : execTickEnableSet path s = .next t) :
    Kept l o t := by
  cases e
  repeat' first
    | with_reducible assumption
    | exact fun hw => hw
    | intro _
    | with_reducible apply State.writeField_kept
    | with_reducible apply State.foldl_kept
    | exact ⟨Nat.le_refl _, fun hw => hw⟩
    | with_reducible apply Kept.ite
    | split
    | extract_lets
    | (dsimp +zetaDelta only; split)
    | (simp +zetaDelta [*]; done)
    | (simp only [Sys.wf, HostIf.wf, Flt.wf, Eng.wf, Tool.wf, Fab.wf, Home.wf, Bel.wf, Rec.wf] at *; simp +zetaDelta [*]; done)

theorem execTimeSourceSelect_kept {s : State} {path : Path} {src : BitVec 2} (kregs : l .regs = true) (ksys : l .sys = true) (kpit : l .pit = true) (khost : l .host = true) (kflt : l .flt = true) (keng : l .eng = true) (kports : l .ports = true) (ktool : l .tool = true) (kfab : l .fab = true) (khome : l .home = true) (kbel : l .bel = true) (krecorder : l .recorder = true) (kimg : l .img = true) (kout : l .out = true) (kfree : l .free = true) (h : Kept l o s) {t : State} (e : execTimeSourceSelect path src s = .next t) :
    Kept l o t := by
  cases e
  repeat' first
    | with_reducible assumption
    | exact fun hw => hw
    | intro _
    | with_reducible apply State.writeField_kept
    | with_reducible apply State.foldl_kept
    | exact ⟨Nat.le_refl _, fun hw => hw⟩
    | with_reducible apply Kept.ite
    | split
    | extract_lets
    | (dsimp +zetaDelta only; split)
    | (simp +zetaDelta [*]; done)
    | (simp only [Sys.wf, HostIf.wf, Flt.wf, Eng.wf, Tool.wf, Fab.wf, Home.wf, Bel.wf, Rec.wf] at *; simp +zetaDelta [*]; done)

theorem execQuadModeWrite_kept {s : State} {path : Path} {quad : Fin 16} {mode : BitVec 2} (kregs : l .regs = true) (ksys : l .sys = true) (kpit : l .pit = true) (khost : l .host = true) (kflt : l .flt = true) (keng : l .eng = true) (kports : l .ports = true) (ktool : l .tool = true) (kfab : l .fab = true) (khome : l .home = true) (kbel : l .bel = true) (krecorder : l .recorder = true) (kimg : l .img = true) (kout : l .out = true) (kfree : l .free = true) (h : Kept l o s) {t : State} (e : execQuadModeWrite path quad mode s = .next t) :
    Kept l o t := by
  cases e
  repeat' first
    | with_reducible assumption
    | exact fun hw => hw
    | intro _
    | with_reducible apply State.writeField_kept
    | with_reducible apply State.foldl_kept
    | exact ⟨Nat.le_refl _, fun hw => hw⟩
    | with_reducible apply Kept.ite
    | split
    | extract_lets
    | (dsimp +zetaDelta only; split)
    | (simp +zetaDelta [*]; done)
    | (simp only [Sys.wf, HostIf.wf, Flt.wf, Eng.wf, Tool.wf, Fab.wf, Home.wf, Bel.wf, Rec.wf] at *; simp +zetaDelta [*]; done)

theorem execXbrPresetWrite_kept {s : State} {path : Path} {preset : BitVec 2} (kregs : l .regs = true) (ksys : l .sys = true) (kpit : l .pit = true) (khost : l .host = true) (kflt : l .flt = true) (keng : l .eng = true) (kports : l .ports = true) (ktool : l .tool = true) (kfab : l .fab = true) (khome : l .home = true) (kbel : l .bel = true) (krecorder : l .recorder = true) (kimg : l .img = true) (kout : l .out = true) (kfree : l .free = true) (h : Kept l o s) {t : State} (e : execXbrPresetWrite path preset s = .next t) :
    Kept l o t := by
  cases e
  repeat' first
    | with_reducible assumption
    | exact fun hw => hw
    | intro _
    | with_reducible apply State.writeField_kept
    | with_reducible apply State.foldl_kept
    | exact ⟨Nat.le_refl _, fun hw => hw⟩
    | with_reducible apply Kept.ite
    | split
    | extract_lets
    | (dsimp +zetaDelta only; split)
    | (simp +zetaDelta [*]; done)
    | (simp only [Sys.wf, HostIf.wf, Flt.wf, Eng.wf, Tool.wf, Fab.wf, Home.wf, Bel.wf, Rec.wf] at *; simp +zetaDelta [*]; done)

theorem execPmcFreezeSet_kept {s : State} {path : Path} (kregs : l .regs = true) (ksys : l .sys = true) (kpit : l .pit = true) (khost : l .host = true) (kflt : l .flt = true) (keng : l .eng = true) (kports : l .ports = true) (ktool : l .tool = true) (kfab : l .fab = true) (khome : l .home = true) (kbel : l .bel = true) (krecorder : l .recorder = true) (kimg : l .img = true) (kout : l .out = true) (kfree : l .free = true) (h : Kept l o s) {t : State} (e : execPmcFreezeSet path s = .next t) :
    Kept l o t := by
  cases e
  repeat' first
    | with_reducible assumption
    | exact fun hw => hw
    | intro _
    | with_reducible apply State.writeField_kept
    | with_reducible apply State.foldl_kept
    | exact ⟨Nat.le_refl _, fun hw => hw⟩
    | with_reducible apply Kept.ite
    | split
    | extract_lets
    | (dsimp +zetaDelta only; split)
    | (simp +zetaDelta [*]; done)
    | (simp only [Sys.wf, HostIf.wf, Flt.wf, Eng.wf, Tool.wf, Fab.wf, Home.wf, Bel.wf, Rec.wf] at *; simp +zetaDelta [*]; done)

theorem execPmcFreezeClear_kept {s : State} {path : Path} (kregs : l .regs = true) (ksys : l .sys = true) (kpit : l .pit = true) (khost : l .host = true) (kflt : l .flt = true) (keng : l .eng = true) (kports : l .ports = true) (ktool : l .tool = true) (kfab : l .fab = true) (khome : l .home = true) (kbel : l .bel = true) (krecorder : l .recorder = true) (kimg : l .img = true) (kout : l .out = true) (kfree : l .free = true) (h : Kept l o s) {t : State} (e : execPmcFreezeClear path s = .next t) :
    Kept l o t := by
  cases e
  repeat' first
    | with_reducible assumption
    | exact fun hw => hw
    | intro _
    | with_reducible apply State.writeField_kept
    | with_reducible apply State.foldl_kept
    | exact ⟨Nat.le_refl _, fun hw => hw⟩
    | with_reducible apply Kept.ite
    | split
    | extract_lets
    | (dsimp +zetaDelta only; split)
    | (simp +zetaDelta [*]; done)
    | (simp only [Sys.wf, HostIf.wf, Flt.wf, Eng.wf, Tool.wf, Fab.wf, Home.wf, Bel.wf, Rec.wf] at *; simp +zetaDelta [*]; done)

theorem execFltThreshWrite_kept {s : State} {path : Path} {thresh : BitVec 2} (kregs : l .regs = true) (ksys : l .sys = true) (kpit : l .pit = true) (khost : l .host = true) (kflt : l .flt = true) (keng : l .eng = true) (kports : l .ports = true) (ktool : l .tool = true) (kfab : l .fab = true) (khome : l .home = true) (kbel : l .bel = true) (krecorder : l .recorder = true) (kimg : l .img = true) (kout : l .out = true) (kfree : l .free = true) (h : Kept l o s) {t : State} (e : execFltThreshWrite path thresh s = .next t) :
    Kept l o t := by
  cases e
  repeat' first
    | with_reducible assumption
    | exact fun hw => hw
    | intro _
    | with_reducible apply State.writeField_kept
    | with_reducible apply State.foldl_kept
    | exact ⟨Nat.le_refl _, fun hw => hw⟩
    | with_reducible apply Kept.ite
    | split
    | extract_lets
    | (dsimp +zetaDelta only; split)
    | (simp +zetaDelta [*]; done)
    | (simp only [Sys.wf, HostIf.wf, Flt.wf, Eng.wf, Tool.wf, Fab.wf, Home.wf, Bel.wf, Rec.wf] at *; simp +zetaDelta [*]; done)

theorem execFltClrIndex_kept {s : State} {path : Path} {index : Byte} (kregs : l .regs = true) (ksys : l .sys = true) (kpit : l .pit = true) (khost : l .host = true) (kflt : l .flt = true) (keng : l .eng = true) (kports : l .ports = true) (ktool : l .tool = true) (kfab : l .fab = true) (khome : l .home = true) (kbel : l .bel = true) (krecorder : l .recorder = true) (kimg : l .img = true) (kout : l .out = true) (kfree : l .free = true) (h : Kept l o s) {t : State} (e : execFltClrIndex path index s = .next t) :
    Kept l o t := by
  cases e
  repeat' first
    | with_reducible assumption
    | exact fun hw => hw
    | intro _
    | with_reducible apply State.setupWrite_kept
    | with_reducible apply State.foldl_kept
    | exact ⟨Nat.le_refl _, fun hw => hw⟩
    | with_reducible apply Kept.ite
    | split
    | extract_lets
    | (dsimp +zetaDelta only; split)
    | (simp +zetaDelta [*]; done)
    | (simp only [Sys.wf, HostIf.wf, Flt.wf, Eng.wf, Tool.wf, Fab.wf, Home.wf, Bel.wf, Rec.wf] at *; simp +zetaDelta [*]; done)

theorem execFltClrAll_kept {s : State} {path : Path} {cls : BitVec 3} (kregs : l .regs = true) (ksys : l .sys = true) (kpit : l .pit = true) (khost : l .host = true) (kflt : l .flt = true) (keng : l .eng = true) (kports : l .ports = true) (ktool : l .tool = true) (kfab : l .fab = true) (khome : l .home = true) (kbel : l .bel = true) (krecorder : l .recorder = true) (kimg : l .img = true) (kout : l .out = true) (kfree : l .free = true) (h : Kept l o s) {t : State} (e : execFltClrAll path cls s = .next t) :
    Kept l o t := by
  cases e
  repeat' first
    | with_reducible assumption
    | exact fun hw => hw
    | intro _
    | with_reducible apply State.setupWrite_kept
    | with_reducible apply State.foldl_kept
    | exact ⟨Nat.le_refl _, fun hw => hw⟩
    | with_reducible apply Kept.ite
    | split
    | extract_lets
    | (dsimp +zetaDelta only; split)
    | (simp +zetaDelta [*]; done)
    | (simp only [Sys.wf, HostIf.wf, Flt.wf, Eng.wf, Tool.wf, Fab.wf, Home.wf, Bel.wf, Rec.wf] at *; simp +zetaDelta [*]; done)

theorem execMringEnable_kept {s : State} {path : Path} (kregs : l .regs = true) (ksys : l .sys = true) (kpit : l .pit = true) (khost : l .host = true) (kflt : l .flt = true) (keng : l .eng = true) (kports : l .ports = true) (ktool : l .tool = true) (kfab : l .fab = true) (khome : l .home = true) (kbel : l .bel = true) (krecorder : l .recorder = true) (kimg : l .img = true) (kout : l .out = true) (kfree : l .free = true) (h : Kept l o s) {t : State} (e : execMringEnable path s = .next t) :
    Kept l o t := by
  cases e
  repeat' first
    | with_reducible assumption
    | exact fun hw => hw
    | intro _
    | with_reducible apply State.writeField_kept
    | with_reducible apply State.foldl_kept
    | exact ⟨Nat.le_refl _, fun hw => hw⟩
    | with_reducible apply Kept.ite
    | split
    | extract_lets
    | (dsimp +zetaDelta only; split)
    | (simp +zetaDelta [*]; done)
    | (simp only [Sys.wf, HostIf.wf, Flt.wf, Eng.wf, Tool.wf, Fab.wf, Home.wf, Bel.wf, Rec.wf] at *; simp +zetaDelta [*]; done)

theorem execMringDisable_kept {s : State} {path : Path} (kregs : l .regs = true) (ksys : l .sys = true) (kpit : l .pit = true) (khost : l .host = true) (kflt : l .flt = true) (keng : l .eng = true) (kports : l .ports = true) (ktool : l .tool = true) (kfab : l .fab = true) (khome : l .home = true) (kbel : l .bel = true) (krecorder : l .recorder = true) (kimg : l .img = true) (kout : l .out = true) (kfree : l .free = true) (h : Kept l o s) {t : State} (e : execMringDisable path s = .next t) :
    Kept l o t := by
  cases e
  repeat' first
    | with_reducible assumption
    | exact fun hw => hw
    | intro _
    | with_reducible apply State.writeField_kept
    | with_reducible apply State.foldl_kept
    | exact ⟨Nat.le_refl _, fun hw => hw⟩
    | with_reducible apply Kept.ite
    | split
    | extract_lets
    | (dsimp +zetaDelta only; split)
    | (simp +zetaDelta [*]; done)
    | (simp only [Sys.wf, HostIf.wf, Flt.wf, Eng.wf, Tool.wf, Fab.wf, Home.wf, Bel.wf, Rec.wf] at *; simp +zetaDelta [*]; done)

theorem execFuseKeyProgram_kept {s : State} {path : Path} {blown : Bool} (kregs : l .regs = true) (ksys : l .sys = true) (kpit : l .pit = true) (khost : l .host = true) (kflt : l .flt = true) (keng : l .eng = true) (kports : l .ports = true) (ktool : l .tool = true) (kfab : l .fab = true) (khome : l .home = true) (kbel : l .bel = true) (krecorder : l .recorder = true) (kimg : l .img = true) (kout : l .out = true) (kfree : l .free = true) (h : Kept l o s) {t : State} (e : execFuseKeyProgram path blown s = .next t) :
    Kept l o t := by
  cases e
  repeat' first
    | with_reducible assumption
    | exact fun hw => hw
    | intro _
    | with_reducible apply State.programKey_kept
    | with_reducible apply State.setupWrite_kept
    | with_reducible apply State.foldl_kept
    | exact ⟨Nat.le_refl _, fun hw => hw⟩
    | with_reducible apply Kept.ite
    | split
    | extract_lets
    | (dsimp +zetaDelta only; split)
    | (simp +zetaDelta [*]; done)
    | (simp only [Sys.wf, HostIf.wf, Flt.wf, Eng.wf, Tool.wf, Fab.wf, Home.wf, Bel.wf, Rec.wf] at *; simp +zetaDelta [*]; done)

theorem execSpiReleaseWrite_kept {s : State} {path : Path} {release : Bool} (kregs : l .regs = true) (ksys : l .sys = true) (kpit : l .pit = true) (khost : l .host = true) (kflt : l .flt = true) (keng : l .eng = true) (kports : l .ports = true) (ktool : l .tool = true) (kfab : l .fab = true) (khome : l .home = true) (kbel : l .bel = true) (krecorder : l .recorder = true) (kimg : l .img = true) (kout : l .out = true) (kfree : l .free = true) (h : Kept l o s) {t : State} (e : execSpiReleaseWrite path release s = .next t) :
    Kept l o t := by
  cases e
  repeat' first
    | with_reducible assumption
    | exact fun hw => hw
    | intro _
    | with_reducible apply State.writeField_kept
    | with_reducible apply State.foldl_kept
    | exact ⟨Nat.le_refl _, fun hw => hw⟩
    | with_reducible apply Kept.ite
    | split
    | extract_lets
    | (dsimp +zetaDelta only; split)
    | (simp +zetaDelta [*]; done)
    | (simp only [Sys.wf, HostIf.wf, Flt.wf, Eng.wf, Tool.wf, Fab.wf, Home.wf, Bel.wf, Rec.wf] at *; simp +zetaDelta [*]; done)

theorem execGlbResetWrite_kept {s : State} {path : Path} {key : BitVec 16} (kregs : l .regs = true) (ksys : l .sys = true) (kpit : l .pit = true) (khost : l .host = true) (kflt : l .flt = true) (keng : l .eng = true) (kports : l .ports = true) (ktool : l .tool = true) (kfab : l .fab = true) (khome : l .home = true) (kbel : l .bel = true) (krecorder : l .recorder = true) (kimg : l .img = true) (kout : l .out = true) (kfree : l .free = true) (h : Kept l o s) {t : State} (e : execGlbResetWrite path key s = .next t) :
    Kept l o t := by
  cases e
  repeat' first
    | with_reducible assumption
    | exact fun hw => hw
    | intro _
    | with_reducible apply State.setupWrite_kept
    | with_reducible apply State.foldl_kept
    | exact ⟨Nat.le_refl _, fun hw => hw⟩
    | with_reducible apply Kept.ite
    | split
    | extract_lets
    | (dsimp +zetaDelta only; split)
    | (simp +zetaDelta [*]; done)
    | (simp only [Sys.wf, HostIf.wf, Flt.wf, Eng.wf, Tool.wf, Fab.wf, Home.wf, Bel.wf, Rec.wf] at *; simp +zetaDelta [*]; done)

theorem execRecoveryLenWrite_kept {s : State} {len : BitVec 23} (kregs : l .regs = true) (ksys : l .sys = true) (kpit : l .pit = true) (khost : l .host = true) (kflt : l .flt = true) (keng : l .eng = true) (kports : l .ports = true) (ktool : l .tool = true) (kfab : l .fab = true) (khome : l .home = true) (kbel : l .bel = true) (krecorder : l .recorder = true) (kimg : l .img = true) (kout : l .out = true) (kfree : l .free = true) (h : Kept l o s) {t : State} (e : execRecoveryLenWrite len s = .next t) :
    Kept l o t := by
  cases e
  repeat' first
    | with_reducible assumption
    | exact fun hw => hw
    | intro _
    | with_reducible apply State.writeField_kept
    | with_reducible apply State.foldl_kept
    | exact ⟨Nat.le_refl _, fun hw => hw⟩
    | with_reducible apply Kept.ite
    | split
    | extract_lets
    | (dsimp +zetaDelta only; split)
    | (simp +zetaDelta [*]; done)
    | (simp only [Sys.wf, HostIf.wf, Flt.wf, Eng.wf, Tool.wf, Fab.wf, Home.wf, Bel.wf, Rec.wf] at *; simp +zetaDelta [*]; done)

theorem execRecoveryDataWrite_kept {s : State} {path : Path} {data : Word} (kregs : l .regs = true) (ksys : l .sys = true) (kpit : l .pit = true) (khost : l .host = true) (kflt : l .flt = true) (keng : l .eng = true) (kports : l .ports = true) (ktool : l .tool = true) (kfab : l .fab = true) (khome : l .home = true) (kbel : l .bel = true) (krecorder : l .recorder = true) (kimg : l .img = true) (kout : l .out = true) (kfree : l .free = true) (h : Kept l o s) {t : State} (e : execRecoveryDataWrite path data s = .next t) :
    Kept l o t := by
  cases e
  repeat' first
    | with_reducible assumption
    | exact fun hw => hw
    | intro _
    | with_reducible apply State.setupWrite_kept
    | with_reducible apply State.foldl_kept
    | exact ⟨Nat.le_refl _, fun hw => hw⟩
    | with_reducible apply Kept.ite
    | split
    | extract_lets
    | (dsimp +zetaDelta only; split)
    | (simp +zetaDelta [*]; done)
    | (simp only [Sys.wf, HostIf.wf, Flt.wf, Eng.wf, Tool.wf, Fab.wf, Home.wf, Bel.wf, Rec.wf] at *; simp +zetaDelta [*]; done)

theorem State.refuseValue_kept {s : State} {h1 : Hdr} {c : Cpl} {cause : Nat} {off : Nat} {v : Word} (kregs : l .regs = true) (khost : l .host = true) (kflt : l .flt = true) (kimg : l .img = true) (kout : l .out = true) (kfree : l .free = true) (h : Kept l o s) :
    Kept l o (State.refuseValue h1 c cause off v s) := by
  unfold State.refuseValue
  repeat' first
    | with_reducible assumption
    | exact fun hw => hw
    | intro _
    | with_reducible apply State.complete_kept
    | with_reducible apply State.discard_kept
    | with_reducible apply State.foldl_kept
    | exact ⟨Nat.le_refl _, fun hw => hw⟩
    | with_reducible apply Kept.ite
    | split
    | extract_lets
    | (dsimp +zetaDelta only; split)
    | (simp +zetaDelta [*]; done)
    | (simp only [HostIf.wf, Flt.wf] at *; simp +zetaDelta [*]; done)

theorem State.commandWrite_kept {s : State} {h1 : Hdr} {off : Nat} {v : Word} (kregs : l .regs = true) (ksys : l .sys = true) (kpit : l .pit = true) (khost : l .host = true) (kflt : l .flt = true) (keng : l .eng = true) (kports : l .ports = true) (ktool : l .tool = true) (kfab : l .fab = true) (khome : l .home = true) (kbel : l .bel = true) (krecorder : l .recorder = true) (kimg : l .img = true) (kout : l .out = true) (kfree : l .free = true) (h : Kept l o s) :
    Kept l o (State.commandWrite h1 off v s) := by
  unfold State.commandWrite
  repeat' first
    | with_reducible assumption
    | exact fun hw => hw
    | intro _
    | with_reducible apply State.bad_kept
    | with_reducible apply State.refuseValue_kept
    | with_reducible apply State.done_kept
    | with_reducible apply State.takeFields_kept
    | with_reducible apply State.foldl_kept
    | exact ⟨Nat.le_refl _, fun hw => hw⟩
    | with_reducible apply Kept.ite
    | split
    | extract_lets
    | (dsimp +zetaDelta only; split)
    | (simp +zetaDelta [*]; done)
    | (simp only [Sys.wf, HostIf.wf, Flt.wf, Eng.wf, Tool.wf, Fab.wf, Home.wf, Bel.wf, Rec.wf] at *; simp +zetaDelta [*]; done)

theorem execBlwSet_kept {s : State} {h1 : Hdr} {index : Word32} {value : Word} (kregs : l .regs = true) (ksys : l .sys = true) (kpit : l .pit = true) (khost : l .host = true) (kflt : l .flt = true) (keng : l .eng = true) (kports : l .ports = true) (ktool : l .tool = true) (kfab : l .fab = true) (khome : l .home = true) (kbel : l .bel = true) (krecorder : l .recorder = true) (kimg : l .img = true) (kout : l .out = true) (kfree : l .free = true) (h : Kept l o s) {t : State} (e : execBlwSet h1 index value s = .next t) :
    Kept l o t := by
  cases e
  repeat' first
    | with_reducible assumption
    | exact fun hw => hw
    | intro _
    | with_reducible apply State.manager_kept
    | with_reducible apply State.commandWrite_kept
    | with_reducible apply State.foldl_kept
    | exact ⟨Nat.le_refl _, fun hw => hw⟩
    | with_reducible apply Kept.ite
    | split
    | extract_lets
    | (dsimp +zetaDelta only; split)
    | (simp +zetaDelta [*]; done)
    | (simp only [Sys.wf, HostIf.wf, Flt.wf, Eng.wf, Tool.wf, Fab.wf, Home.wf, Bel.wf, Rec.wf] at *; simp +zetaDelta [*]; done)

theorem execDbgSet_kept {s : State} {h1 : Hdr} {value : Word} (kregs : l .regs = true) (ksys : l .sys = true) (kpit : l .pit = true) (khost : l .host = true) (kflt : l .flt = true) (keng : l .eng = true) (kports : l .ports = true) (ktool : l .tool = true) (kfab : l .fab = true) (khome : l .home = true) (kbel : l .bel = true) (krecorder : l .recorder = true) (kimg : l .img = true) (kout : l .out = true) (kfree : l .free = true) (h : Kept l o s) {t : State} (e : execDbgSet h1 value s = .next t) :
    Kept l o t := by
  cases e
  repeat' first
    | with_reducible assumption
    | exact fun hw => hw
    | intro _
    | with_reducible apply State.manager_kept
    | with_reducible apply State.commandWrite_kept
    | with_reducible apply State.foldl_kept
    | exact ⟨Nat.le_refl _, fun hw => hw⟩
    | with_reducible apply Kept.ite
    | split
    | extract_lets
    | (dsimp +zetaDelta only; split)
    | (simp +zetaDelta [*]; done)
    | (simp only [Sys.wf, HostIf.wf, Flt.wf, Eng.wf, Tool.wf, Fab.wf, Home.wf, Bel.wf, Rec.wf] at *; simp +zetaDelta [*]; done)

/-! ### Machine/ColdStart.lean -/

theorem State.loseAll_kept {s : State} {aon : Bool} (kfree : l .free = true) (kout : l .out = true) (kregs : l .regs = true) (ksys : l .sys = true)
    (kpit : l .pit = true) (khost : l .host = true) (kflt : l .flt = true) (keng : l .eng = true) (kdom : l .dom = true) (kports : l .ports = true)
    (ktool : l .tool = true) (kfab : l .fab = true) (ktabs : l .tabs = true) (khome : l .home = true) (kbel : l .bel = true)
    (krecorder : l .recorder = true) (kimg : l .img = true) (h : Kept l o s) :
    Kept l o (s.loseAll aon) where
  same p hp := by
    cases p <;> first
      | exact h.same _ hp
      | (exfalso; simp_all)
  wf x := by
    have hr := (h.wf x).1
    refine ⟨?_, rfl, by simp [State.loseAll, State.reset, HostIf.wf, HostIf.init]; decide, rfl, by simp [State.loseAll, State.reset, Eng.wf, Eng.init, Memory.wf],
      by simp [State.loseAll, State.reset, Dom.wf, Dom.init]; decide, ⟨rfl, rfl⟩, by simp [State.loseAll, State.reset, Fab.wf, Fab.init],
      by simp [State.loseAll, State.reset, Tabs.wf, Tabs.init], by simp [State.loseAll, State.reset, Home.wf, Home.init],
      by simp [State.loseAll, State.reset, Bel.wf, Bel.init], by simp [State.loseAll, State.reset, Rec.wf, Rec.init]⟩
    unfold State.loseAll
    dsimp only
    split
    · exact Tab.wf_filter _ hr
    · rfl
  tells := h.tells
  free := h.free
  fuses := h.fuses

theorem State.coldStart_kept {s : State} {cause : Nat} (kregs : l .regs = true) (ksys : l .sys = true) (kpit : l .pit = true) (khost : l .host = true) (kflt : l .flt = true) (keng : l .eng = true) (kdom : l .dom = true) (kports : l .ports = true) (ktool : l .tool = true) (kfab : l .fab = true) (ktabs : l .tabs = true) (khome : l .home = true) (kbel : l .bel = true) (krecorder : l .recorder = true) (kimg : l .img = true) (kout : l .out = true) (kfree : l .free = true) (h : Kept l o s) :
    Kept l o (State.coldStart cause s) := by
  unfold State.coldStart
  repeat' first
    | with_reducible assumption
    | exact fun hw => hw
    | intro _
    | with_reducible apply State.driveFaultN_kept
    | with_reducible apply State.wr_kept
    | with_reducible apply State.bump_kept
    | with_reducible apply State.loseAll_kept
    | with_reducible apply State.foldl_kept
    | exact ⟨Nat.le_refl _, fun hw => hw⟩
    | with_reducible apply Kept.ite
    | split
    | extract_lets
    | (dsimp +zetaDelta only; split)
    | (simp +zetaDelta [*]; done)
    | (simp only [Sys.wf, HostIf.wf, Flt.wf, Eng.wf, Dom.wf, Tool.wf, Fab.wf, Tabs.wf, Home.wf, Bel.wf, Rec.wf] at *; simp +zetaDelta [*]; done)

end Sys2Proof.Machine
end

