-- ==== Sys2Proof/Laws/KeptImage.lean ====
section
/-! SUPPORT. What the operations and meanings keep (Laws/Kept.lean), for images, start-up, waiting changes, injection and replay. -/

namespace Sys2Proof.Machine

variable {l : Part → Bool} {o : State}

/-! ### Machine/Loader.lean -/

theorem State.writeSelector_kept {s : State} {f : Selector → Selector} (kimg : l .img = true) (kout : l .out = true) (h : Kept l o s) :
    Kept l o (State.writeSelector f s) := by
  unfold State.writeSelector
  repeat' first
    | with_reducible assumption
    | exact fun hw => hw
    | intro _
    | with_reducible apply State.emit_kept
    | with_reducible apply State.onImg_kept
    | with_reducible apply State.foldl_kept
    | exact ⟨Nat.le_refl _, fun hw => hw⟩
    | with_reducible apply Kept.ite
    | split
    | extract_lets
    | (dsimp +zetaDelta only; split)
    | (simp +zetaDelta [*]; done)

theorem State.putSlot_kept {s : State} {slot : Nat} {i : Option (List Word)} (kimg : l .img = true) (h : Kept l o s) :
    Kept l o (State.putSlot slot i s) := by
  unfold State.putSlot
  repeat' first
    | with_reducible assumption
    | exact fun hw => hw
    | intro _
    | with_reducible apply State.onImg_kept
    | with_reducible apply State.foldl_kept
    | exact ⟨Nat.le_refl _, fun hw => hw⟩
    | with_reducible apply Kept.ite
    | split
    | extract_lets
    | (dsimp +zetaDelta only; split)
    | (simp +zetaDelta [*]; done)

theorem State.loadRegister_kept {s : State} {old : Option Image} {new : Option Image} {off : Nat} (kregs : l .regs = true) (ksys : l .sys = true) (kpit : l .pit = true) (khost : l .host = true) (kflt : l .flt = true) (keng : l .eng = true) (kports : l .ports = true) (ktool : l .tool = true) (kfab : l .fab = true) (khome : l .home = true) (kbel : l .bel = true) (krecorder : l .recorder = true) (kimg : l .img = true) (kout : l .out = true) (kfree : l .free = true) (h : Kept l o s) :
    Kept l o (State.loadRegister old new off s) := by
  unfold State.loadRegister
  repeat' first
    | with_reducible assumption
    | exact fun hw => hw
    | intro _
    | with_reducible apply State.discard_kept
    | with_reducible apply State.takeFields_kept
    | with_reducible apply State.foldl_kept
    | exact ⟨Nat.le_refl _, fun hw => hw⟩
    | with_reducible apply Kept.ite
    | split
    | extract_lets
    | (dsimp +zetaDelta only; split)
    | (simp +zetaDelta [*]; done)
    | (simp only [Sys.wf, HostIf.wf, Flt.wf, Eng.wf, Tool.wf, Fab.wf, Home.wf, Bel.wf, Rec.wf] at *; simp +zetaDelta [*]; done)

theorem State.loadSetup_kept {s : State} {old : Option Image} {new : Option Image} (kregs : l .regs = true) (ksys : l .sys = true) (kpit : l .pit = true) (khost : l .host = true) (kflt : l .flt = true) (keng : l .eng = true) (kports : l .ports = true) (ktool : l .tool = true) (kfab : l .fab = true) (khome : l .home = true) (kbel : l .bel = true) (krecorder : l .recorder = true) (kimg : l .img = true) (kout : l .out = true) (kfree : l .free = true) (h : Kept l o s) :
    Kept l o (State.loadSetup old new s) := by
  unfold State.loadSetup
  repeat' first
    | with_reducible assumption
    | exact fun hw => hw
    | intro _
    | with_reducible apply State.forAll_kept
    | with_reducible apply State.loadRegister_kept
    | with_reducible apply State.foldl_kept
    | exact ⟨Nat.le_refl _, fun hw => hw⟩
    | with_reducible apply Kept.ite
    | split
    | extract_lets
    | (dsimp +zetaDelta only; split)
    | (simp +zetaDelta [*]; done)
    | (simp only [Sys.wf, HostIf.wf, Flt.wf, Eng.wf, Tool.wf, Fab.wf, Home.wf, Bel.wf, Rec.wf] at *; simp +zetaDelta [*]; done)

theorem State.loadRecord_kept {s : State} {cold : Bool} {r : TabRec} {clear : Bool} (kregs : l .regs = true) (kdom : l .dom = true) (ktabs : l .tabs = true) (krecorder : l .recorder = true) (h : Kept l o s) {t : State} (e : State.loadRecord cold r clear s = some t) :
    Kept l o t := by
  unfold State.loadRecord at e
  repeat' (split at e)
  all_goals first
    | (cases e; assumption)
    | (cases e; done)
    | (cases e
       repeat' first
         | with_reducible assumption
         | with_reducible apply State.onTabs_kept
         | with_reducible apply State.put_kept
         | exact fun hw => hw)

theorem State.loadDomain_kept {s : State} {r : BitVec 16 × List Word} (keng : l .eng = true) (kdom : l .dom = true) (h : Kept l o s) {t : State} (e : State.loadDomain r s = some t) :
    Kept l o t := by
  unfold State.loadDomain at e
  dsimp only at e
  repeat' (split at e)
  all_goals first
    | (cases e; assumption)
    | (cases e; done)
    | (cases e
       repeat' first
         | with_reducible assumption
         | with_reducible apply State.zeroScratches_kept
         | with_reducible apply State.setDomain_kept)

theorem State.loadCoef_kept {s : State} {old : Option Image} {new : Option Image} (kbel : l .bel = true) (h : Kept l o s) :
    Kept l o (State.loadCoef old new s) := by
  unfold State.loadCoef
  repeat' first
    | with_reducible assumption
    | exact fun hw => hw
    | intro _
    | with_reducible apply State.onBel_kept
    | with_reducible apply State.foldl_kept
    | exact ⟨Nat.le_refl _, fun hw => hw⟩
    | with_reducible apply Kept.ite
    | split
    | extract_lets
    | (dsimp +zetaDelta only; split)
    | (simp +zetaDelta [*]; done)
    | (simp only [Bel.wf] at *; simp +zetaDelta [*]; done)

theorem State.loadPlan_kept {s : State} {p : Plan} (kregs : l .regs = true) (kpit : l .pit = true) (khost : l .host = true) (kflt : l .flt = true) (keng : l .eng = true) (kimg : l .img = true) (kout : l .out = true) (kfree : l .free = true) (h : Kept l o s) :
    Kept l o (State.loadPlan p s) := by
  unfold State.loadPlan
  repeat' first
    | with_reducible assumption
    | exact fun hw => hw
    | intro _
    | with_reducible apply State.onPit_kept
    | with_reducible apply State.setPending_kept
    | with_reducible apply State.foldl_kept
    | exact ⟨Nat.le_refl _, fun hw => hw⟩
    | with_reducible apply Kept.ite
    | split
    | extract_lets
    | (dsimp +zetaDelta only; split)
    | (simp +zetaDelta [*]; done)
    | (simp only [HostIf.wf, Flt.wf, Eng.wf] at *; simp +zetaDelta [*]; done)

theorem State.tryAll_kept {α : Type} {s t : State} {xs : List α} {f : α → State → Option State}
    (fK : ∀ x u v, Kept l o u → f x u = some v → Kept l o v) (h : Kept l o s) (e : State.tryAll xs f s = some t) : Kept l o t := by
  unfold State.tryAll at e
  have key : ∀ (xs : List α) (u : Option State), (∀ v, u = some v → Kept l o v) → ∀ v, xs.foldl (fun o a => o.bind (f a)) u = some v → Kept l o v := by
    intro xs
    induction xs with
    | nil => exact fun u hu v hv => hu v hv
    | cons a xs ih =>
      intro u hu v hv
      refine ih (u.bind (f a)) ?_ v hv
      intro w hw
      cases u with
      | none => cases hw
      | some u => exact fK a u w (hu u rfl) hw
  exact key xs (some s) (fun v hv => by cases hv; exact h) t e

theorem State.loadTables_kept {s : State} {old : Option Image} {new : Option Image} (kregs : l .regs = true) (keng : l .eng = true) (kdom : l .dom = true) (kfab : l .fab = true) (ktabs : l .tabs = true) (krecorder : l .recorder = true) (h : Kept l o s) {t : State} (e : State.loadTables old new s = some t) :
    Kept l o t := by
  unfold State.loadTables at e
  split at e
  · cases e
  · rename_i s1 e1
    have k1 := State.tryAll_kept (fun x u v hu hv => by apply State.loadDomain_kept <;> with_reducible assumption) (by apply State.openEpoch_kept <;> with_reducible assumption) e1
    split at e
    · cases e
    · rename_i s2 e2
      have k2 := State.tryAll_kept (fun x u v hu hv => by apply State.loadRecord_kept <;> with_reducible assumption) k1 e2
      exact State.tryAll_kept (fun x u v hu hv => by apply State.loadRecord_kept <;> with_reducible assumption) k2 e

theorem State.coldLoad_kept {s : State} {new : Option Image} (kregs : l .regs = true) (ksys : l .sys = true) (kpit : l .pit = true) (khost : l .host = true) (kflt : l .flt = true) (keng : l .eng = true) (kdom : l .dom = true) (kports : l .ports = true) (ktool : l .tool = true) (kfab : l .fab = true) (ktabs : l .tabs = true) (khome : l .home = true) (kbel : l .bel = true) (krecorder : l .recorder = true) (kimg : l .img = true) (kout : l .out = true) (kfree : l .free = true) (h : Kept l o s) :
    Kept l o (State.coldLoad new s) := by
  unfold State.coldLoad
  have skipK : ∀ {α : Type} (f : α → State → Option State) (a : α) (u : State),
      (∀ v, f a u = some v → Kept l o v) → Kept l o u → Kept l o ((f a u).getD u) := by
    intro α f a u hf hu
    cases e : f a u with
    | none => exact hu
    | some v => exact hf v e
  extract_lets skip s1 s2 s3
  have k1 : Kept l o s1 := by
    apply State.loadCoef_kept <;> try with_reducible assumption
    apply State.loadSetup_kept <;> with_reducible assumption
  have k2 : Kept l o s2 := State.forAll_kept (fun a u hu => skipK (fun r t => t.loadDomain r) a u (fun v hv => State.loadDomain_kept keng kdom hu hv) hu) k1
  have k3 : Kept l o s3 := State.forAll_kept (fun a u hu => skipK (fun r t => t.loadRecord true r false) a u (fun v hv => by exact State.loadRecord_kept kregs kdom ktabs krecorder hu hv) hu) k2
  split
  · exact k3
  · split
    · apply State.loadPlan_kept <;> with_reducible assumption
    · exact k3

theorem State.warmLoad_kept {s t : State} {old new : Option Image} (kregs : l .regs = true) (ksys : l .sys = true) (kpit : l .pit = true) (khost : l .host = true) (kflt : l .flt = true) (keng : l .eng = true) (kdom : l .dom = true) (kports : l .ports = true) (ktool : l .tool = true) (kfab : l .fab = true) (ktabs : l .tabs = true) (khome : l .home = true) (kbel : l .bel = true) (krecorder : l .recorder = true) (kimg : l .img = true) (kout : l .out = true) (kfree : l .free = true) (h : Kept l o s)
    (e : State.warmLoad old new s = .done t) : Kept l o t := by
  unfold State.warmLoad at e
  split at e
  · cases e
  · split at e
    · cases e
    · split at e
      · cases e
      · rename_i s1 e1
        have k1 : Kept l o ((s1.loadSetup old new).loadCoef old new) := by
          apply State.loadCoef_kept <;> try assumption
          apply State.loadSetup_kept <;> try assumption
          exact State.loadTables_kept kregs keng kdom kfab ktabs krecorder h e1
        dsimp only at e
        split at e
        · cases e
        · split at e
          · cases e; exact k1
          · split at e
            · cases e
            · cases e
            · cases e
              apply State.loadPlan_kept <;> assumption

/-! ### Machine/Image.lean -/

theorem execImageStage_kept {s : State} {h1 : Hdr} {index : Word32} {o1 : HRef} {img : List Word} (kregs : l .regs = true) (khost : l .host = true) (kflt : l .flt = true) (kbel : l .bel = true) (kimg : l .img = true) (kout : l .out = true) (kfree : l .free = true) (h : Kept l o s) {t : State} (e : execImageStage h1 index o1 img s = .next t) :
    Kept l o t := by
  cases e
  repeat' first
    | with_reducible assumption
    | exact fun hw => hw
    | intro _
    | with_reducible apply State.manager_kept
    | with_reducible apply State.done_kept
    | with_reducible apply State.withObject_kept
    | with_reducible apply State.complete_kept
    | with_reducible apply State.onImg_kept
    | with_reducible apply State.putSlot_kept
    | with_reducible apply State.writeSelector_kept
    | with_reducible apply State.foldl_kept
    | exact ⟨Nat.le_refl _, fun hw => hw⟩
    | with_reducible apply Kept.ite
    | split
    | extract_lets
    | (dsimp +zetaDelta only; split)
    | (simp +zetaDelta [*]; done)
    | (simp only [HostIf.wf, Flt.wf, Bel.wf] at *; simp +zetaDelta [*]; done)

theorem execStageProgramEnd_kept {s : State} {ok : Bool} (kregs : l .regs = true) (khost : l .host = true) (kflt : l .flt = true) (kimg : l .img = true) (kout : l .out = true) (kfree : l .free = true) (h : Kept l o s) {t : State} (e : execStageProgramEnd ok s = .next t) :
    Kept l o t := by
  cases e
  repeat' first
    | with_reducible assumption
    | exact fun hw => hw
    | intro _
    | with_reducible apply State.whenServing_kept
    | with_reducible apply State.onImg_kept
    | with_reducible apply State.done_kept
    | with_reducible apply State.writeSelector_kept
    | with_reducible apply State.emit_kept
    | with_reducible apply State.putSlot_kept
    | with_reducible apply State.denied_kept
    | with_reducible apply State.foldl_kept
    | exact ⟨Nat.le_refl _, fun hw => hw⟩
    | with_reducible apply Kept.ite
    | split
    | extract_lets
    | (dsimp +zetaDelta only; split)
    | (simp +zetaDelta [*]; done)
    | (simp only [HostIf.wf, Flt.wf] at *; simp +zetaDelta [*]; done)

theorem State.activate_kept {s : State} {h1 : Hdr} {w10 : Nat} {w18 : Nat} (kregs : l .regs = true) (khost : l .host = true) (kflt : l .flt = true) (kimg : l .img = true) (kout : l .out = true) (kfree : l .free = true) (h : Kept l o s) :
    Kept l o (State.activate h1 w10 w18 s) := by
  unfold State.activate
  repeat' first
    | with_reducible assumption
    | exact fun hw => hw
    | intro _
    | with_reducible apply State.manager_kept
    | with_reducible apply State.done_kept
    | with_reducible apply State.bad_kept
    | with_reducible apply State.onImg_kept
    | with_reducible apply State.foldl_kept
    | exact ⟨Nat.le_refl _, fun hw => hw⟩
    | with_reducible apply Kept.ite
    | split
    | extract_lets
    | (dsimp +zetaDelta only; split)
    | (simp +zetaDelta [*]; done)
    | (simp only [HostIf.wf, Flt.wf] at *; simp +zetaDelta [*]; done)

theorem execImageActivate_kept {s : State} {h1 : Hdr} {w10 : Word} {w18 : Word} (kregs : l .regs = true) (khost : l .host = true) (kflt : l .flt = true) (kimg : l .img = true) (kout : l .out = true) (kfree : l .free = true) (h : Kept l o s) {t : State} (e : execImageActivate h1 w10 w18 s = .next t) :
    Kept l o t := by
  cases e
  repeat' first
    | with_reducible assumption
    | exact fun hw => hw
    | intro _
    | with_reducible apply State.activate_kept
    | with_reducible apply State.foldl_kept
    | exact ⟨Nat.le_refl _, fun hw => hw⟩
    | with_reducible apply Kept.ite
    | split
    | extract_lets
    | (dsimp +zetaDelta only; split)
    | (simp +zetaDelta [*]; done)
    | (simp only [HostIf.wf, Flt.wf] at *; simp +zetaDelta [*]; done)

theorem execImageActivateCold_kept {s : State} {h1 : Hdr} {w10 : Word} {w18 : Word} (kregs : l .regs = true) (khost : l .host = true) (kflt : l .flt = true) (kimg : l .img = true) (kout : l .out = true) (kfree : l .free = true) (h : Kept l o s) {t : State} (e : execImageActivateCold h1 w10 w18 s = .next t) :
    Kept l o t := by
  cases e
  repeat' first
    | with_reducible assumption
    | exact fun hw => hw
    | intro _
    | with_reducible apply State.activate_kept
    | with_reducible apply State.foldl_kept
    | exact ⟨Nat.le_refl _, fun hw => hw⟩
    | with_reducible apply Kept.ite
    | split
    | extract_lets
    | (dsimp +zetaDelta only; split)
    | (simp +zetaDelta [*]; done)
    | (simp only [HostIf.wf, Flt.wf] at *; simp +zetaDelta [*]; done)

theorem State.endActivation_kept {s : State} {c : Cpl} (kregs : l .regs = true) (khost : l .host = true) (kflt : l .flt = true) (kimg : l .img = true) (kout : l .out = true) (kfree : l .free = true) (h : Kept l o s) :
    Kept l o (State.endActivation c s) := by
  unfold State.endActivation
  repeat' first
    | with_reducible assumption
    | exact fun hw => hw
    | intro _
    | with_reducible apply State.tell_kept
    | with_reducible apply State.onImg_kept
    | with_reducible apply State.foldl_kept
    | exact ⟨Nat.le_refl _, fun hw => hw⟩
    | with_reducible apply Kept.ite
    | split
    | extract_lets
    | (dsimp +zetaDelta only; split)
    | (simp +zetaDelta [*]; done)
    | (simp only [HostIf.wf, Flt.wf] at *; simp +zetaDelta [*]; done)

theorem execActivateVerifyEnd_kept {s : State} (kregs : l .regs = true) (kpit : l .pit = true) (khost : l .host = true) (kflt : l .flt = true) (keng : l .eng = true) (ktabs : l .tabs = true) (kbel : l .bel = true) (kimg : l .img = true) (kout : l .out = true) (kfree : l .free = true) (h : Kept l o s) {t : State} (e : execActivateVerifyEnd s = .next t) :
    Kept l o t := by
  cases e
  repeat' first
    | with_reducible assumption
    | exact fun hw => hw
    | intro _
    | with_reducible apply State.whenServing_kept
    | with_reducible apply State.reach_kept
    | with_reducible apply State.endActivation_kept
    | with_reducible apply State.onImg_kept
    | with_reducible apply State.foldl_kept
    | exact ⟨Nat.le_refl _, fun hw => hw⟩
    | with_reducible apply Kept.ite
    | split
    | extract_lets
    | (dsimp +zetaDelta only; split)
    | (simp +zetaDelta [*]; done)
    | (simp only [HostIf.wf, Flt.wf, Eng.wf, Tabs.wf, Bel.wf] at *; simp +zetaDelta [*]; done)

theorem State.beginDrain_kept {s : State} (kregs : l .regs = true) (kpit : l .pit = true) (khost : l .host = true) (kflt : l .flt = true) (keng : l .eng = true) (kfab : l .fab = true) (ktabs : l .tabs = true) (kbel : l .bel = true) (krecorder : l .recorder = true) (kimg : l .img = true) (kout : l .out = true) (kfree : l .free = true) (h : Kept l o s) :
    Kept l o (State.beginDrain s) := by
  unfold State.beginDrain
  repeat' first
    | with_reducible assumption
    | exact fun hw => hw
    | intro _
    | with_reducible apply State.recClose_kept
    | with_reducible apply State.quiesceFails_kept
    | with_reducible apply State.onImg_kept
    | with_reducible apply State.foldl_kept
    | exact ⟨Nat.le_refl _, fun hw => hw⟩
    | with_reducible apply Kept.ite
    | split
    | extract_lets
    | (dsimp +zetaDelta only; split)
    | (simp +zetaDelta [*]; done)
    | (simp only [HostIf.wf, Flt.wf, Eng.wf, Fab.wf, Tabs.wf, Bel.wf, Rec.wf] at *; simp +zetaDelta [*]; done)

theorem execActivateDrainStart_kept {s : State} (kregs : l .regs = true) (kpit : l .pit = true) (khost : l .host = true) (kflt : l .flt = true) (keng : l .eng = true) (kfab : l .fab = true) (ktabs : l .tabs = true) (kbel : l .bel = true) (krecorder : l .recorder = true) (kimg : l .img = true) (kout : l .out = true) (kfree : l .free = true) (h : Kept l o s) {t : State} (e : execActivateDrainStart s = .next t) :
    Kept l o t := by
  cases e
  repeat' first
    | with_reducible assumption
    | exact fun hw => hw
    | intro _
    | with_reducible apply State.whenServing_kept
    | with_reducible apply State.beginDrain_kept
    | with_reducible apply State.reach_kept
    | with_reducible apply State.foldl_kept
    | exact ⟨Nat.le_refl _, fun hw => hw⟩
    | with_reducible apply Kept.ite
    | split
    | extract_lets
    | (dsimp +zetaDelta only; split)
    | (simp +zetaDelta [*]; done)
    | (simp only [HostIf.wf, Flt.wf, Eng.wf, Fab.wf, Tabs.wf, Bel.wf, Rec.wf] at *; simp +zetaDelta [*]; done)

theorem State.endImageHold_kept {s : State} (kregs : l .regs = true) (kpit : l .pit = true) (khost : l .host = true) (kflt : l .flt = true) (keng : l .eng = true) (kfab : l .fab = true) (ktabs : l .tabs = true) (kbel : l .bel = true) (krecorder : l .recorder = true) (kimg : l .img = true) (kout : l .out = true) (kfree : l .free = true) (h : Kept l o s) :
    Kept l o (State.endImageHold s) := by
  unfold State.endImageHold
  repeat' first
    | with_reducible assumption
    | exact fun hw => hw
    | intro _
    | with_reducible apply State.onImg_kept
    | with_reducible apply State.dispatchAllDue_kept
    | with_reducible apply State.forAll_kept
    | with_reducible apply State.settleEngine_kept
    | with_reducible apply State.foldl_kept
    | exact ⟨Nat.le_refl _, fun hw => hw⟩
    | with_reducible apply Kept.ite
    | split
    | extract_lets
    | (dsimp +zetaDelta only; split)
    | (simp +zetaDelta [*]; done)
    | (simp only [HostIf.wf, Flt.wf, Eng.wf, Fab.wf, Tabs.wf, Bel.wf, Rec.wf] at *; simp +zetaDelta [*]; done)

theorem State.evictChanged_kept {s : State} (kregs : l .regs = true) (khost : l .host = true) (kflt : l .flt = true) (kfab : l .fab = true) (khome : l .home = true) (kbel : l .bel = true) (krecorder : l .recorder = true) (kimg : l .img = true) (kout : l .out = true) (kfree : l .free = true) (h : Kept l o s) :
    Kept l o (State.evictChanged s) := by
  unfold State.evictChanged
  repeat' first
    | with_reducible assumption
    | exact fun hw => hw
    | intro _
    | with_reducible apply State.onImg_kept
    | with_reducible apply State.settle_kept
    | with_reducible apply State.forAll_kept
    | with_reducible apply State.unbindLine_kept
    | with_reducible apply State.foldl_kept
    | exact ⟨Nat.le_refl _, fun hw => hw⟩
    | with_reducible apply Kept.ite
    | split
    | extract_lets
    | (dsimp +zetaDelta only; split)
    | (simp +zetaDelta [*]; done)
    | (simp only [HostIf.wf, Flt.wf, Fab.wf, Home.wf, Bel.wf, Rec.wf] at *; simp +zetaDelta [*]; done)

theorem execActivateDrained_kept {s : State} (kregs : l .regs = true) (khost : l .host = true) (kflt : l .flt = true) (kfab : l .fab = true) (khome : l .home = true) (kbel : l .bel = true) (krecorder : l .recorder = true) (kimg : l .img = true) (kout : l .out = true) (kfree : l .free = true) (h : Kept l o s) {t : State} (e : execActivateDrained s = .next t) :
    Kept l o t := by
  cases e
  repeat' first
    | with_reducible assumption
    | exact fun hw => hw
    | intro _
    | with_reducible apply State.whenServing_kept
    | with_reducible apply State.onImg_kept
    | with_reducible apply State.evictChanged_kept
    | with_reducible apply State.foldl_kept
    | exact ⟨Nat.le_refl _, fun hw => hw⟩
    | with_reducible apply Kept.ite
    | split
    | extract_lets
    | (dsimp +zetaDelta only; split)
    | (simp +zetaDelta [*]; done)
    | (simp only [HostIf.wf, Flt.wf, Fab.wf, Home.wf, Bel.wf, Rec.wf] at *; simp +zetaDelta [*]; done)

theorem State.reachDrainEnd_kept {s : State} {a : Act} (kregs : l .regs = true) (kpit : l .pit = true) (khost : l .host = true) (kflt : l .flt = true) (keng : l .eng = true) (ktabs : l .tabs = true) (kbel : l .bel = true) (kimg : l .img = true) (kout : l .out = true) (kfree : l .free = true) (h : Kept l o s) :
    Kept l o (State.reachDrainEnd a s) := by
  unfold State.reachDrainEnd
  repeat' first
    | with_reducible assumption
    | exact fun hw => hw
    | intro _
    | with_reducible apply State.reach_kept
    | with_reducible apply State.foldl_kept
    | exact ⟨Nat.le_refl _, fun hw => hw⟩
    | with_reducible apply Kept.ite
    | split
    | extract_lets
    | (dsimp +zetaDelta only; split)
    | (simp +zetaDelta [*]; done)
    | (simp only [HostIf.wf, Flt.wf, Eng.wf, Tabs.wf, Bel.wf] at *; simp +zetaDelta [*]; done)

theorem execActivateDrainTimeout_kept {s : State} (kregs : l .regs = true) (kpit : l .pit = true) (khost : l .host = true) (kflt : l .flt = true) (keng : l .eng = true) (kfab : l .fab = true) (ktabs : l .tabs = true) (kbel : l .bel = true) (krecorder : l .recorder = true) (kimg : l .img = true) (kout : l .out = true) (kfree : l .free = true) (h : Kept l o s) {t : State} (e : execActivateDrainTimeout s = .next t) :
    Kept l o t := by
  have e2 := Host.Outcome.next.inj e
  rw [← e2]
  clear e2 e
  refine State.whenServing_kept ?_ h
  split
  · exact h
  · refine Kept.ite (fun _ => h) (fun _ => ?_)
    extract_lets s'
    have kr : Kept l o s' := State.reachDrainEnd_kept kregs kpit khost kflt keng ktabs kbel kimg kout kfree h
    have ke := State.endImageHold_kept kregs kpit khost kflt keng kfab ktabs kbel krecorder kimg kout kfree kr
    refine Kept.ite (fun _ => State.endActivation_kept kregs khost kflt kimg kout kfree ke) (fun _ => Kept.ite (fun _ => ?_) (fun _ => kr))
    exact State.onImg_kept' kimg (fun _ => ⟨Nat.le_refl _, fun hw => hw⟩) ke

theorem execFallbackDrainRetry_kept {s : State} (kregs : l .regs = true) (ksys : l .sys = true) (kpit : l .pit = true) (khost : l .host = true) (kflt : l .flt = true) (keng : l .eng = true) (kdom : l .dom = true) (kports : l .ports = true) (ktool : l .tool = true) (kfab : l .fab = true) (ktabs : l .tabs = true) (khome : l .home = true) (kbel : l .bel = true) (krecorder : l .recorder = true) (kimg : l .img = true) (kout : l .out = true) (kfree : l .free = true) (h : Kept l o s) {t : State} (e : execFallbackDrainRetry s = .next t) :
    Kept l o t := by
  cases e
  repeat' first
    | with_reducible assumption
    | exact fun hw => hw
    | intro _
    | with_reducible apply State.whenServing_kept
    | with_reducible apply State.coldStart_kept
    | with_reducible apply State.writeSelector_kept
    | with_reducible apply State.beginDrain_kept
    | with_reducible apply State.reach_kept
    | with_reducible apply State.foldl_kept
    | exact ⟨Nat.le_refl _, fun hw => hw⟩
    | with_reducible apply Kept.ite
    | split
    | extract_lets
    | (dsimp +zetaDelta only; split)
    | (simp +zetaDelta [*]; done)
    | (simp only [Sys.wf, HostIf.wf, Flt.wf, Eng.wf, Dom.wf, Tool.wf, Fab.wf, Tabs.wf, Home.wf, Bel.wf, Rec.wf] at *; simp +zetaDelta [*]; done)

theorem State.runFrom_kept {s : State} {slot : Nat} {i : Option Image} (kimg : l .img = true) (h : Kept l o s) :
    Kept l o (State.runFrom slot i s) := by
  unfold State.runFrom
  repeat' first
    | with_reducible assumption
    | exact fun hw => hw
    | intro _
    | with_reducible apply State.onImg_kept
    | with_reducible apply State.foldl_kept
    | exact ⟨Nat.le_refl _, fun hw => hw⟩
    | with_reducible apply Kept.ite
    | split
    | extract_lets
    | (dsimp +zetaDelta only; split)
    | (simp +zetaDelta [*]; done)

theorem State.beginTrial_kept {s : State} {windowS : Nat} (kregs : l .regs = true) (khost : l .host = true) (kflt : l .flt = true) (kimg : l .img = true) (kout : l .out = true) (kfree : l .free = true) (h : Kept l o s) :
    Kept l o (State.beginTrial windowS s) := by
  unfold State.beginTrial
  repeat' first
    | with_reducible assumption
    | exact fun hw => hw
    | intro _
    | with_reducible apply State.trialWatch_kept
    | with_reducible apply State.onImg_kept
    | with_reducible apply State.foldl_kept
    | exact ⟨Nat.le_refl _, fun hw => hw⟩
    | with_reducible apply Kept.ite
    | split
    | extract_lets
    | (dsimp +zetaDelta only; split)
    | (simp +zetaDelta [*]; done)
    | (simp only [HostIf.wf, Flt.wf] at *; simp +zetaDelta [*]; done)

theorem State.resume_kept {s : State} {a : Act} {i : Option Image} (kregs : l .regs = true) (kpit : l .pit = true) (khost : l .host = true) (kflt : l .flt = true) (keng : l .eng = true) (kfab : l .fab = true) (ktabs : l .tabs = true) (kbel : l .bel = true) (krecorder : l .recorder = true) (kimg : l .img = true) (kout : l .out = true) (kfree : l .free = true) (h : Kept l o s) :
    Kept l o (State.resume a i s) := by
  unfold State.resume
  repeat' first
    | with_reducible assumption
    | exact fun hw => hw
    | intro _
    | with_reducible apply State.onImg_kept
    | with_reducible apply State.runFrom_kept
    | with_reducible apply State.writeSelector_kept
    | with_reducible apply State.endImageHold_kept
    | with_reducible apply State.bump_kept
    | with_reducible apply State.beginTrial_kept
    | with_reducible apply State.foldl_kept
    | exact ⟨Nat.le_refl _, fun hw => hw⟩
    | with_reducible apply Kept.ite
    | split
    | extract_lets
    | (dsimp +zetaDelta only; split)
    | (simp +zetaDelta [*]; done)
    | (simp only [HostIf.wf, Flt.wf, Eng.wf, Fab.wf, Tabs.wf, Bel.wf, Rec.wf] at *; simp +zetaDelta [*]; done)

theorem State.pauseLoad_kept {s : State} {a : Act} (kregs : l .regs = true) (ksys : l .sys = true) (kpit : l .pit = true) (khost : l .host = true) (kflt : l .flt = true) (keng : l .eng = true) (kdom : l .dom = true) (kports : l .ports = true) (ktool : l .tool = true) (kfab : l .fab = true) (ktabs : l .tabs = true) (khome : l .home = true) (kbel : l .bel = true) (krecorder : l .recorder = true) (kimg : l .img = true) (kout : l .out = true) (kfree : l .free = true) (h : Kept l o s) {t : State} (e : State.pauseLoad a s = .inr t) :
    Kept l o t := by
  unfold State.pauseLoad at e
  dsimp only at e
  split at e
  · cases e
  · split at e
    · cases e
    · rename_i t' ht
      cases e
      apply State.warmLoad_kept <;> with_reducible assumption

theorem State.fallBackCold_kept {s : State} {a : Act} (kregs : l .regs = true) (ksys : l .sys = true) (kpit : l .pit = true) (khost : l .host = true) (kflt : l .flt = true) (keng : l .eng = true) (kdom : l .dom = true) (kports : l .ports = true) (ktool : l .tool = true) (kfab : l .fab = true) (ktabs : l .tabs = true) (khome : l .home = true) (kbel : l .bel = true) (krecorder : l .recorder = true) (kimg : l .img = true) (kout : l .out = true) (kfree : l .free = true) (h : Kept l o s) :
    Kept l o (State.fallBackCold a s) := by
  unfold State.fallBackCold
  repeat' first
    | with_reducible assumption
    | exact fun hw => hw
    | intro _
    | with_reducible apply State.evictChanged_kept
    | with_reducible apply State.coldStart_kept
    | with_reducible apply State.writeSelector_kept
    | with_reducible apply State.foldl_kept
    | exact ⟨Nat.le_refl _, fun hw => hw⟩
    | with_reducible apply Kept.ite
    | split
    | extract_lets
    | (dsimp +zetaDelta only; split)
    | (simp +zetaDelta [*]; done)
    | (simp only [Sys.wf, HostIf.wf, Flt.wf, Eng.wf, Dom.wf, Tool.wf, Fab.wf, Tabs.wf, Home.wf, Bel.wf, Rec.wf] at *; simp +zetaDelta [*]; done)

theorem execActivatePauseEnd_kept {s : State} (kregs : l .regs = true) (ksys : l .sys = true) (kpit : l .pit = true) (khost : l .host = true) (kflt : l .flt = true) (keng : l .eng = true) (kdom : l .dom = true) (kports : l .ports = true) (ktool : l .tool = true) (kfab : l .fab = true) (ktabs : l .tabs = true) (khome : l .home = true) (kbel : l .bel = true) (krecorder : l .recorder = true) (kimg : l .img = true) (kout : l .out = true) (kfree : l .free = true) (h : Kept l o s) {t : State} (e : execActivatePauseEnd s = .next t) :
    Kept l o t := by
  obtain rfl := Host.Outcome.next.inj e
  clear e
  refine State.whenServing_kept ?_ h
  split
  · exact h
  · rename_i a _
    refine Kept.ite (fun _ => h) (fun _ => Kept.ite (fun _ => Kept.ite (fun _ => h) (fun _ => ?_)) (fun _ => ?_))
    · apply State.coldStart_kept <;> try with_reducible assumption
      apply State.writeSelector_kept <;> with_reducible assumption
    · extract_lets new s'
      refine Kept.ite (fun _ => State.fallBackCold_kept kregs ksys kpit khost kflt keng kdom kports ktool kfab ktabs khome kbel krecorder kimg kout kfree h) (fun _ => ?_)
      have kr : Kept l o s' := State.reach_kept kregs kpit khost kflt keng ktabs kbel kimg kout kfree h
      split
      · refine Kept.ite (fun _ => ?_) (fun _ => State.fallBackCold_kept kregs ksys kpit khost kflt keng kdom kports ktool kfab ktabs khome kbel krecorder kimg kout kfree kr)
        apply State.endActivation_kept <;> try with_reducible assumption
        apply State.endImageHold_kept <;> with_reducible assumption
      · rename_i t e2
        apply State.resume_kept <;> try with_reducible assumption
        exact State.pauseLoad_kept kregs ksys kpit khost kflt keng kdom kports ktool kfab ktabs khome kbel krecorder kimg kout kfree kr e2

theorem State.confirm_kept {s : State} (kregs : l .regs = true) (kpit : l .pit = true) (khost : l .host = true) (kflt : l .flt = true) (keng : l .eng = true) (ktabs : l .tabs = true) (kbel : l .bel = true) (kimg : l .img = true) (kout : l .out = true) (kfree : l .free = true) (h : Kept l o s) :
    Kept l o (State.confirm s) := by
  unfold State.confirm
  extract_lets f h' s1 s2
  have k1 : Kept l o s1 := by apply State.reach_kept <;> with_reducible assumption
  have k2 : Kept l o s2 := State.onImg_kept kimg ⟨Nat.le_max_left _ _, fun hw => hw⟩ k1
  apply State.tell_kept <;> try with_reducible assumption
  apply State.writeSelector_kept <;> with_reducible assumption

theorem execTrialWindowEnd_kept {s : State} (kregs : l .regs = true) (kpit : l .pit = true) (khost : l .host = true) (kflt : l .flt = true) (keng : l .eng = true) (ktabs : l .tabs = true) (kbel : l .bel = true) (kimg : l .img = true) (kout : l .out = true) (kfree : l .free = true) (h : Kept l o s) {t : State} (e : execTrialWindowEnd s = .next t) :
    Kept l o t := by
  cases e
  repeat' first
    | with_reducible assumption
    | exact fun hw => hw
    | intro _
    | with_reducible apply State.whenServing_kept
    | with_reducible apply State.trialWatch_kept
    | with_reducible apply State.reach_kept
    | with_reducible apply State.confirm_kept
    | with_reducible apply State.fallBack_kept
    | with_reducible apply State.foldl_kept
    | exact ⟨Nat.le_refl _, fun hw => hw⟩
    | with_reducible apply Kept.ite
    | split
    | extract_lets
    | (dsimp +zetaDelta only; split)
    | (simp +zetaDelta [*]; done)
    | (simp only [HostIf.wf, Flt.wf, Eng.wf, Tabs.wf, Bel.wf] at *; simp +zetaDelta [*]; done)

theorem execImageConfirm_kept {s : State} {h1 : Hdr} (kregs : l .regs = true) (kpit : l .pit = true) (khost : l .host = true) (kflt : l .flt = true) (keng : l .eng = true) (ktabs : l .tabs = true) (kbel : l .bel = true) (kimg : l .img = true) (kout : l .out = true) (kfree : l .free = true) (h : Kept l o s) {t : State} (e : execImageConfirm h1 s = .next t) :
    Kept l o t := by
  cases e
  repeat' first
    | with_reducible assumption
    | exact fun hw => hw
    | intro _
    | with_reducible apply State.manager_kept
    | with_reducible apply State.denied_kept
    | with_reducible apply State.done_kept
    | with_reducible apply State.confirm_kept
    | with_reducible apply State.foldl_kept
    | exact ⟨Nat.le_refl _, fun hw => hw⟩
    | with_reducible apply Kept.ite
    | split
    | extract_lets
    | (dsimp +zetaDelta only; split)
    | (simp +zetaDelta [*]; done)
    | (simp only [HostIf.wf, Flt.wf, Eng.wf, Tabs.wf, Bel.wf] at *; simp +zetaDelta [*]; done)

theorem State.dayOfPower_kept {s : State} {x0 : Nat} (kregs : l .regs = true) (kpit : l .pit = true) (khost : l .host = true) (kflt : l .flt = true) (keng : l .eng = true) (ktabs : l .tabs = true) (kbel : l .bel = true) (kimg : l .img = true) (kout : l .out = true) (kfree : l .free = true) (h : Kept l o s) :
    Kept l o (State.dayOfPower x0 s) := by
  unfold State.dayOfPower
  repeat' first
    | with_reducible assumption
    | exact fun hw => hw
    | intro _
    | with_reducible apply State.writeSelector_kept
    | with_reducible apply State.onImg_kept
    | with_reducible apply State.reach_kept
    | with_reducible apply State.foldl_kept
    | exact ⟨Nat.le_refl _, fun hw => hw⟩
    | with_reducible apply Kept.ite
    | split
    | extract_lets
    | (dsimp +zetaDelta only; split)
    | (simp +zetaDelta [*]; done)
    | (simp only [HostIf.wf, Flt.wf, Eng.wf, Tabs.wf, Bel.wf] at *; simp +zetaDelta [*]; done)

theorem execPoweredHours_kept {s : State} (kregs : l .regs = true) (kpit : l .pit = true) (khost : l .host = true) (kflt : l .flt = true) (keng : l .eng = true) (ktabs : l .tabs = true) (kbel : l .bel = true) (kimg : l .img = true) (kout : l .out = true) (kfree : l .free = true) (h : Kept l o s) {t : State} (e : execPoweredHours s = .next t) :
    Kept l o t := by
  obtain rfl := Host.Outcome.next.inj e
  exact Kept.ite (fun _ => State.dayOfPower_kept kregs kpit khost kflt keng ktabs kbel kimg kout kfree h) (fun _ => h)

theorem State.spoil_kept {s : State} {slot : Nat} (kimg : l .img = true) (h : Kept l o s) :
    Kept l o (State.spoil slot s) := by
  unfold State.spoil
  repeat' first
    | with_reducible assumption
    | exact fun hw => hw
    | intro _
    | with_reducible apply State.putSlot_kept
    | with_reducible apply State.foldl_kept
    | exact ⟨Nat.le_refl _, fun hw => hw⟩
    | with_reducible apply Kept.ite
    | split
    | extract_lets
    | (dsimp +zetaDelta only; split)
    | (simp +zetaDelta [*]; done)

theorem State.checkSlot_kept {s : State} {slot : Nat} {bad : Bool} (kregs : l .regs = true) (kimg : l .img = true) (kout : l .out = true) (h : Kept l o s) :
    Kept l o (State.checkSlot slot bad s) := by
  unfold State.checkSlot
  repeat' first
    | with_reducible assumption
    | exact fun hw => hw
    | intro _
    | with_reducible apply State.bump_kept
    | with_reducible apply State.spoil_kept
    | with_reducible apply State.onImg_kept
    | with_reducible apply State.writeSelector_kept
    | with_reducible apply State.foldl_kept
    | exact ⟨Nat.le_refl _, fun hw => hw⟩
    | with_reducible apply Kept.ite
    | split
    | extract_lets
    | (dsimp +zetaDelta only; split)
    | (simp +zetaDelta [*]; done)

theorem State.checkCopy_kept {s : State} {copy : Nat} {bad : Bool} (kregs : l .regs = true) (kimg : l .img = true) (h : Kept l o s) :
    Kept l o (State.checkCopy copy bad s) := by
  unfold State.checkCopy
  repeat' first
    | with_reducible assumption
    | exact fun hw => hw
    | intro _
    | with_reducible apply State.bump_kept
    | with_reducible apply State.onImg_kept
    | with_reducible apply State.foldl_kept
    | exact ⟨Nat.le_refl _, fun hw => hw⟩
    | with_reducible apply Kept.ite
    | split
    | extract_lets
    | (dsimp +zetaDelta only; split)
    | (simp +zetaDelta [*]; done)

theorem execRetentionCheck_kept {s : State} {sel0Bad : Bool} {sel1Bad : Bool} {aBad : Bool} {bBad : Bool} (kregs : l .regs = true) (kpit : l .pit = true) (khost : l .host = true) (kflt : l .flt = true) (keng : l .eng = true) (ktabs : l .tabs = true) (kbel : l .bel = true) (kimg : l .img = true) (kout : l .out = true) (kfree : l .free = true) (h : Kept l o s) {t : State} (e : execRetentionCheck sel0Bad sel1Bad aBad bBad s = .next t) :
    Kept l o t := by
  cases e
  repeat' first
    | with_reducible assumption
    | exact fun hw => hw
    | intro _
    | with_reducible apply State.reach_kept
    | with_reducible apply State.onImg_kept
    | with_reducible apply State.checkSlot_kept
    | with_reducible apply State.checkCopy_kept
    | with_reducible apply State.foldl_kept
    | exact ⟨Nat.le_refl _, fun hw => hw⟩
    | with_reducible apply Kept.ite
    | split
    | extract_lets
    | (dsimp +zetaDelta only; split)
    | (simp +zetaDelta [*]; done)
    | (simp only [HostIf.wf, Flt.wf, Eng.wf, Tabs.wf, Bel.wf] at *; simp +zetaDelta [*]; done)

theorem execSlotRefresh_kept {s : State} (kimg : l .img = true) (h : Kept l o s) {t : State} (e : execSlotRefresh s = .next t) :
    Kept l o t := by
  cases e
  repeat' first
    | with_reducible assumption
    | exact fun hw => hw
    | intro _
    | with_reducible apply State.whenServing_kept
    | with_reducible apply State.onImg_kept
    | with_reducible apply State.foldl_kept
    | exact ⟨Nat.le_refl _, fun hw => hw⟩
    | with_reducible apply Kept.ite
    | split
    | extract_lets
    | (dsimp +zetaDelta only; split)
    | (simp +zetaDelta [*]; done)

theorem execSlotRefreshEnd_kept {s : State} (kregs : l .regs = true) (kimg : l .img = true) (kout : l .out = true) (h : Kept l o s) {t : State} (e : execSlotRefreshEnd s = .next t) :
    Kept l o t := by
  cases e
  repeat' first
    | with_reducible assumption
    | exact fun hw => hw
    | intro _
    | with_reducible apply State.whenServing_kept
    | with_reducible apply State.emit_kept
    | with_reducible apply State.onImg_kept
    | with_reducible apply State.bump_kept
    | with_reducible apply State.writeSelector_kept
    | with_reducible apply State.foldl_kept
    | exact ⟨Nat.le_refl _, fun hw => hw⟩
    | with_reducible apply Kept.ite
    | split
    | extract_lets
    | (dsimp +zetaDelta only; split)
    | (simp +zetaDelta [*]; done)

/-! ### Machine/Startup.lean -/

theorem State.toStep_kept {s : State} {n : Nat} (kregs : l .regs = true) (h : Kept l o s) :
    Kept l o (State.toStep n s) := by
  unfold State.toStep
  repeat' first
    | with_reducible assumption
    | exact fun hw => hw
    | intro _
    | with_reducible apply State.wr_kept
    | with_reducible apply State.foldl_kept
    | exact ⟨Nat.le_refl _, fun hw => hw⟩
    | with_reducible apply Kept.ite
    | split
    | extract_lets
    | (dsimp +zetaDelta only; split)
    | (simp +zetaDelta [*]; done)

theorem execVddAonRise_kept {s : State} (kregs : l .regs = true) (ksys : l .sys = true) (kpit : l .pit = true) (khost : l .host = true) (kflt : l .flt = true) (keng : l .eng = true) (kdom : l .dom = true) (kports : l .ports = true) (ktool : l .tool = true) (kfab : l .fab = true) (ktabs : l .tabs = true) (khome : l .home = true) (kbel : l .bel = true) (krecorder : l .recorder = true) (kimg : l .img = true) (kout : l .out = true) (kfree : l .free = true) (h : Kept l o s) {t : State} (e : execVddAonRise s = .next t) :
    Kept l o t := by
  cases e
  repeat' first
    | with_reducible assumption
    | exact fun hw => hw
    | intro _
    | with_reducible apply State.coldStart_kept
    | with_reducible apply State.onSys_kept
    | with_reducible apply State.toStep_kept
    | with_reducible apply State.foldl_kept
    | exact ⟨Nat.le_refl _, fun hw => hw⟩
    | with_reducible apply Kept.ite
    | split
    | extract_lets
    | (dsimp +zetaDelta only; split)
    | (simp +zetaDelta [*]; done)
    | (simp only [Sys.wf, HostIf.wf, Flt.wf, Eng.wf, Dom.wf, Tool.wf, Fab.wf, Tabs.wf, Home.wf, Bel.wf, Rec.wf] at *; simp +zetaDelta [*]; done)

theorem execPwrOkRise_kept {s : State} (kregs : l .regs = true) (ksys : l .sys = true) (kpit : l .pit = true) (khost : l .host = true) (kflt : l .flt = true) (keng : l .eng = true) (kdom : l .dom = true) (kports : l .ports = true) (ktool : l .tool = true) (kfab : l .fab = true) (ktabs : l .tabs = true) (khome : l .home = true) (kbel : l .bel = true) (krecorder : l .recorder = true) (kimg : l .img = true) (kout : l .out = true) (kfree : l .free = true) (h : Kept l o s) {t : State} (e : execPwrOkRise s = .next t) :
    Kept l o t := by
  cases e
  repeat' first
    | with_reducible assumption
    | exact fun hw => hw
    | intro _
    | with_reducible apply State.onSys_kept
    | with_reducible apply State.driveFaultN_kept
    | with_reducible apply State.coldStart_kept
    | with_reducible apply State.toStep_kept
    | with_reducible apply State.foldl_kept
    | exact ⟨Nat.le_refl _, fun hw => hw⟩
    | with_reducible apply Kept.ite
    | split
    | extract_lets
    | (dsimp +zetaDelta only; split)
    | (simp +zetaDelta [*]; done)
    | (simp only [Sys.wf, HostIf.wf, Flt.wf, Eng.wf, Dom.wf, Tool.wf, Fab.wf, Tabs.wf, Home.wf, Bel.wf, Rec.wf] at *; simp +zetaDelta [*]; done)

theorem execPwrOkFall_kept {s : State} (kregs : l .regs = true) (ksys : l .sys = true) (keng : l .eng = true) (kfab : l .fab = true) (kbel : l .bel = true) (krecorder : l .recorder = true) (kout : l .out = true) (h : Kept l o s) {t : State} (e : execPwrOkFall s = .next t) :
    Kept l o t := by
  cases e
  repeat' first
    | with_reducible assumption
    | exact fun hw => hw
    | intro _
    | with_reducible apply State.onSys_kept
    | with_reducible apply State.powerFall_kept
    | with_reducible apply State.foldl_kept
    | exact ⟨Nat.le_refl _, fun hw => hw⟩
    | with_reducible apply Kept.ite
    | split
    | extract_lets
    | (dsimp +zetaDelta only; split)
    | (simp +zetaDelta [*]; done)
    | (simp only [Sys.wf, Eng.wf, Fab.wf, Bel.wf, Rec.wf] at *; simp +zetaDelta [*]; done)

theorem execRstNAssert_kept {s : State} (kregs : l .regs = true) (ksys : l .sys = true) (keng : l .eng = true) (kfab : l .fab = true) (kbel : l .bel = true) (krecorder : l .recorder = true) (kout : l .out = true) (h : Kept l o s) {t : State} (e : execRstNAssert s = .next t) :
    Kept l o t := by
  cases e
  repeat' first
    | with_reducible assumption
    | exact fun hw => hw
    | intro _
    | with_reducible apply State.onSys_kept
    | with_reducible apply State.powerFall_kept
    | with_reducible apply State.foldl_kept
    | exact ⟨Nat.le_refl _, fun hw => hw⟩
    | with_reducible apply Kept.ite
    | split
    | extract_lets
    | (dsimp +zetaDelta only; split)
    | (simp +zetaDelta [*]; done)
    | (simp only [Sys.wf, Eng.wf, Fab.wf, Bel.wf, Rec.wf] at *; simp +zetaDelta [*]; done)

theorem execRstNRelease_kept {s : State} (kregs : l .regs = true) (ksys : l .sys = true) (kpit : l .pit = true) (khost : l .host = true) (kflt : l .flt = true) (keng : l .eng = true) (kdom : l .dom = true) (kports : l .ports = true) (ktool : l .tool = true) (kfab : l .fab = true) (ktabs : l .tabs = true) (khome : l .home = true) (kbel : l .bel = true) (krecorder : l .recorder = true) (kimg : l .img = true) (kout : l .out = true) (kfree : l .free = true) (h : Kept l o s) {t : State} (e : execRstNRelease s = .next t) :
    Kept l o t := by
  cases e
  repeat' first
    | with_reducible assumption
    | exact fun hw => hw
    | intro _
    | with_reducible apply State.onSys_kept
    | with_reducible apply State.coldStart_kept
    | with_reducible apply State.foldl_kept
    | exact ⟨Nat.le_refl _, fun hw => hw⟩
    | with_reducible apply Kept.ite
    | split
    | extract_lets
    | (dsimp +zetaDelta only; split)
    | (simp +zetaDelta [*]; done)
    | (simp only [Sys.wf, HostIf.wf, Flt.wf, Eng.wf, Dom.wf, Tool.wf, Fab.wf, Tabs.wf, Home.wf, Bel.wf, Rec.wf] at *; simp +zetaDelta [*]; done)

theorem execColdStartDelayExpire_kept {s : State} (kregs : l .regs = true) (ksys : l .sys = true) (kpit : l .pit = true) (khost : l .host = true) (kflt : l .flt = true) (keng : l .eng = true) (kdom : l .dom = true) (kports : l .ports = true) (ktool : l .tool = true) (kfab : l .fab = true) (ktabs : l .tabs = true) (khome : l .home = true) (kbel : l .bel = true) (krecorder : l .recorder = true) (kimg : l .img = true) (kout : l .out = true) (kfree : l .free = true) (h : Kept l o s) {t : State} (e : execColdStartDelayExpire s = .next t) :
    Kept l o t := by
  cases e
  repeat' first
    | with_reducible assumption
    | exact fun hw => hw
    | intro _
    | with_reducible apply State.coldStart_kept
    | with_reducible apply State.foldl_kept
    | exact ⟨Nat.le_refl _, fun hw => hw⟩
    | with_reducible apply Kept.ite
    | split
    | extract_lets
    | (dsimp +zetaDelta only; split)
    | (simp +zetaDelta [*]; done)
    | (simp only [Sys.wf, HostIf.wf, Flt.wf, Eng.wf, Dom.wf, Tool.wf, Fab.wf, Tabs.wf, Home.wf, Bel.wf, Rec.wf] at *; simp +zetaDelta [*]; done)

theorem execJtagInstruction_kept {s : State} {ir : JtagIr} (kregs : l .regs = true) (ksys : l .sys = true) (kpit : l .pit = true) (khost : l .host = true) (kflt : l .flt = true) (keng : l .eng = true) (kdom : l .dom = true) (kports : l .ports = true) (ktool : l .tool = true) (kfab : l .fab = true) (ktabs : l .tabs = true) (khome : l .home = true) (kbel : l .bel = true) (krecorder : l .recorder = true) (kimg : l .img = true) (kout : l .out = true) (kfree : l .free = true) (h : Kept l o s) {t : State} (e : execJtagInstruction ir s = .next t) :
    Kept l o t := by
  cases e
  repeat' first
    | with_reducible assumption
    | exact fun hw => hw
    | intro _
    | with_reducible apply State.onSys_kept
    | with_reducible apply State.powerFall_kept
    | with_reducible apply State.coldStart_kept
    | with_reducible apply State.foldl_kept
    | exact ⟨Nat.le_refl _, fun hw => hw⟩
    | with_reducible apply Kept.ite
    | split
    | extract_lets
    | (dsimp +zetaDelta only; split)
    | (simp +zetaDelta [*]; done)
    | (simp only [Sys.wf, HostIf.wf, Flt.wf, Eng.wf, Dom.wf, Tool.wf, Fab.wf, Tabs.wf, Home.wf, Bel.wf, Rec.wf] at *; simp +zetaDelta [*]; done)

theorem execStrapSample_kept {s : State} {bootSel : BitVec 2} {mgrSel : BitVec 6} (kregs : l .regs = true) (kdom : l .dom = true) (h : Kept l o s) {t : State} (e : execStrapSample bootSel mgrSel s = .next t) :
    Kept l o t := by
  obtain rfl := Host.Outcome.next.inj e
  split
  · exact h
  · apply State.wr_kept <;> try with_reducible assumption
    refine State.onDom_kept' kdom (fun _ _ => ?_) ?_
    · exact ⟨rfl, rfl, rfl⟩
    · apply State.wr_kept <;> try with_reducible assumption
      apply State.wr_kept <;> with_reducible assumption

theorem execPllLock_kept {s : State} (kregs : l .regs = true) (ksys : l .sys = true) (kfree : l .free = true) (h : Kept l o s) {t : State} (e : execPllLock s = .next t) :
    Kept l o t := by
  cases e
  repeat' first
    | with_reducible assumption
    | exact fun hw => hw
    | intro _
    | with_reducible apply State.wr_kept
    | with_reducible apply State.toStep_kept
    | with_reducible apply State.onSys_kept
    | with_reducible apply State.nextFree_kept
    | with_reducible apply State.foldl_kept
    | exact ⟨Nat.le_refl _, fun hw => hw⟩
    | with_reducible apply Kept.ite
    | split
    | extract_lets
    | (dsimp +zetaDelta only; split)
    | (simp +zetaDelta [*]; done)
    | (simp only [Sys.wf] at *; simp +zetaDelta [*]; done)

theorem execPllLockTimeout_kept {s : State} (kregs : l .regs = true) (ksys : l .sys = true) (khost : l .host = true) (kflt : l .flt = true) (keng : l .eng = true) (kfab : l .fab = true) (kbel : l .bel = true) (krecorder : l .recorder = true) (kimg : l .img = true) (kout : l .out = true) (kfree : l .free = true) (h : Kept l o s) {t : State} (e : execPllLockTimeout s = .next t) :
    Kept l o t := by
  cases e
  repeat' first
    | with_reducible assumption
    | exact fun hw => hw
    | intro _
    | with_reducible apply State.fc4_kept
    | with_reducible apply State.onSys_kept
    | with_reducible apply State.foldl_kept
    | exact ⟨Nat.le_refl _, fun hw => hw⟩
    | with_reducible apply Kept.ite
    | split
    | extract_lets
    | (dsimp +zetaDelta only; split)
    | (simp +zetaDelta [*]; done)
    | (simp only [Sys.wf, HostIf.wf, Flt.wf, Eng.wf, Fab.wf, Bel.wf, Rec.wf] at *; simp +zetaDelta [*]; done)

theorem State.startFrom_kept {s : State} {slot : Nat} {alt : Bool} (kimg : l .img = true) (h : Kept l o s) :
    Kept l o (State.startFrom slot alt s) := by
  unfold State.startFrom
  repeat' first
    | with_reducible assumption
    | exact fun hw => hw
    | intro _
    | with_reducible apply State.onImg_kept
    | with_reducible apply State.runFrom_kept
    | with_reducible apply State.foldl_kept
    | exact ⟨Nat.le_refl _, fun hw => hw⟩
    | with_reducible apply Kept.ite
    | split
    | extract_lets
    | (dsimp +zetaDelta only; split)
    | (simp +zetaDelta [*]; done)

theorem State.startCandidate_kept {s : State} {cand : Nat} (kimg : l .img = true) (h : Kept l o s) :
    Kept l o (State.startCandidate cand s) := by
  unfold State.startCandidate
  repeat' first
    | with_reducible assumption
    | exact fun hw => hw
    | intro _
    | with_reducible apply State.startFrom_kept
    | with_reducible apply State.foldl_kept
    | exact ⟨Nat.le_refl _, fun hw => hw⟩
    | with_reducible apply Kept.ite
    | split
    | extract_lets
    | (dsimp +zetaDelta only; split)
    | (simp +zetaDelta [*]; done)

theorem State.selectImage_kept {s : State} (kimg : l .img = true) (kout : l .out = true) (h : Kept l o s) :
    Kept l o (State.selectImage s) := by
  unfold State.selectImage
  repeat' first
    | with_reducible assumption
    | exact fun hw => hw
    | intro _
    | with_reducible apply State.startFrom_kept
    | with_reducible apply State.startCandidate_kept
    | with_reducible apply State.writeSelector_kept
    | with_reducible apply State.foldl_kept
    | exact ⟨Nat.le_refl _, fun hw => hw⟩
    | with_reducible apply Kept.ite
    | split
    | extract_lets
    | (dsimp +zetaDelta only; split)
    | (simp +zetaDelta [*]; done)

theorem execSelftestDone_kept {s : State} {us : Nat} {homes : List SliceId} {engines : List EngineId} {cus : List CuId} (kregs : l .regs = true) (ksys : l .sys = true) (khost : l .host = true) (kflt : l .flt = true) (keng : l .eng = true) (kports : l .ports = true) (ktool : l .tool = true) (kfab : l .fab = true) (ktabs : l .tabs = true) (khome : l .home = true) (kbel : l .bel = true) (krecorder : l .recorder = true) (kimg : l .img = true) (kout : l .out = true) (kfree : l .free = true) (h : Kept l o s) {t : State} (e : execSelftestDone us homes engines cus s = .next t) :
    Kept l o t := by
  cases e
  repeat' first
    | with_reducible assumption
    | exact fun hw => hw
    | intro _
    | with_reducible apply State.wr_kept
    | with_reducible apply State.forAll_kept
    | with_reducible apply State.failHome_kept
    | with_reducible apply State.failEngine_kept
    | with_reducible apply State.cuFail_kept
    | with_reducible apply State.selectImage_kept
    | with_reducible apply State.driveFaultN_kept
    | with_reducible apply State.toStep_kept
    | with_reducible apply State.foldl_kept
    | exact ⟨Nat.le_refl _, fun hw => hw⟩
    | with_reducible apply Kept.ite
    | split
    | extract_lets
    | (dsimp +zetaDelta only; split)
    | (simp +zetaDelta [*]; done)
    | (simp only [Sys.wf, HostIf.wf, Flt.wf, Eng.wf, Tool.wf, Fab.wf, Tabs.wf, Home.wf, Bel.wf, Rec.wf] at *; simp +zetaDelta [*]; done)

theorem execRecoveryGo_kept {s : State} (kregs : l .regs = true) (ksys : l .sys = true) (kpit : l .pit = true) (khost : l .host = true) (kflt : l .flt = true) (keng : l .eng = true) (kports : l .ports = true) (ktool : l .tool = true) (kfab : l .fab = true) (khome : l .home = true) (kbel : l .bel = true) (krecorder : l .recorder = true) (kimg : l .img = true) (kout : l .out = true) (kfree : l .free = true) (h : Kept l o s) {t : State} (e : execRecoveryGo s = .next t) :
    Kept l o t := by
  cases e
  repeat' first
    | with_reducible assumption
    | exact fun hw => hw
    | intro _
    | with_reducible apply State.onSys_kept
    | with_reducible apply State.wr_kept
    | with_reducible apply State.onImg_kept
    | with_reducible apply State.writeField_kept
    | with_reducible apply State.foldl_kept
    | exact ⟨Nat.le_refl _, fun hw => hw⟩
    | with_reducible apply Kept.ite
    | split
    | extract_lets
    | (dsimp +zetaDelta only; split)
    | (simp +zetaDelta [*]; done)
    | (simp only [Sys.wf, HostIf.wf, Flt.wf, Eng.wf, Tool.wf, Fab.wf, Home.wf, Bel.wf, Rec.wf] at *; simp +zetaDelta [*]; done)

theorem State.forceManagerPort_kept {s : State} (kregs : l .regs = true) (h : Kept l o s) :
    Kept l o (State.forceManagerPort s) := by
  unfold State.forceManagerPort
  repeat' first
    | with_reducible assumption
    | exact fun hw => hw
    | intro _
    | with_reducible apply State.wr_kept
    | with_reducible apply State.foldl_kept
    | exact ⟨Nat.le_refl _, fun hw => hw⟩
    | with_reducible apply Kept.ite
    | split
    | extract_lets
    | (dsimp +zetaDelta only; split)
    | (simp +zetaDelta [*]; done)

theorem State.startPitch_kept {s : State} (kregs : l .regs = true) (kpit : l .pit = true) (krecorder : l .recorder = true) (kfree : l .free = true) (h : Kept l o s) :
    Kept l o (State.startPitch s) := by
  unfold State.startPitch
  repeat' first
    | with_reducible assumption
    | exact fun hw => hw
    | intro _
    | with_reducible apply State.onPit_kept
    | with_reducible apply State.selectSource_kept
    | with_reducible apply State.foldl_kept
    | exact ⟨Nat.le_refl _, fun hw => hw⟩
    | with_reducible apply Kept.ite
    | split
    | extract_lets
    | (dsimp +zetaDelta only; split)
    | (simp +zetaDelta [*]; done)
    | (simp only [Rec.wf] at *; simp +zetaDelta [*]; done)

theorem State.startPorts_kept {s : State} (ksys : l .sys = true) (kports : l .ports = true) (h : Kept l o s) :
    Kept l o (State.startPorts s) := by
  unfold State.startPorts
  repeat' first
    | with_reducible assumption
    | exact fun hw => hw
    | intro _
    | with_reducible apply State.onPorts_kept
    | with_reducible apply State.forAll_kept
    | with_reducible apply State.comeUp_kept
    | with_reducible apply State.foldl_kept
    | exact ⟨Nat.le_refl _, fun hw => hw⟩
    | with_reducible apply Kept.ite
    | split
    | extract_lets
    | (dsimp +zetaDelta only; split)
    | (simp +zetaDelta [*]; done)
    | (simp only [Sys.wf] at *; simp +zetaDelta [*]; done)

theorem State.startTrial_kept {s : State} (kregs : l .regs = true) (khost : l .host = true) (kflt : l .flt = true) (kimg : l .img = true) (kout : l .out = true) (kfree : l .free = true) (h : Kept l o s) :
    Kept l o (State.startTrial s) := by
  unfold State.startTrial
  repeat' first
    | with_reducible assumption
    | exact fun hw => hw
    | intro _
    | with_reducible apply State.beginTrial_kept
    | with_reducible apply State.onImg_kept
    | with_reducible apply State.foldl_kept
    | exact ⟨Nat.le_refl _, fun hw => hw⟩
    | with_reducible apply Kept.ite
    | split
    | extract_lets
    | (dsimp +zetaDelta only; split)
    | (simp +zetaDelta [*]; done)
    | (simp only [HostIf.wf, Flt.wf] at *; simp +zetaDelta [*]; done)

theorem execImageLoadEnd_kept {s : State} (kregs : l .regs = true) (ksys : l .sys = true) (kpit : l .pit = true) (khost : l .host = true) (kflt : l .flt = true) (keng : l .eng = true) (kdom : l .dom = true) (kports : l .ports = true) (ktool : l .tool = true) (kfab : l .fab = true) (ktabs : l .tabs = true) (khome : l .home = true) (kbel : l .bel = true) (krecorder : l .recorder = true) (kimg : l .img = true) (kout : l .out = true) (kfree : l .free = true) (h : Kept l o s) {t : State} (e : execImageLoadEnd s = .next t) :
    Kept l o t := by
  cases e
  repeat' first
    | with_reducible assumption
    | exact fun hw => hw
    | intro _
    | with_reducible apply State.toStep_kept
    | with_reducible apply State.forceManagerPort_kept
    | with_reducible apply State.coldLoad_kept
    | with_reducible apply State.startTrial_kept
    | with_reducible apply State.startPorts_kept
    | with_reducible apply State.startPitch_kept
    | with_reducible apply State.fc4_kept
    | with_reducible apply State.foldl_kept
    | exact ⟨Nat.le_refl _, fun hw => hw⟩
    | with_reducible apply Kept.ite
    | split
    | extract_lets
    | (dsimp +zetaDelta only; split)
    | (simp +zetaDelta [*]; done)
    | (simp only [Sys.wf, HostIf.wf, Flt.wf, Eng.wf, Dom.wf, Tool.wf, Fab.wf, Tabs.wf, Home.wf, Bel.wf, Rec.wf] at *; simp +zetaDelta [*]; done)

theorem execDynamicAddressAssign_kept {s : State} {mctp : Bool} {addr : BitVec 7} (ksys : l .sys = true) (h : Kept l o s) {t : State} (e : execDynamicAddressAssign mctp addr s = .next t) :
    Kept l o t := by
  cases e
  repeat' first
    | with_reducible assumption
    | exact fun hw => hw
    | intro _
    | with_reducible apply State.onSys_kept
    | with_reducible apply State.foldl_kept
    | exact ⟨Nat.le_refl _, fun hw => hw⟩
    | with_reducible apply Kept.ite
    | split
    | extract_lets
    | (dsimp +zetaDelta only; split)
    | (simp +zetaDelta [*]; done)
    | (simp only [Sys.wf] at *; simp +zetaDelta [*]; done)

theorem execFmApiMessage_kept {s : State} {msg : List Byte} (kout : l .out = true) (kfree : l .free = true) (h : Kept l o s) {t : State} (e : execFmApiMessage msg s = .next t) :
    Kept l o t := by
  cases e
  repeat' first
    | with_reducible assumption
    | exact fun hw => hw
    | intro _
    | with_reducible apply State.emit_kept
    | with_reducible apply State.nextFree_kept
    | with_reducible apply State.foldl_kept
    | exact ⟨Nat.le_refl _, fun hw => hw⟩
    | with_reducible apply Kept.ite
    | split
    | extract_lets
    | (dsimp +zetaDelta only; split)
    | (simp +zetaDelta [*]; done)

theorem State.marionettePart_kept {s : State} {write : Bool} {fa : Nat} {data : List Byte} {a : Nat} (kfab : l .fab = true) (kout : l .out = true) (h : Kept l o s) :
    Kept l o (State.marionettePart write fa data a s) := by
  unfold State.marionettePart
  repeat' first
    | with_reducible assumption
    | exact fun hw => hw
    | intro _
    | with_reducible apply State.sendCore_kept
    | with_reducible apply State.foldl_kept
    | exact ⟨Nat.le_refl _, fun hw => hw⟩
    | with_reducible apply Kept.ite
    | split
    | extract_lets
    | (dsimp +zetaDelta only; split)
    | (simp +zetaDelta [*]; done)
    | (simp only [Fab.wf] at *; simp +zetaDelta [*]; done)

theorem execMarionetteAccess_kept {s : State} {write : Bool} {fa : Word} {len : Nat} {data : List Byte} (kregs : l .regs = true) (khost : l .host = true) (kflt : l .flt = true) (kfab : l .fab = true) (kbel : l .bel = true) (kimg : l .img = true) (kout : l .out = true) (kfree : l .free = true) (h : Kept l o s) {t : State} (e : execMarionetteAccess write fa len data s = .next t) :
    Kept l o t := by
  cases e
  repeat' first
    | with_reducible assumption
    | exact fun hw => hw
    | intro _
    | with_reducible apply State.emit_kept
    | with_reducible apply State.countParts_kept
    | with_reducible apply State.forAll_kept
    | with_reducible apply State.countMiss_kept
    | with_reducible apply State.reportAcc_kept
    | with_reducible apply State.bump_kept
    | with_reducible apply State.marionettePart_kept
    | with_reducible apply State.takeFree_kept
    | with_reducible apply State.foldl_kept
    | exact ⟨Nat.le_refl _, fun hw => hw⟩
    | with_reducible apply Kept.ite
    | split
    | extract_lets
    | (dsimp +zetaDelta only; split)
    | (simp +zetaDelta [*]; done)
    | (simp only [HostIf.wf, Flt.wf, Fab.wf, Bel.wf] at *; simp +zetaDelta [*]; done)

/-! ### Machine/Waiting.lean -/

theorem State.after_kept {s : State} {r : Host.Outcome State Fault Refusal} (hr : ∀ t, r = .next t → Kept l o t) (h : Kept l o s) :
    Kept l o (s.after r) := by
  unfold State.after
  split
  · exact hr _ rfl
  · exact h

theorem State.runWaiting_kept {s : State} {c : Instr} (kregs : l .regs = true) (khost : l .host = true) (kflt : l .flt = true) (keng : l .eng = true) (kdom : l .dom = true) (kports : l .ports = true) (kfab : l .fab = true) (ktabs : l .tabs = true) (khome : l .home = true) (kbel : l .bel = true) (krecorder : l .recorder = true) (kimg : l .img = true) (kout : l .out = true) (kfree : l .free = true) (h : Kept l o s) :
    Kept l o (State.runWaiting c s) := by
  unfold State.runWaiting
  split
  · exact State.after_kept (fun t e => by apply execWindowBind_kept <;> with_reducible assumption) h
  · exact State.after_kept (fun t e => by apply execWindowUnbind_kept <;> with_reducible assumption) h
  · apply State.tableCommand_kept <;> first | with_reducible assumption | exact fun _ hx => hx
  · exact State.after_kept (fun t e => by apply execPbrWrite_kept <;> with_reducible assumption) h
  · exact State.after_kept (fun t e => by apply execLdBind_kept <;> with_reducible assumption) h
  · exact State.after_kept (fun t e => by apply execLdUnbind_kept <;> with_reducible assumption) h
  · exact State.after_kept (fun t e => by apply execPortRidmap_kept <;> with_reducible assumption) h
  · exact State.after_kept (fun t e => by apply execRuleWrite_kept <;> with_reducible assumption) h
  · exact State.after_kept (fun t e => by apply execRuleClear_kept <;> with_reducible assumption) h
  · exact State.after_kept (fun t e => by apply execBucketWrite_kept <;> with_reducible assumption) h
  · exact State.after_kept (fun t e => by apply execBucketClear_kept <;> with_reducible assumption) h
  · exact State.after_kept (fun t e => by apply execDomainReset_kept <;> with_reducible assumption) h
  · exact State.after_kept (fun t e => by apply execDomainDestroy_kept <;> with_reducible assumption) h
  · exact h

theorem execEpochSlotFree_kept {s : State} (kregs : l .regs = true) (khost : l .host = true) (kflt : l .flt = true) (keng : l .eng = true) (kdom : l .dom = true) (kports : l .ports = true) (kfab : l .fab = true) (ktabs : l .tabs = true) (khome : l .home = true) (kbel : l .bel = true) (krecorder : l .recorder = true) (kimg : l .img = true) (kout : l .out = true) (kfree : l .free = true) (h : Kept l o s) {t : State} (e : execEpochSlotFree s = .next t) :
    Kept l o t := by
  cases e
  repeat' first
    | with_reducible assumption
    | exact fun hw => hw
    | intro _
    | with_reducible apply State.runWaiting_kept
    | with_reducible apply State.onFab_kept
    | with_reducible apply State.foldl_kept
    | exact ⟨Nat.le_refl _, fun hw => hw⟩
    | with_reducible apply Kept.ite
    | split
    | extract_lets
    | (dsimp +zetaDelta only; split)
    | (simp +zetaDelta [*]; done)
    | (simp only [HostIf.wf, Flt.wf, Eng.wf, Dom.wf, Fab.wf, Tabs.wf, Home.wf, Bel.wf, Rec.wf] at *; simp +zetaDelta [*]; done)

/-! ### Machine/Inject.lean -/

theorem State.detectCheck_kept {s : State} {b : InjectBody} {word : Nat} (kregs : l .regs = true) (khost : l .host = true) (kflt : l .flt = true) (kimg : l .img = true) (kout : l .out = true) (kfree : l .free = true) (h : Kept l o s) :
    Kept l o (State.detectCheck b word s) := by
  unfold State.detectCheck
  repeat' first
    | with_reducible assumption
    | exact fun hw => hw
    | intro _
    | with_reducible apply State.collectAs_kept
    | with_reducible apply State.foldl_kept
    | exact ⟨Nat.le_refl _, fun hw => hw⟩
    | with_reducible apply Kept.ite
    | split
    | extract_lets
    | (dsimp +zetaDelta only; split)
    | (simp +zetaDelta [*]; done)
    | (simp only [HostIf.wf, Flt.wf] at *; simp +zetaDelta [*]; done)

theorem State.ruleUnc_kept {s : State} {key : Nat} (kregs : l .regs = true) (ksys : l .sys = true) (khost : l .host = true) (kflt : l .flt = true) (keng : l .eng = true) (kdom : l .dom = true) (kfab : l .fab = true) (kbel : l .bel = true) (krecorder : l .recorder = true) (kimg : l .img = true) (kout : l .out = true) (kfree : l .free = true) (h : Kept l o s) :
    Kept l o (State.ruleUnc key s) := by
  unfold State.ruleUnc
  repeat' first
    | with_reducible assumption
    | exact fun hw => hw
    | intro _
    | with_reducible apply State.fc4_kept
    | with_reducible apply State.onDom_kept
    | with_reducible apply State.fc2_kept
    | with_reducible apply State.bump_kept
    | with_reducible apply State.foldl_kept
    | exact ⟨Nat.le_refl _, fun hw => hw⟩
    | with_reducible apply Kept.ite
    | split
    | extract_lets
    | (dsimp +zetaDelta only; split)
    | (simp +zetaDelta [*]; done)
    | (simp only [Sys.wf, HostIf.wf, Flt.wf, Eng.wf, Dom.wf, Fab.wf, Bel.wf, Rec.wf] at *; simp +zetaDelta [*]; done)

theorem State.columnPoison_kept {s : State} {ep : Nat} (kregs : l .regs = true) (khost : l .host = true) (kflt : l .flt = true) (kfab : l .fab = true) (kimg : l .img = true) (kout : l .out = true) (kfree : l .free = true) (h : Kept l o s) :
    Kept l o (State.columnPoison ep s) := by
  unfold State.columnPoison
  repeat' first
    | with_reducible assumption
    | exact fun hw => hw
    | intro _
    | with_reducible apply State.cellError_kept
    | with_reducible apply State.nextFree_kept
    | with_reducible apply State.fc2_kept
    | with_reducible apply State.foldl_kept
    | exact ⟨Nat.le_refl _, fun hw => hw⟩
    | with_reducible apply Kept.ite
    | split
    | extract_lets
    | (dsimp +zetaDelta only; split)
    | (simp +zetaDelta [*]; done)
    | (simp only [HostIf.wf, Flt.wf, Fab.wf] at *; simp +zetaDelta [*]; done)

theorem State.detectLive_kept {s : State} {b : InjectBody} {word : Nat} (kregs : l .regs = true) (ksys : l .sys = true) (khost : l .host = true) (kflt : l .flt = true) (keng : l .eng = true) (kdom : l .dom = true) (kports : l .ports = true) (ktool : l .tool = true) (kfab : l .fab = true) (ktabs : l .tabs = true) (khome : l .home = true) (kbel : l .bel = true) (krecorder : l .recorder = true) (kimg : l .img = true) (kout : l .out = true) (kfree : l .free = true) (h : Kept l o s) :
    Kept l o (State.detectLive b word s) := by
  unfold State.detectLive
  repeat' first
    | with_reducible assumption
    | exact fun hw => hw
    | intro _
    | with_reducible apply State.columnPoison_kept
    | with_reducible apply State.fault_kept
    | with_reducible apply State.bump_kept
    | with_reducible apply State.columnFault_kept
    | with_reducible apply State.ruleUnc_kept
    | with_reducible apply State.fc2_kept
    | with_reducible apply State.cuFail_kept
    | with_reducible apply State.fc4_kept
    | with_reducible apply State.homeError_kept
    | with_reducible apply State.failEngine_kept
    | with_reducible apply State.foldl_kept
    | exact ⟨Nat.le_refl _, fun hw => hw⟩
    | with_reducible apply Kept.ite
    | split
    | extract_lets
    | (dsimp +zetaDelta only; split)
    | (simp +zetaDelta [*]; done)
    | (simp only [Sys.wf, HostIf.wf, Flt.wf, Eng.wf, Dom.wf, Tool.wf, Fab.wf, Tabs.wf, Home.wf, Bel.wf, Rec.wf] at *; simp +zetaDelta [*]; done)

theorem State.keepInverted_kept {s : State} {b : InjectBody} (kflt : l .flt = true) (h : Kept l o s) :
    Kept l o (State.keepInverted b s) := by
  unfold State.keepInverted
  repeat' first
    | with_reducible assumption
    | exact fun hw => hw
    | intro _
    | with_reducible apply State.onFlt_kept
    | with_reducible apply State.foldl_kept
    | exact ⟨Nat.le_refl _, fun hw => hw⟩
    | with_reducible apply Kept.ite
    | split
    | extract_lets
    | (dsimp +zetaDelta only; split)
    | (simp +zetaDelta [*]; done)
    | (simp only [Flt.wf] at *; simp +zetaDelta [*]; done)

theorem State.inject_kept {s : State} {h1 : Hdr} {b : InjectBody} {detected : Nat} {corrected : Nat} (kregs : l .regs = true) (ksys : l .sys = true) (khost : l .host = true) (kflt : l .flt = true) (keng : l .eng = true) (kdom : l .dom = true) (kports : l .ports = true) (ktool : l .tool = true) (kfab : l .fab = true) (ktabs : l .tabs = true) (khome : l .home = true) (kbel : l .bel = true) (krecorder : l .recorder = true) (kimg : l .img = true) (kout : l .out = true) (kfree : l .free = true) (h : Kept l o s) :
    Kept l o (State.inject h1 b detected corrected s) := by
  unfold State.inject
  repeat' first
    | with_reducible assumption
    | exact fun hw => hw
    | intro _
    | with_reducible apply State.bump_kept
    | with_reducible apply State.forAll_kept
    | with_reducible apply State.detectLive_kept
    | with_reducible apply State.keepInverted_kept
    | with_reducible apply State.detectCheck_kept
    | with_reducible apply State.fault_kept
    | with_reducible apply State.complete_kept
    | with_reducible apply State.foldl_kept
    | exact ⟨Nat.le_refl _, fun hw => hw⟩
    | with_reducible apply Kept.ite
    | split
    | extract_lets
    | (dsimp +zetaDelta only; split)
    | (simp +zetaDelta [*]; done)
    | (simp only [Sys.wf, HostIf.wf, Flt.wf, Eng.wf, Dom.wf, Tool.wf, Fab.wf, Tabs.wf, Home.wf, Bel.wf, Rec.wf] at *; simp +zetaDelta [*]; done)

theorem State.runInject_kept {s : State} {h1 : Hdr} {w : Nat} {detected : Nat} {corrected : Nat} (kregs : l .regs = true) (ksys : l .sys = true) (khost : l .host = true) (kflt : l .flt = true) (keng : l .eng = true) (kdom : l .dom = true) (kports : l .ports = true) (ktool : l .tool = true) (kfab : l .fab = true) (ktabs : l .tabs = true) (khome : l .home = true) (kbel : l .bel = true) (krecorder : l .recorder = true) (kimg : l .img = true) (kout : l .out = true) (kfree : l .free = true) (h : Kept l o s) :
    Kept l o (State.runInject h1 w detected corrected s) := by
  unfold State.runInject
  repeat' first
    | with_reducible assumption
    | exact fun hw => hw
    | intro _
    | with_reducible apply State.manager_kept
    | with_reducible apply State.denied_kept
    | with_reducible apply State.done_kept
    | with_reducible apply State.inject_kept
    | with_reducible apply State.foldl_kept
    | exact ⟨Nat.le_refl _, fun hw => hw⟩
    | with_reducible apply Kept.ite
    | split
    | extract_lets
    | (dsimp +zetaDelta only; split)
    | (simp +zetaDelta [*]; done)
    | (simp only [Sys.wf, HostIf.wf, Flt.wf, Eng.wf, Dom.wf, Tool.wf, Fab.wf, Tabs.wf, Home.wf, Bel.wf, Rec.wf] at *; simp +zetaDelta [*]; done)

theorem execFaultInject_kept {s : State} {h1 : Hdr} {w10 : Word} {detected : BitVec 16} {corrected : BitVec 16} (kregs : l .regs = true) (ksys : l .sys = true) (khost : l .host = true) (kflt : l .flt = true) (keng : l .eng = true) (kdom : l .dom = true) (kports : l .ports = true) (ktool : l .tool = true) (kfab : l .fab = true) (ktabs : l .tabs = true) (khome : l .home = true) (kbel : l .bel = true) (krecorder : l .recorder = true) (kimg : l .img = true) (kout : l .out = true) (kfree : l .free = true) (h : Kept l o s) {t : State} (e : execFaultInject h1 w10 detected corrected s = .next t) :
    Kept l o t := by
  cases e
  repeat' first
    | with_reducible assumption
    | exact fun hw => hw
    | intro _
    | with_reducible apply State.runInject_kept
    | with_reducible apply State.foldl_kept
    | exact ⟨Nat.le_refl _, fun hw => hw⟩
    | with_reducible apply Kept.ite
    | split
    | extract_lets
    | (dsimp +zetaDelta only; split)
    | (simp +zetaDelta [*]; done)
    | (simp only [Sys.wf, HostIf.wf, Flt.wf, Eng.wf, Dom.wf, Tool.wf, Fab.wf, Tabs.wf, Home.wf, Bel.wf, Rec.wf] at *; simp +zetaDelta [*]; done)

theorem execFaultInjectLive_kept {s : State} {h1 : Hdr} {w10 : Word} {detected : BitVec 16} {corrected : BitVec 16} (kregs : l .regs = true) (ksys : l .sys = true) (khost : l .host = true) (kflt : l .flt = true) (keng : l .eng = true) (kdom : l .dom = true) (kports : l .ports = true) (ktool : l .tool = true) (kfab : l .fab = true) (ktabs : l .tabs = true) (khome : l .home = true) (kbel : l .bel = true) (krecorder : l .recorder = true) (kimg : l .img = true) (kout : l .out = true) (kfree : l .free = true) (h : Kept l o s) {t : State} (e : execFaultInjectLive h1 w10 detected corrected s = .next t) :
    Kept l o t := by
  cases e
  repeat' first
    | with_reducible assumption
    | exact fun hw => hw
    | intro _
    | with_reducible apply State.runInject_kept
    | with_reducible apply State.foldl_kept
    | exact ⟨Nat.le_refl _, fun hw => hw⟩
    | with_reducible apply Kept.ite
    | split
    | extract_lets
    | (dsimp +zetaDelta only; split)
    | (simp +zetaDelta [*]; done)
    | (simp only [Sys.wf, HostIf.wf, Flt.wf, Eng.wf, Dom.wf, Tool.wf, Fab.wf, Tabs.wf, Home.wf, Bel.wf, Rec.wf] at *; simp +zetaDelta [*]; done)

/-! ### Machine/Replay.lean -/

theorem State.cfgRegister_kept {s : State} {off : Nat} {v : Word} (kregs : l .regs = true) (h : Kept l o s) :
    Kept l o (State.cfgRegister off v s) := by
  unfold State.cfgRegister
  repeat' first
    | with_reducible assumption
    | exact fun hw => hw
    | intro _
    | with_reducible apply State.setReg_kept
    | with_reducible apply State.foldl_kept
    | exact ⟨Nat.le_refl _, fun hw => hw⟩
    | with_reducible apply Kept.ite
    | split
    | extract_lets
    | (dsimp +zetaDelta only; split)
    | (simp +zetaDelta [*]; done)

theorem State.takeCfg_kept {s : State} {i : RecItem} (kregs : l .regs = true) (kdom : l .dom = true) (ktabs : l .tabs = true) (krecorder : l .recorder = true) (h : Kept l o s) :
    Kept l o (State.takeCfg i s) := by
  unfold State.takeCfg
  repeat' first
    | with_reducible assumption
    | exact fun hw => hw
    | intro _
    | with_reducible apply State.put_kept
    | with_reducible apply State.cfgRegister_kept
    | with_reducible apply State.foldl_kept
    | exact ⟨Nat.le_refl _, fun hw => hw⟩
    | with_reducible apply Kept.ite
    | split
    | extract_lets
    | (dsimp +zetaDelta only; split)
    | (simp +zetaDelta [*]; done)
    | (simp only [Dom.wf, Tabs.wf, Rec.wf] at *; simp +zetaDelta [*]; done)

theorem State.loadConfig_kept {s : State} {w : List Word} (kregs : l .regs = true) (kpit : l .pit = true) (keng : l .eng = true) (kdom : l .dom = true) (ktabs : l .tabs = true) (kbel : l .bel = true) (krecorder : l .recorder = true) (h : Kept l o s) :
    Kept l o (State.loadConfig w s) := by
  unfold State.loadConfig
  extract_lets x _ s1 s2 s3 s4 s5 placed now s6
  have k1 : Kept l o s1 := State.onTabs_kept' ktabs (fun _ _ => ⟨rfl, rfl, rfl, rfl, rfl⟩) h
  have k2 : Kept l o s2 := State.onDom_kept' kdom (fun _ hx => ⟨hx.1, rfl, rfl⟩) k1
  have k3 : Kept l o s3 := State.forAll_kept (fun r t ht => by apply State.takeCfg_kept <;> with_reducible assumption) k2
  have k4 : Kept l o s4 := State.onBel_kept' kbel (fun _ hx => ⟨hx.1, hx.2.1, hx.2.2⟩) k3
  have k5 : Kept l o s5 := State.forAll_kept (fun r t ht => by apply State.takeCfg_kept <;> with_reducible assumption) k4
  exact State.onEng_kept' keng (fun _ hx => hx) (State.onPit_kept kpit k5)

theorem State.loadHome_kept {s : State} {b : List Nat} {rt : List Nat} (khome : l .home = true) (kfree : l .free = true) (h : Kept l o s) :
    Kept l o (State.loadHome b rt s) := by
  have wt : ∀ {α : Type} [DecidableEq α] (d : Nat → α) (xs : List (Nat × α)), Tab.wf d (tabOf d xs) = true :=
    fun _ xs => Tab.wf_foldl xs _ (fun _ _ hu => Tab.wf_set hu) rfl
  refine State.takeFree_kept kfree (State.onHome_kept' khome (fun x hx => ?_) h)
  have h4 := hx.2.2.2.2
  generalize recordOlc b rt s.free = q1
  generalize readSets homeSets 0 b = q2
  generalize recordDir b = q3
  exact ⟨wt _ _, wt _ _, wt agesAt _, wt agesAt _, h4⟩

/-- The pages of one engine keep the forms of the tables. -/
theorem takePages_wf (p : Nat × Nat × List (Nat × Nat) × Nat) (a : Eng × List Nat) (ha : a.1.wf) : (takePages p a).1.wf := by
  have step : ∀ (l : List (Nat × Nat)) (c : Eng × List Nat), c.1.wf → (l.foldl (takeProgram p.2.1) c).1.wf := by
    intro l
    induction l with
    | nil => exact fun _ hc => hc
    | cons x l ih =>
      intro c hc
      refine ih (takeProgram p.2.1 c x) ?_
      unfold takeProgram
      obtain ⟨h1, h2⟩ := hc
      refine ⟨?_, h2⟩
      dsimp only
      exact Tab.wf_set h1
  have hq := step p.2.2.1 a ha
  exact ⟨hq.1, hq.2.1, Tab.wf_foldl (d := memDefault) _ _ (fun u i hu => Memory.wf_writeByte (m := u) hu) hq.2.2.1, hq.2.2.2⟩

theorem State.loadState_kept {s : State} {w : List Word} {rt : List Word} {homes : Bool} (keng : l .eng = true) (kports : l .ports = true) (kfab : l .fab = true) (ktabs : l .tabs = true) (khome : l .home = true) (kbel : l .bel = true) (kfree : l .free = true) (h : Kept l o s) :
    Kept l o (State.loadState w rt homes s) := by
  unfold State.loadState
  extract_lets x b s1 s2 s3 s4 s5 s6 pages
  have wf1 : ∀ g : Fab, g.wf → (Fab.loaded x g).wf := by
    intro g hg
    refine ⟨Tab.wf_foldl _ _ (fun _ _ hu => Tab.wf_set hu) rfl, Tab.wf_foldl _ _ (fun _ _ hu => Tab.wf_set hu) rfl, ?_⟩
    simp only [Fab.loaded]
    exact hg.2.2
  have wpg : ∀ (l : List (Nat × Nat × List (Nat × Nat) × Nat)) (a : Eng × List Nat), a.1.wf → (l.foldl (fun a p => takePages p a) a).1.wf := by
    intro l
    induction l with
    | nil => exact fun _ ha => ha
    | cons p l ih => exact fun a ha => ih _ (takePages_wf p a ha)
  have k1 : Kept l o s1 := State.onFab_kept' kfab wf1 h
  have k2 : Kept l o s2 := State.forAll_kept (fun e t ht => by apply State.onBucket_kept <;> with_reducible assumption) k1
  have k3 : Kept l o s3 := State.onBel_kept' kbel (fun _ hx => ⟨hx.1, hx.2.1, hx.2.2⟩) k2
  have k4 : Kept l o s4 := State.onPorts_kept kports k3
  have k5 : Kept l o s5 := State.onEng_kept' keng (fun g hg => ⟨hg.1, hg.2.1, hg.2.2.1, hg.2.2.2⟩) k4
  have k6 : Kept l o s6 := Kept.ite (fun _ => by apply State.loadHome_kept <;> with_reducible assumption) (fun _ => k5)
  exact State.onEng_kept' keng (fun g hg => wpg _ (g, pages) hg) k6

theorem State.loadRecordOf_kept {s : State} {h1 : Hdr} {w : List Word} {report : Nat} (kregs : l .regs = true) (kpit : l .pit = true) (keng : l .eng = true) (kdom : l .dom = true) (kports : l .ports = true) (kfab : l .fab = true) (ktabs : l .tabs = true) (khome : l .home = true) (kbel : l .bel = true) (krecorder : l .recorder = true) (kfree : l .free = true) (h : Kept l o s) :
    Kept l o (State.loadRecordOf h1 w report s) := by
  unfold State.loadRecordOf
  repeat' first
    | with_reducible assumption
    | exact fun hw => hw
    | intro _
    | with_reducible apply State.loadState_kept
    | with_reducible apply State.loadConfig_kept
    | with_reducible apply State.onPit_kept
    | with_reducible apply State.onRec_kept
    | with_reducible apply State.foldl_kept
    | exact ⟨Nat.le_refl _, fun hw => hw⟩
    | with_reducible apply Kept.ite
    | split
    | extract_lets
    | (dsimp +zetaDelta only; split)
    | (simp +zetaDelta [*]; done)
    | (simp only [Eng.wf, Dom.wf, Fab.wf, Tabs.wf, Home.wf, Bel.wf, Rec.wf] at *; simp +zetaDelta [*]; done)

theorem execRecReplay_kept {s : State} {h1 : Hdr} {addr : Word} {length : Nat} {rec : List Word} {report : Word} (kregs : l .regs = true) (kpit : l .pit = true) (khost : l .host = true) (kflt : l .flt = true) (keng : l .eng = true) (kdom : l .dom = true) (kports : l .ports = true) (kfab : l .fab = true) (ktabs : l .tabs = true) (khome : l .home = true) (kbel : l .bel = true) (krecorder : l .recorder = true) (kimg : l .img = true) (kout : l .out = true) (kfree : l .free = true) (h : Kept l o s) {t : State} (e : execRecReplay h1 addr length rec report s = .next t) :
    Kept l o t := by
  cases e
  repeat' first
    | with_reducible assumption
    | exact fun hw => hw
    | intro _
    | with_reducible apply State.manager_kept
    | with_reducible apply State.withObject_kept
    | with_reducible apply State.bad_kept
    | with_reducible apply State.denied_kept
    | with_reducible apply State.done_kept
    | with_reducible apply State.loadRecordOf_kept
    | with_reducible apply State.foldl_kept
    | exact ⟨Nat.le_refl _, fun hw => hw⟩
    | with_reducible apply Kept.ite
    | split
    | extract_lets
    | (dsimp +zetaDelta only; split)
    | (simp +zetaDelta [*]; done)
    | (simp only [HostIf.wf, Flt.wf, Eng.wf, Dom.wf, Fab.wf, Tabs.wf, Home.wf, Bel.wf, Rec.wf] at *; simp +zetaDelta [*]; done)

theorem State.takeAdm_kept {s : State} {i : RecItem} (kregs : l .regs = true) (khost : l .host = true) (kflt : l .flt = true) (kports : l .ports = true) (kfab : l .fab = true) (kbel : l .bel = true) (krecorder : l .recorder = true) (kimg : l .img = true) (kout : l .out = true) (kfree : l .free = true) (h : Kept l o s) :
    Kept l o (State.takeAdm i s) := by
  unfold State.takeAdm
  repeat' first
    | with_reducible assumption
    | exact fun hw => hw
    | intro _
    | with_reducible apply State.admitMsg_kept
    | with_reducible apply State.ledgerAdd_kept
    | with_reducible apply State.onFab_kept
    | with_reducible apply State.foldl_kept
    | exact ⟨Nat.le_refl _, fun hw => hw⟩
    | with_reducible apply Kept.ite
    | split
    | extract_lets
    | (dsimp +zetaDelta only; split)
    | (simp +zetaDelta [*]; done)
    | (simp only [HostIf.wf, Flt.wf, Fab.wf, Bel.wf, Rec.wf] at *; simp +zetaDelta [*]; done)

theorem State.takeTail_kept {s : State} {i : RecItem} (kfab : l .fab = true) (h : Kept l o s) :
    Kept l o (State.takeTail i s) := by
  unfold State.takeTail
  repeat' first
    | with_reducible assumption
    | exact fun hw => hw
    | intro _
    | with_reducible apply State.onMsg_kept
    | with_reducible apply State.foldl_kept
    | exact ⟨Nat.le_refl _, fun hw => hw⟩
    | with_reducible apply Kept.ite
    | split
    | extract_lets
    | (dsimp +zetaDelta only; split)
    | (simp +zetaDelta [*]; done)
    | (simp only [Fab.wf] at *; simp +zetaDelta [*]; done)

theorem State.takeSide_kept {s : State} {i : RecItem} (kregs : l .regs = true) (ksys : l .sys = true) (khost : l .host = true) (kflt : l .flt = true) (kports : l .ports = true) (kfab : l .fab = true) (ktabs : l .tabs = true) (khome : l .home = true) (kbel : l .bel = true) (krecorder : l .recorder = true) (kimg : l .img = true) (kout : l .out = true) (kfree : l .free = true) (h : Kept l o s) :
    Kept l o (State.takeSide i s) := by
  unfold State.takeSide
  repeat' first
    | with_reducible assumption
    | exact fun hw => hw
    | intro _
    | with_reducible apply State.onPortN_kept
    | with_reducible apply State.declareDown_kept
    | with_reducible apply State.foldl_kept
    | exact ⟨Nat.le_refl _, fun hw => hw⟩
    | with_reducible apply Kept.ite
    | split
    | extract_lets
    | (dsimp +zetaDelta only; split)
    | (simp +zetaDelta [*]; done)
    | (simp only [Sys.wf, HostIf.wf, Flt.wf, Fab.wf, Tabs.wf, Home.wf, Bel.wf, Rec.wf] at *; simp +zetaDelta [*]; done)

theorem State.takeEcc_kept {s : State} {i : RecItem} (kregs : l .regs = true) (ksys : l .sys = true) (khost : l .host = true) (kflt : l .flt = true) (keng : l .eng = true) (kports : l .ports = true) (kfab : l .fab = true) (ktabs : l .tabs = true) (khome : l .home = true) (kbel : l .bel = true) (krecorder : l .recorder = true) (kimg : l .img = true) (kout : l .out = true) (kfree : l .free = true) (h : Kept l o s) :
    Kept l o (State.takeEcc i s) := by
  unfold State.takeEcc
  repeat' first
    | with_reducible assumption
    | exact fun hw => hw
    | intro _
    | with_reducible apply State.homeError_kept
    | with_reducible apply State.columnFault_kept
    | with_reducible apply State.cellError_kept
    | with_reducible apply State.foldl_kept
    | exact ⟨Nat.le_refl _, fun hw => hw⟩
    | with_reducible apply Kept.ite
    | split
    | extract_lets
    | (dsimp +zetaDelta only; split)
    | (simp +zetaDelta [*]; done)
    | (simp only [Sys.wf, HostIf.wf, Flt.wf, Eng.wf, Fab.wf, Tabs.wf, Home.wf, Bel.wf, Rec.wf] at *; simp +zetaDelta [*]; done)

theorem State.takeGov_kept {s : State} {i : RecItem} (kbel : l .bel = true) (krecorder : l .recorder = true) (h : Kept l o s) :
    Kept l o (State.takeGov i s) := by
  unfold State.takeGov
  repeat' first
    | with_reducible assumption
    | exact fun hw => hw
    | intro _
    | with_reducible apply State.onRec_kept
    | with_reducible apply State.onBel_kept
    | with_reducible apply State.foldl_kept
    | exact ⟨Nat.le_refl _, fun hw => hw⟩
    | with_reducible apply Kept.ite
    | split
    | extract_lets
    | (dsimp +zetaDelta only; split)
    | (simp +zetaDelta [*]; done)
    | (simp only [Bel.wf, Rec.wf] at *; simp +zetaDelta [*]; done)

theorem State.takeSens_kept {s : State} {i : RecItem} (kbel : l .bel = true) (h : Kept l o s) :
    Kept l o (State.takeSens i s) := by
  unfold State.takeSens
  repeat' first
    | with_reducible assumption
    | exact fun hw => hw
    | intro _
    | with_reducible apply State.onBel_kept
    | with_reducible apply State.foldl_kept
    | exact ⟨Nat.le_refl _, fun hw => hw⟩
    | with_reducible apply Kept.ite
    | split
    | extract_lets
    | (dsimp +zetaDelta only; split)
    | (simp +zetaDelta [*]; done)
    | (simp only [Bel.wf] at *; simp +zetaDelta [*]; done)

theorem State.takeItem_kept {s : State} {i : RecItem} (kregs : l .regs = true) (ksys : l .sys = true) (kpit : l .pit = true) (khost : l .host = true) (kflt : l .flt = true) (keng : l .eng = true) (kdom : l .dom = true) (kports : l .ports = true) (ktool : l .tool = true) (kfab : l .fab = true) (ktabs : l .tabs = true) (khome : l .home = true) (kbel : l .bel = true) (krecorder : l .recorder = true) (kimg : l .img = true) (kout : l .out = true) (kfree : l .free = true) (h : Kept l o s) :
    Kept l o (State.takeItem i s) := by
  unfold State.takeItem
  repeat' first
    | with_reducible assumption
    | exact fun hw => hw
    | intro _
    | with_reducible apply State.takeIn_kept
    | with_reducible apply State.takeAdm_kept
    | with_reducible apply State.takeTail_kept
    | with_reducible apply State.onRec_kept
    | with_reducible apply State.takeGov_kept
    | with_reducible apply State.takeSens_kept
    | with_reducible apply State.takeSide_kept
    | with_reducible apply State.takeEcc_kept
    | with_reducible apply State.onPit_kept
    | with_reducible apply State.takeCfg_kept
    | with_reducible apply State.foldl_kept
    | exact ⟨Nat.le_refl _, fun hw => hw⟩
    | with_reducible apply Kept.ite
    | split
    | extract_lets
    | (dsimp +zetaDelta only; split)
    | (simp +zetaDelta [*]; done)
    | (simp only [Sys.wf, HostIf.wf, Flt.wf, Eng.wf, Dom.wf, Tool.wf, Fab.wf, Tabs.wf, Home.wf, Bel.wf, Rec.wf] at *; simp +zetaDelta [*]; done)

theorem State.presentItems_kept {s : State} (kregs : l .regs = true) (ksys : l .sys = true) (kpit : l .pit = true) (khost : l .host = true) (kflt : l .flt = true) (keng : l .eng = true) (kdom : l .dom = true) (kports : l .ports = true) (ktool : l .tool = true) (kfab : l .fab = true) (ktabs : l .tabs = true) (khome : l .home = true) (kbel : l .bel = true) (krecorder : l .recorder = true) (kimg : l .img = true) (kout : l .out = true) (kfree : l .free = true) (h : Kept l o s) :
    Kept l o (State.presentItems s) := by
  unfold State.presentItems
  repeat' first
    | with_reducible assumption
    | exact fun hw => hw
    | intro _
    | with_reducible apply State.onRec_kept
    | with_reducible apply State.forAll_kept
    | with_reducible apply State.takeItem_kept
    | with_reducible apply State.foldl_kept
    | exact ⟨Nat.le_refl _, fun hw => hw⟩
    | with_reducible apply Kept.ite
    | split
    | extract_lets
    | (dsimp +zetaDelta only; split)
    | (simp +zetaDelta [*]; done)
    | (simp only [Sys.wf, HostIf.wf, Flt.wf, Eng.wf, Dom.wf, Tool.wf, Fab.wf, Tabs.wf, Home.wf, Bel.wf, Rec.wf] at *; simp +zetaDelta [*]; done)

theorem State.replayCclk_kept {s : State} (kregs : l .regs = true) (kpit : l .pit = true) (khost : l .host = true) (kflt : l .flt = true) (keng : l .eng = true) (ktabs : l .tabs = true) (kbel : l .bel = true) (krecorder : l .recorder = true) (kimg : l .img = true) (kout : l .out = true) (kfree : l .free = true) (h : Kept l o s) :
    Kept l o (State.replayCclk s) := by
  refine State.onRec_kept' krecorder (fun _ hw => ⟨hw.1, hw.2⟩) (State.onPit_kept kpit ?_)
  apply State.passCclk_kept <;> with_reducible assumption

theorem State.replayEdge_kept {s : State} (kregs : l .regs = true) (ksys : l .sys = true) (kpit : l .pit = true) (khost : l .host = true) (kflt : l .flt = true) (keng : l .eng = true) (kdom : l .dom = true) (kports : l .ports = true) (ktool : l .tool = true) (kfab : l .fab = true) (ktabs : l .tabs = true) (khome : l .home = true) (kbel : l .bel = true) (krecorder : l .recorder = true) (kimg : l .img = true) (kout : l .out = true) (kfree : l .free = true) (h : Kept l o s) :
    Kept l o (State.replayEdge s) := by
  unfold State.replayEdge
  repeat' first
    | with_reducible assumption
    | exact fun hw => hw
    | intro _
    | with_reducible apply State.nextFree_kept
    | with_reducible apply State.onRec_kept
    | with_reducible apply State.replayCclk_kept
    | with_reducible apply State.presentItems_kept
    | with_reducible apply State.foldl_kept
    | exact ⟨Nat.le_refl _, fun hw => hw⟩
    | with_reducible apply Kept.ite
    | split
    | extract_lets
    | (dsimp +zetaDelta only; split)
    | (simp +zetaDelta [*]; done)
    | (simp only [Sys.wf, HostIf.wf, Flt.wf, Eng.wf, Dom.wf, Tool.wf, Fab.wf, Tabs.wf, Home.wf, Bel.wf, Rec.wf] at *; simp +zetaDelta [*]; done)

theorem execReplaySpanEnd_kept {s : State} (kregs : l .regs = true) (khost : l .host = true) (kflt : l .flt = true) (krecorder : l .recorder = true) (kimg : l .img = true) (kout : l .out = true) (kfree : l .free = true) (h : Kept l o s) {t : State} (e : execReplaySpanEnd s = .next t) :
    Kept l o t := by
  cases e
  repeat' first
    | with_reducible assumption
    | exact fun hw => hw
    | intro _
    | with_reducible apply State.onRec_kept
    | with_reducible apply State.emit_kept
    | with_reducible apply State.complete_kept
    | with_reducible apply State.foldl_kept
    | exact ⟨Nat.le_refl _, fun hw => hw⟩
    | with_reducible apply Kept.ite
    | split
    | extract_lets
    | (dsimp +zetaDelta only; split)
    | (simp +zetaDelta [*]; done)
    | (simp only [HostIf.wf, Flt.wf, Rec.wf] at *; simp +zetaDelta [*]; done)

/-! ### Machine/Clock.lean -/

theorem State.cclkEdge_kept {s : State} (kregs : l .regs = true) (ksys : l .sys = true) (kpit : l .pit = true) (khost : l .host = true) (kflt : l .flt = true) (keng : l .eng = true) (kdom : l .dom = true) (kports : l .ports = true) (ktool : l .tool = true) (kfab : l .fab = true) (ktabs : l .tabs = true) (khome : l .home = true) (kbel : l .bel = true) (krecorder : l .recorder = true) (kimg : l .img = true) (kout : l .out = true) (kfree : l .free = true) (h : Kept l o s) :
    Kept l o (State.cclkEdge s) := by
  refine Kept.ite (fun _ => Kept.ite (fun _ => State.replayEdge_kept kregs ksys kpit khost kflt keng kdom kports ktool kfab ktabs khome kbel krecorder kimg kout kfree h) (fun _ => h))
    (fun _ => Kept.ite (fun _ => ?_) (fun _ => h))
  refine State.onRec_kept' krecorder (fun _ hw => ⟨hw.1, hw.2⟩) (State.onPit_kept kpit ?_)
  apply State.passCclk_kept <;> with_reducible assumption

end Sys2Proof.Machine
end

