-- ==== Sys2Proof/Laws/State.lean ====
section
/-! SUPPORT. One lemma for each field and each named update of State: what the update does to the field. -/

namespace Sys2Proof.Machine

variable (s : State)

/-! ### onSys -/

@[simp] theorem State.onSys_pending (f : Sys → Sys) : (s.onSys f).pending = s.pending := rfl
@[simp] theorem State.onSys_free (f : Sys → Sys) : (s.onSys f).free = s.free := rfl
@[simp] theorem State.onSys_out (f : Sys → Sys) : (s.onSys f).out = s.out := rfl
@[simp] theorem State.onSys_regs (f : Sys → Sys) : (s.onSys f).regs = s.regs := rfl
@[simp] theorem State.onSys_sys (f : Sys → Sys) : (s.onSys f).sys = f s.sys := rfl
@[simp] theorem State.onSys_pit (f : Sys → Sys) : (s.onSys f).pit = s.pit := rfl
@[simp] theorem State.onSys_host (f : Sys → Sys) : (s.onSys f).host = s.host := rfl
@[simp] theorem State.onSys_flt (f : Sys → Sys) : (s.onSys f).flt = s.flt := rfl
@[simp] theorem State.onSys_eng (f : Sys → Sys) : (s.onSys f).eng = s.eng := rfl
@[simp] theorem State.onSys_dom (f : Sys → Sys) : (s.onSys f).dom = s.dom := rfl
@[simp] theorem State.onSys_ports (f : Sys → Sys) : (s.onSys f).ports = s.ports := rfl
@[simp] theorem State.onSys_tool (f : Sys → Sys) : (s.onSys f).tool = s.tool := rfl
@[simp] theorem State.onSys_fab (f : Sys → Sys) : (s.onSys f).fab = s.fab := rfl
@[simp] theorem State.onSys_tabs (f : Sys → Sys) : (s.onSys f).tabs = s.tabs := rfl
@[simp] theorem State.onSys_home (f : Sys → Sys) : (s.onSys f).home = s.home := rfl
@[simp] theorem State.onSys_bel (f : Sys → Sys) : (s.onSys f).bel = s.bel := rfl
@[simp] theorem State.onSys_rec_ (f : Sys → Sys) : (s.onSys f).rec_ = s.rec_ := rfl
@[simp] theorem State.onSys_img (f : Sys → Sys) : (s.onSys f).img = s.img := rfl

/-! ### onPit -/

@[simp] theorem State.onPit_pending (f : Pitch → Pitch) : (s.onPit f).pending = s.pending := rfl
@[simp] theorem State.onPit_free (f : Pitch → Pitch) : (s.onPit f).free = s.free := rfl
@[simp] theorem State.onPit_out (f : Pitch → Pitch) : (s.onPit f).out = s.out := rfl
@[simp] theorem State.onPit_regs (f : Pitch → Pitch) : (s.onPit f).regs = s.regs := rfl
@[simp] theorem State.onPit_sys (f : Pitch → Pitch) : (s.onPit f).sys = s.sys := rfl
@[simp] theorem State.onPit_pit (f : Pitch → Pitch) : (s.onPit f).pit = f s.pit := rfl
@[simp] theorem State.onPit_host (f : Pitch → Pitch) : (s.onPit f).host = s.host := rfl
@[simp] theorem State.onPit_flt (f : Pitch → Pitch) : (s.onPit f).flt = s.flt := rfl
@[simp] theorem State.onPit_eng (f : Pitch → Pitch) : (s.onPit f).eng = s.eng := rfl
@[simp] theorem State.onPit_dom (f : Pitch → Pitch) : (s.onPit f).dom = s.dom := rfl
@[simp] theorem State.onPit_ports (f : Pitch → Pitch) : (s.onPit f).ports = s.ports := rfl
@[simp] theorem State.onPit_tool (f : Pitch → Pitch) : (s.onPit f).tool = s.tool := rfl
@[simp] theorem State.onPit_fab (f : Pitch → Pitch) : (s.onPit f).fab = s.fab := rfl
@[simp] theorem State.onPit_tabs (f : Pitch → Pitch) : (s.onPit f).tabs = s.tabs := rfl
@[simp] theorem State.onPit_home (f : Pitch → Pitch) : (s.onPit f).home = s.home := rfl
@[simp] theorem State.onPit_bel (f : Pitch → Pitch) : (s.onPit f).bel = s.bel := rfl
@[simp] theorem State.onPit_rec_ (f : Pitch → Pitch) : (s.onPit f).rec_ = s.rec_ := rfl
@[simp] theorem State.onPit_img (f : Pitch → Pitch) : (s.onPit f).img = s.img := rfl

/-! ### onHost -/

@[simp] theorem State.onHost_pending (f : HostIf → HostIf) : (s.onHost f).pending = s.pending := rfl
@[simp] theorem State.onHost_free (f : HostIf → HostIf) : (s.onHost f).free = s.free := rfl
@[simp] theorem State.onHost_out (f : HostIf → HostIf) : (s.onHost f).out = s.out := rfl
@[simp] theorem State.onHost_regs (f : HostIf → HostIf) : (s.onHost f).regs = s.regs := rfl
@[simp] theorem State.onHost_sys (f : HostIf → HostIf) : (s.onHost f).sys = s.sys := rfl
@[simp] theorem State.onHost_pit (f : HostIf → HostIf) : (s.onHost f).pit = s.pit := rfl
@[simp] theorem State.onHost_host (f : HostIf → HostIf) : (s.onHost f).host = f s.host := rfl
@[simp] theorem State.onHost_flt (f : HostIf → HostIf) : (s.onHost f).flt = s.flt := rfl
@[simp] theorem State.onHost_eng (f : HostIf → HostIf) : (s.onHost f).eng = s.eng := rfl
@[simp] theorem State.onHost_dom (f : HostIf → HostIf) : (s.onHost f).dom = s.dom := rfl
@[simp] theorem State.onHost_ports (f : HostIf → HostIf) : (s.onHost f).ports = s.ports := rfl
@[simp] theorem State.onHost_tool (f : HostIf → HostIf) : (s.onHost f).tool = s.tool := rfl
@[simp] theorem State.onHost_fab (f : HostIf → HostIf) : (s.onHost f).fab = s.fab := rfl
@[simp] theorem State.onHost_tabs (f : HostIf → HostIf) : (s.onHost f).tabs = s.tabs := rfl
@[simp] theorem State.onHost_home (f : HostIf → HostIf) : (s.onHost f).home = s.home := rfl
@[simp] theorem State.onHost_bel (f : HostIf → HostIf) : (s.onHost f).bel = s.bel := rfl
@[simp] theorem State.onHost_rec_ (f : HostIf → HostIf) : (s.onHost f).rec_ = s.rec_ := rfl
@[simp] theorem State.onHost_img (f : HostIf → HostIf) : (s.onHost f).img = s.img := rfl

/-! ### onFlt -/

@[simp] theorem State.onFlt_pending (f : Flt → Flt) : (s.onFlt f).pending = s.pending := rfl
@[simp] theorem State.onFlt_free (f : Flt → Flt) : (s.onFlt f).free = s.free := rfl
@[simp] theorem State.onFlt_out (f : Flt → Flt) : (s.onFlt f).out = s.out := rfl
@[simp] theorem State.onFlt_regs (f : Flt → Flt) : (s.onFlt f).regs = s.regs := rfl
@[simp] theorem State.onFlt_sys (f : Flt → Flt) : (s.onFlt f).sys = s.sys := rfl
@[simp] theorem State.onFlt_pit (f : Flt → Flt) : (s.onFlt f).pit = s.pit := rfl
@[simp] theorem State.onFlt_host (f : Flt → Flt) : (s.onFlt f).host = s.host := rfl
@[simp] theorem State.onFlt_flt (f : Flt → Flt) : (s.onFlt f).flt = f s.flt := rfl
@[simp] theorem State.onFlt_eng (f : Flt → Flt) : (s.onFlt f).eng = s.eng := rfl
@[simp] theorem State.onFlt_dom (f : Flt → Flt) : (s.onFlt f).dom = s.dom := rfl
@[simp] theorem State.onFlt_ports (f : Flt → Flt) : (s.onFlt f).ports = s.ports := rfl
@[simp] theorem State.onFlt_tool (f : Flt → Flt) : (s.onFlt f).tool = s.tool := rfl
@[simp] theorem State.onFlt_fab (f : Flt → Flt) : (s.onFlt f).fab = s.fab := rfl
@[simp] theorem State.onFlt_tabs (f : Flt → Flt) : (s.onFlt f).tabs = s.tabs := rfl
@[simp] theorem State.onFlt_home (f : Flt → Flt) : (s.onFlt f).home = s.home := rfl
@[simp] theorem State.onFlt_bel (f : Flt → Flt) : (s.onFlt f).bel = s.bel := rfl
@[simp] theorem State.onFlt_rec_ (f : Flt → Flt) : (s.onFlt f).rec_ = s.rec_ := rfl
@[simp] theorem State.onFlt_img (f : Flt → Flt) : (s.onFlt f).img = s.img := rfl

/-! ### onEng -/

@[simp] theorem State.onEng_pending (f : Eng → Eng) : (s.onEng f).pending = s.pending := rfl
@[simp] theorem State.onEng_free (f : Eng → Eng) : (s.onEng f).free = s.free := rfl
@[simp] theorem State.onEng_out (f : Eng → Eng) : (s.onEng f).out = s.out := rfl
@[simp] theorem State.onEng_regs (f : Eng → Eng) : (s.onEng f).regs = s.regs := rfl
@[simp] theorem State.onEng_sys (f : Eng → Eng) : (s.onEng f).sys = s.sys := rfl
@[simp] theorem State.onEng_pit (f : Eng → Eng) : (s.onEng f).pit = s.pit := rfl
@[simp] theorem State.onEng_host (f : Eng → Eng) : (s.onEng f).host = s.host := rfl
@[simp] theorem State.onEng_flt (f : Eng → Eng) : (s.onEng f).flt = s.flt := rfl
@[simp] theorem State.onEng_eng (f : Eng → Eng) : (s.onEng f).eng = f s.eng := rfl
@[simp] theorem State.onEng_dom (f : Eng → Eng) : (s.onEng f).dom = s.dom := rfl
@[simp] theorem State.onEng_ports (f : Eng → Eng) : (s.onEng f).ports = s.ports := rfl
@[simp] theorem State.onEng_tool (f : Eng → Eng) : (s.onEng f).tool = s.tool := rfl
@[simp] theorem State.onEng_fab (f : Eng → Eng) : (s.onEng f).fab = s.fab := rfl
@[simp] theorem State.onEng_tabs (f : Eng → Eng) : (s.onEng f).tabs = s.tabs := rfl
@[simp] theorem State.onEng_home (f : Eng → Eng) : (s.onEng f).home = s.home := rfl
@[simp] theorem State.onEng_bel (f : Eng → Eng) : (s.onEng f).bel = s.bel := rfl
@[simp] theorem State.onEng_rec_ (f : Eng → Eng) : (s.onEng f).rec_ = s.rec_ := rfl
@[simp] theorem State.onEng_img (f : Eng → Eng) : (s.onEng f).img = s.img := rfl

/-! ### onDom -/

@[simp] theorem State.onDom_pending (f : Dom → Dom) : (s.onDom f).pending = s.pending := rfl
@[simp] theorem State.onDom_free (f : Dom → Dom) : (s.onDom f).free = s.free := rfl
@[simp] theorem State.onDom_out (f : Dom → Dom) : (s.onDom f).out = s.out := rfl
@[simp] theorem State.onDom_regs (f : Dom → Dom) : (s.onDom f).regs = s.regs := rfl
@[simp] theorem State.onDom_sys (f : Dom → Dom) : (s.onDom f).sys = s.sys := rfl
@[simp] theorem State.onDom_pit (f : Dom → Dom) : (s.onDom f).pit = s.pit := rfl
@[simp] theorem State.onDom_host (f : Dom → Dom) : (s.onDom f).host = s.host := rfl
@[simp] theorem State.onDom_flt (f : Dom → Dom) : (s.onDom f).flt = s.flt := rfl
@[simp] theorem State.onDom_eng (f : Dom → Dom) : (s.onDom f).eng = s.eng := rfl
@[simp] theorem State.onDom_dom (f : Dom → Dom) : (s.onDom f).dom = f s.dom := rfl
@[simp] theorem State.onDom_ports (f : Dom → Dom) : (s.onDom f).ports = s.ports := rfl
@[simp] theorem State.onDom_tool (f : Dom → Dom) : (s.onDom f).tool = s.tool := rfl
@[simp] theorem State.onDom_fab (f : Dom → Dom) : (s.onDom f).fab = s.fab := rfl
@[simp] theorem State.onDom_tabs (f : Dom → Dom) : (s.onDom f).tabs = s.tabs := rfl
@[simp] theorem State.onDom_home (f : Dom → Dom) : (s.onDom f).home = s.home := rfl
@[simp] theorem State.onDom_bel (f : Dom → Dom) : (s.onDom f).bel = s.bel := rfl
@[simp] theorem State.onDom_rec_ (f : Dom → Dom) : (s.onDom f).rec_ = s.rec_ := rfl
@[simp] theorem State.onDom_img (f : Dom → Dom) : (s.onDom f).img = s.img := rfl

/-! ### onTool -/

@[simp] theorem State.onTool_pending (f : Tool → Tool) : (s.onTool f).pending = s.pending := rfl
@[simp] theorem State.onTool_free (f : Tool → Tool) : (s.onTool f).free = s.free := rfl
@[simp] theorem State.onTool_out (f : Tool → Tool) : (s.onTool f).out = s.out := rfl
@[simp] theorem State.onTool_regs (f : Tool → Tool) : (s.onTool f).regs = s.regs := rfl
@[simp] theorem State.onTool_sys (f : Tool → Tool) : (s.onTool f).sys = s.sys := rfl
@[simp] theorem State.onTool_pit (f : Tool → Tool) : (s.onTool f).pit = s.pit := rfl
@[simp] theorem State.onTool_host (f : Tool → Tool) : (s.onTool f).host = s.host := rfl
@[simp] theorem State.onTool_flt (f : Tool → Tool) : (s.onTool f).flt = s.flt := rfl
@[simp] theorem State.onTool_eng (f : Tool → Tool) : (s.onTool f).eng = s.eng := rfl
@[simp] theorem State.onTool_dom (f : Tool → Tool) : (s.onTool f).dom = s.dom := rfl
@[simp] theorem State.onTool_ports (f : Tool → Tool) : (s.onTool f).ports = s.ports := rfl
@[simp] theorem State.onTool_tool (f : Tool → Tool) : (s.onTool f).tool = f s.tool := rfl
@[simp] theorem State.onTool_fab (f : Tool → Tool) : (s.onTool f).fab = s.fab := rfl
@[simp] theorem State.onTool_tabs (f : Tool → Tool) : (s.onTool f).tabs = s.tabs := rfl
@[simp] theorem State.onTool_home (f : Tool → Tool) : (s.onTool f).home = s.home := rfl
@[simp] theorem State.onTool_bel (f : Tool → Tool) : (s.onTool f).bel = s.bel := rfl
@[simp] theorem State.onTool_rec_ (f : Tool → Tool) : (s.onTool f).rec_ = s.rec_ := rfl
@[simp] theorem State.onTool_img (f : Tool → Tool) : (s.onTool f).img = s.img := rfl

/-! ### onFab -/

@[simp] theorem State.onFab_pending (f : Fab → Fab) : (s.onFab f).pending = s.pending := rfl
@[simp] theorem State.onFab_free (f : Fab → Fab) : (s.onFab f).free = s.free := rfl
@[simp] theorem State.onFab_out (f : Fab → Fab) : (s.onFab f).out = s.out := rfl
@[simp] theorem State.onFab_regs (f : Fab → Fab) : (s.onFab f).regs = s.regs := rfl
@[simp] theorem State.onFab_sys (f : Fab → Fab) : (s.onFab f).sys = s.sys := rfl
@[simp] theorem State.onFab_pit (f : Fab → Fab) : (s.onFab f).pit = s.pit := rfl
@[simp] theorem State.onFab_host (f : Fab → Fab) : (s.onFab f).host = s.host := rfl
@[simp] theorem State.onFab_flt (f : Fab → Fab) : (s.onFab f).flt = s.flt := rfl
@[simp] theorem State.onFab_eng (f : Fab → Fab) : (s.onFab f).eng = s.eng := rfl
@[simp] theorem State.onFab_dom (f : Fab → Fab) : (s.onFab f).dom = s.dom := rfl
@[simp] theorem State.onFab_ports (f : Fab → Fab) : (s.onFab f).ports = s.ports := rfl
@[simp] theorem State.onFab_tool (f : Fab → Fab) : (s.onFab f).tool = s.tool := rfl
@[simp] theorem State.onFab_fab (f : Fab → Fab) : (s.onFab f).fab = f s.fab := rfl
@[simp] theorem State.onFab_tabs (f : Fab → Fab) : (s.onFab f).tabs = s.tabs := rfl
@[simp] theorem State.onFab_home (f : Fab → Fab) : (s.onFab f).home = s.home := rfl
@[simp] theorem State.onFab_bel (f : Fab → Fab) : (s.onFab f).bel = s.bel := rfl
@[simp] theorem State.onFab_rec_ (f : Fab → Fab) : (s.onFab f).rec_ = s.rec_ := rfl
@[simp] theorem State.onFab_img (f : Fab → Fab) : (s.onFab f).img = s.img := rfl

/-! ### onTabs -/

@[simp] theorem State.onTabs_pending (f : Tabs → Tabs) : (s.onTabs f).pending = s.pending := rfl
@[simp] theorem State.onTabs_free (f : Tabs → Tabs) : (s.onTabs f).free = s.free := rfl
@[simp] theorem State.onTabs_out (f : Tabs → Tabs) : (s.onTabs f).out = s.out := rfl
@[simp] theorem State.onTabs_regs (f : Tabs → Tabs) : (s.onTabs f).regs = s.regs := rfl
@[simp] theorem State.onTabs_sys (f : Tabs → Tabs) : (s.onTabs f).sys = s.sys := rfl
@[simp] theorem State.onTabs_pit (f : Tabs → Tabs) : (s.onTabs f).pit = s.pit := rfl
@[simp] theorem State.onTabs_host (f : Tabs → Tabs) : (s.onTabs f).host = s.host := rfl
@[simp] theorem State.onTabs_flt (f : Tabs → Tabs) : (s.onTabs f).flt = s.flt := rfl
@[simp] theorem State.onTabs_eng (f : Tabs → Tabs) : (s.onTabs f).eng = s.eng := rfl
@[simp] theorem State.onTabs_dom (f : Tabs → Tabs) : (s.onTabs f).dom = s.dom := rfl
@[simp] theorem State.onTabs_ports (f : Tabs → Tabs) : (s.onTabs f).ports = s.ports := rfl
@[simp] theorem State.onTabs_tool (f : Tabs → Tabs) : (s.onTabs f).tool = s.tool := rfl
@[simp] theorem State.onTabs_fab (f : Tabs → Tabs) : (s.onTabs f).fab = s.fab := rfl
@[simp] theorem State.onTabs_tabs (f : Tabs → Tabs) : (s.onTabs f).tabs = f s.tabs := rfl
@[simp] theorem State.onTabs_home (f : Tabs → Tabs) : (s.onTabs f).home = s.home := rfl
@[simp] theorem State.onTabs_bel (f : Tabs → Tabs) : (s.onTabs f).bel = s.bel := rfl
@[simp] theorem State.onTabs_rec_ (f : Tabs → Tabs) : (s.onTabs f).rec_ = s.rec_ := rfl
@[simp] theorem State.onTabs_img (f : Tabs → Tabs) : (s.onTabs f).img = s.img := rfl

/-! ### onHome -/

@[simp] theorem State.onHome_pending (f : Home → Home) : (s.onHome f).pending = s.pending := rfl
@[simp] theorem State.onHome_free (f : Home → Home) : (s.onHome f).free = s.free := rfl
@[simp] theorem State.onHome_out (f : Home → Home) : (s.onHome f).out = s.out := rfl
@[simp] theorem State.onHome_regs (f : Home → Home) : (s.onHome f).regs = s.regs := rfl
@[simp] theorem State.onHome_sys (f : Home → Home) : (s.onHome f).sys = s.sys := rfl
@[simp] theorem State.onHome_pit (f : Home → Home) : (s.onHome f).pit = s.pit := rfl
@[simp] theorem State.onHome_host (f : Home → Home) : (s.onHome f).host = s.host := rfl
@[simp] theorem State.onHome_flt (f : Home → Home) : (s.onHome f).flt = s.flt := rfl
@[simp] theorem State.onHome_eng (f : Home → Home) : (s.onHome f).eng = s.eng := rfl
@[simp] theorem State.onHome_dom (f : Home → Home) : (s.onHome f).dom = s.dom := rfl
@[simp] theorem State.onHome_ports (f : Home → Home) : (s.onHome f).ports = s.ports := rfl
@[simp] theorem State.onHome_tool (f : Home → Home) : (s.onHome f).tool = s.tool := rfl
@[simp] theorem State.onHome_fab (f : Home → Home) : (s.onHome f).fab = s.fab := rfl
@[simp] theorem State.onHome_tabs (f : Home → Home) : (s.onHome f).tabs = s.tabs := rfl
@[simp] theorem State.onHome_home (f : Home → Home) : (s.onHome f).home = f s.home := rfl
@[simp] theorem State.onHome_bel (f : Home → Home) : (s.onHome f).bel = s.bel := rfl
@[simp] theorem State.onHome_rec_ (f : Home → Home) : (s.onHome f).rec_ = s.rec_ := rfl
@[simp] theorem State.onHome_img (f : Home → Home) : (s.onHome f).img = s.img := rfl

/-! ### onBel -/

@[simp] theorem State.onBel_pending (f : Bel → Bel) : (s.onBel f).pending = s.pending := rfl
@[simp] theorem State.onBel_free (f : Bel → Bel) : (s.onBel f).free = s.free := rfl
@[simp] theorem State.onBel_out (f : Bel → Bel) : (s.onBel f).out = s.out := rfl
@[simp] theorem State.onBel_regs (f : Bel → Bel) : (s.onBel f).regs = s.regs := rfl
@[simp] theorem State.onBel_sys (f : Bel → Bel) : (s.onBel f).sys = s.sys := rfl
@[simp] theorem State.onBel_pit (f : Bel → Bel) : (s.onBel f).pit = s.pit := rfl
@[simp] theorem State.onBel_host (f : Bel → Bel) : (s.onBel f).host = s.host := rfl
@[simp] theorem State.onBel_flt (f : Bel → Bel) : (s.onBel f).flt = s.flt := rfl
@[simp] theorem State.onBel_eng (f : Bel → Bel) : (s.onBel f).eng = s.eng := rfl
@[simp] theorem State.onBel_dom (f : Bel → Bel) : (s.onBel f).dom = s.dom := rfl
@[simp] theorem State.onBel_ports (f : Bel → Bel) : (s.onBel f).ports = s.ports := rfl
@[simp] theorem State.onBel_tool (f : Bel → Bel) : (s.onBel f).tool = s.tool := rfl
@[simp] theorem State.onBel_fab (f : Bel → Bel) : (s.onBel f).fab = s.fab := rfl
@[simp] theorem State.onBel_tabs (f : Bel → Bel) : (s.onBel f).tabs = s.tabs := rfl
@[simp] theorem State.onBel_home (f : Bel → Bel) : (s.onBel f).home = s.home := rfl
@[simp] theorem State.onBel_bel (f : Bel → Bel) : (s.onBel f).bel = f s.bel := rfl
@[simp] theorem State.onBel_rec_ (f : Bel → Bel) : (s.onBel f).rec_ = s.rec_ := rfl
@[simp] theorem State.onBel_img (f : Bel → Bel) : (s.onBel f).img = s.img := rfl

/-! ### onRec -/

@[simp] theorem State.onRec_pending (f : Rec → Rec) : (s.onRec f).pending = s.pending := rfl
@[simp] theorem State.onRec_free (f : Rec → Rec) : (s.onRec f).free = s.free := rfl
@[simp] theorem State.onRec_out (f : Rec → Rec) : (s.onRec f).out = s.out := rfl
@[simp] theorem State.onRec_regs (f : Rec → Rec) : (s.onRec f).regs = s.regs := rfl
@[simp] theorem State.onRec_sys (f : Rec → Rec) : (s.onRec f).sys = s.sys := rfl
@[simp] theorem State.onRec_pit (f : Rec → Rec) : (s.onRec f).pit = s.pit := rfl
@[simp] theorem State.onRec_host (f : Rec → Rec) : (s.onRec f).host = s.host := rfl
@[simp] theorem State.onRec_flt (f : Rec → Rec) : (s.onRec f).flt = s.flt := rfl
@[simp] theorem State.onRec_eng (f : Rec → Rec) : (s.onRec f).eng = s.eng := rfl
@[simp] theorem State.onRec_dom (f : Rec → Rec) : (s.onRec f).dom = s.dom := rfl
@[simp] theorem State.onRec_ports (f : Rec → Rec) : (s.onRec f).ports = s.ports := rfl
@[simp] theorem State.onRec_tool (f : Rec → Rec) : (s.onRec f).tool = s.tool := rfl
@[simp] theorem State.onRec_fab (f : Rec → Rec) : (s.onRec f).fab = s.fab := rfl
@[simp] theorem State.onRec_tabs (f : Rec → Rec) : (s.onRec f).tabs = s.tabs := rfl
@[simp] theorem State.onRec_home (f : Rec → Rec) : (s.onRec f).home = s.home := rfl
@[simp] theorem State.onRec_bel (f : Rec → Rec) : (s.onRec f).bel = s.bel := rfl
@[simp] theorem State.onRec_rec_ (f : Rec → Rec) : (s.onRec f).rec_ = f s.rec_ := rfl
@[simp] theorem State.onRec_img (f : Rec → Rec) : (s.onRec f).img = s.img := rfl

/-! ### onImg -/

@[simp] theorem State.onImg_pending (f : Img → Img) : (s.onImg f).pending = s.pending := rfl
@[simp] theorem State.onImg_free (f : Img → Img) : (s.onImg f).free = s.free := rfl
@[simp] theorem State.onImg_out (f : Img → Img) : (s.onImg f).out = s.out := rfl
@[simp] theorem State.onImg_regs (f : Img → Img) : (s.onImg f).regs = s.regs := rfl
@[simp] theorem State.onImg_sys (f : Img → Img) : (s.onImg f).sys = s.sys := rfl
@[simp] theorem State.onImg_pit (f : Img → Img) : (s.onImg f).pit = s.pit := rfl
@[simp] theorem State.onImg_host (f : Img → Img) : (s.onImg f).host = s.host := rfl
@[simp] theorem State.onImg_flt (f : Img → Img) : (s.onImg f).flt = s.flt := rfl
@[simp] theorem State.onImg_eng (f : Img → Img) : (s.onImg f).eng = s.eng := rfl
@[simp] theorem State.onImg_dom (f : Img → Img) : (s.onImg f).dom = s.dom := rfl
@[simp] theorem State.onImg_ports (f : Img → Img) : (s.onImg f).ports = s.ports := rfl
@[simp] theorem State.onImg_tool (f : Img → Img) : (s.onImg f).tool = s.tool := rfl
@[simp] theorem State.onImg_fab (f : Img → Img) : (s.onImg f).fab = s.fab := rfl
@[simp] theorem State.onImg_tabs (f : Img → Img) : (s.onImg f).tabs = s.tabs := rfl
@[simp] theorem State.onImg_home (f : Img → Img) : (s.onImg f).home = s.home := rfl
@[simp] theorem State.onImg_bel (f : Img → Img) : (s.onImg f).bel = s.bel := rfl
@[simp] theorem State.onImg_rec_ (f : Img → Img) : (s.onImg f).rec_ = s.rec_ := rfl
@[simp] theorem State.onImg_img (f : Img → Img) : (s.onImg f).img = f s.img := rfl

/-! ### emit -/

@[simp] theorem State.emit_pending (o : Out) : (s.emit o).pending = s.pending := rfl
@[simp] theorem State.emit_free (o : Out) : (s.emit o).free = s.free := rfl
@[simp] theorem State.emit_out (o : Out) : (s.emit o).out = o :: s.out := rfl
@[simp] theorem State.emit_regs (o : Out) : (s.emit o).regs = s.regs := rfl
@[simp] theorem State.emit_sys (o : Out) : (s.emit o).sys = s.sys := rfl
@[simp] theorem State.emit_pit (o : Out) : (s.emit o).pit = s.pit := rfl
@[simp] theorem State.emit_host (o : Out) : (s.emit o).host = s.host := rfl
@[simp] theorem State.emit_flt (o : Out) : (s.emit o).flt = s.flt := rfl
@[simp] theorem State.emit_eng (o : Out) : (s.emit o).eng = s.eng := rfl
@[simp] theorem State.emit_dom (o : Out) : (s.emit o).dom = s.dom := rfl
@[simp] theorem State.emit_ports (o : Out) : (s.emit o).ports = s.ports := rfl
@[simp] theorem State.emit_tool (o : Out) : (s.emit o).tool = s.tool := rfl
@[simp] theorem State.emit_fab (o : Out) : (s.emit o).fab = s.fab := rfl
@[simp] theorem State.emit_tabs (o : Out) : (s.emit o).tabs = s.tabs := rfl
@[simp] theorem State.emit_home (o : Out) : (s.emit o).home = s.home := rfl
@[simp] theorem State.emit_bel (o : Out) : (s.emit o).bel = s.bel := rfl
@[simp] theorem State.emit_rec_ (o : Out) : (s.emit o).rec_ = s.rec_ := rfl
@[simp] theorem State.emit_img (o : Out) : (s.emit o).img = s.img := rfl

/-! ### onPorts -/

@[simp] theorem State.onPorts_pending (f : Vector Port 64 → Vector Port 64) : (s.onPorts f).pending = s.pending := rfl
@[simp] theorem State.onPorts_free (f : Vector Port 64 → Vector Port 64) : (s.onPorts f).free = s.free := rfl
@[simp] theorem State.onPorts_out (f : Vector Port 64 → Vector Port 64) : (s.onPorts f).out = s.out := rfl
@[simp] theorem State.onPorts_regs (f : Vector Port 64 → Vector Port 64) : (s.onPorts f).regs = s.regs := rfl
@[simp] theorem State.onPorts_sys (f : Vector Port 64 → Vector Port 64) : (s.onPorts f).sys = s.sys := rfl
@[simp] theorem State.onPorts_pit (f : Vector Port 64 → Vector Port 64) : (s.onPorts f).pit = s.pit := rfl
@[simp] theorem State.onPorts_host (f : Vector Port 64 → Vector Port 64) : (s.onPorts f).host = s.host := rfl
@[simp] theorem State.onPorts_flt (f : Vector Port 64 → Vector Port 64) : (s.onPorts f).flt = s.flt := rfl
@[simp] theorem State.onPorts_eng (f : Vector Port 64 → Vector Port 64) : (s.onPorts f).eng = s.eng := rfl
@[simp] theorem State.onPorts_dom (f : Vector Port 64 → Vector Port 64) : (s.onPorts f).dom = s.dom := rfl
@[simp] theorem State.onPorts_ports (f : Vector Port 64 → Vector Port 64) : (s.onPorts f).ports = f s.ports := rfl
@[simp] theorem State.onPorts_tool (f : Vector Port 64 → Vector Port 64) : (s.onPorts f).tool = s.tool := rfl
@[simp] theorem State.onPorts_fab (f : Vector Port 64 → Vector Port 64) : (s.onPorts f).fab = s.fab := rfl
@[simp] theorem State.onPorts_tabs (f : Vector Port 64 → Vector Port 64) : (s.onPorts f).tabs = s.tabs := rfl
@[simp] theorem State.onPorts_home (f : Vector Port 64 → Vector Port 64) : (s.onPorts f).home = s.home := rfl
@[simp] theorem State.onPorts_bel (f : Vector Port 64 → Vector Port 64) : (s.onPorts f).bel = s.bel := rfl
@[simp] theorem State.onPorts_rec_ (f : Vector Port 64 → Vector Port 64) : (s.onPorts f).rec_ = s.rec_ := rfl
@[simp] theorem State.onPorts_img (f : Vector Port 64 → Vector Port 64) : (s.onPorts f).img = s.img := rfl

/-! ### takeFree -/

@[simp] theorem State.takeFree_pending (n : Nat) : (s.takeFree n).pending = s.pending := rfl
@[simp] theorem State.takeFree_free (n : Nat) : (s.takeFree n).free = s.free + n := rfl
@[simp] theorem State.takeFree_out (n : Nat) : (s.takeFree n).out = s.out := rfl
@[simp] theorem State.takeFree_regs (n : Nat) : (s.takeFree n).regs = s.regs := rfl
@[simp] theorem State.takeFree_sys (n : Nat) : (s.takeFree n).sys = s.sys := rfl
@[simp] theorem State.takeFree_pit (n : Nat) : (s.takeFree n).pit = s.pit := rfl
@[simp] theorem State.takeFree_host (n : Nat) : (s.takeFree n).host = s.host := rfl
@[simp] theorem State.takeFree_flt (n : Nat) : (s.takeFree n).flt = s.flt := rfl
@[simp] theorem State.takeFree_eng (n : Nat) : (s.takeFree n).eng = s.eng := rfl
@[simp] theorem State.takeFree_dom (n : Nat) : (s.takeFree n).dom = s.dom := rfl
@[simp] theorem State.takeFree_ports (n : Nat) : (s.takeFree n).ports = s.ports := rfl
@[simp] theorem State.takeFree_tool (n : Nat) : (s.takeFree n).tool = s.tool := rfl
@[simp] theorem State.takeFree_fab (n : Nat) : (s.takeFree n).fab = s.fab := rfl
@[simp] theorem State.takeFree_tabs (n : Nat) : (s.takeFree n).tabs = s.tabs := rfl
@[simp] theorem State.takeFree_home (n : Nat) : (s.takeFree n).home = s.home := rfl
@[simp] theorem State.takeFree_bel (n : Nat) : (s.takeFree n).bel = s.bel := rfl
@[simp] theorem State.takeFree_rec_ (n : Nat) : (s.takeFree n).rec_ = s.rec_ := rfl
@[simp] theorem State.takeFree_img (n : Nat) : (s.takeFree n).img = s.img := rfl

/-! ### nextFree -/

@[simp] theorem State.nextFree_pending : (s.nextFree).pending = s.pending := rfl
@[simp] theorem State.nextFree_free : (s.nextFree).free = s.free + 1 := rfl
@[simp] theorem State.nextFree_out : (s.nextFree).out = s.out := rfl
@[simp] theorem State.nextFree_regs : (s.nextFree).regs = s.regs := rfl
@[simp] theorem State.nextFree_sys : (s.nextFree).sys = s.sys := rfl
@[simp] theorem State.nextFree_pit : (s.nextFree).pit = s.pit := rfl
@[simp] theorem State.nextFree_host : (s.nextFree).host = s.host := rfl
@[simp] theorem State.nextFree_flt : (s.nextFree).flt = s.flt := rfl
@[simp] theorem State.nextFree_eng : (s.nextFree).eng = s.eng := rfl
@[simp] theorem State.nextFree_dom : (s.nextFree).dom = s.dom := rfl
@[simp] theorem State.nextFree_ports : (s.nextFree).ports = s.ports := rfl
@[simp] theorem State.nextFree_tool : (s.nextFree).tool = s.tool := rfl
@[simp] theorem State.nextFree_fab : (s.nextFree).fab = s.fab := rfl
@[simp] theorem State.nextFree_tabs : (s.nextFree).tabs = s.tabs := rfl
@[simp] theorem State.nextFree_home : (s.nextFree).home = s.home := rfl
@[simp] theorem State.nextFree_bel : (s.nextFree).bel = s.bel := rfl
@[simp] theorem State.nextFree_rec_ : (s.nextFree).rec_ = s.rec_ := rfl
@[simp] theorem State.nextFree_img : (s.nextFree).img = s.img := rfl

/-! ### setReg -/

@[simp] theorem State.setReg_pending (off : Nat) (w : Word) : (s.setReg off w).pending = s.pending := rfl
@[simp] theorem State.setReg_free (off : Nat) (w : Word) : (s.setReg off w).free = s.free := rfl
@[simp] theorem State.setReg_out (off : Nat) (w : Word) : (s.setReg off w).out = s.out := rfl
@[simp] theorem State.setReg_regs (off : Nat) (w : Word) : (s.setReg off w).regs = Tab.set regDefault s.regs off w := rfl
@[simp] theorem State.setReg_sys (off : Nat) (w : Word) : (s.setReg off w).sys = s.sys := rfl
@[simp] theorem State.setReg_pit (off : Nat) (w : Word) : (s.setReg off w).pit = s.pit := rfl
@[simp] theorem State.setReg_host (off : Nat) (w : Word) : (s.setReg off w).host = s.host := rfl
@[simp] theorem State.setReg_flt (off : Nat) (w : Word) : (s.setReg off w).flt = s.flt := rfl
@[simp] theorem State.setReg_eng (off : Nat) (w : Word) : (s.setReg off w).eng = s.eng := rfl
@[simp] theorem State.setReg_dom (off : Nat) (w : Word) : (s.setReg off w).dom = s.dom := rfl
@[simp] theorem State.setReg_ports (off : Nat) (w : Word) : (s.setReg off w).ports = s.ports := rfl
@[simp] theorem State.setReg_tool (off : Nat) (w : Word) : (s.setReg off w).tool = s.tool := rfl
@[simp] theorem State.setReg_fab (off : Nat) (w : Word) : (s.setReg off w).fab = s.fab := rfl
@[simp] theorem State.setReg_tabs (off : Nat) (w : Word) : (s.setReg off w).tabs = s.tabs := rfl
@[simp] theorem State.setReg_home (off : Nat) (w : Word) : (s.setReg off w).home = s.home := rfl
@[simp] theorem State.setReg_bel (off : Nat) (w : Word) : (s.setReg off w).bel = s.bel := rfl
@[simp] theorem State.setReg_rec_ (off : Nat) (w : Word) : (s.setReg off w).rec_ = s.rec_ := rfl
@[simp] theorem State.setReg_img (off : Nat) (w : Word) : (s.setReg off w).img = s.img := rfl

/-! ### wr -/

@[simp] theorem State.wr_pending (f : FRef) (i v : Nat) : (s.wr f i v).pending = s.pending := rfl
@[simp] theorem State.wr_free (f : FRef) (i v : Nat) : (s.wr f i v).free = s.free := rfl
@[simp] theorem State.wr_out (f : FRef) (i v : Nat) : (s.wr f i v).out = s.out := rfl
@[simp] theorem State.wr_regs (f : FRef) (i v : Nat) : (s.wr f i v).regs = Tab.set regDefault s.regs (f.off i) (setBits (s.reg (f.off i)) f.lo f.width v) := rfl
@[simp] theorem State.wr_sys (f : FRef) (i v : Nat) : (s.wr f i v).sys = s.sys := rfl
@[simp] theorem State.wr_pit (f : FRef) (i v : Nat) : (s.wr f i v).pit = s.pit := rfl
@[simp] theorem State.wr_host (f : FRef) (i v : Nat) : (s.wr f i v).host = s.host := rfl
@[simp] theorem State.wr_flt (f : FRef) (i v : Nat) : (s.wr f i v).flt = s.flt := rfl
@[simp] theorem State.wr_eng (f : FRef) (i v : Nat) : (s.wr f i v).eng = s.eng := rfl
@[simp] theorem State.wr_dom (f : FRef) (i v : Nat) : (s.wr f i v).dom = s.dom := rfl
@[simp] theorem State.wr_ports (f : FRef) (i v : Nat) : (s.wr f i v).ports = s.ports := rfl
@[simp] theorem State.wr_tool (f : FRef) (i v : Nat) : (s.wr f i v).tool = s.tool := rfl
@[simp] theorem State.wr_fab (f : FRef) (i v : Nat) : (s.wr f i v).fab = s.fab := rfl
@[simp] theorem State.wr_tabs (f : FRef) (i v : Nat) : (s.wr f i v).tabs = s.tabs := rfl
@[simp] theorem State.wr_home (f : FRef) (i v : Nat) : (s.wr f i v).home = s.home := rfl
@[simp] theorem State.wr_bel (f : FRef) (i v : Nat) : (s.wr f i v).bel = s.bel := rfl
@[simp] theorem State.wr_rec_ (f : FRef) (i v : Nat) : (s.wr f i v).rec_ = s.rec_ := rfl
@[simp] theorem State.wr_img (f : FRef) (i v : Nat) : (s.wr f i v).img = s.img := rfl

@[simp] theorem State.bump_pending (f : FRef) (i n : Nat) : (s.bump f i n).pending = s.pending := rfl
@[simp] theorem State.bump_free (f : FRef) (i n : Nat) : (s.bump f i n).free = s.free := rfl
@[simp] theorem State.bump_out (f : FRef) (i n : Nat) : (s.bump f i n).out = s.out := rfl
@[simp] theorem State.bump_sys (f : FRef) (i n : Nat) : (s.bump f i n).sys = s.sys := rfl
@[simp] theorem State.bump_pit (f : FRef) (i n : Nat) : (s.bump f i n).pit = s.pit := rfl
@[simp] theorem State.bump_host (f : FRef) (i n : Nat) : (s.bump f i n).host = s.host := rfl
@[simp] theorem State.bump_flt (f : FRef) (i n : Nat) : (s.bump f i n).flt = s.flt := rfl
@[simp] theorem State.bump_eng (f : FRef) (i n : Nat) : (s.bump f i n).eng = s.eng := rfl
@[simp] theorem State.bump_dom (f : FRef) (i n : Nat) : (s.bump f i n).dom = s.dom := rfl
@[simp] theorem State.bump_ports (f : FRef) (i n : Nat) : (s.bump f i n).ports = s.ports := rfl
@[simp] theorem State.bump_tool (f : FRef) (i n : Nat) : (s.bump f i n).tool = s.tool := rfl
@[simp] theorem State.bump_fab (f : FRef) (i n : Nat) : (s.bump f i n).fab = s.fab := rfl
@[simp] theorem State.bump_tabs (f : FRef) (i n : Nat) : (s.bump f i n).tabs = s.tabs := rfl
@[simp] theorem State.bump_home (f : FRef) (i n : Nat) : (s.bump f i n).home = s.home := rfl
@[simp] theorem State.bump_bel (f : FRef) (i n : Nat) : (s.bump f i n).bel = s.bel := rfl
@[simp] theorem State.bump_rec_ (f : FRef) (i n : Nat) : (s.bump f i n).rec_ = s.rec_ := rfl
@[simp] theorem State.bump_img (f : FRef) (i n : Nat) : (s.bump f i n).img = s.img := rfl

@[simp] theorem State.onPort_pending (p : PortId) (f : Port → Port) : (s.onPort p f).pending = s.pending := rfl
@[simp] theorem State.onPort_free (p : PortId) (f : Port → Port) : (s.onPort p f).free = s.free := rfl
@[simp] theorem State.onPort_out (p : PortId) (f : Port → Port) : (s.onPort p f).out = s.out := rfl
@[simp] theorem State.onPort_regs (p : PortId) (f : Port → Port) : (s.onPort p f).regs = s.regs := rfl
@[simp] theorem State.onPort_sys (p : PortId) (f : Port → Port) : (s.onPort p f).sys = s.sys := rfl
@[simp] theorem State.onPort_pit (p : PortId) (f : Port → Port) : (s.onPort p f).pit = s.pit := rfl
@[simp] theorem State.onPort_host (p : PortId) (f : Port → Port) : (s.onPort p f).host = s.host := rfl
@[simp] theorem State.onPort_flt (p : PortId) (f : Port → Port) : (s.onPort p f).flt = s.flt := rfl
@[simp] theorem State.onPort_eng (p : PortId) (f : Port → Port) : (s.onPort p f).eng = s.eng := rfl
@[simp] theorem State.onPort_dom (p : PortId) (f : Port → Port) : (s.onPort p f).dom = s.dom := rfl
@[simp] theorem State.onPort_ports (p : PortId) (f : Port → Port) : (s.onPort p f).ports = s.ports.set p.val (f (s.port p)) := rfl
@[simp] theorem State.onPort_tool (p : PortId) (f : Port → Port) : (s.onPort p f).tool = s.tool := rfl
@[simp] theorem State.onPort_fab (p : PortId) (f : Port → Port) : (s.onPort p f).fab = s.fab := rfl
@[simp] theorem State.onPort_tabs (p : PortId) (f : Port → Port) : (s.onPort p f).tabs = s.tabs := rfl
@[simp] theorem State.onPort_home (p : PortId) (f : Port → Port) : (s.onPort p f).home = s.home := rfl
@[simp] theorem State.onPort_bel (p : PortId) (f : Port → Port) : (s.onPort p f).bel = s.bel := rfl
@[simp] theorem State.onPort_rec_ (p : PortId) (f : Port → Port) : (s.onPort p f).rec_ = s.rec_ := rfl
@[simp] theorem State.onPort_img (p : PortId) (f : Port → Port) : (s.onPort p f).img = s.img := rfl

/-! ### Modifiers of one port, engine, slice, column -/

@[simp] theorem State.port_onPort_same (p : PortId) (f : Port → Port) : (s.onPort p f).port p = f (s.port p) := by
  simp [State.port]

theorem State.port_onPort_other {p q : PortId} (f : Port → Port) (h : q ≠ p) : (s.onPort p f).port q = s.port q := by
  have : p.val ≠ q.val := fun e => h (Fin.ext e.symm)
  simp [State.port, this]

@[simp] theorem State.engine_onEngine_same (e : EngineId) (f : Engine → Engine) : (s.onEngine e f).engine e = f (s.engine e) := by
  simp [State.engine, State.onEngine]

theorem State.engine_onEngine_other {e e' : EngineId} (f : Engine → Engine) (h : e' ≠ e) :
    (s.onEngine e f).engine e' = s.engine e' := by
  have : e.val ≠ e'.val := fun x => h (Fin.ext x.symm)
  simp [State.engine, State.onEngine, this]

@[simp] theorem State.slice_onSlice_same (x : SliceId) (f : Slice → Slice) : (s.onSlice x f).slice x = f (s.slice x) := by
  simp [State.slice, State.onSlice]

theorem State.slice_onSlice_other {x y : SliceId} (f : Slice → Slice) (h : y ≠ x) : (s.onSlice x f).slice y = s.slice y := by
  have : x.val ≠ y.val := fun e => h (Fin.ext e.symm)
  simp [State.slice, State.onSlice, this]

@[simp] theorem State.column_onColumn_same (m : Endpoint) (f : Column → Column) : (s.onColumn m f).column m = f (s.column m) := by
  simp [State.column, State.onColumn]

theorem State.column_onColumn_other {m k : Endpoint} (f : Column → Column) (h : k ≠ m) : (s.onColumn m f).column k = s.column k := by
  have : m.val ≠ k.val := fun e => h (Fin.ext e.symm)
  simp [State.column, State.onColumn, this]

@[simp] theorem State.onEngine_pending (e : EngineId) (f : Engine → Engine) : (s.onEngine e f).pending = s.pending := rfl
@[simp] theorem State.onEngine_free (e : EngineId) (f : Engine → Engine) : (s.onEngine e f).free = s.free := rfl
@[simp] theorem State.onEngine_out (e : EngineId) (f : Engine → Engine) : (s.onEngine e f).out = s.out := rfl
@[simp] theorem State.onEngine_regs (e : EngineId) (f : Engine → Engine) : (s.onEngine e f).regs = s.regs := rfl
@[simp] theorem State.onEngine_sys (e : EngineId) (f : Engine → Engine) : (s.onEngine e f).sys = s.sys := rfl
@[simp] theorem State.onEngine_pit (e : EngineId) (f : Engine → Engine) : (s.onEngine e f).pit = s.pit := rfl
@[simp] theorem State.onEngine_host (e : EngineId) (f : Engine → Engine) : (s.onEngine e f).host = s.host := rfl
@[simp] theorem State.onEngine_flt (e : EngineId) (f : Engine → Engine) : (s.onEngine e f).flt = s.flt := rfl
@[simp] theorem State.onEngine_dom (e : EngineId) (f : Engine → Engine) : (s.onEngine e f).dom = s.dom := rfl
@[simp] theorem State.onEngine_ports (e : EngineId) (f : Engine → Engine) : (s.onEngine e f).ports = s.ports := rfl
@[simp] theorem State.onEngine_tool (e : EngineId) (f : Engine → Engine) : (s.onEngine e f).tool = s.tool := rfl
@[simp] theorem State.onEngine_fab (e : EngineId) (f : Engine → Engine) : (s.onEngine e f).fab = s.fab := rfl
@[simp] theorem State.onEngine_tabs (e : EngineId) (f : Engine → Engine) : (s.onEngine e f).tabs = s.tabs := rfl
@[simp] theorem State.onEngine_home (e : EngineId) (f : Engine → Engine) : (s.onEngine e f).home = s.home := rfl
@[simp] theorem State.onEngine_bel (e : EngineId) (f : Engine → Engine) : (s.onEngine e f).bel = s.bel := rfl
@[simp] theorem State.onEngine_rec_ (e : EngineId) (f : Engine → Engine) : (s.onEngine e f).rec_ = s.rec_ := rfl
@[simp] theorem State.onEngine_img (e : EngineId) (f : Engine → Engine) : (s.onEngine e f).img = s.img := rfl

@[simp] theorem State.onSlice_pending (x : SliceId) (f : Slice → Slice) : (s.onSlice x f).pending = s.pending := rfl
@[simp] theorem State.onSlice_free (x : SliceId) (f : Slice → Slice) : (s.onSlice x f).free = s.free := rfl
@[simp] theorem State.onSlice_out (x : SliceId) (f : Slice → Slice) : (s.onSlice x f).out = s.out := rfl
@[simp] theorem State.onSlice_regs (x : SliceId) (f : Slice → Slice) : (s.onSlice x f).regs = s.regs := rfl
@[simp] theorem State.onSlice_sys (x : SliceId) (f : Slice → Slice) : (s.onSlice x f).sys = s.sys := rfl
@[simp] theorem State.onSlice_pit (x : SliceId) (f : Slice → Slice) : (s.onSlice x f).pit = s.pit := rfl
@[simp] theorem State.onSlice_host (x : SliceId) (f : Slice → Slice) : (s.onSlice x f).host = s.host := rfl
@[simp] theorem State.onSlice_flt (x : SliceId) (f : Slice → Slice) : (s.onSlice x f).flt = s.flt := rfl
@[simp] theorem State.onSlice_eng (x : SliceId) (f : Slice → Slice) : (s.onSlice x f).eng = s.eng := rfl
@[simp] theorem State.onSlice_dom (x : SliceId) (f : Slice → Slice) : (s.onSlice x f).dom = s.dom := rfl
@[simp] theorem State.onSlice_ports (x : SliceId) (f : Slice → Slice) : (s.onSlice x f).ports = s.ports := rfl
@[simp] theorem State.onSlice_tool (x : SliceId) (f : Slice → Slice) : (s.onSlice x f).tool = s.tool := rfl
@[simp] theorem State.onSlice_fab (x : SliceId) (f : Slice → Slice) : (s.onSlice x f).fab = s.fab := rfl
@[simp] theorem State.onSlice_tabs (x : SliceId) (f : Slice → Slice) : (s.onSlice x f).tabs = s.tabs := rfl
@[simp] theorem State.onSlice_bel (x : SliceId) (f : Slice → Slice) : (s.onSlice x f).bel = s.bel := rfl
@[simp] theorem State.onSlice_rec_ (x : SliceId) (f : Slice → Slice) : (s.onSlice x f).rec_ = s.rec_ := rfl
@[simp] theorem State.onSlice_img (x : SliceId) (f : Slice → Slice) : (s.onSlice x f).img = s.img := rfl

@[simp] theorem State.onColumn_pending (m : Endpoint) (f : Column → Column) : (s.onColumn m f).pending = s.pending := rfl
@[simp] theorem State.onColumn_free (m : Endpoint) (f : Column → Column) : (s.onColumn m f).free = s.free := rfl
@[simp] theorem State.onColumn_out (m : Endpoint) (f : Column → Column) : (s.onColumn m f).out = s.out := rfl
@[simp] theorem State.onColumn_regs (m : Endpoint) (f : Column → Column) : (s.onColumn m f).regs = s.regs := rfl
@[simp] theorem State.onColumn_sys (m : Endpoint) (f : Column → Column) : (s.onColumn m f).sys = s.sys := rfl
@[simp] theorem State.onColumn_pit (m : Endpoint) (f : Column → Column) : (s.onColumn m f).pit = s.pit := rfl
@[simp] theorem State.onColumn_host (m : Endpoint) (f : Column → Column) : (s.onColumn m f).host = s.host := rfl
@[simp] theorem State.onColumn_flt (m : Endpoint) (f : Column → Column) : (s.onColumn m f).flt = s.flt := rfl
@[simp] theorem State.onColumn_eng (m : Endpoint) (f : Column → Column) : (s.onColumn m f).eng = s.eng := rfl
@[simp] theorem State.onColumn_dom (m : Endpoint) (f : Column → Column) : (s.onColumn m f).dom = s.dom := rfl
@[simp] theorem State.onColumn_ports (m : Endpoint) (f : Column → Column) : (s.onColumn m f).ports = s.ports := rfl
@[simp] theorem State.onColumn_tool (m : Endpoint) (f : Column → Column) : (s.onColumn m f).tool = s.tool := rfl
@[simp] theorem State.onColumn_tabs (m : Endpoint) (f : Column → Column) : (s.onColumn m f).tabs = s.tabs := rfl
@[simp] theorem State.onColumn_home (m : Endpoint) (f : Column → Column) : (s.onColumn m f).home = s.home := rfl
@[simp] theorem State.onColumn_bel (m : Endpoint) (f : Column → Column) : (s.onColumn m f).bel = s.bel := rfl
@[simp] theorem State.onColumn_rec_ (m : Endpoint) (f : Column → Column) : (s.onColumn m f).rec_ = s.rec_ := rfl
@[simp] theorem State.onColumn_img (m : Endpoint) (f : Column → Column) : (s.onColumn m f).img = s.img := rfl

end Sys2Proof.Machine
end

