-- ==== Sys2Proof/Laws/Regs.lean ====
section
/-! SUPPORT. Reading a register field after a write: the field itself, another field of the register, another register. -/

namespace Sys2Proof.Machine

theorem getBits_lt (w : Word) (lo width : Nat) : getBits w lo width < 2 ^ width := Nat.mod_lt _ (Nat.two_pow_pos _)

/-- The three parts of a word around a field. -/
theorem setBits_parts (w : Word) (lo width v : Nat) (h : lo + width ≤ 64) :
    (setBits w lo width v).toNat = w.toNat % 2 ^ lo + v % 2 ^ width * 2 ^ lo + w.toNat / 2 ^ (lo + width) * 2 ^ (lo + width) := by
  unfold setBits
  rw [BitVec.toNat_ofNat, Nat.mod_eq_of_lt]
  have h1 : w.toNat % 2 ^ lo < 2 ^ lo := Nat.mod_lt _ (Nat.two_pow_pos _)
  have h2 : v % 2 ^ width < 2 ^ width := Nat.mod_lt _ (Nat.two_pow_pos _)
  have h3 : w.toNat % 2 ^ lo + v % 2 ^ width * 2 ^ lo < 2 ^ (lo + width) := by
    rw [Nat.pow_add]
    calc w.toNat % 2 ^ lo + v % 2 ^ width * 2 ^ lo < 2 ^ lo + v % 2 ^ width * 2 ^ lo := by omega
      _ = (v % 2 ^ width + 1) * 2 ^ lo := by rw [Nat.add_mul]; omega
      _ ≤ 2 ^ width * 2 ^ lo := Nat.mul_le_mul_right _ h2
      _ = 2 ^ lo * 2 ^ width := Nat.mul_comm _ _
  have h4 : w.toNat / 2 ^ (lo + width) < 2 ^ (64 - (lo + width)) := by
    rw [Nat.div_lt_iff_lt_mul (Nat.two_pow_pos _), ← Nat.pow_add]
    have : 64 - (lo + width) + (lo + width) = 64 := by omega
    rw [this]; exact w.isLt
  calc _ < 2 ^ (lo + width) + w.toNat / 2 ^ (lo + width) * 2 ^ (lo + width) := by omega
    _ = (w.toNat / 2 ^ (lo + width) + 1) * 2 ^ (lo + width) := by rw [Nat.add_mul]; omega
    _ ≤ 2 ^ (64 - (lo + width)) * 2 ^ (lo + width) := Nat.mul_le_mul_right _ h4
    _ = 2 ^ 64 := by rw [← Nat.pow_add]; congr 1; omega

theorem getBits_setBits_same (w : Word) (lo width v : Nat) (h : lo + width ≤ 64) :
    getBits (setBits w lo width v) lo width = v % 2 ^ width := by
  unfold getBits
  rw [setBits_parts w lo width v h]
  have h1 : w.toNat % 2 ^ lo < 2 ^ lo := Nat.mod_lt _ (Nat.two_pow_pos _)
  have e : w.toNat % 2 ^ lo + v % 2 ^ width * 2 ^ lo + w.toNat / 2 ^ (lo + width) * 2 ^ (lo + width)
      = w.toNat % 2 ^ lo + 2 ^ lo * (v % 2 ^ width + 2 ^ width * (w.toNat / 2 ^ (lo + width))) := by
    generalize w.toNat / 2 ^ (lo + width) = k
    rw [Nat.pow_add, Nat.mul_add]
    simp only [Nat.mul_comm, Nat.mul_left_comm, Nat.add_assoc]
  rw [e, Nat.add_mul_div_left _ _ (Nat.two_pow_pos _), Nat.div_eq_of_lt h1, Nat.zero_add, Nat.add_mul_mod_self_left,
    Nat.mod_mod]

theorem getBits_setBits_low (w : Word) (lo width v lo' width' : Nat) (h : lo + width ≤ 64) (hd : lo' + width' ≤ lo) :
    getBits (setBits w lo width v) lo' width' = getBits w lo' width' := by
  unfold getBits
  rw [setBits_parts w lo width v h]
  obtain ⟨k, rfl⟩ : ∃ k, lo = lo' + width' + k := ⟨lo - (lo' + width'), by omega⟩
  have key : ∀ n : Nat, n / 2 ^ lo' % 2 ^ width' = n % 2 ^ (lo' + width') / 2 ^ lo' := by
    intro n
    rw [Nat.pow_add, Nat.mod_mul_right_div_self]
  rw [key, key w.toNat]
  congr 1
  have e1 : v % 2 ^ width * 2 ^ (lo' + width' + k) = 2 ^ (lo' + width') * (v % 2 ^ width * 2 ^ k) := by
    rw [Nat.pow_add _ (lo' + width') k]; ac_rfl
  have e2 : ∀ m, m * 2 ^ (lo' + width' + k + width) = 2 ^ (lo' + width') * (m * (2 ^ k * 2 ^ width)) := by
    intro m; rw [Nat.pow_add _ (lo' + width' + k), Nat.pow_add _ (lo' + width') k]
    ac_rfl
  rw [e1, e2, Nat.add_mul_mod_self_left, Nat.add_mul_mod_self_left]
  rw [Nat.pow_add _ (lo' + width') k, Nat.mod_mul_right_mod]

theorem getBits_setBits_high (w : Word) (lo width v lo' width' : Nat) (h : lo + width ≤ 64) (hd : lo + width ≤ lo') :
    getBits (setBits w lo width v) lo' width' = getBits w lo' width' := by
  unfold getBits
  rw [setBits_parts w lo width v h]
  obtain ⟨k, rfl⟩ : ∃ k, lo' = lo + width + k := ⟨lo' - (lo + width), by omega⟩
  congr 1
  rw [Nat.pow_add _ (lo + width) k, ← Nat.div_div_eq_div_mul, ← Nat.div_div_eq_div_mul]
  congr 1
  have h1 : w.toNat % 2 ^ lo < 2 ^ lo := Nat.mod_lt _ (Nat.two_pow_pos _)
  have h2 : v % 2 ^ width < 2 ^ width := Nat.mod_lt _ (Nat.two_pow_pos _)
  have h3 : w.toNat % 2 ^ lo + v % 2 ^ width * 2 ^ lo < 2 ^ (lo + width) := by
    rw [Nat.pow_add]
    calc w.toNat % 2 ^ lo + v % 2 ^ width * 2 ^ lo < 2 ^ lo + v % 2 ^ width * 2 ^ lo := by omega
      _ = (v % 2 ^ width + 1) * 2 ^ lo := by rw [Nat.add_mul]; omega
      _ ≤ 2 ^ width * 2 ^ lo := Nat.mul_le_mul_right _ h2
      _ = 2 ^ lo * 2 ^ width := Nat.mul_comm _ _
  rw [Nat.add_mul_div_right _ _ (Nat.two_pow_pos _), Nat.div_eq_of_lt h3, Nat.zero_add]

/-- Fields of one register that share no bit. -/
theorem getBits_setBits_other (w : Word) (lo width v lo' width' : Nat) (h : lo + width ≤ 64)
    (hd : lo' + width' ≤ lo ∨ lo + width ≤ lo') : getBits (setBits w lo width v) lo' width' = getBits w lo' width' := by
  rcases hd with hd | hd
  · exact getBits_setBits_low w lo width v lo' width' h hd
  · exact getBits_setBits_high w lo width v lo' width' h hd

/-! ### Registers of the state -/

variable {s : State}

@[simp] theorem State.reg_setReg_same {off : Nat} {w : Word} : (s.setReg off w).reg off = w := Tab.get_set_same

theorem State.reg_setReg_other {off off' : Nat} {w : Word} (h : off' ≠ off) : (s.setReg off w).reg off' = s.reg off' :=
  Tab.get_set_other h

/-- A field reads back what was written to it. -/
theorem State.rd_wr_same {f : FRef} {i v : Nat} (hf : f.lo + f.width ≤ 64) : (s.wr f i v).rd f i = v % 2 ^ f.width := by
  unfold State.rd State.wr
  rw [State.reg_setReg_same, getBits_setBits_same _ _ _ _ hf]

/-- A write leaves the fields of every other register alone. -/
theorem State.rd_wr_other {f g : FRef} {i j v : Nat} (h : g.off j ≠ f.off i) : (s.wr f i v).rd g j = s.rd g j := by
  unfold State.rd State.wr
  rw [State.reg_setReg_other h]

/-- A write leaves the other fields of its register alone. -/
theorem State.rd_wr_field {f g : FRef} {i j v : Nat} (ho : g.off j = f.off i)
    (hf : f.lo + f.width ≤ 64) (hd : g.lo + g.width ≤ f.lo ∨ f.lo + f.width ≤ g.lo) : (s.wr f i v).rd g j = s.rd g j := by
  unfold State.rd State.wr
  rw [ho, State.reg_setReg_same, getBits_setBits_other _ _ _ _ _ _ hf hd]

/-- A read after a write: the field itself, a field that shares no bit with it, or bits of the written word. -/
theorem State.rd_wr {f g : FRef} {i j v : Nat} (hf : f.lo + f.width ≤ 64) : (s.wr f i v).rd g j =
    if g.off j = f.off i then
      (if g.lo = f.lo ∧ g.width = f.width then v % 2 ^ f.width
      else if g.lo + g.width ≤ f.lo ∨ f.lo + f.width ≤ g.lo then s.rd g j
      else getBits (setBits (s.reg (f.off i)) f.lo f.width v) g.lo g.width)
    else s.rd g j := by
  split
  · rename_i ho
    split
    · rename_i e
      unfold State.rd State.wr
      rw [ho, State.reg_setReg_same, e.1, e.2, getBits_setBits_same _ _ _ _ hf]
    · split
      · exact State.rd_wr_field ho hf ‹_›
      · unfold State.rd State.wr
        rw [ho, State.reg_setReg_same]
  · exact State.rd_wr_other ‹_›

theorem State.rd_setReg_other {off : Nat} {w : Word} {f : FRef} {i : Nat} (h : f.off i ≠ off) : (s.setReg off w).rd f i = s.rd f i := by
  unfold State.rd
  rw [State.reg_setReg_other h]

theorem State.rd_bump_other {f g : FRef} {i j n : Nat} (h : g.off j ≠ f.off i) : (s.bump f i n).rd g j = s.rd g j :=
  State.rd_wr_other h

theorem State.reg_bump_other {f : FRef} {i n off : Nat} (h : off ≠ f.off i) : (s.bump f i n).reg off = s.reg off :=
  State.reg_setReg_other h

/-- A fixed counter saturates at the largest value of its field (R670). -/
theorem State.rd_bump_same {f : FRef} {i n : Nat} (hf : f.lo + f.width ≤ 64) :
    (s.bump f i n).rd f i = min (2 ^ f.width - 1) (s.rd f i + n) := by
  unfold State.bump
  rw [State.rd_wr_same hf, Nat.mod_eq_of_lt]
  have := Nat.two_pow_pos f.width
  omega

/-- A read after a count: the counter itself, a field that shares no bit with it, or bits of the written word. -/
theorem State.rd_bump {f g : FRef} {i j n : Nat} (hf : f.lo + f.width ≤ 64) : (s.bump f i n).rd g j =
    if g.off j = f.off i then
      (if g.lo = f.lo ∧ g.width = f.width then min (2 ^ f.width - 1) (s.rd f i + n)
      else if g.lo + g.width ≤ f.lo ∨ f.lo + f.width ≤ g.lo then s.rd g j
      else getBits (setBits (s.reg (f.off i)) f.lo f.width (min (2 ^ f.width - 1) (s.rd f i + n))) g.lo g.width)
    else s.rd g j := by
  have e : min (2 ^ f.width - 1) (s.rd f i + n) % 2 ^ f.width = min (2 ^ f.width - 1) (s.rd f i + n) := by
    have := Nat.two_pow_pos f.width
    exact Nat.mod_eq_of_lt (by omega)
  unfold State.bump
  rw [State.rd_wr hf, e]

/-- Reading a register looks at the registers alone. -/
theorem State.reg_congr {t : State} (h : t.regs = s.regs) (off : Nat) : t.reg off = s.reg off := by
  unfold State.reg; rw [h]

theorem State.rd_congr {t : State} (h : t.regs = s.regs) (f : FRef) (i : Nat) : t.rd f i = s.rd f i := by
  unfold State.rd; rw [State.reg_congr h]

@[simp] theorem State.reg_onSys (f : Sys → Sys) (off : Nat) : (s.onSys f).reg off = s.reg off := rfl
@[simp] theorem State.rd_onSys (f : Sys → Sys) (g : FRef) (i : Nat) : (s.onSys f).rd g i = s.rd g i := rfl
@[simp] theorem State.reg_onPit (f : Pitch → Pitch) (off : Nat) : (s.onPit f).reg off = s.reg off := rfl
@[simp] theorem State.rd_onPit (f : Pitch → Pitch) (g : FRef) (i : Nat) : (s.onPit f).rd g i = s.rd g i := rfl
@[simp] theorem State.reg_onHost (f : HostIf → HostIf) (off : Nat) : (s.onHost f).reg off = s.reg off := rfl
@[simp] theorem State.rd_onHost (f : HostIf → HostIf) (g : FRef) (i : Nat) : (s.onHost f).rd g i = s.rd g i := rfl
@[simp] theorem State.reg_onFlt (f : Flt → Flt) (off : Nat) : (s.onFlt f).reg off = s.reg off := rfl
@[simp] theorem State.rd_onFlt (f : Flt → Flt) (g : FRef) (i : Nat) : (s.onFlt f).rd g i = s.rd g i := rfl
@[simp] theorem State.reg_onEng (f : Eng → Eng) (off : Nat) : (s.onEng f).reg off = s.reg off := rfl
@[simp] theorem State.rd_onEng (f : Eng → Eng) (g : FRef) (i : Nat) : (s.onEng f).rd g i = s.rd g i := rfl
@[simp] theorem State.reg_onDom (f : Dom → Dom) (off : Nat) : (s.onDom f).reg off = s.reg off := rfl
@[simp] theorem State.rd_onDom (f : Dom → Dom) (g : FRef) (i : Nat) : (s.onDom f).rd g i = s.rd g i := rfl
@[simp] theorem State.reg_onTool (f : Tool → Tool) (off : Nat) : (s.onTool f).reg off = s.reg off := rfl
@[simp] theorem State.rd_onTool (f : Tool → Tool) (g : FRef) (i : Nat) : (s.onTool f).rd g i = s.rd g i := rfl
@[simp] theorem State.reg_onFab (f : Fab → Fab) (off : Nat) : (s.onFab f).reg off = s.reg off := rfl
@[simp] theorem State.rd_onFab (f : Fab → Fab) (g : FRef) (i : Nat) : (s.onFab f).rd g i = s.rd g i := rfl
@[simp] theorem State.reg_onTabs (f : Tabs → Tabs) (off : Nat) : (s.onTabs f).reg off = s.reg off := rfl
@[simp] theorem State.rd_onTabs (f : Tabs → Tabs) (g : FRef) (i : Nat) : (s.onTabs f).rd g i = s.rd g i := rfl
@[simp] theorem State.reg_onHome (f : Home → Home) (off : Nat) : (s.onHome f).reg off = s.reg off := rfl
@[simp] theorem State.rd_onHome (f : Home → Home) (g : FRef) (i : Nat) : (s.onHome f).rd g i = s.rd g i := rfl
@[simp] theorem State.reg_onBel (f : Bel → Bel) (off : Nat) : (s.onBel f).reg off = s.reg off := rfl
@[simp] theorem State.rd_onBel (f : Bel → Bel) (g : FRef) (i : Nat) : (s.onBel f).rd g i = s.rd g i := rfl
@[simp] theorem State.reg_onRec (f : Rec → Rec) (off : Nat) : (s.onRec f).reg off = s.reg off := rfl
@[simp] theorem State.rd_onRec (f : Rec → Rec) (g : FRef) (i : Nat) : (s.onRec f).rd g i = s.rd g i := rfl
@[simp] theorem State.reg_onImg (f : Img → Img) (off : Nat) : (s.onImg f).reg off = s.reg off := rfl
@[simp] theorem State.rd_onImg (f : Img → Img) (g : FRef) (i : Nat) : (s.onImg f).rd g i = s.rd g i := rfl
@[simp] theorem State.reg_emit (o : Out) (off : Nat) : (s.emit o).reg off = s.reg off := rfl
@[simp] theorem State.rd_emit (o : Out) (g : FRef) (i : Nat) : (s.emit o).rd g i = s.rd g i := rfl
@[simp] theorem State.reg_nextFree (off : Nat) : (s.nextFree).reg off = s.reg off := rfl
@[simp] theorem State.rd_nextFree (g : FRef) (i : Nat) : (s.nextFree).rd g i = s.rd g i := rfl
@[simp] theorem State.reg_takeFree (n : Nat) (off : Nat) : (s.takeFree n).reg off = s.reg off := rfl
@[simp] theorem State.rd_takeFree (n : Nat) (g : FRef) (i : Nat) : (s.takeFree n).rd g i = s.rd g i := rfl
@[simp] theorem State.reg_onPort (p : PortId) (f : Port → Port) (off : Nat) : (s.onPort p f).reg off = s.reg off := rfl
@[simp] theorem State.rd_onPort (p : PortId) (f : Port → Port) (g : FRef) (i : Nat) : (s.onPort p f).rd g i = s.rd g i := rfl
@[simp] theorem State.reg_onPorts (f : Vector Port 64 → Vector Port 64) (off : Nat) : (s.onPorts f).reg off = s.reg off := rfl
@[simp] theorem State.rd_onPorts (f : Vector Port 64 → Vector Port 64) (g : FRef) (i : Nat) : (s.onPorts f).rd g i = s.rd g i := rfl
@[simp] theorem State.reg_onEngine (e : EngineId) (f : Engine → Engine) (off : Nat) : (s.onEngine e f).reg off = s.reg off := rfl
@[simp] theorem State.rd_onEngine (e : EngineId) (f : Engine → Engine) (g : FRef) (i : Nat) : (s.onEngine e f).rd g i = s.rd g i := rfl
@[simp] theorem State.reg_onSlice (e : SliceId) (f : Slice → Slice) (off : Nat) : (s.onSlice e f).reg off = s.reg off := rfl
@[simp] theorem State.rd_onSlice (e : SliceId) (f : Slice → Slice) (g : FRef) (i : Nat) : (s.onSlice e f).rd g i = s.rd g i := rfl
@[simp] theorem State.reg_onColumn (e : Endpoint) (f : Column → Column) (off : Nat) : (s.onColumn e f).reg off = s.reg off := rfl
@[simp] theorem State.rd_onColumn (e : Endpoint) (f : Column → Column) (g : FRef) (i : Nat) : (s.onColumn e f).rd g i = s.rd g i := rfl
/-- A gap reaches no register but the recorder's two counters of gaps. -/
theorem State.reg_beginGap {n off : Nat} (h2 : off ≠ 0x160088) (h3 : off ≠ 0x160090) : (s.beginGap n).reg off = s.reg off := by
  unfold State.beginGap
  split
  · rw [State.reg_bump_other (by simpa [R.REC_DISCARD_COUNT, FRef.off] using h2),
      State.reg_bump_other (by simpa [R.REC_GAPS_COUNT, FRef.off] using h3)]; rfl
  · rw [State.reg_bump_other (by simpa [R.REC_DISCARD_COUNT, FRef.off] using h2)]; rfl

/-- The recorder's items reach no register but its own three counters. -/
theorem State.reg_capture {kind unit flags len off : Nat} {words : List Nat} (h1 : off ≠ 0x160080) (h2 : off ≠ 0x160088)
    (h3 : off ≠ 0x160090) : (s.capture kind unit flags len words).reg off = s.reg off := by
  unfold State.capture
  split
  · rfl
  · split
    all_goals try first
      | rfl
      | exact State.reg_beginGap h2 h3
    all_goals
      split
      · rw [State.reg_bump_other (by simpa [R.REC_ITEMS_COUNT, FRef.off] using h1)]; rfl
      · exact State.reg_beginGap h2 h3

end Sys2Proof.Machine
end

