-- ==== Sys2Proof/Laws/Shared.lean ====
section
/-! SUPPORT. What the shared operations do: FAULT_N, the cold start, the fall of PWR_OK, the safe state. -/

namespace Sys2Proof.Machine

variable (s : State)

/-! ### Frames in a chain -/

theorem Only.refl (l : List Part) (s : State) : Only l s s := fun p _ => by cases p <;> rfl

theorem Only.trans {l : List Part} {a b c : State} (h : Only l a b) (k : Only l b c) : Only l a c := by
  intro p hp
  have x := h p hp
  have y := k p hp
  cases p <;> exact Eq.trans y x

/-! ### FAULT_N moves one pin of the fault group -/

theorem State.driveFaultN_eq : ∃ f : Flt → Flt, s.driveFaultN = s.onFlt f ∧ ∀ x, (f x).entries = x.entries ∧ (f x).safe = x.safe := by
  unfold State.driveFaultN
  split
  · split
    · exact ⟨fun x => x, rfl, fun _ => ⟨rfl, rfl⟩⟩
    · exact ⟨_, rfl, fun _ => ⟨rfl, rfl⟩⟩
  · exact ⟨_, rfl, fun _ => ⟨rfl, rfl⟩⟩

@[simp] theorem State.driveFaultN_pending : s.driveFaultN.pending = s.pending := by obtain ⟨_, e, _⟩ := s.driveFaultN_eq; rw [e]; rfl
@[simp] theorem State.driveFaultN_free : s.driveFaultN.free = s.free := by obtain ⟨_, e, _⟩ := s.driveFaultN_eq; rw [e]; rfl
@[simp] theorem State.driveFaultN_out : s.driveFaultN.out = s.out := by obtain ⟨_, e, _⟩ := s.driveFaultN_eq; rw [e]; rfl
@[simp] theorem State.driveFaultN_regs : s.driveFaultN.regs = s.regs := by obtain ⟨_, e, _⟩ := s.driveFaultN_eq; rw [e]; rfl
@[simp] theorem State.driveFaultN_sys : s.driveFaultN.sys = s.sys := by obtain ⟨_, e, _⟩ := s.driveFaultN_eq; rw [e]; rfl
@[simp] theorem State.driveFaultN_pit : s.driveFaultN.pit = s.pit := by obtain ⟨_, e, _⟩ := s.driveFaultN_eq; rw [e]; rfl
@[simp] theorem State.driveFaultN_host : s.driveFaultN.host = s.host := by obtain ⟨_, e, _⟩ := s.driveFaultN_eq; rw [e]; rfl
@[simp] theorem State.driveFaultN_eng : s.driveFaultN.eng = s.eng := by obtain ⟨_, e, _⟩ := s.driveFaultN_eq; rw [e]; rfl
@[simp] theorem State.driveFaultN_dom : s.driveFaultN.dom = s.dom := by obtain ⟨_, e, _⟩ := s.driveFaultN_eq; rw [e]; rfl
@[simp] theorem State.driveFaultN_ports : s.driveFaultN.ports = s.ports := by obtain ⟨_, e, _⟩ := s.driveFaultN_eq; rw [e]; rfl
@[simp] theorem State.driveFaultN_tool : s.driveFaultN.tool = s.tool := by obtain ⟨_, e, _⟩ := s.driveFaultN_eq; rw [e]; rfl
@[simp] theorem State.driveFaultN_fab : s.driveFaultN.fab = s.fab := by obtain ⟨_, e, _⟩ := s.driveFaultN_eq; rw [e]; rfl
@[simp] theorem State.driveFaultN_tabs : s.driveFaultN.tabs = s.tabs := by obtain ⟨_, e, _⟩ := s.driveFaultN_eq; rw [e]; rfl
@[simp] theorem State.driveFaultN_home : s.driveFaultN.home = s.home := by obtain ⟨_, e, _⟩ := s.driveFaultN_eq; rw [e]; rfl
@[simp] theorem State.driveFaultN_bel : s.driveFaultN.bel = s.bel := by obtain ⟨_, e, _⟩ := s.driveFaultN_eq; rw [e]; rfl
@[simp] theorem State.driveFaultN_rec_ : s.driveFaultN.rec_ = s.rec_ := by obtain ⟨_, e, _⟩ := s.driveFaultN_eq; rw [e]; rfl
@[simp] theorem State.driveFaultN_img : s.driveFaultN.img = s.img := by obtain ⟨_, e, _⟩ := s.driveFaultN_eq; rw [e]; rfl
@[simp] theorem State.driveFaultN_entries : s.driveFaultN.flt.entries = s.flt.entries := by
  obtain ⟨f, e, h⟩ := s.driveFaultN_eq; rw [e]; exact (h _).1
@[simp] theorem State.driveFaultN_safe : s.driveFaultN.flt.safe = s.flt.safe := by
  obtain ⟨f, e, h⟩ := s.driveFaultN_eq; rw [e]; exact (h _).2
@[simp] theorem State.driveFaultN_rd (f : FRef) (i : Nat) : s.driveFaultN.rd f i = s.rd f i := State.rd_congr (State.driveFaultN_regs s) f i

/-! ### The cold start (R629, R631) -/

theorem State.coldStart_sys (c : Nat) : (s.coldStart c).sys = s.sys.kept := by unfold State.coldStart; simp; rfl
theorem State.coldStart_img (c : Nat) : (s.coldStart c).img = s.img.kept := by unfold State.coldStart; simp; rfl
theorem State.coldStart_ports (c : Nat) : (s.coldStart c).ports = s.ports.map Port.pins := by unfold State.coldStart; simp; rfl
theorem State.reset_pit : State.reset.pit = Pitch.init := by unfold State.reset; rfl
theorem State.loseAll_pit (b : Bool) : (s.loseAll b).pit = Pitch.init := by unfold State.loseAll; exact State.reset_pit
theorem State.coldStart_pit (c : Nat) : (s.coldStart c).pit = Pitch.init :=
  (State.driveFaultN_pit _).trans (State.loseAll_pit s (c ≠ 1))
theorem State.loseAll_pending (b : Bool) : (s.loseAll b).pending = s.pending := by unfold State.loseAll; rfl
theorem State.coldStart_cause (c : Nat) : (s.coldStart c).rd R.GLB_START_CAUSE = c % 8 := by
  unfold State.coldStart
  simp [State.rd_wr, State.rd_bump, FRef.off, R.GLB_START_CAUSE, R.GLB_START_PHASE_STEP, R.GLB_START_COLD_CNT]
theorem State.coldStart_step (c : Nat) : (s.coldStart c).rd R.GLB_START_PHASE_STEP = 2 := by
  unfold State.coldStart
  simp [State.rd_wr, FRef.off, R.GLB_START_PHASE_STEP]

/-- Forwarding that stops adds to what the device sends, and changes nothing else. -/
theorem State.endEgress_eq : ∃ l, s.endEgress = { s with out := l } := by
  have fold : ∀ (ms : List Msg) (t : State), ∃ l, t.forAll ms (fun m u => u.emit (.egress m m.kind.vdm m.kind.isIo)) = { t with out := l } := by
    intro ms
    induction ms with
    | nil => exact fun t => ⟨t.out, rfl⟩
    | cons m ms ih => exact fun t => ih (t.emit (.egress m m.kind.vdm m.kind.isIo))
  exact fold _ s

@[simp] theorem State.endEgress_sys : s.endEgress.sys = s.sys := by obtain ⟨_, e⟩ := s.endEgress_eq; rw [e]
@[simp] theorem State.endEgress_flt : s.endEgress.flt = s.flt := by obtain ⟨_, e⟩ := s.endEgress_eq; rw [e]
@[simp] theorem State.endEgress_rd (f : FRef) (i : Nat) : s.endEgress.rd f i = s.rd f i := by obtain ⟨_, e⟩ := s.endEgress_eq; rw [e]; rfl

/-! ### The fall of PWR_OK (R623, R552) -/

theorem State.powerFall_only : Only [.fab, .eng, .sys, .bel, .regs, .recorder, .out] s s.powerFall :=
  (State.powerFall_kept rfl rfl rfl rfl rfl rfl rfl
    (Kept.refl (fun p => [Part.fab, .eng, .sys, .bel, .regs, .recorder, .out].contains p) s)).only

theorem State.powerFall_msgs : s.powerFall.fab.msgs = [] := rfl
theorem State.powerFall_frozen : s.powerFall.rec_.frozen = true := rfl

/-! ### The safe state (R551, R552, R555) -/

theorem State.enterSafe_only (c : Nat) : Only [.regs, .sys, .flt, .eng, .fab, .bel, .recorder, .out] s (s.enterSafe c) :=
  (State.enterSafe_kept rfl rfl rfl rfl rfl rfl rfl rfl
    (Kept.refl (fun p => [Part.regs, .sys, .flt, .eng, .fab, .bel, .recorder, .out].contains p) s)).only
theorem State.stopParts_flt : s.stopParts.flt = s.flt := by
  unfold State.stopParts
  simp only [State.onRec_flt, State.wr_flt, State.onBel_flt, State.onSys_flt, State.onEng_flt, State.onFab_flt, State.endEgress_flt]

theorem State.enterSafe_flt (c : Nat) : (s.enterSafe c).flt.safe = true := by
  unfold State.enterSafe; rw [State.driveFaultN_safe, State.onSys_flt, State.stopParts_flt]; rfl
theorem State.enterSafe_msgs (c : Nat) : (s.enterSafe c).fab.msgs = [] := by unfold State.enterSafe; rw [State.driveFaultN_fab]; rfl
theorem State.enterSafe_frozen (c : Nat) : (s.enterSafe c).rec_.frozen = true := by
  unfold State.enterSafe; rw [State.driveFaultN_rec_]; rfl

theorem State.enterSafe_cause (c : Nat) : (s.enterSafe c).rd R.FLT_LAST_CAUSE = c % 4096 := by
  unfold State.enterSafe
  rw [State.driveFaultN_rd]
  unfold State.stopParts
  rw [State.rd_onSys, State.rd_onRec, State.rd_wr_other (by decide), State.rd_onBel, State.rd_onSys, State.rd_onEng, State.rd_onFab,
    State.endEgress_rd, State.rd_onFlt, State.rd_wr_field (by decide) (by decide) (by decide), State.rd_wr_same (by decide)]
  rfl

theorem State.stopParts_sys : s.stopParts.sys = { s.sys with tickOut := 0, tcok := 0 } := by
  unfold State.stopParts
  simp only [State.onRec_sys, State.wr_sys, State.onBel_sys, State.onSys_sys, State.onEng_sys, State.onFab_sys, State.endEgress_sys]

theorem State.powerFall_sys : s.powerFall.sys =
    { s.sys with tickOut := 0, tcok := 0, perstN := 0, pwren := 0, disch := BitVec.allOnes 64, lowSince := true, corePower := false } := by
  unfold State.powerFall
  rw [State.onSys_sys, State.stopParts_sys]

theorem State.stopped_sys (z : State) (f : Sys → Sys) :
    ((z.stopParts.onSys f).driveFaultN).sys = f { z.sys with tickOut := 0, tcok := 0 } := by
  rw [State.driveFaultN_sys, State.onSys_sys, State.stopParts_sys]

theorem State.enterSafe_sys (c : Nat) :
    ∃ b, (s.enterSafe c).sys = { s.sys with tickOut := 0, tcok := 0, alertN := b } := by
  unfold State.enterSafe
  rw [State.stopped_sys]
  rw [State.onFlt_sys, State.wr_sys, State.wr_sys]
  exact ⟨_, rfl⟩

/-- A fault of class FC4 moves the collector alone: it raises no event (R555). -/
theorem State.collectAs_fc4 {c u d a : Nat} {inj : Bool} (h : causeClass c = 4) :
    ∃ f : Flt → Flt, s.collectAs c u inj d a = s.onFlt f ∧ ∀ x, (f x).safe = x.safe := by
  have fin : ∀ g : Flt → Flt, (∀ x, (g x).safe = x.safe) →
      ∃ f : Flt → Flt, (s.onFlt g).driveFaultN = s.onFlt f ∧ ∀ x, (f x).safe = x.safe := by
    intro g hg
    obtain ⟨k, e, hk⟩ := (s.onFlt g).driveFaultN_eq
    exact ⟨k ∘ g, e, fun x => ((hk (g x)).2).trans (hg x)⟩
  have fill : ∀ (i : Nat) (ev : Raise), ∃ g : Flt → Flt, s.fillFltBy ev i c u inj d a = s.onFlt g ∧ ∀ x, (g x).safe = x.safe := by
    intro i ev
    unfold State.fillFltBy State.faultEventBy
    simp only [h, Nat.reduceEqDiff, decide_false, Bool.false_and, Bool.and_false, Bool.false_eq_true, if_false, decide_true,
      Bool.or_true, if_true]
    exact ⟨fun f => { f with entries := _, nextAge := _ }, rfl, fun _ => rfl⟩
  unfold State.collectAs State.collectBy
  simp only [h, Nat.reduceEqDiff, if_false, if_true]
  cases s.findFlt c u with
  | some v => exact fin (fun f => { f with entries := _ }) fun _ => rfl
  | none =>
    simp only
    cases s.freeFlt with
    | some i =>
      obtain ⟨g, e, hg⟩ := fill i (fun d loc code cls ext arg0 arg1 s => s.raise d loc code cls ext arg0 arg1)
      simp only [e]
      exact fin g hg
    | none => exact fin id fun _ => rfl

/-- The first FC4 fault enters the safe state (R551): FLT_LAST names it, no message stays in the core, the recorder is frozen. -/
theorem State.fc4_spec {c u a : Nat} {tb : Bool} (h : causeClass c = 4) (hs : s.flt.safe = false) :
    let t := s.fc4 c u a tb
    t.flt.safe = true ∧ t.rd R.FLT_LAST_CAUSE = c % 4096 ∧ t.fab.msgs = [] ∧ t.rec_.frozen = true
      ∧ (∃ b, t.sys = { s.sys with tickOut := 0, tcok := 0, alertN := b })
      ∧ Only [.regs, .sys, .flt, .eng, .fab, .bel, .recorder, .out] s t := by
  obtain ⟨f, e, hf⟩ := State.collectAs_fc4 (s.wr R.FLT_FC4_MASK_MASK 0 (s.rd R.FLT_FC4_MASK_MASK ||| 2 ^ (c - 0x400)))
    (c := c) (u := u) (d := 0) (a := a) (inj := false) h
  have key : ∃ (k : Flt → Flt) (v : Nat), s.fc4 c u a tb = ((s.wr R.FLT_FC4_MASK_MASK 0 v).onFlt k).enterSafe c := by
    unfold State.fc4
    cases tb with
    | false => exact ⟨id, s.rd R.FLT_FC4_MASK_MASK ||| 2 ^ (c - 0x400), by simp [hs]; rfl⟩
    | true =>
      refine ⟨f, s.rd R.FLT_FC4_MASK_MASK ||| 2 ^ (c - 0x400), ?_⟩
      simp only [if_true, e]
      rw [if_pos]
      rw [State.onFlt_flt, hf]
      simp [hs]
  obtain ⟨k, v, ek⟩ := key
  simp only [ek]
  refine ⟨State.enterSafe_flt _ _, State.enterSafe_cause _ _, State.enterSafe_msgs _ _, State.enterSafe_frozen _ _, ?_, ?_⟩
  · obtain ⟨b, e⟩ := State.enterSafe_sys ((s.wr R.FLT_FC4_MASK_MASK 0 v).onFlt k) c
    exact ⟨b, by rw [e, State.onFlt_sys, State.wr_sys]⟩
  · refine Only.trans ?_ (State.enterSafe_only _ _)
    intro p hp
    cases p <;> first | rfl | (simp at hp; done)

end Sys2Proof.Machine
end

