-- ==== Sys2Proof/Laws/Setup.lean ====
section
/-! SUPPORT. A setup write that nothing stands against: it takes effect field by field. -/

namespace Sys2Proof.Machine

variable {s : State}

/-! ### A CFG item reaches the recorder alone, and its counters -/

theorem State.captureCfg_only (t i : Nat) (w : List Nat) (s : State) : Only [.regs, .recorder] s (s.captureCfg t i w) :=
  (State.captureCfg_kept rfl rfl (Kept.refl (fun p => [Part.regs, .recorder].contains p) s)).only

@[simp] theorem State.captureCfg_pending (t i : Nat) (w : List Nat) : (s.captureCfg t i w).pending = s.pending :=
  State.captureCfg_only t i w s .pending (by decide)
@[simp] theorem State.captureCfg_free (t i : Nat) (w : List Nat) : (s.captureCfg t i w).free = s.free :=
  State.captureCfg_only t i w s .free (by decide)
@[simp] theorem State.captureCfg_out (t i : Nat) (w : List Nat) : (s.captureCfg t i w).out = s.out :=
  State.captureCfg_only t i w s .out (by decide)
@[simp] theorem State.captureCfg_sys (t i : Nat) (w : List Nat) : (s.captureCfg t i w).sys = s.sys :=
  State.captureCfg_only t i w s .sys (by decide)
@[simp] theorem State.captureCfg_pit (t i : Nat) (w : List Nat) : (s.captureCfg t i w).pit = s.pit :=
  State.captureCfg_only t i w s .pit (by decide)
@[simp] theorem State.captureCfg_host (t i : Nat) (w : List Nat) : (s.captureCfg t i w).host = s.host :=
  State.captureCfg_only t i w s .host (by decide)
@[simp] theorem State.captureCfg_flt (t i : Nat) (w : List Nat) : (s.captureCfg t i w).flt = s.flt :=
  State.captureCfg_only t i w s .flt (by decide)
@[simp] theorem State.captureCfg_eng (t i : Nat) (w : List Nat) : (s.captureCfg t i w).eng = s.eng :=
  State.captureCfg_only t i w s .eng (by decide)
@[simp] theorem State.captureCfg_dom (t i : Nat) (w : List Nat) : (s.captureCfg t i w).dom = s.dom :=
  State.captureCfg_only t i w s .dom (by decide)
@[simp] theorem State.captureCfg_ports (t i : Nat) (w : List Nat) : (s.captureCfg t i w).ports = s.ports :=
  State.captureCfg_only t i w s .ports (by decide)
@[simp] theorem State.captureCfg_tool (t i : Nat) (w : List Nat) : (s.captureCfg t i w).tool = s.tool :=
  State.captureCfg_only t i w s .tool (by decide)
@[simp] theorem State.captureCfg_fab (t i : Nat) (w : List Nat) : (s.captureCfg t i w).fab = s.fab :=
  State.captureCfg_only t i w s .fab (by decide)
@[simp] theorem State.captureCfg_tabs (t i : Nat) (w : List Nat) : (s.captureCfg t i w).tabs = s.tabs :=
  State.captureCfg_only t i w s .tabs (by decide)
@[simp] theorem State.captureCfg_home (t i : Nat) (w : List Nat) : (s.captureCfg t i w).home = s.home :=
  State.captureCfg_only t i w s .home (by decide)
@[simp] theorem State.captureCfg_bel (t i : Nat) (w : List Nat) : (s.captureCfg t i w).bel = s.bel :=
  State.captureCfg_only t i w s .bel (by decide)
@[simp] theorem State.captureCfg_img (t i : Nat) (w : List Nat) : (s.captureCfg t i w).img = s.img :=
  State.captureCfg_only t i w s .img (by decide)
theorem State.captureCfg_reg {t i off : Nat} {w : List Nat} (h1 : off ≠ 0x160080) (h2 : off ≠ 0x160088) (h3 : off ≠ 0x160090) :
    (s.captureCfg t i w).reg off = s.reg off := State.reg_capture h1 h2 h3

/-! ### Setup writes -/

/-- Nothing stands against the write: the path is served, every field either keeps its value or takes the new one, and no field is out
of range. Then the write does nothing but take those fields. -/
theorem State.setupWrite_takes {p : Path} {off n : Nat} {v : Word} {r : RegRow} (hs : Served p s) (ha : off % 8 = 0)
    (hf : findReg off = some (r, n))
    (hk : r.fields.all (fun f => s.fieldAct off n (s.expert off) v f = .keep || s.fieldAct off n (s.expert off) v f = .take) = true)
    (ho : r.fields.any (s.outOfRange off n v) = false) (hp : s.pairRefused off v = false) (he : energyReg off = false) :
    s.setupWrite p off 8 v = s.takeFields off r (fun f => s.fieldAct off n (s.expert off) v f = .take) v := by
  have hse : s.bit R.GLB_CTRL_SEAL = false := by simp [State.bit, hs.unsealed]
  have hi : (Decidable.decide (p = .i3c) && !s.bit R.GLB_CTRL_I3C_WR) = false := by
    cases p with
    | bar0 => rfl
    | i3c => simp [State.bit, hs.i3c rfl]
  unfold State.setupWrite
  simp only [hs.opened, hf, hs.live, hs.steady, hse, hi, ho, hp, State.energyRefused, he, Bool.not_true, Bool.false_eq_true, if_false,
    Bool.false_and, Bool.or_self, ne_eq, not_true_eq_false, ha, decide_false]
  split
  · rename_i hall
    unfold State.takeFields
    rw [if_neg]
    simp only [Bool.not_eq_true, List.any_eq_false]
    intro f hfm
    have := (List.all_eq_true.mp hall) f hfm
    simp only [decide_eq_true_eq] at this
    rw [this]
    rfl
  · unfold State.writeFields
    dsimp only
    split
    · rename_i c tl hd
      have hc := congrArg (fun l => c ∈ l) hd
      simp only [List.mem_cons, true_or, eq_iff_iff, iff_true, List.mem_filterMap] at hc
      obtain ⟨f, hm, e⟩ := hc
      have hx := (List.all_eq_true.mp hk) f hm
      simp at hx
      rcases hx with hx | hx <;> rw [hx] at e <;> cases e
    · rfl

/-- The register after the fields are taken, and no other register but the recorder's counters. -/
theorem State.takeFields_reg {off : Nat} {r : RegRow} {q : Field → Bool} {v : Word} (h : r.fields.any q = true) :
    s.takeFields off r q v =
      (((s.setReg off (mergeFields r.fields (fun f => q f && !heldField off f) v (s.reg off))).captureCfg (Config.sideCode 7).toNat off
        [(mergeFields r.fields (fun f => q f && !heldField off f) v (s.reg off)).toNat]).afterWrite off (s.reg off) v) := by
  unfold State.takeFields
  rw [if_pos h]
  simp

end Sys2Proof.Machine
end

