-- ==== Sys2Proof/Laws/Access.lean ====
section
/-! SUPPORT. What is read after what is written, for each accessor: the same place gives the value written, every other place what it gave. -/

namespace Sys2Proof.Machine

variable {s t : State}

theorem State.ring_setRing (s : State) (n m : Nat) (x : Option Ring) : (s.setRing n x).ring m = if m = n then x else s.ring m := by
  split
  · next h => subst h; exact Tab.get_set_same
  · next h => exact Tab.get_set_other h

theorem State.evq_setEvq (s : State) (n m : Nat) (x : Option Ring) : (s.setEvq n x).evq m = if m = n then x else s.evq m := by
  split
  · next h => subst h; exact Tab.get_set_same
  · next h => exact Tab.get_set_other h

theorem State.source_setSource (s : State) (n m : Nat) (x : Source) : (s.setSource n x).source m = if m = n then x else s.source m := by
  split
  · next h => subst h; exact Tab.get_set_same
  · next h => exact Tab.get_set_other h

theorem State.fltEntry_setFltEntry (s : State) (n m : Nat) (x : Option FltEntry) : (s.setFltEntry n x).fltEntry m = if m = n then x else s.fltEntry m := by
  split
  · next h => subst h; exact Tab.get_set_same
  · next h => exact Tab.get_set_other h

theorem State.slot_setSlot (s : State) (n m : Nat) (x : Slot) : (s.setSlot n x).slot m = if m = n then x else s.slot m := by
  split
  · next h => subst h; exact Tab.get_set_same
  · next h => exact Tab.get_set_other h

/-- A way is stored with its check bits. -/
theorem State.dirAt_setDir (s : State) (n m : Nat) (x : Option DirEnt) :
    (s.setDir n x).dirAt m = if m = n then x.map DirEnt.coded else s.dirAt m := by
  unfold State.dirAt State.setDir
  split
  · next h => subst h; exact Tab.get_set_same
  · next h => exact Tab.get_set_other h

/-- A way is stored with its check bits. -/
theorem State.olcAt_setOlc (s : State) (n m : Nat) (x : Option OlcEnt) :
    (s.setOlc n x).olcAt m = if m = n then x.map OlcEnt.coded else s.olcAt m := by
  unfold State.olcAt State.setOlc
  split
  · next h => subst h; exact Tab.get_set_same
  · next h => exact Tab.get_set_other h

theorem State.trkOf_setTrk (s : State) (n m : Nat) (x : Option Trk) : (s.setTrk n x).trkOf m = if m = n then x else s.trkOf m := by
  split
  · next h => subst h; exact Tab.get_set_same
  · next h => exact Tab.get_set_other h

theorem State.domain_setDomain (s : State) (n m : Nat) (x : Domain) : (s.setDomain n x).domain m = if m = n then x else s.domain m := by
  split
  · next h => subst h; exact Tab.get_set_same
  · next h => exact Tab.get_set_other h

theorem State.winAt_setWin (s : State) (n m : Nat) (x : Option DWin) : (s.setWin n x).winAt m = if m = n then x else s.winAt m := by
  split
  · next h => subst h; exact Tab.get_set_same
  · next h => exact Tab.get_set_other h

theorem State.engine_onEngine (s : State) (e f : EngineId) (u : Engine → Engine) :
    (s.onEngine e u).engine f = if f = e then u (s.engine e) else s.engine f := by
  show (s.eng.engs.set e.val (u (s.engine e)))[f.val] = _
  rw [Vector.getElem_set]
  split
  · next h => rw [if_pos (Fin.ext h.symm)]
  · next h => rw [if_neg fun k => h (congrArg Fin.val k).symm]; rfl

theorem State.item_onItem (s : State) (e f : EngineId) (u : Item → Item) :
    (s.onItem e u).item f = if f = e then (s.item e).map u else s.item f := by
  unfold State.item State.onItem
  rw [State.engine_onEngine]
  split <;> rfl

theorem State.port_onPort (s : State) (p q : PortId) (u : Port → Port) :
    (s.onPort p u).port q = if q = p then u (s.port p) else s.port q := by
  show (s.ports.set p.val (u (s.port p)))[q.val] = _
  rw [Vector.getElem_set]
  split
  · next h => rw [if_pos (Fin.ext h.symm)]
  · next h => rw [if_neg fun k => h (congrArg Fin.val k).symm]; rfl

theorem State.portN_val (s : State) (p : PortId) : s.portN p.val = s.port p := dif_pos p.isLt

theorem State.portN_onPortN (s : State) (n m : Nat) (u : Port → Port) :
    (s.onPortN n u).portN m = if m = n ∧ n < 64 then u (s.portN n) else s.portN m := by
  unfold State.onPortN
  by_cases h : n < 64
  · rw [dif_pos h]
    unfold State.portN
    by_cases k : m < 64
    · rw [dif_pos k, dif_pos h]
      show (s.ports.set n (u (s.port ⟨n, h⟩)))[m] = _
      rw [Vector.getElem_set]
      by_cases e : n = m
      · subst e; simp [h]; rfl
      · rw [if_neg e, if_neg fun x => e x.1.symm, dif_pos k]
    · have e : ¬ (m = n ∧ n < 64) := fun x => k (x.1.symm ▸ x.2)
      rw [dif_neg k, if_neg e, dif_neg k]
  · rw [dif_neg h, if_neg fun x => h x.2]

theorem State.ring_congr (h : t.host = s.host) (n : Nat) : t.ring n = s.ring n := by unfold State.ring; rw [h]
theorem State.evq_congr (h : t.host = s.host) (n : Nat) : t.evq n = s.evq n := by unfold State.evq; rw [h]
theorem State.source_congr (h : t.host = s.host) (n : Nat) : t.source n = s.source n := by unfold State.source; rw [h]
theorem State.fltEntry_congr (h : t.flt = s.flt) (n : Nat) : t.fltEntry n = s.fltEntry n := by unfold State.fltEntry; rw [h]
theorem State.slot_congr (h : t.eng = s.eng) (n : Nat) : t.slot n = s.slot n := by unfold State.slot; rw [h]
theorem State.dirAt_congr (h : t.home = s.home) (n : Nat) : t.dirAt n = s.dirAt n := by unfold State.dirAt; rw [h]
theorem State.olcAt_congr (h : t.home = s.home) (n : Nat) : t.olcAt n = s.olcAt n := by unfold State.olcAt; rw [h]
theorem State.trkOf_congr (h : t.home = s.home) (n : Nat) : t.trkOf n = s.trkOf n := by unfold State.trkOf; rw [h]
theorem State.domain_congr (h : t.dom = s.dom) (n : Nat) : t.domain n = s.domain n := by unfold State.domain; rw [h]
theorem State.winAt_congr (h : t.tabs = s.tabs) (n : Nat) : t.winAt n = s.winAt n := by unfold State.winAt; rw [h]
theorem State.engine_congr (h : t.eng = s.eng) (n : EngineId) : t.engine n = s.engine n := by unfold State.engine; rw [h]
theorem State.item_congr (h : t.eng = s.eng) (n : EngineId) : t.item n = s.item n := by unfold State.item State.engine; rw [h]
theorem State.port_congr (h : t.ports = s.ports) (n : PortId) : t.port n = s.port n := by unfold State.port; rw [h]
theorem State.portN_congr (h : t.ports = s.ports) (n : Nat) : t.portN n = s.portN n := by unfold State.portN; rw [h]
theorem State.rule_congr (h : t.dom = s.dom) (n : Nat) : t.rule n = s.rule n := by unfold State.rule; rw [h]

/-- The decision of a check unit depends on the rules alone. -/
theorem decidePart_congr (h : t.dom = s.dom) (d space port a : Nat) (n : Need) : decidePart t d space port a n = decidePart s d space port a n := by
  unfold decidePart; rw [h]

/-- What the host interface may reach depends on the rules and the windows alone. -/
theorem State.hostAllows_congr (h : t.dom = s.dom) (k : t.tabs = s.tabs) (d space port a : Nat) (n : Need) :
    t.hostAllows d space port a n = s.hostAllows d space port a n := by
  unfold State.hostAllows State.window
  rw [decidePart_congr h, k]

/-! ### Commands that pass the checks of R486 -/

theorem Admitted.manager {h : Hdr} {ds : List Nat} (a : Admitted h ds s) {bad : Option Nat} {f : State → State} (hb : bad = none) :
    s.manager h ds bad f = f s := by
  subst hb
  obtain ⟨a1, a2, a3, a4, a5⟩ := a
  have h2 : ¬ 4095 < h.domain.toNat := by omega
  rcases a2 with ⟨a2, a2'⟩ | a2 <;> simp [State.manager, State.command, *]

theorem Permitted.command {h : Hdr} (a : Permitted h s) {free : Bool} {bad : Option Nat} {f : State → State} (hb : bad = none) :
    s.command h true free [] bad f = f s := by
  subst hb
  obtain ⟨a1, a2, a3, a4, a5⟩ := a
  have h2 : ¬ 4095 < h.domain.toNat := by omega
  unfold State.command
  generalize s.ringDomain h.ring.val = q at *
  rcases a2 with ⟨a2, a2'⟩ | a2 <;> rcases a4 with a4 | a4 <;> (try subst a4) <;> simp [*]

end Sys2Proof.Machine
end

