-- ==== Sys2Proof/Machine/Package.lean ====
section
/-! DEFINITION. The ball assignment of the package (R646 to R651): a fixed map, no state. -/

namespace Sys2Proof.Machine

/-! ### Names of balls (R646) -/

/-- The 19 row letters. -/
def rowLetters : List Char := ['A', 'B', 'C', 'D', 'E', 'F', 'G', 'H', 'J', 'K', 'L', 'M', 'N', 'P', 'T', 'U', 'V', 'W', 'Y']

/-- Row name of an index from 1 to 72: the 19 letters, then the same after A, after B and after C. -/
def rowName (row : Nat) : String :=
  let i := row - 1
  (["", "A", "B", "C"].getD (i / 19) "").push (rowLetters.getD (i % 19) 'A')

/-- A ball is named by its row and its column. -/
def ballName (row col : Nat) : String := rowName row ++ toString col

/-- Depth of a ball: its ring, counted from the edge. -/
def ballDepth (row col : Nat) : Nat := min (min row col) (min (73 - row) (73 - col))

/-! ### What a ball carries (R647) -/

/-- Signals of which the package has one group in rows L, M and N (R650). -/
inductive Single where
  | tcrN | tcok | tickOut | faultN | alertN | ppsIn | timeClk
  | coreRefclkP | coreRefclkN | sdRefclkP | sdRefclkN
  | mi3cScl | mi3cSda | pi3cScl | pi3cSda | pmbScl | pmbSda
  | ospiClk | ospiCsN | ospiDqs | ospiDq | ospiRstN | bootSel | mgrSel
  | tck | tms | tdi | tdo | trstN | rstN | pwrOk | thermDa | thermDc | coreSenseP | coreSenseN | test
  deriving DecidableEq, Repr

inductive Ball where
  | vss | vddCore | vddSram | vddaSd | vddhSd | vddIo | vddAon
  | txP (lane : Nat) | txN (lane : Nat) | rxP (lane : Nat) | rxN (lane : Nat)
  | prsntN (port : Nat) | perstN (port : Nat) | pwren (port : Nat) | pwrgd (port : Nat) | disch (port : Nat)
  | refoP (quad : Nat) | refoN (quad : Nat)
  | single (sig : Single) (index : Nat)
  deriving DecidableEq, Repr

/-- The four edges, north, east, south and west, in the order of the quads beside them. -/
def edges : List Nat := [0, 1, 2, 3]

/-- Depth of a ball from one edge, and its position along it: the tables of R648 and R649 are the same for every edge in these terms. -/
def alongEdge (edge row col : Nat) : Nat × Nat :=
  match edge with
  | 0 => (row, col)
  | 1 => (73 - col, row)
  | 2 => (73 - row, 73 - col)
  | _ => (col, 73 - row)

/-- A lane block (R648): 16 positions for each quad, from position 9, at depths 1 to 8. -/
def laneBall (edge depth at_ : Nat) : Option Ball :=
  if 1 ≤ depth && depth ≤ 8 && 9 ≤ at_ && at_ ≤ 72 then
    let k := 64 * edge + (at_ - 9)
    some (match depth with
      | 2 => .txP k
      | 3 => .txN k
      | 6 => .rxP k
      | 7 => .rxN k
      | _ => .vss)
  else none

/-- Sideband of a quad (R649): 11 positions for each quad, from position 17, at depths 9 and 10. -/
def sideBall (edge depth at_ : Nat) : Option Ball :=
  if (depth = 9 || depth = 10) && 17 ≤ at_ && at_ ≤ 60 then
    let quad := 4 * edge + (at_ - 17) / 11
    let q := (at_ - 17) % 11
    some (if q < 4 then (if depth = 9 then .prsntN (4 * quad + q) else .pwren (4 * quad + q))
      else if q < 8 then (if depth = 9 then .perstN (4 * quad + (q - 4)) else .pwrgd (4 * quad + (q - 4)))
      else if depth = 10 then .disch (4 * quad + (q - 8))
      else if q = 8 then .refoP quad
      else if q = 9 then .refoN quad
      else .disch (4 * quad + 3))
  else none

/-- Row L of R650. -/
def rowL (col : Nat) : Option Ball :=
  if 11 ≤ col && col ≤ 26 then some (.single .tcrN (col - 11))
  else if 27 ≤ col && col ≤ 42 then some (.single .tcok (col - 27))
  else if 43 ≤ col && col ≤ 46 then some (.single .tickOut (col - 43))
  else ([Single.faultN, .alertN, .ppsIn, .timeClk][col - 47]?).bind fun x => if 47 ≤ col then some (.single x 0) else none

/-- Row M of R650. -/
def rowM (col : Nat) : Option Ball :=
  if col = 11 then some (.single .coreRefclkP 0)
  else if col = 12 then some (.single .coreRefclkN 0)
  else if 13 ≤ col && col ≤ 20 then
    some (.single (if col % 2 = 1 then .sdRefclkP else .sdRefclkN) ((col - 13) / 2))
  else if 21 ≤ col && col ≤ 29 then
    ([Single.mi3cScl, .mi3cSda, .pi3cScl, .pi3cSda, .pmbScl, .pmbSda, .ospiClk, .ospiCsN, .ospiDqs][col - 21]?).map fun x => .single x 0
  else if 30 ≤ col && col ≤ 37 then some (.single .ospiDq (col - 30))
  else if col = 38 then some (.single .ospiRstN 0)
  else if col = 39 || col = 40 then some (.single .bootSel (col - 39))
  else if 41 ≤ col && col ≤ 46 then some (.single .mgrSel (col - 41))
  else if 47 ≤ col && col ≤ 51 then ([Single.tck, .tms, .tdi, .tdo, .trstN][col - 47]?).map fun x => .single x 0
  else if 52 ≤ col && col ≤ 59 then some .vddAon
  else none

/-- Row N of R650. -/
def rowN (col : Nat) : Option Ball :=
  if 11 ≤ col && col ≤ 16 then
    ([Single.rstN, .pwrOk, .thermDa, .thermDc, .coreSenseP, .coreSenseN][col - 11]?).map fun x => .single x 0
  else if 17 ≤ col && col ≤ 33 then some (.single .test (col - 17))
  else if 34 ≤ col && col ≤ 57 then some .vddIo
  else none

/-- The balls that R648 to R650 name. -/
def namedBall (row col : Nat) : Option Ball :=
  match edges.findSome? fun e => laneBall e (alongEdge e row col).1 (alongEdge e row col).2 with
  | some b => some b
  | none =>
    match edges.findSome? fun e => sideBall e (alongEdge e row col).1 (alongEdge e row col).2 with
    | some b => some b
    | none => match row with
      | 11 => rowL col
      | 12 => rowM col
      | 13 => rowN col
      | _ => none

/-- Supply of a ball that carries no signal (R651). -/
def supplyBall (row col : Nat) : Ball :=
  match ballDepth row col with
  | 11 => .vddaSd
  | 13 => .vddhSd
  | d =>
    if d < 15 || (row + col) % 2 = 0 then .vss
    else if d ≤ 16 then .vddSram
    else .vddCore

/-- What the ball at a row and a column carries. -/
def ball (row col : Nat) : Ball := (namedBall row col).getD (supplyBall row col)

end Sys2Proof.Machine
end

