-- ==== Sys2Proof/Tests/Slice0.lean ====
section
/-! SUPPORT. Tests of the model: ill-formed commands that WellFormed refuses, single steps with results from the spec, and for every
statement a state and operands that meet its hypotheses, clause by clause. -/

namespace Sys2Proof.Tests

-- One theorem at a time: each would otherwise hold a thread of its own.
set_option Elab.async false

open Sys2Proof Sys2Proof.Machine

/-! ### Small states -/

/-- Power up and start-up done. -/
def up : State :=
  (State.reset.onSys fun y => { y with vddAon := true, pwrOk := true, corePower := true }).wr R.GLB_START_PHASE_STEP 0 10
/-- Port 0, the manager port, ACTIVE as an upstream port. -/
def mgr : State := up.onPort 0 fun q => { q with state := .active, role := 1, mode := 1 }
def at_ (n : Nat) : State := up.wr R.GLB_START_PHASE_STEP 0 n
/-- Words of an image of format 1 with one section of a type, and its CRCs (R596, R597). -/
def imageOf (type sfmt : Nat) (body : List Word) : List Word :=
  let n := 8 * body.length
  let w := [BitVec.ofNat 64 (0x4E454750 + 0x6480 * 2 ^ 32 + 2 ^ 48), BitVec.ofNat 64 (4160 + 2 ^ 32), BitVec.ofNat 64 (2 ^ 8), 0]
    ++ List.replicate 28 0 ++ [BitVec.ofNat 64 (type + sfmt * 2 ^ 8 + 4096 * 2 ^ 32), BitVec.ofNat 64 (n + crcBytes n body * 2 ^ 32)]
    ++ List.replicate 478 0 ++ body ++ List.replicate (8 - body.length) 0
  w.set 3 (BitVec.ofNat 64 (imageCrc w))
/-- An image whose one setup record names no register. -/
def img0 : List Word := imageOf 1 1 [0x2FFFF8, 7]
def hd : Hdr := ⟨0, 2, false, true, 7, 0⟩
/-- An instruction word of a tick engine. -/
def ins (op d a b c f imm : Nat) : Word := BitVec.ofNat 64 (op * 2 ^ 56 + d * 2 ^ 51 + a * 2 ^ 46 + b * 2 ^ 41 + c * 2 ^ 36 + f * 2 ^ 32 + imm)
def entry1 : Disp := ⟨0, 1000, 31, false, false, false, false, false, false, 63, 0, 1, 0, 0, 0⟩
def item1 : Item :=
  { disp := entry1, hdr := none, args := ⟨1, 2, 3, 4⟩, tick := 0, bk := 0, firstAt := 5, pc := 0, loops := [], reqs := [], red := none, accs := [], accNow := 0,
    refused := none, instrs := 0, todo := [], multi := false, ending := none, waitUntil := none, overran := false, redisp := false,
    muted := false, stalled := false }
/-- A host object in the I/O space of the manager port. -/
def obj1 : HRef := ⟨1, 0, 0x4000⟩
def prog1 (code : List Word) : Prog := ⟨code, 0, 0, obj1, 64, 64⟩
/-- Engine 63 runs `i` of domain 1, whose program is the one instruction `w`; S1 to S5 hold 64, 8, 3, 8192, 1. Fabric addresses below 2 MiB lie in
a window. -/
def eng (i : Item) (w : Word) : State :=
  (up.onEngine 63 fun g => { ((((g.setS 1 64).setS 2 8).setS 3 3).setS 4 8192).setS 5 1 with st := .running, item := some i })
    |>.onEng (fun g => { g with progs := [(4096, some (prog1 [w]))] })
    |>.onDom (fun g => { g with doms := g.doms ++ [(1, { Domain.none with st := .active, scr := 1, prg := 1 })] })
    |>.onTabs fun t => { t with wins := [(5, some ⟨true, false, false, false, true, false, 64, 1, 0, 0, 1, 0, 0, 0, 0, 0⟩)] }
/-- A ring of D0 in the I/O space of the manager port, polled. -/
def ring1 (k : RKind) : Ring :=
  { state := .active, kind := k, log2n := 6, fmt := 2, base := 0x10000, space := 1, port := 0, dbMode := 1, dbSpace := 1, dbPort := 0,
    dbAddr := 0x2000, poll := 128, gen := 3, pair := 3, evqEn := false, evq := 0, shadow := 0, vec := 0, vecEn := false, domain := 0,
    prod := 0, cons := 0, reserved := 0, fetched := [], live := [], full := false, dropped := 0, dropAt := 0, dropTold := false, pollAt := none }
def withRings (l : Tab (Option Ring)) : State := mgr.onHost fun h => { h with rings := l }
def plan1 : List Word := BitVec.ofNat 64 (1 + 1000000 * 2 ^ 32) :: List.replicate 199 0
/-- A program image of one END. -/
def image1 : List Word :=
  [BitVec.ofNat 64 (0x47504B54 + 2 ^ 32 + 2 ^ 48), BitVec.ofNat 64 (crc32c [0x1F * 2 ^ 56] * 2 ^ 32), 0, 0, 0, 0, 0, 0, ins 0x1F 0 0 0 0 0 0]
def coef1 : List Word32 :=
  let l := (Bel.factoryCoef.take 63).map (BitVec.ofNat 32)
  l ++ [BitVec.ofNat 32 (coefCrc l)]
set_option maxRecDepth 100000 in
theorem coef1_ok : coefBad coef1 = none := by decide +kernel
/-- A message from home slice 2, at the endpoint of its output. -/
def msg1 : Msg :=
  { id := 9, src := 74, dst := 66, cls := 1, proto := 0, ncell := 2, domain := 0, epoch := 0, gen := 0, sf := false, sh := false, sc0a := false,
    addr := 0x1000, seq := 0, np := false, stamp := 0, hs := 0, win := 255, head := 0, body := [⟨0, false⟩, ⟨0, false⟩], input := 74, port := 66, ld := 0,
    pbr := none, kind := .memDrs, tag := 5, status := .ok, owed := none, flush := false, last := true, bad := false, skip := false, held := false,
    queued := false, since := 0, started := false, restarts := 0, safIn := false, from_ := .home 2, bytes := 64, final := true, waited := false,
    ch := 0, group := 9, units := 0 }
def in1 : InMsg := ⟨.home 2, .memDrs, 0x1000, 0, 0, 0, 0, some 66, 64, false, true, 0, [0], false, true, 0, 5⟩
def win1 : DWin := ⟨true, false, false, false, true, false, 64, 0, 0, 0, 1, 0, 0, 0, 0, 0⟩
/-- A read of line 0 by port 3. -/
def req1 : HReq :=
  { src := .port 3, fa := 0, domain := 0, data := 7, poison := false, be := BitVec.allOnes 64, mv := .i, io := false, posted := false, sc0 := false,
    stamp := 0, seq := 0, epoch := 0, tag := 9 }
def ent1 : DirEnt := ⟨0, .s, 0, 63, false, false, false, 0, 0⟩
def olc1 : OlcEnt := ⟨0, true, false, false, false, false, 5, 0⟩
def trk1 : Trk :=
  { la := 0, why := .request, req := none, kind := 0, op := none, keep := 0, await := 0x28, inv := false, awaitMem := false, awaitFwd := false,
    awaitWb := false, rsps := 0, mem := none, fwd := none, orig := .m, shr0 := 0, owner0 := 3, written := false, prior := (0, false), sent := 0,
    queue := [], after := [], wbTaken := false, snooped := 0x28, lostDue := false, wbPend := none, mute := false, wbDone := false }
def bucket1 : Bucket :=
  { rate := 1, burst := 1024, port := 3, cls := 4, egress := false, act := 0, init := 0, blw := false, gfreeze := false, report := false, ovh := 0, ovhIn := 0, tag := 0,
    tokens := 5, since := 0, cleared := none, load := false, wasValid := false, past := [], repB := 0, repNc := 0, repHeld := 0, repLow := 0 }
def act1 : Act :=
  { hdr := some hd, slot := 1, tick := 7, offset := 5, windowS := 1, cold := false, started := 0, prev := 2, tries := 0, paused := false, pauseAt := 0,
    capx0 := 0, miss := 0, trialAt := 0, fc3 := false, unready := false, evict := [] }
def sel1 : Selector :=
  { seq := 4294967295, active := 0, prev := 2, trial := false, armed := false, trialS := 0, validA := true, validB := true, hours := 140000,
    whoursA := 139999, whoursB := 0, verA := 1, verB := 1 }
def credit8 : Credit := { Credit.zero with hLim := 8, dLim := 8, rxHLim := 8, rxDLim := 8, rxHAdv := 8, rxDAdv := 8 }
/-- A Dolet record of format `v`: its header and an END section. -/
def rec1 (v : Nat) : List Word :=
  let h : List Word := [BitVec.ofNat 64 (v + mgr.rd R.GLB_ID_STEP * 2 ^ 8 + mgr.rd R.GLB_ID_DEVICE * 2 ^ 16 + 0x544C4F44 * 2 ^ 32), BitVec.ofNat 64 (9 * 2 ^ 32), 4, 0, 3,
    3000000, 1000000] ++ List.replicate 25 0
  h.set 31 (BitVec.ofNat 64 (crcBytes 0xFC h * 2 ^ 32)) ++ [BitVec.ofNat 64 (0x1F + 2 ^ 8 + 32 * 2 ^ 32), 0, BitVec.ofNat 64 (crcBytes 0 [] * 2 ^ 32), 0]
def flit1 : TxFlit := ⟨[⟨1, 1, 4⟩], true, false, [], 1⟩
def yo (n : Nat) : YoFlit := ⟨n, ⟨[], true, false, [], 0⟩, []⟩
/-! Hypotheses that are structures, from their parts. -/
theorem served {p s} (h : s.pathServes p = true ∧ s.flt.safe = false ∧ s.img.hold = false ∧ s.rd R.GLB_CTRL_SEAL = 0 ∧ (p = .i3c → s.rd R.GLB_CTRL_I3C_WR = 1)) :
    Served p s := by
  obtain ⟨opened, live, steady, unsealed, i3c⟩ := h
  constructor <;> assumption
theorem admitted {h ds s} (p : s.serving = true ∧ (h.fmt = 1 ∧ h.nocpl = false ∨ h.fmt = 2) ∧ h.ring.val = 0 ∧ h.domain.toNat ≤ 4095
    ∧ s.anyResetting (h.domain.toNat :: ds) = false) : Admitted h ds s := by
  obtain ⟨serving, fmt, first, second, live⟩ := p
  constructor <;> assumption
theorem permitted {h s} (p : s.serving = true ∧ (h.fmt = 1 ∧ h.nocpl = false ∨ h.fmt = 2) ∧ h.domain.toNat ≤ 4095
    ∧ (h.ring.val = 0 ∨ h.domain.toNat = s.ringDomain h.ring.val) ∧ s.anyResetting [h.domain.toNat] = false) : Permitted h s := by
  obtain ⟨serving, fmt, first, second, live⟩ := p
  constructor <;> assumption
theorem homeQuiet {s} (h : s.home.trk = [] ∧ s.home.pins = [] ∧ s.home.confs = [] ∧ s.home.owed = [] ∧ s.flt.inverted = []) : HomeQuiet s := by
  obtain ⟨trk, pins, confs, owed, whole⟩ := h
  constructor <;> assumption
theorem enginesRest {s} (h : s.pit.current.disp = [] ∧ ∀ e, s.item e = none) : EnginesRest s := ⟨h.1, h.2⟩
theorem atHome {r w s} (q : HomeQuiet s) (h : s.serving = true ∧ s.takes r = true ∧ (s.slice (sliceOf r.la)).failed = false ∧ s.lineWin r.la = some w
    ∧ (w.rt = false ∧ w.u = false) ∧ (r.tag ≠ recallTag ∧ r.io = false ∧ r.errs = []) ∧ s.isWatched r.la = false) : AtHome r w s := by
  obtain ⟨serving, taken, works, mapped, plain, own, watched⟩ := h
  constructor <;> assumption
theorem runs {e op x ss ls i s} (h : s.runs e op x = some i ∧ (∀ d ∈ ss, i.pendS d = false) ∧ ∀ l ∈ ls, i.pendL l = false) : Runs e op x ss ls i s :=
  ⟨h.1, h.2.1, h.2.2⟩
theorem objectOk {h o len need s} (p : refusedParts (s.decide (s.ringDomain h.ring.val) o.space.toNat o.port.val need (partsOf o.addr.toNat len)) = []
    ∧ (o.space = 0 → ∀ a ∈ partsOf o.addr.toNat len, s.window 64 a ≠ none)) : ObjectOk h o len need s := p
theorem slotsGood {g : Img} (h : (g.slotA.all fun w => (imageBad w).isNone) = true ∧ (g.slotB.all fun w => (imageBad w).isNone) = true) :
    ∀ i w, g.bytesOf i = some w → imageBad w = none := by
  intro i w e
  unfold Img.bytesOf at e
  split at e
  · have := h.1; rw [e] at this; simpa using this
  · split at e
    · have := h.2; rw [e] at this; simpa using this
    · cases e
theorem noRun {o : Option Image} (h : o = none) : ∀ i, o = some i → i.svnCommit = false := by
  intro i e; rw [h] at e; cases e
theorem isRight {x : Cpl ⊕ State} (h : x.isRight = true) : x = .inr (x.elim (fun _ => mgr) id) := by
  cases x <;> simp_all


/-! ### Commands that are not well formed -/

theorem test_ill_formed_fmt : (Instr.imageConfirm { hd with fmt := 256 }).wellFormed = false := by decide +kernel

theorem test_ill_formed_plan_length : (Instr.planLoad hd obj1 (List.replicate 202 0)).wellFormed = false := by decide +kernel

theorem test_ill_formed_image_bytes : (Instr.imageStage hd 0 obj1 (img0 ++ [0])).wellFormed = false := by decide +kernel

theorem test_ill_formed_marionette_length : (Instr.marionetteAccess false 0 4104 []).wellFormed = false := by decide +kernel

theorem test_ill_formed_marionette_alignment : (Instr.marionetteAccess false 4 8 []).wellFormed = false := by decide +kernel

theorem test_ill_formed_marionette_data : (Instr.marionetteAccess true 0 16 [1]).wellFormed = false := by decide +kernel

theorem test_ill_formed_flit_number : (Instr.flitReceived 2 false false true 4096 false []).wellFormed = false := by decide +kernel

theorem test_ill_formed_ack_number : (Instr.ackReceived 2 4096).wellFormed = false := by decide +kernel

theorem test_ill_formed_nak_number : (Instr.nakReceived 2 4096 true).wellFormed = false := by decide +kernel

theorem test_ill_formed_counter_index : (Instr.counterSnapshot 1 1024).wellFormed = false := by decide +kernel

theorem test_ill_formed_audit_twice : (Instr.columnAudit [(3, 1), (3, 2)]).wellFormed = false := by decide +kernel

theorem test_ill_formed_dispatch_index : (Instr.dispatchDue 256).wellFormed = false := by decide +kernel

theorem test_ill_formed_temperatures : (Instr.tempSample [100]).wellFormed = false := by decide +kernel

theorem test_ill_formed_bucket_slot : (Instr.bucketSlotRelease 1 1024).wellFormed = false := by decide +kernel

theorem test_ill_formed_descriptor_words : (Instr.descriptorFetch 2 (some [0, 0, 0, 0, 0])).wellFormed = false := by decide +kernel

theorem test_ill_formed_target_list : (Instr.tlistWrite hd 0 obj1 [0]).wellFormed = false := by decide +kernel

theorem test_ill_formed_program_header : (Instr.progLoad hd 0 obj1 [0]).wellFormed = false := by decide +kernel

theorem test_ill_formed_coefficients : (Instr.blwCoefLoad hd obj1 [0]).wellFormed = false := by decide +kernel

theorem test_ill_formed_window_list : (Instr.recStart hd 0 0 0 0 0 0 (List.replicate 66 0)).wellFormed = false := by decide +kernel

theorem test_ill_formed_ageing_readings : (Instr.ageingSample [] []).wellFormed = false := by decide +kernel

theorem test_ill_formed_message_length : (Instr.messageIngress { in1 with len := 4097 }).wellFormed = false := by decide +kernel

theorem test_ill_formed_message_device : (Instr.messageIngress { in1 with ld := 32 }).wellFormed = false := by decide +kernel

theorem test_ill_formed_record_length : (Instr.recReplay hd 0 8 [0] 0).wellFormed = false := by decide +kernel

theorem test_ill_formed_record_bytes : (Instr.recReplay hd 0 64 [0] 0).wellFormed = false := by decide +kernel

theorem test_well_formed : (Instr.planLoad hd obj1 plan1).wellFormed = true := by decide +kernel


/-! ### Single steps and values, with results from the spec -/

/-- What a command leaves. -/
def after (c : Instr) (s : State) : State := match exec c s with
  | .next t => t
  | _ => s

/-- Spec 19, worked example for Cell 7: the balls of PS38. -/
theorem test_ball_lane : ballName 71 40 = "CP40" ∧ ball 71 40 = .txP 152 := by decide +kernel

theorem test_balls_sideband : (ballName 64 43, ball 64 43) = ("CG43", .prsntN 38) ∧ (ballName 63 43, ball 63 43) = ("CF43", .pwren 38)
    ∧ (ballName 63 35, ball 63 35) = ("CF35", .disch 38) := by decide +kernel

/-- Spec 09, example "setpoint fan-out", index 4: LINS L1 byte 0x30, 8 bytes, from S5. -/
theorem test_fields_lins : opcOf 0x29080A0300000030 = 0x29 ∧ fieldsOf 0x29080A0300000030 = ⟨1, 0, 5, 0, 3, 0x30⟩ := by decide +kernel

/-- The same example, index 9: PUB L0, table S2, offset S0, count S3. -/
theorem test_fields_pub : opcOf 0x3400803000000000 = 0x34 ∧ fieldsOf 0x3400803000000000 = ⟨0, 2, 0, 3, 0, 0⟩ := by decide +kernel

/-- Spec 09, example "vision result reduction", index 1: LOOP S8, body 4, LMAX 4, index S9. -/
theorem test_fields_loop : opcOf 0x114A000000040004 = 0x11 ∧ (fieldsOf 0x114A000000040004).d = 9 ∧ (fieldsOf 0x114A000000040004).a = 8 := by decide +kernel

/-- Index 7 of the fan-out: XOR S7, S7, 0xFFFF_FFFF zero-extended; S7 holds 0 before. -/
theorem test_xor_inverts : ((after (.xor 63 (fieldsOf 0x0539C005FFFFFFFF)) (eng item1 0x0539C005FFFFFFFF)).engine 63).getS 7 = 0xFFFFFFFF := by
  decide +kernel

/-- A sum wraps modulo 2^64 (R366): S7 = S1 + (−65), with S1 = 64. -/
theorem test_add_wraps : ((after (.add 63 ⟨7, 1, 0, 0, 1, 0xFFFFFFBF⟩) (eng item1 (ins 1 7 1 0 0 1 0xFFFFFFBF))).engine 63).getS 7 = 0xFFFFFFFFFFFFFFFF := by
  decide +kernel

/-- An arithmetic shift copies the sign (R365): S7 = −1 stays −1. -/
theorem test_sar_sign : ((after (.sar 63 ⟨7, 7, 0, 0, 1, 4⟩)
    ((eng item1 (ins 8 7 7 0 0 1 4)).onEngine 63 fun g => g.setS 7 (BitVec.allOnes 64))).engine 63).getS 7 = BitVec.allOnes 64 := by decide +kernel

/-- Spec 12, the example of the calibration: 71.52 W against 66.0 W moves κ from 1 to 1.0105, in units of 1/4,096. -/
theorem test_kappa_example : kappaNext 4096 71520 66000 ∈ [4138, 4139] := by decide +kernel

/-- Spec 12, the worked example of R448: 18.5 W of leakage at 75 °C, in quarters of a degree 300. -/
theorem test_leakage_example : ({ State.reset.bel with temp := 300 } : Bel).leak = 18500 := by decide +kernel

/-- The same example: 12,000 cells written and read, 3,000 directory lookups, 1,500 and 1,000 OLC reads and writes, 10,000 engine cycles and
20,000 parts decided take 22.560 + 1.945 + 3.400 µJ. -/
theorem test_energy_example : ({ State.reset.bel with evCwr := 12000, evCrd := 12000, evDir := 3000, evOlcR := 1500, evOlcW := 1000, evCyc := 10000, evChk := 20000 } : Bel).dynamic = 27905000 := by
  decide +kernel

/-- The CRC-32C of 32 bytes of zeros, and of ones, as RFC 3720 lists them. -/
theorem test_crc32c : crc32c [0, 0, 0, 0] = 0x8A9136AA ∧ crc32c (List.replicate 4 (2 ^ 64 - 1)) = 0x62A8AB43 := by decide +kernel

/-- Sixteen ticks of a free-running clock at its nominal rate make 10 ns (R37). -/
theorem test_rate : up.pit.rate * 16 = 10 * 2 ^ 32 := by decide +kernel

/-- A BARRIER of a format that is not supported opens no epoch (R485, R486). -/
theorem test_fmt_unsupported : (after (.barrier { hd with fmt := 3 }) mgr).fab.epoch = mgr.fab.epoch := by decide +kernel

/-- A command of a ring has no effect while the device starts (R486, R641). -/
theorem test_not_serving : (after (.windowUnbind hd 5) (at_ 7)).tabs = (at_ 7).tabs := by decide +kernel

/-- DOMAIN_DESTROY of D0 is DENIED (R391). -/
theorem test_first_domain_stays : ((after (.domainDestroy hd) mgr).domain 0).st = .active := by decide +kernel

/-- PWR_OK falls: the device stops (R623). -/
theorem test_power_falls : (after .pwrOkFall up).sys.pwrOk = false := by decide +kernel


/-! ### Hypotheses that something meets -/

set_option maxRecDepth 100000

theorem test_meets_StepRunsFront : (∃ s : State, s.pending = [] ∧ s.rec_.st ≠ .replay ∧ s.cclkRuns = true)
    ∧ (∃ s : State, s.pending = [] ∧ s.rec_.st = .replay ∧ s.cclkRuns = false)
    ∧ (∃ s : State, s.pending = [] ∧ s.rec_.st = .replay ∧ s.cclkRuns = true ∧ 0 ≤ s.rec_.feed.length ∧ ({ s with rec_ := { s.rec_ with fed := 0 }, free := s.free + 1 } : State).replayHeld = true)
    ∧ ∃ s : State, s.pending = [] ∧ s.rec_.st = .replay ∧ s.cclkRuns = true ∧ 0 ≤ s.rec_.feed.length ∧ ({ s with rec_ := { s.rec_ with fed := 0 }, free := s.free + 1 } : State).replayHeld = false :=
  ⟨⟨up, by decide +kernel⟩, ⟨State.reset.onRec fun r => { r with st := .replay }, by decide +kernel⟩,
   ⟨(up.onRec fun r => { r with st := .replay, replay := some hd, feed := [⟨0, 256, none⟩] }), by decide +kernel⟩, ⟨(up.onRec fun r => { r with st := .replay, replay := some hd }), by decide +kernel⟩⟩

theorem test_meets_CommandFrames : ∃ (c : Instr) (s t : State), exec c s = .next t :=
  ⟨.vddAonRise, State.reset, (((State.reset.onSys fun y => { y with vddAon := true, jtagHold := false }).coldStart 1).toStep 1 |>.onSys fun y => { y with corePower := false }), rfl⟩

theorem test_meets_StepKeepsForm : ∃ s : State, s.wf :=
  ⟨mgr, by simp only [State.wf, Sys.wf, HostIf.wf, Flt.wf, Eng.wf, Dom.wf, Tool.wf, Fab.wf, Tabs.wf, Home.wf, Bel.wf, Rec.wf, Memory.wf]; decide +kernel⟩

theorem test_meets_StepTakesNothingBack : ∃ s t : State, step s = .next t :=
  ⟨{ State.reset with pending := [.vddAonRise] }, (((({ State.reset with pending := [] } : State).onSys fun y => { y with vddAon := true, jtagHold := false }).coldStart 1).toStep 1 |>.onSys fun y => { y with corePower := false }), rfl⟩

theorem test_meets_CommandChecks :
    (∃ (c : Instr) (h : Hdr) (s : State), commandHeader c = some h ∧ s.serving = false)
    ∧ (∃ (c : Instr) (h : Hdr) (s : State), commandHeader c = some h ∧ s.serving = true ∧ h.fmt ≠ 1 ∧ h.fmt ≠ 2)
    ∧ (∃ (c : Instr) (h : Hdr) (s : State), commandHeader c = some h ∧ s.serving = true ∧ h.fmt = 1 ∧ h.nocpl = true)
    ∧ (∃ (c : Instr) (h : Hdr) (s : State), commandHeader c = some h ∧ s.serving = true ∧ h.fmt = 2 ∧ 4095 < h.domain.toNat) :=
  ⟨⟨.imageConfirm hd, hd, State.reset, by decide +kernel⟩,
   ⟨.imageConfirm { hd with fmt := 3 }, { hd with fmt := 3 }, mgr, by decide +kernel⟩,
   ⟨.imageConfirm { hd with fmt := 1, nocpl := true }, { hd with fmt := 1, nocpl := true }, mgr, by decide +kernel⟩,
   ⟨.imageConfirm { hd with domain := 4096 }, { hd with domain := 4096 }, mgr, by decide +kernel⟩⟩

theorem test_meets_CompletionWritten :
    (∃ (h : Hdr) (x : Cpl) (s : State) (r q : Ring), s.ring h.ring.val = some r ∧ r.state ≠ .error ∧ s.cqOf h.ring.val ≠ h.ring.val ∧ s.ring (s.cqOf h.ring.val) = some q ∧ q.reserved ≠ 0 ∧ s.ringServes (s.cqOf h.ring.val) = true ∧ h.fmt = 2 ∧ h.nocpl = true ∧ x.status = .ok)
    ∧ (∃ (h : Hdr) (x : Cpl) (s : State) (r q : Ring), s.ring h.ring.val = some r ∧ r.state ≠ .error ∧ s.cqOf h.ring.val ≠ h.ring.val ∧ s.ring (s.cqOf h.ring.val) = some q ∧ q.reserved ≠ 0 ∧ s.ringServes (s.cqOf h.ring.val) = true ∧ (h.nocpl = false ∨ x.status ≠ .ok) ∧ s.hostAllows q.domain q.space q.port (q.base + 32 * (q.prod % 2 ^ q.log2n)) needW = true ∧ q.evqEn = false)
    ∧ (∃ (h : Hdr) (x : Cpl) (s : State) (r q : Ring), ∃ n, s.ring h.ring.val = some r ∧ r.state ≠ .error ∧ s.cqOf h.ring.val ≠ h.ring.val ∧ s.ring (s.cqOf h.ring.val) = some q ∧ q.reserved ≠ 0 ∧ s.ringServes (s.cqOf h.ring.val) = true ∧ (h.nocpl = false ∨ x.status ≠ .ok) ∧ s.hostAllows q.domain q.space q.port (q.base + 32 * (q.prod % 2 ^ q.log2n)) needW = true ∧ q.evqEn = false ∧ n ≠ h.ring.val ∧ n ≠ s.cqOf h.ring.val) :=
  ⟨⟨{ hd with ring := 8191, tag := 5, nocpl := true }, {}, (withRings [(3, some { ring1 .cq with reserved := 1, prod := 4294967295 }), (8191, some { ring1 .sq with pair := 3, fetched := [], live := [⟨5, false⟩] })]), { ring1 .sq with pair := 3, fetched := [], live := [⟨5, false⟩] }, { ring1 .cq with reserved := 1, prod := 4294967295 }, by decide +kernel⟩,
   ⟨{ hd with ring := 8191, tag := 5, nocpl := false }, {}, (withRings [(3, some { ring1 .cq with reserved := 1, prod := 4294967295 }), (8191, some { ring1 .sq with pair := 3, fetched := [], live := [⟨5, false⟩] })]), { ring1 .sq with pair := 3, fetched := [], live := [⟨5, false⟩] }, { ring1 .cq with reserved := 1, prod := 4294967295 }, by decide +kernel⟩,
   ⟨{ hd with ring := 8191, tag := 5, nocpl := true }, { status := .denied }, (withRings [(3, some { ring1 .cq with reserved := 1, prod := 4294967295 }), (8191, some { ring1 .sq with pair := 3, fetched := [], live := [⟨5, false⟩] })]), { ring1 .sq with pair := 3, fetched := [], live := [⟨5, false⟩] }, { ring1 .cq with reserved := 1, prod := 4294967295 }, 1, by decide +kernel⟩⟩

theorem test_meets_RegionDecision :
    (∃ a len : Nat, ∃ _x ∈ partsOf a len, 0 < len)
    ∧ (∃ a len : Nat, ∃ b, 0 < len ∧ a ≤ b ∧ b < a + len) :=
  ⟨⟨0x3F, 2, 0x3F, by decide, by decide +kernel⟩,
   ⟨0x3F, 2, 0x40, by decide +kernel⟩⟩

theorem test_meets_RepeatedFaults :
    (∃ (s : State) (cause unit _detail _addr i : Nat) (_inj : Bool) (e : FltEntry), s.findFlt cause unit = some (i, e))
    ∧ (∃ (s : State) (cause unit _detail _addr i : Nat) (_inj : Bool) (e : FltEntry), ∃ j, s.findFlt cause unit = some (i, e) ∧ j ≠ i) :=
  ⟨⟨(mgr.onFlt fun g => { g with entries := [(2, some ⟨0x131, 5, 1, false, 0, 0⟩)] }), 0x131, 5, 0, 0, 2, false, ⟨0x131, 5, 1, false, 0, 0⟩, by decide +kernel⟩,
   ⟨(mgr.onFlt fun g => { g with entries := [(2, some ⟨0x131, 5, 1, false, 0, 0⟩)] }), 0x131, 5, 0, 0, 2, false, ⟨0x131, 5, 1, false, 0, 0⟩, 255, by decide +kernel⟩⟩

theorem test_meets_ZeroRegister :
    (∃ (_g : Engine) (d _f : Fin 32) (_v : Word), d ≠ 0)
    ∧ (∃ (_g : Engine) (d f : Fin 32) (_v : Word), f ≠ d) :=
  ⟨⟨mgr.engine 63, 31, 0, 7, by decide +kernel⟩,
   ⟨mgr.engine 63, 31, 1, 7, by decide +kernel⟩⟩

theorem test_meets_OlderEpochs : ∃ e f : Nat, e < 65536 ∧ f < 65536 :=
  ⟨65535, 0, by decide +kernel⟩

theorem test_meets_FirstDomain : ∃ (h : Hdr) (_q : Bool) (s : State), Admitted h [] s ∧ h.domain = 0 :=
  ⟨hd, true, mgr, admitted (by decide +kernel), by decide +kernel⟩

theorem test_meets_ColdStarts :
    (∃ s : State, s.sys.pwrOk = false)
    ∧ (∃ s : State, s.sys.vddAon = true ∧ s.sys.pwrOk = false ∧ s.sys.rstN = true ∧ s.sys.lowSince = true)
    ∧ (∃ s : State, s.sys.rstN = false ∧ s.sys.pwrOk = true)
    ∧ (∃ (s : State) (c : Nat), s.sys.coldDue = some c ∧ c < 8 ∧ s.sys.pwrOk = true ∧ s.sys.rstN = true) :=
  ⟨⟨State.reset, by decide +kernel⟩,
   ⟨(up.onSys fun y => { y with pwrOk := false, lowSince := true }), by decide +kernel⟩,
   ⟨(up.onSys fun y => { y with rstN := false }), by decide +kernel⟩,
   ⟨(up.onSys fun y => { y with coldDue := some 7 }), 7, by decide +kernel⟩⟩

theorem test_meets_PowerFalls :
    (∃ s : State, s.sys.pwrOk = true)
    ∧ (∃ s : State, s.sys.rstN = true ∧ s.sys.corePower = true)
    ∧ (∃ s : State, s.sys.vddAon = true ∧ s.rd R.GLB_STRAP_BOOT_SEL ≠ 3 ∧ s.sys.jtagHold = false ∧ s.sys.corePower = true)
    ∧ (∃ (s : State) (_ir : JtagIr), s.sys.vddAon = true ∧ s.rd R.GLB_STRAP_BOOT_SEL = 3) :=
  ⟨⟨up, by decide +kernel⟩,
   ⟨up, by decide +kernel⟩,
   ⟨up, by decide +kernel⟩,
   ⟨(up.wr R.GLB_STRAP_BOOT_SEL 0 3), .test, by decide +kernel⟩⟩

theorem test_meets_StartSteps :
    (∃ (s : State) (_b : BitVec 2) (_m : BitVec 6), s.inStep 2 = true)
    ∧ (∃ s : State, s.inStep 4 = true)
    ∧ (∃ (s : State) (_us : Nat), s.inStep 5 = true ∧ s.rd R.GLB_STRAP_BOOT_SEL = 1)
    ∧ (∃ s : State, s.inStep 7 = true ∧ s.rd R.GLB_STRAP_BOOT_SEL = 2 ∧ s.img.running = none ∧ s.rd R.GLB_CTRL_I3C_WR = 1 ∧ s.rd R.GLB_CTRL_SEAL = 0 ∧ s.imageFails s.sys.rcvData.reverse = none)
    ∧ (∃ s : State, ∃ c, s.imageFails s.sys.rcvData.reverse = some c ∧ s.inStep 7 = true ∧ s.rd R.GLB_STRAP_BOOT_SEL = 2 ∧ s.img.running = none ∧ s.rd R.GLB_CTRL_I3C_WR = 1 ∧ s.rd R.GLB_CTRL_SEAL = 0)
    ∧ (∃ s u : State, u = ((s.coldLoad s.img.running).forceManagerPort).toStep 8 ∧ s.inStep 7 = true ∧ s.loadReady = true ∧ u.isLowest u.mgrPort = true ∧ u.cfgRole u.mgrPort = 1) :=
  ⟨⟨(at_ 2), 2, 63, by decide +kernel⟩,
   ⟨(at_ 4), by decide +kernel⟩,
   ⟨((at_ 5).wr R.GLB_STRAP_BOOT_SEL 0 1), 70000, by decide +kernel⟩,
   ⟨(((at_ 7).wr R.GLB_STRAP_BOOT_SEL 0 2).onSys fun y => { y with rcvData := img0.reverse }), by decide +kernel⟩,
   ⟨((at_ 7).wr R.GLB_STRAP_BOOT_SEL 0 2), _, rfl, by decide +kernel⟩,
   ⟨(((at_ 7).wr R.GLB_STRAP_BOOT_SEL 0 1).wr R.PRT_CFG_ROLE 0 1), _, rfl, by decide +kernel⟩⟩

theorem test_meets_ManagementBuses :
    (∃ (s : State) (_a : BitVec 7), s.sys.vddAon = true)
    ∧ (∃ (s : State) (m : List Byte), s.serving = true ∧ m ≠ [])
    ∧ (∃ (s : State) (write : Bool) (fa : Word) (len : Nat) (data : List Byte), s.serving = true ∧ s.sys.jtagIr = .marionette ∧ (Instr.marionetteAccess write fa len data).wellFormed = true ∧ s.marionetteOpen = true)
    ∧ (∃ (s : State) (write : Bool) (fa : Word) (len : Nat) (data : List Byte), s.serving = true ∧ s.sys.jtagIr = .marionette ∧ (Instr.marionetteAccess write fa len data).wellFormed = true ∧ s.marionetteOpen = false) :=
  ⟨⟨up, 0x51, by decide +kernel⟩,
   ⟨up, [1], by decide +kernel⟩,
   ⟨(((up.onSys fun y => { y with jtagIr := .marionette }).wr R.DBG_CTRL_EN 0 1).onDom fun g => { g with doms := [(0, { Domain.zero with debug := true })] }), true, 0x1000, 8, [0, 1, 2, 3, 4, 5, 6, 7], by decide +kernel⟩,
   ⟨(up.onSys fun y => { y with jtagIr := .marionette }), false, 0x1000, 4096, [], by decide +kernel⟩⟩

theorem test_meets_SetupValuesTaken :
    (∃ (p : Path) (s : State), ∃ _v : Word, Served p s)
    ∧ (∃ (p : Path) (s : State), Served p s)
    ∧ (∃ (p : Path) (s : State), ∃ th : BitVec 2, Served p s ∧ th ≠ 3)
    ∧ (∃ (p : Path) (s : State), ∃ _pr : BitVec 2, Served p s) :=
  ⟨⟨.bar0, mgr, 5, served (by decide +kernel)⟩,
   ⟨.i3c, up, served (by decide +kernel)⟩,
   ⟨.bar0, mgr, 2, served (by decide +kernel), by decide +kernel⟩,
   ⟨.bar0, mgr, 2, served (by decide +kernel)⟩⟩

theorem test_meets_SetupActions :
    (∃ (p : Path) (s : State), Served p s)
    ∧ (∃ (p : Path) (s : State), ∃ (q : Fin 16) (_m : BitVec 2), Served p s ∧ ((List.range 4).all fun i => (s.portN (4 * q.val + i)).state = .off) = true ∧ Tab.get noneAt s.tool.quadWait q.val = none)
    ∧ (∃ (p : Path) (s : State), ∃ _r : Bool, Served p s ∧ s.rd R.GLB_EXPERT_EN % 2 = 1)
    ∧ (∃ (p : Path) (s : State), ∃ _b : Bool, Served p s ∧ s.rd R.GLB_STRAP_BOOT_SEL = 3)
    ∧ (∃ (p : Path) (s : State), Served p s) :=
  ⟨⟨.bar0, mgr, served (by decide +kernel)⟩,
   ⟨.bar0, mgr, 1, 1, served (by decide +kernel), by decide +kernel⟩,
   ⟨.bar0, (mgr.wr R.GLB_EXPERT_EN 0 1), true, served (by decide +kernel), by decide +kernel⟩,
   ⟨.i3c, (up.wr R.GLB_STRAP_BOOT_SEL 0 3), true, served (by decide +kernel), by decide +kernel⟩,
   ⟨.bar0, mgr, served (by decide +kernel)⟩⟩

theorem test_meets_BufferReads :
    (∃ s : State, ∃ n : BitVec 23, Served .i3c s ∧ n.toNat ≠ s.rd R.GLB_RCV_CTRL_LEN)
    ∧ (∃ s : State, ∃ _d : Word, Served .i3c s ∧ s.sys.rcvLenSet = true ∧ s.sys.rcvPos + 8 ≤ s.rd R.GLB_RCV_CTRL_LEN)
    ∧ (∃ s : State, s.sys.corePower = true)
    ∧ (∃ (s : State) (w : Nat) (l : List Nat), s.rec_.frozen = true ∧ s.rec_.buf = w :: l)
    ∧ (∃ s : State, (s.rec_.frozen = false ∨ s.rec_.buf = [])) :=
  ⟨⟨up, 0x400000, served (by decide +kernel), by decide +kernel⟩,
   ⟨((up.onSys fun y => { y with rcvLenSet := true, rcvPos := 8 }).wr R.GLB_RCV_CTRL_LEN 0 16), 9, served (by decide +kernel), by decide +kernel⟩,
   ⟨up, by decide +kernel⟩,
   ⟨(up.onRec fun r => { r with frozen := true, buf := [9] }), 9, [], by decide +kernel⟩,
   ⟨up, by decide +kernel⟩⟩

theorem test_meets_FaultAndRingControl :
    (∃ (p : Path) (s : State), ∃ (i : Byte) (e : FltEntry), Served p s ∧ s.fltEntry i.toNat = some e ∧ e.cause ≠ 0x307)
    ∧ (∃ (p : Path) (s : State), ∃ c : BitVec 3, Served p s ∧ 1 ≤ c.toNat ∧ c.toNat ≤ 4)
    ∧ (∃ (p : Path) (s : State), Served p s ∧ s.rd R.GLB_MRING_CTRL_EN = 0 ∧ (s.wr R.GLB_MRING_CTRL_EN 0 1).mringOk = true ∧ (∀ n, n < 256 → (s.source n).cnt = 0))
    ∧ (∃ (p : Path) (s : State), Served p s ∧ s.rd R.GLB_MRING_CTRL_EN = 1 ∧ s.img.phase ≠ .trial) :=
  ⟨⟨.bar0, (mgr.onFlt fun g => { g with entries := [(2, some ⟨0x131, 5, 1, false, 0, 0⟩)] }), 2, _, served (by decide +kernel), rfl, by decide +kernel⟩,
   ⟨.bar0, (mgr.onFlt fun g => { g with entries := [(2, some ⟨0x131, 5, 1, false, 0, 0⟩)] }), 4, served (by decide +kernel), by decide +kernel⟩,
   ⟨.bar0, (mgr.setReg 0x100 0x106 |>.setReg 0x108 0x110 |>.setReg 0x110 0x206 |>.setReg 0x128 0x102), served (by decide +kernel), by decide +kernel⟩,
   ⟨.bar0, (mgr.wr R.GLB_MRING_CTRL_EN 0 1), served (by decide +kernel), by decide +kernel⟩⟩

theorem test_meets_PortPower :
    (∃ (s u : State) (p : PortId), u = s.reach ((s.port p).prsntAt + 1000) ∧ s.serving = true ∧ s.isLowest p.val = true ∧ (s.port p).prsntRaw = false ∧ (s.port p).prsnt = true ∧ u.flt.safe = false ∧ u.isDownstream p.val = true ∧ u.groupHeld p.val = false ∧ (s.port p).state = .off ∧ (s.port p).fenced = false ∧ s.powered p.val = false)
    ∧ (∃ (s u : State) (p : PortId), u = s.reach ((s.port p).prsntAt + 1000) ∧ s.serving = true ∧ s.isLowest p.val = true ∧ (s.port p).prsntRaw = true ∧ (s.port p).prsnt = false ∧ u.flt.safe = false ∧ (s.port p).state = .training ∧ (s.port p).rate = 0 ∧ Tab.get noneAt s.tool.quadWait (p.val / 4) = none)
    ∧ (∃ (s : State) (p : PortId), s.serving = true ∧ s.mayRamp p.val = true)
    ∧ (∃ (s u : State) (p : PortId), u = s.reach ((s.port p).powerAt + 100000) ∧ s.serving = true ∧ (s.port p).state = .powerUp ∧ s.powered p.val = false ∧ s.sys.disch.getLsbD p.val = false)
    ∧ (∃ (s : State) (p : PortId), s.isLowest p.val = true ∧ (s.port p).pwrgd = false)
    ∧ (∃ (s u : State) (p : PortId), u = s.reach ((s.port p).powerAt + 100000000) ∧ s.serving = true ∧ (s.port p).state = .powerUp ∧ s.powered p.val = true ∧ (s.port p).pwrgd = true)
    ∧ (∃ (s : State) (p : PortId), s.isLowest p.val = true ∧ (s.port p).pwrgd = true ∧ s.serving = true ∧ s.powered p.val = true ∧ ((s.port p).state = .powerUp ∨ (s.port p).state = .training ∧ (s.port p).rate = 0) ∧ Tab.get noneAt s.tool.quadWait (p.val / 4) = none)
    ∧ (∃ (s : State) (p : PortId), s.isLowest p.val = true ∧ (s.port p).pwrgd = true ∧ s.serving = true ∧ s.powered p.val = true ∧ (s.port p).canFall = true)
    ∧ (∃ (s u : State) (p : PortId), u = s.reach ((s.port p).powerAt + (2 * s.rd R.BLW_PORT_LOAD_RAMP_MS p.val + 5) * 1000000) ∧ s.serving = true ∧ s.powered p.val = true ∧ (s.port p).pwrgd = false ∧ (s.port p).ramping = true ∧ (s.port p).state = .powerUp ∧ Tab.get noneAt s.tool.quadWait (p.val / 4) = none ∧ u.flt.safe = false) :=
  ⟨⟨((up.onPort 63 fun q => { q with prsntRaw := false }).wr R.PRT_CFG_ROLE 63 2), _, 63, rfl, by decide +kernel⟩,
   ⟨(up.onPort 5 fun q => { q with prsntRaw := true, prsnt := false, state := .training }), _, 5, rfl, by decide +kernel⟩,
   ⟨(up.onPort 63 fun q => { q with upWait := true }), 63, by decide +kernel⟩,
   ⟨((up.onPort 2 fun q => { q with state := .powerUp }).onSys fun y => { y with disch := 0 }), _, 2, rfl, by decide +kernel⟩,
   ⟨up, 63, by decide +kernel⟩,
   ⟨((up.onPort 2 fun q => { q with state := .powerUp, pwrgd := true }).onSys fun y => { y with pwren := 4, disch := 0 }), _, 2, rfl, by decide +kernel⟩,
   ⟨((up.onPort 2 fun q => { q with state := .training, pwrgd := true }).onSys fun y => { y with pwren := 4, disch := 0 }), 2, by decide +kernel⟩,
   ⟨((up.onPort 2 fun q => { q with state := .training, rate := 3, pwrgd := true }).onSys fun y => { y with pwren := 4, disch := 0 }), 2, by decide +kernel⟩,
   ⟨((up.onPort 2 fun q => { q with state := .powerUp, ramping := true }).onSys fun y => { y with pwren := 4, disch := 0 }), _, 2, rfl, by decide +kernel⟩⟩

theorem test_meets_PortTraining :
    (∃ (s : State) (p : PortId) (w : Fin 6) (r : Fin 7) (o : FlitOffer) (_sw : Bool) (m : Nat) (q : Port), q = (if (s.port p).state = .off then s.startTraining p.val else s).port p ∧ s.serving = true ∧ s.mayTrain p.val = true ∧ 1 ≤ w.val ∧ w.val ≤ widthCode (s.cfgLanes p.val) ∧ 1 ≤ r.val ∧ r.val ≤ q.maxRate ∧ q.modeOf r.val o = some m)
    ∧ (∃ (s : State) (p : PortId), s.serving = true ∧ (s.port p).state = .training ∧ (s.port p).rate = 0)
    ∧ (∃ (s : State) (p : PortId), s.serving = true ∧ (s.port p).rate ≠ 0 ∧ (s.port p).dll = false ∧ ((s.port p).state = .training ∨ (s.port p).state = .flush)) :=
  ⟨⟨((up.onPort 2 fun q => { q with state := .training, role := 2 }).onSys fun y => { y with perstN := 4 }), 2, 3, 6, .flit256 true, true, 2, _, rfl, by decide +kernel⟩,
   ⟨(up.onPort 2 fun q => { q with state := .training }), 2, by decide +kernel⟩,
   ⟨(up.onPort 2 fun q => { q with state := .training, rate := 5, role := 2, width := 3, mode := 2 }), 2, by decide +kernel⟩⟩

theorem test_meets_LinkTerms :
    (∃ (s u : State) (p : PortId) (k : Nat), u = s.reach (s.meradDue p.val) ∧ s.serving = true ∧ (s.port p).merad = .leading k ∧ k < 3)
    ∧ (∃ (s u : State) (p : PortId) (k : Nat), u = s.reach (s.meradDue p.val) ∧ s.serving = true ∧ (s.port p).merad = .leading k ∧ 3 ≤ k)
    ∧ (∃ (s : State) (p : PortId) (_vm : Byte) (_ns : BitVec 16) (tie : Option Word), ((s.port p).merad = .waitOffer ∨ (∃ k, (s.port p).merad = .accepted k) ∨ ((∃ k, (s.port p).merad = .leading k) ∧ ∀ x, tie = some x → x.toNat ≤ State.tieValue p.val)) ∧ s.serving = true)
    ∧ (∃ (s : State) (p : PortId) (_vm : Byte) (_ns : BitVec 16) (tie : Option Word), ∃ x k, State.tieValue p.val < x.toNat ∧ s.serving = true ∧ tie = some x ∧ (s.port p).merad = .leading k)
    ∧ (∃ (s : State) (p : PortId) (_vm : Byte) (_ns : BitVec 16) (_tie : Option Word), s.serving = true ∧ ((s.port p).merad = .ended ∨ (s.port p).merad = .closed))
    ∧ (∃ (s : State) (p : PortId) (k : Nat) (_v : Fin 4) (_ns : BitVec 16), s.serving = true ∧ (s.port p).merad = .leading k)
    ∧ (∃ (s : State) (p : PortId) (k : Nat) (_v : Fin 4), s.serving = true ∧ (s.port p).merad = .accepted k)
    ∧ (∃ (s : State) (p : PortId), ((s.port p).merad = .waitOffer ∨ (∃ k, (s.port p).merad = .accepted k)) ∧ s.serving = true)
    ∧ (∃ (s : State) (p : PortId), s.serving = true ∧ (s.port p).bindable = true ∧ p.val = s.mgrPort)
    ∧ (∃ (s : State) (p : PortId), s.started = true ∧ (s.port p).state.linked = true ∧ (s.port p).retrain = false)
    ∧ (∃ (s : State) (p : PortId) (w : Fin 6) (r : Fin 7), s.started = true ∧ (s.port p).state.linked = true ∧ (s.port p).retrain = true ∧ 1 ≤ w.val ∧ 1 ≤ r.val ∧ ((s.port p).link.replays ≠ 3 ∨ (s.port p).link.yoyo = []))
    ∧ (∃ (s : State) (p : PortId) (w : Fin 6), s.serving = true ∧ (s.port p).state.linked = true ∧ w.val ≠ 0 ∧ w.val ≤ widthCode (s.cfgLanes p.val) ∧ w.val < (s.port p).width ∧ s.protectedPort p.val = true)
    ∧ (∃ (s : State) (p : PortId) (w : Fin 6), s.serving = true ∧ (s.port p).state.linked = true ∧ w.val ≠ 0 ∧ w.val ≤ widthCode (s.cfgLanes p.val) ∧ ((s.port p).width ≤ w.val ∨ s.protectedPort p.val = false) ∧ (s.port p).l0pAsk = none)
    ∧ (∃ (s : State) (p : PortId) (w : Fin 6), s.serving = true ∧ (s.port p).state.linked = true ∧ w.val ≠ 0 ∧ w.val ≤ widthCode (s.cfgLanes p.val) ∧ ((s.port p).width ≤ w.val ∨ s.protectedPort p.val = false) ∧ (s.port p).l0pAsk = some w.val ∧ (s.port p).leads = true)
    ∧ (∃ (s u : State) (p : PortId) (w : WinId) (x : Nat), s.beforeOpen p.val w.val (2000 + 1000 * s.rd R.PRT_L0P_WIDEN_US p.val) = some x ∧ u = s.reach x ∧ s.serving = true ∧ (s.port p).state.linked = true ∧ (s.port p).width < widthCode (s.cfgLanes p.val) ∧ (s.port p).l0pAsk ≠ some (widthCode (s.cfgLanes p.val)))
    ∧ (∃ (s : State) (p : PortId) (w : Nat), s.started = true ∧ (s.port p).state.linked = true ∧ (s.port p).l0pAsk = some w)
    ∧ (∃ (s u : State) (p : PortId) (w : WinId) (x : Nat), s.beforeOpen p.val w.val 2000 = some x ∧ u = (s.reach x).onPort p (fun y => { y with lateAt := some x }) ∧ s.serving = true ∧ (s.port p).state.linked = true ∧ (s.port p).lateAt ≠ some x ∧ (s.port p).width ≠ widthCode (u.cfgLanes p.val))
    ∧ (∃ (s u : State) (p : PortId) (w : WinId) (x : Nat), s.beforeOpen p.val w.val 2000 = some x ∧ u = (s.reach x).onPort p (fun y => { y with lateAt := some x }) ∧ s.serving = true ∧ (s.port p).state.linked = true ∧ (s.port p).lateAt ≠ some x ∧ (s.port p).width = widthCode (u.cfgLanes p.val)) :=
  ⟨⟨(up.onPort 2 fun q => { q with merad := .leading 2 }), _, 2, 2, rfl, by decide +kernel⟩,
   ⟨(up.onPort 2 fun q => { q with merad := .leading 3 }), _, 2, 3, rfl, by decide +kernel⟩,
   ⟨(up.onPort 2 fun q => { q with merad := .waitOffer }), 2, 7, 65535, none, Or.inl (by decide +kernel), by decide +kernel⟩,
   ⟨(up.onPort 2 fun q => { q with merad := .leading 1 }), 2, 7, 5, some (BitVec.allOnes 64), BitVec.allOnes 64, 1, by have := Config.dieId.isLt; simp only [State.tieValue]; show _ < 18446744073709551615; omega, by decide +kernel⟩,
   ⟨(up.onPort 2 fun q => { q with merad := .ended, negVer := 2 }), 2, 7, 5, none, by decide +kernel⟩,
   ⟨(up.onPort 2 fun q => { q with merad := .leading 1 }), 2, 1, 3, 9, by decide +kernel⟩,
   ⟨(up.onPort 2 fun q => { q with merad := .accepted 2 }), 2, 2, 2, by decide +kernel⟩,
   ⟨(up.onPort 2 fun q => { q with merad := .waitOffer }), 2, Or.inl (by decide +kernel), by decide +kernel⟩,
   ⟨(up.onPort 0 fun q => { q with state := .up, merad := .ended, role := 1 }), 0, by decide +kernel⟩,
   ⟨(up.onPort 2 fun q => { q with state := .active, dll := true, role := 2, rate := 6, mode := 2, width := 3, retrain := false }), 2, by decide +kernel⟩,
   ⟨(up.onPort 2 fun q => { q with state := .active, dll := true, role := 2, rate := 6, mode := 2, width := 3, retrain := true }), 2, 1, 6, by decide +kernel⟩,
   ⟨((up.onPort 2 fun q => { q with state := .active, dll := true, role := 2, rate := 6, mode := 2, width := 3, l0pAsk := none }).onPit fun p => { p with running := true, openWin := 1, current := { Plan.factory with windows := [⟨1000, 100000, 0, 0, 1, 0, 64⟩], gates := [BitVec.allOnes 256] } }), 2, 1, by decide +kernel⟩,
   ⟨(up.onPort 2 fun q => { q with state := .active, dll := true, role := 2, rate := 6, mode := 2, width := 3, l0pAsk := none }), 2, 1, by decide +kernel⟩,
   ⟨(up.onPort 2 fun q => { q with state := .active, dll := true, role := 2, rate := 6, mode := 2, width := 3, l0pAsk := some 1 }), 2, 1, by decide +kernel⟩,
   ⟨((up.onPort 2 fun q => { q with state := .active, width := 1 }).onPit fun p => { p with running := true, current := { Plan.factory with windows := [⟨500000, 600000, 0, 0, 1, 0, 64⟩], gates := [BitVec.allOnes 256] } }), _, 2, 0, _, rfl, rfl, by decide +kernel⟩,
   ⟨(up.onPort 2 fun q => { q with state := .active, dll := true, role := 2, rate := 6, mode := 2, width := 3, l0pAsk := some 1 }), 2, 1, by decide +kernel⟩,
   ⟨((up.onPort 2 fun q => { q with state := .active, width := 1 }).onPit fun p => { p with running := true, current := { Plan.factory with windows := [⟨500000, 600000, 0, 0, 1, 0, 64⟩], gates := [BitVec.allOnes 256] } }), _, 2, 0, _, rfl, rfl, by decide +kernel⟩,
   ⟨((up.onPort 2 fun q => { q with state := .active, width := 3 }).onPit fun p => { p with running := true, current := { Plan.factory with windows := [⟨500000, 600000, 0, 0, 1, 0, 64⟩], gates := [BitVec.allOnes 256] } }), _, 2, 0, _, rfl, rfl, by decide +kernel⟩⟩

theorem test_meets_LinkDowns :
    (∃ (s : State) (p : PortId) (_c : DownCause), s.started = true ∧ s.lowest p.val = p.val ∧ (s.port p).canFall = true)
    ∧ (∃ (s : State) (p : PortId) (k : HotReset), s.serving = true ∧ s.lowest p.val = p.val ∧ (s.port p).state.linked = true ∧ (s.port p).role = (if k = .secondaryBus then 2 else 1))
    ∧ (∃ (s : State) (p : PortId) (k : Fin 9), s.serving = true ∧ (s.port p).canFall = true ∧ (s.port p).secure.getLsbD k.val = true)
    ∧ (∃ (s : State) (p : PortId), s.started = true ∧ (s.port p).flushing = true ∧ (s.port p).flushOwed = 0 ∧ (s.port p).state = .flush ∧ (s.port p).release ≠ .flushing ∧ (s.fab.msgs.any fun m => m.port = p.val && m.queued) = false ∧ Tab.get noneAt s.tool.quadWait (p.val / 4) = none ∧ s.cfgRole p.val = 2 ∧ (s.port p).prsnt = true)
    ∧ (∃ (s : State) (p : PortId), s.started = true ∧ (s.port p).flushing = true ∧ (s.port p).flushOwed = 0 ∧ (s.port p).state = .flush ∧ (s.port p).release ≠ .flushing ∧ (s.fab.msgs.any fun m => m.port = p.val && m.queued) = false ∧ Tab.get noneAt s.tool.quadWait (p.val / 4) = none ∧ s.cfgRole p.val = 1 ∧ (s.port p).fenced = false ∧ s.groupHeld p.val = false ∧ s.flt.safe = false)
    ∧ (∃ (s : State) (_h : SliceId) (_p : PortId), s.serving = true) :=
  ⟨⟨(up.onPort 2 fun q => { q with state := .active, role := 2 }), 2, .ltssm, by decide +kernel⟩,
   ⟨(up.onPort 2 fun q => { q with state := .active, role := 2 }), 2, .secondaryBus, by decide +kernel⟩,
   ⟨(up.onPort 2 fun q => { q with state := .active, secure := 256 }), 2, 8, by decide +kernel⟩,
   ⟨((up.onPort 2 fun q => { q with state := .flush, flushing := true, walks := 0 }).wr R.PRT_CFG_ROLE 2 2), 2, by decide +kernel⟩,
   ⟨((up.onPort 2 fun q => { q with state := .flush, flushing := true, walks := 0 }).wr R.PRT_CFG_ROLE 2 1), 2, by decide +kernel⟩,
   ⟨(up.onPort 2 fun q => { q with walks := 0x8001 }), 15, 2, by decide +kernel⟩⟩

theorem test_meets_HierarchyRequests :
    (∃ (s : State) (p : PortId) (_k : Fin 9) (_rx : Bool) (_sub : Fin 3) (_slot : Bool) (_key : Entry), s.serving = true ∧ (s.port p).state.linked = true ∧ (s.port p).role = 1)
    ∧ (∃ (s : State) (p : PortId) (k : Fin 9) (_rx : Bool) (_sub : Fin 3) (_slot : Bool) (_key : Entry), s.serving = true ∧ (s.port p).state.linked = true ∧ (s.port p).role = 1 ∧ (s.port p).keyed k.val = true)
    ∧ (∃ (s : State) (p : PortId), s.servesConfig p.val = true)
    ∧ (∃ (s : State) (p : PortId), ∃ (ds : PortId) (ld : Fin 16), ∃ (_pref : Bool) (_b _l : Word), s.servesConfig p.val = true ∧ s.hasBridge p.val ds.val ld.val = true)
    ∧ (∃ (s : State) (p : PortId), ∃ (ds : PortId) (ld : Fin 16), ∃ _a _b : Byte, s.servesConfig p.val = true ∧ s.hasBridge p.val ds.val ld.val = true)
    ∧ (∃ (s : State) (p : PortId), ∃ (ds : PortId) (ld : Fin 16), ∃ _c : BitVec 16, s.servesConfig p.val = true ∧ s.hasBridge p.val ds.val ld.val = true)
    ∧ (∃ (s : State) (p : PortId), ∃ _v : BitVec 16, s.servesConfig p.val = true ∧ (s.port p).role = 1)
    ∧ (∃ (s : State) (p : PortId), ∃ (_k : Fin 2048) (_a : Word) (_d : Word32) (_m : Bool), s.servesConfig p.val = true ∧ (s.port p).role = 1)
    ∧ (∃ (s : State) (p : PortId), ∃ (ds : PortId) (_pr : Byte) (pl : List Word32), s.servesConfig p.val = true ∧ p.val ∈ (s.bridgesOf ds.val).map Prod.fst ∧ (s.port ds).state.linked = true ∧ pl.length ≤ 1024)
    ∧ (∃ (s : State) (p : PortId), s.servesConfig p.val = true ∧ p.val ≠ s.rd R.TIK_PTM_PORT)
    ∧ (∃ (s : State) (p : PortId), s.servesConfig p.val = true)
    ∧ (∃ (s : State) (p : PortId), s.servesConfig p.val = true)
    ∧ (∃ (s : State) (p : PortId), s.servesConfig p.val = true)
    ∧ (∃ (s : State) (p : PortId), s.servesConfig p.val = true)
    ∧ (∃ (s : State) (p : PortId), s.servesConfig p.val = true) :=
  ⟨⟨mgr, 0, 8, true, 2, true, 5, by decide +kernel⟩,
   ⟨(up.onPort 0 fun q => { q with state := .active, role := 1, keys := [⟨8, true, 0, false, 5⟩, ⟨8, false, 0, false, 5⟩] }), 0, 8, true, 2, true, 5, by decide +kernel⟩,
   ⟨mgr, 0, by decide +kernel⟩,
   ⟨(((((up.onPort 0 fun q => { q with state := .active, role := 1, mode := 1 })).onPort 2 fun q => { q with state := .active })).onTabs fun t => { t with binds := [(64, some ⟨0, 0⟩)] }), 0, 2, 0, true, 1048576, 2097152, by decide +kernel⟩,
   ⟨(((((up.onPort 0 fun q => { q with state := .active, role := 1, mode := 1 })).onPort 2 fun q => { q with state := .active })).onTabs fun t => { t with binds := [(64, some ⟨0, 0⟩)] }), 0, 2, 0, 1, 2, by decide +kernel⟩,
   ⟨(((((up.onPort 0 fun q => { q with state := .active, role := 1, mode := 1 })).onPort 2 fun q => { q with state := .active })).onTabs fun t => { t with binds := [(64, some ⟨0, 0⟩)] }), 0, 2, 0, 8, by decide +kernel⟩,
   ⟨mgr, 0, 7, by decide +kernel⟩,
   ⟨mgr, 0, 2047, 0x1000, 9, false, by decide +kernel⟩,
   ⟨(((((up.onPort 0 fun q => { q with state := .active, role := 1, mode := 1 })).onPort 2 fun q => { q with state := .active })).onTabs fun t => { t with binds := [(64, some ⟨0, 0⟩)] }), 0, 2, 3, [1, 2], by decide +kernel⟩,
   ⟨(up.onPort 1 fun q => { q with state := .active, role := 1 }), 1, by decide +kernel⟩,
   ⟨mgr, 0, by decide +kernel⟩,
   ⟨mgr, 0, by decide +kernel⟩,
   ⟨mgr, 0, by decide +kernel⟩,
   ⟨mgr, 0, by decide +kernel⟩,
   ⟨mgr, 0, by decide +kernel⟩⟩

theorem test_meets_FlitReceived :
    (∃ (s : State) (p : PortId) (seq : Nat) (uses : List ChUse), s.linkRuns p.val = true ∧ seqBehind (s.port p).mode seq (s.link p).rxNext = 0 ∧ s.rxCovers p.val uses = true ∧ (s.link p).sinceAck + 1 < s.rd R.PRT_LNK_CFG_ACK_FLITS p.val)
    ∧ (∃ (s : State) (p : PortId) (seq : Nat) (uses : List ChUse), s.linkRuns p.val = true ∧ seqBehind (s.port p).mode seq (s.link p).rxNext = 0 ∧ s.rxCovers p.val uses = true ∧ s.rd R.PRT_LNK_CFG_ACK_FLITS p.val ≤ (s.link p).sinceAck + 1)
    ∧ (∃ (s : State) (p : PortId) (seq : Nat) (uses : List ChUse), s.linkRuns p.val = true ∧ seqBehind (s.port p).mode seq (s.link p).rxNext = 0 ∧ s.rxCovers p.val uses = false)
    ∧ (∃ (s : State) (p : PortId) (_seq : Nat) (_uses : List ChUse), s.linkRuns p.val = true)
    ∧ (∃ (s : State) (p : PortId) (seq : Nat) (_uses : List ChUse), s.linkRuns p.val = true ∧ 0 < seqBehind (s.port p).mode seq (s.link p).rxNext ∧ seqBehind (s.port p).mode seq (s.link p).rxNext ≤ dupRange (s.port p).mode)
    ∧ (∃ (s : State) (p : PortId) (seq : Nat) (_uses : List ChUse), s.linkRuns p.val = true ∧ dupRange (s.port p).mode < seqBehind (s.port p).mode seq (s.link p).rxNext)
    ∧ (∃ (s : State) (p : PortId) (_seq : Nat) (_uses : List ChUse), s.linkRuns p.val = true ∧ 2 ≤ (s.port p).mode)
    ∧ (∃ (s : State) (p : PortId) (_seq : Nat) (_uses : List ChUse), s.linkRuns p.val = true ∧ (s.port p).mode < 2)
    ∧ (∃ (s : State) (p : PortId) (_seq : Nat) (_uses : List ChUse), s.linkRuns p.val = true ∧ (s.port p).mode ≠ 0) :=
  ⟨⟨(up.onPort 2 fun q => { q with state := .active, dll := true, role := 2, rate := 6, mode := 2, width := 3, link := { Link.init with rxNext := 5, sinceAck := 2, credits := Vector.replicate 16 credit8 } }), 2, 5, [⟨1, 8, 8⟩], by decide +kernel⟩,
   ⟨(up.onPort 2 fun q => { q with state := .active, dll := true, role := 2, rate := 6, mode := 2, width := 3, link := { Link.init with rxNext := 1023, sinceAck := 15, credits := Vector.replicate 16 credit8 } }), 2, 1023, [], by decide +kernel⟩,
   ⟨(up.onPort 2 fun q => { q with state := .active, dll := true, role := 2, rate := 6, mode := 2, width := 3, link := { Link.init with rxNext := 5 } }), 2, 5, [⟨1, 1, 1⟩], by decide +kernel⟩,
   ⟨(up.onPort 2 fun q => { q with state := .active, dll := true, role := 2, rate := 6, mode := 2, width := 3, link := { Link.init with rxNext := 5 } }), 2, 5, [], by decide +kernel⟩,
   ⟨(up.onPort 2 fun q => { q with state := .active, dll := true, role := 2, rate := 6, mode := 2, width := 3, link := { Link.init with rxNext := 5 } }), 2, 4, [], by decide +kernel⟩,
   ⟨(up.onPort 2 fun q => { q with state := .active, dll := true, role := 2, rate := 6, mode := 2, width := 3, link := { Link.init with rxNext := 5 } }), 2, 516, [], by decide +kernel⟩,
   ⟨(up.onPort 2 fun q => { q with state := .active, dll := true, role := 2, rate := 6, mode := 2, width := 3, link := { Link.init with rxNext := 5 } }), 2, 516, [], by decide +kernel⟩,
   ⟨(up.onPort 2 fun q => { q with state := .active, dll := true, role := 2, rate := 6, width := 3, link := { Link.init with rxNext := 5 }, mode := 1 }), 2, 5, [], by decide +kernel⟩,
   ⟨(up.onPort 2 fun q => { q with state := .active, dll := true, role := 2, rate := 6, mode := 2, width := 3, link := { Link.init with rxNext := 5 } }), 2, 516, [], by decide +kernel⟩⟩

theorem test_meets_AckAndReplay :
    (∃ (s u : State) (p : PortId), u = s.reach ((s.link p).ackFrom + s.rd R.PRT_LNK_CFG_ACK_NS p.val) ∧ s.linkRuns p.val = true ∧ 0 < (s.link p).sinceAck)
    ∧ (∃ (s : State) (p : PortId) (seq : Nat), ∃ (a b : List YoFlit) (y : YoFlit), (s.link p).yoyo = a ++ y :: b ∧ (∀ z ∈ a, z.seq ≠ seq) ∧ s.linkRuns p.val = true ∧ y.seq = seq)
    ∧ (∃ (s : State) (p : PortId) (seq : Nat), s.linkRuns p.val = true ∧ (∀ z ∈ (s.link p).yoyo, z.seq ≠ seq))
    ∧ (∃ (s : State) (p : PortId) (seq : Nat), ∃ (a b : List YoFlit) (y : YoFlit), (s.link p).yoyo = a ++ y :: b ∧ (∀ z ∈ a, z.seq ≠ seq) ∧ s.linkRuns p.val = true ∧ y.seq = seq ∧ (a ≠ [] ∨ (s.link p).replays < 3))
    ∧ (∃ (s : State) (p : PortId) (seq : Nat), s.linkRuns p.val = true ∧ (∀ z ∈ (s.link p).yoyo, z.seq ≠ seq))
    ∧ (∃ (s : State) (p : PortId) (seq : Nat), ∃ y ∈ (s.link p).yoyo, s.linkRuns p.val = true ∧ y.seq = seq ∧ (s.link p).replays < 3)
    ∧ (∃ (s u : State) (p : PortId) (y : YoFlit) (l : List YoFlit), (s.link p).yoyo = y :: l ∧ u = s.reach ((s.link p).replayFrom + s.rd R.PRT_LNK_CFG_REPLAY_NS p.val) ∧ s.linkRuns p.val = true ∧ (s.link p).replays < 3)
    ∧ (∃ (s u : State) (p : PortId) (y : YoFlit) (l : List YoFlit), (s.link p).yoyo = y :: l ∧ u = s.reach ((s.link p).replayFrom + s.rd R.PRT_LNK_CFG_REPLAY_NS p.val) ∧ s.linkRuns p.val = true ∧ (s.link p).replays = 3) :=
  ⟨⟨(up.onPort 2 fun q => { q with state := .active, dll := true, role := 2, rate := 6, mode := 2, width := 3, link := { Link.init with sinceAck := 1 } }), _, 2, rfl, by decide +kernel⟩,
   ⟨(up.onPort 2 fun q => { q with state := .active, dll := true, role := 2, rate := 6, mode := 2, width := 3, link := { Link.init with yoyo := [yo 3, yo 4] } }), 2, 3, [], [yo 4], yo 3, rfl, fun _ h => (List.not_mem_nil h).elim, by decide +kernel⟩,
   ⟨(up.onPort 2 fun q => { q with state := .active, dll := true, role := 2, rate := 6, mode := 2, width := 3, link := { Link.init with yoyo := [yo 3] } }), 2, 9, by decide +kernel⟩,
   ⟨(up.onPort 2 fun q => { q with state := .active, dll := true, role := 2, rate := 6, mode := 2, width := 3, link := { Link.init with yoyo := [yo 3, yo 4] } }), 2, 3, [], [yo 4], yo 3, rfl, fun _ h => (List.not_mem_nil h).elim, by decide +kernel⟩,
   ⟨(up.onPort 2 fun q => { q with state := .active, dll := true, role := 2, rate := 6, mode := 2, width := 3, link := { Link.init with yoyo := [yo 3] } }), 2, 9, by decide +kernel⟩,
   ⟨(up.onPort 2 fun q => { q with state := .active, dll := true, role := 2, rate := 6, mode := 2, width := 3, link := { Link.init with yoyo := [yo 3] } }), 2, 3, yo 3, List.mem_singleton.2 rfl, by decide +kernel⟩,
   ⟨(up.onPort 2 fun q => { q with state := .active, dll := true, role := 2, rate := 6, mode := 2, width := 3, link := { Link.init with replays := 2, yoyo := [yo 3] } }), _, 2, yo 3, [], rfl, rfl, by decide +kernel⟩,
   ⟨(up.onPort 2 fun q => { q with state := .active, dll := true, role := 2, rate := 6, mode := 2, width := 3, link := { Link.init with replays := 3, yoyo := [yo 3] } }), _, 2, yo 3, [], rfl, rfl, by decide +kernel⟩⟩

theorem test_meets_TransmitAndCredit :
    (∃ (s : State) (p : PortId) (f : TxFlit), s.linkRuns p.val = true ∧ (s.port p).dll = true ∧ s.channelsOk p.val f = true ∧ f.tl = true ∧ s.yoyoRoom p.val f = true ∧ s.txCovers p.val f = true)
    ∧ (∃ (s : State) (p : PortId) (f : TxFlit), s.linkRuns p.val = true ∧ (s.port p).dll = true ∧ s.channelsOk p.val f = true ∧ f.tl = false ∧ s.txCovers p.val f = true)
    ∧ (∃ (s : State) (p : PortId) (f : TxFlit), s.linkRuns p.val = true ∧ (s.port p).dll = true ∧ s.channelsOk p.val f = true ∧ (f.tl = true ∧ s.yoyoRoom p.val f = false ∨ s.txCovers p.val f = false))
    ∧ (∃ (s : State) (p : PortId) (ch : Fin 16) (v : BitVec 16), ∃ k, s.linkRuns p.val = true ∧ (ch.val ≠ 0 ∨ (s.port p).negVer ≠ 0) ∧ newLimit (s.credit p.val ch.val).dLim v.toNat (2 ^ 16) (s.incremental p.val ch.val) = some k)
    ∧ (∃ (s : State) (p : PortId) (ch : Fin 16) (v : BitVec 16), ∃ d : Bool, s.linkRuns p.val = true ∧ (ch.val ≠ 0 ∨ (s.port p).negVer ≠ 0) ∧ newLimit (if d then (s.credit p.val ch.val).dLim else (s.credit p.val ch.val).hLim) v.toNat (if d then 2 ^ 16 else 2 ^ 12) (s.incremental p.val ch.val) = none)
    ∧ (∃ (s : State) (p : PortId) (ch : Fin 16) (v : BitVec 16), ∃ k, s.linkRuns p.val = true ∧ (ch.val ≠ 0 ∨ (s.port p).negVer ≠ 0) ∧ newLimit (s.credit p.val ch.val).hLim v.toNat (2 ^ 12) (s.incremental p.val ch.val) = some k)
    ∧ (∃ (s : State) (p : PortId) (ch : Fin 16) (_v : BitVec 16), ∃ _d : Bool, s.linkRuns p.val = true ∧ (ch.val ≠ 0 ∨ (s.port p).negVer ≠ 0))
    ∧ (∃ (s u : State) (p : PortId) (ch : Fin 16) (x : Nat), s.creditDue p.val ch.val = some x ∧ u = s.reach x ∧ s.linkRuns p.val = true ∧ (s.port p).dll = true ∧ (ch.val ≠ 0 ∨ (s.port p).negVer ≠ 0) ∧ s.incremental p.val ch.val = false)
    ∧ (∃ (s u : State) (p : PortId) (ch : Fin 16) (x : Nat), s.creditDue p.val ch.val = some x ∧ u = s.reach x ∧ s.linkRuns p.val = true ∧ (s.port p).dll = true ∧ (ch.val ≠ 0 ∨ (s.port p).negVer ≠ 0) ∧ s.incremental p.val ch.val = true ∧ u.yoyoRoom p.val ⟨[], true, false, [], 0⟩ = true)
    ∧ (∃ (s : State) (p : PortId) (ch : Fin 16), s.creditDue p.val ch.val = none) :=
  ⟨⟨(up.onPort 2 fun q => { q with state := .active, dll := true, role := 2, rate := 6, mode := 2, width := 3, link := { Link.init with credits := Vector.replicate 16 credit8, txSeq := 1023 } }), 2, flit1, by decide +kernel⟩,
   ⟨(up.onPort 2 fun q => { q with state := .active, dll := true, role := 2, rate := 6, mode := 2, width := 3, link := { Link.init with credits := Vector.replicate 16 credit8, txSeq := 1023 } }), 2, { flit1 with tl := false }, by decide +kernel⟩,
   ⟨(up.onPort 2 fun q => { q with state := .active, dll := true, role := 2, rate := 6, mode := 2, width := 3, link := { Link.init with yoyo := List.replicate 1023 (yo 3) } }), 2, flit1, by decide +kernel⟩,
   ⟨(up.onPort 2 fun q => { q with state := .active, dll := true, role := 2, rate := 6, mode := 2, width := 3, link := { Link.init with credits := Vector.replicate 16 credit8 }, negVer := 1 }), 2, 1, 9, 9, by decide +kernel⟩,
   ⟨(up.onPort 2 fun q => { q with state := .active, dll := true, role := 2, rate := 6, mode := 2, width := 3, link := { Link.init with credits := Vector.replicate 16 { Credit.zero with dLim := 65535 } }, negVer := 1 }), 2, 1, 40000, true, by decide +kernel⟩,
   ⟨(up.onPort 2 fun q => { q with state := .active, dll := true, role := 2, rate := 6, mode := 2, width := 3, link := { Link.init with credits := Vector.replicate 16 credit8 }, negVer := 1 }), 2, 15, 10, 10, by decide +kernel⟩,
   ⟨(up.onPort 2 fun q => { q with state := .active, dll := true, role := 2, rate := 6, mode := 2, width := 3, link := { Link.init with credits := Vector.replicate 16 credit8 }, negVer := 0 }), 2, 1, 10, true, by decide +kernel⟩,
   ⟨(up.onPort 2 fun q => { q with state := .active, dll := true, role := 2, rate := 6, mode := 2, width := 3, link := { Link.init with credits := Vector.replicate 16 credit8 }, negVer := 3 }), _, 2, 12, _, rfl, rfl, by decide +kernel⟩,
   ⟨(up.onPort 2 fun q => { q with state := .active, dll := true, role := 2, rate := 6, mode := 2, width := 3, link := { Link.init with credits := Vector.replicate 16 credit8 }, negVer := 0 }), _, 2, 1, _, rfl, rfl, by decide +kernel⟩,
   ⟨(up.onPort 2 fun q => { q with state := .active, dll := true, role := 2, rate := 6, mode := 2, width := 3, link := { Link.init with txSeq := 0 }, negVer := 0 }), 2, 1, by decide +kernel⟩⟩

theorem test_meets_ToolChange :
    (∃ (s u : State) (g : GroupId), u = s.tcrFiltered g.val ∧ s.serving = true ∧ s.sys.tcrN.getLsbD g.val = false ∧ s.tool.tcrLow.getLsbD g.val = false ∧ u.groupPorts g.val = [])
    ∧ (∃ (s u : State) (g : GroupId), ∃ p : PortId, u = s.tcrFiltered g.val ∧ s.serving = true ∧ s.sys.tcrN.getLsbD g.val = false ∧ s.tool.tcrLow.getLsbD g.val = false ∧ u.groupPorts g.val = [p.val] ∧ (s.port p).release = .none ∧ u.gate p.val = 0 ∧ (s.port p).state = .up)
    ∧ (∃ (s : State) (p : PortId), s.serving = true ∧ s.draining p.val = true ∧ s.outstanding p.val = 0)
    ∧ (∃ (s : State) (p : PortId), s.serving = true ∧ s.draining p.val = true ∧ 0 < s.outstanding p.val)
    ∧ (∃ (s u : State) (p : PortId) (_r : Option (BitVec 16)) (due : Nat), s.sampleDue p.val = some due ∧ u = s.reach (max due s.tool.busFree) ∧ s.serving = true ∧ s.servedNext p.val due = true)
    ∧ (∃ (s : State) (p : PortId), s.serving = true ∧ (s.port p).release = .proving ∧ (s.port p).proofPass = false ∧ (s.port p).proofFail = false)
    ∧ (∃ (s u : State) (g : GroupId), u = ((s.tcrEdge g.val).onSys fun y => { y with tcrN := y.tcrN ||| BitVec.ofNat 16 (2 ^ g.val) }).tcrFiltered g.val ∧ s.serving = true ∧ s.tool.tcrLow.getLsbD g.val = true ∧ s.sys.tcrN.getLsbD g.val = false ∧ u.flt.safe = false ∧ u.groupPorts g.val = []) :=
  ⟨⟨(up.onSys fun y => { y with tcrN := 0x7FFF }), _, 15, rfl, by decide +kernel⟩,
   ⟨((((up.onSys fun y => { y with tcrN := 0x7FFF }).onPort 2 fun q => { q with state := .up, role := 2 })).wr R.PRT_HP_TCG 2 15 |>.wr R.PRT_HP_TCG_EN 2 1), _, 15, 2, rfl, by decide +kernel⟩,
   ⟨(up.onPort 2 fun q => { q with state := .quiesce, release := .draining, dll := true, role := 2, outNp := 0 }), 2, by decide +kernel⟩,
   ⟨(up.onPort 2 fun q => { q with state := .quiesce, release := .draining, dll := true, role := 2, outNp := 3 }), 2, by decide +kernel⟩,
   ⟨(((up.reach 50000).onPort 2 fun q => { q with state := .off, release := .proving, samples := [(0, 0, true)] }).wr R.BLW_PORT_HS_ADDR 2 64 |>.wr R.BLW_PORT_LOAD_CLOAD_UF 2 100), _, 2, some 1, _, rfl, rfl, by decide +kernel⟩,
   ⟨((up.reach 50000).onPort 2 fun q => { q with state := .off, release := .proving, samples := [(0, 0, true)] }), 2, by decide +kernel⟩,
   ⟨((up.onSys fun y => { y with tcrN := 0x7FFF }).onTool fun t => { t with tcrLow := 0x8000 }), _, 15, rfl, by decide +kernel⟩⟩

theorem test_meets_MessagesEnter :
    (∃ (s : State) (m : InMsg) (h : SliceId) (ep : Endpoint) (c : CoreMsg), s.serving = true ∧ m.src = .home h ∧ s.handed m = some c ∧ m.target = some ep ∧ 64 ≤ ep.val ∧ m.kind.need = none ∧ m.kind.sort = .resp ∧ (s.column ep).down = false ∧ (∀ y ∈ s.fab.msgs, y.id < s.fab.nextId) ∧ (∀ y ∈ s.fab.msgs, y.held = true → y.src ≠ 72 + h.val))
    ∧ (∃ (s : State) (id : Nat) (m : Msg), s.serving = true ∧ s.msg id = some m ∧ m.held = true ∧ 64 ≤ m.port ∧ (s.fab.msgs.find? fun y => y.held && y.src = m.src && y.cls = m.cls) = some m ∧ s.pauseHolds m = false ∧ s.ingressBuckets m = []) :=
  ⟨⟨(up.onFab fun f => { f with inbox := [({ src := .home 2, dst := 66, kind := .memDrs, cls := 0, fa := 0x1000, tag := 5, epoch := none, data := 0, poison := false, status := .ok, be := 0, code := 0, atom := none } : CoreMsg)] }), in1, 2, 66, ({ src := .home 2, dst := 66, kind := .memDrs, cls := 0, fa := 0x1000, tag := 5, epoch := none, data := 0, poison := false, status := .ok, be := 0, code := 0, atom := none } : CoreMsg), by decide +kernel⟩,
   ⟨(up.onFab fun f => { f with msgs := [{ msg1 with held := true }], nextId := 10 }), 9, { msg1 with held := true }, by decide +kernel⟩⟩

theorem test_meets_ColumnsAndAges :
    (∃ (s : State) (ep i : Endpoint) (c : Fin 8) (m : Msg), s.serving = true ∧ s.inputHead i.val c.val = some m ∧ m.dst = ep.val ∧ (s.writing.any fun w => w.1 = i.val) = false ∧ s.columnGrants ep.val i.val (c.val = 0) = true ∧ s.staleGen m = false ∧ s.admissible m = true)
    ∧ (∃ (s : State) (ep i : Endpoint) (c : Fin 8) (m : Msg), s.serving = true ∧ s.inputHead i.val c.val = some m ∧ m.dst = ep.val ∧ (s.writing.any fun w => w.1 = i.val) = false ∧ s.columnGrants ep.val i.val (c.val = 0) = true ∧ s.staleGen m = false ∧ s.admissible m = false)
    ∧ (∃ (s : State) (ep i : Endpoint) (c : Fin 8) (m : Msg), s.serving = true ∧ s.inputHead i.val c.val = some m ∧ m.dst = ep.val ∧ (s.writing.any fun w => w.1 = i.val) = false ∧ s.columnGrants ep.val i.val (c.val = 0) = false)
    ∧ (∃ (s : State) (ep : Endpoint) (a : Nat) (m : Msg) (_cell : Fin 8), s.serving = true ∧ 64 ≤ ep.val ∧ (s.column ep).down = false ∧ (s.arb ep).busy = some a ∧ s.msg a = some m ∧ m.last = true ∧ m.port = ep.val)
    ∧ (∃ (s : State) (ep : Endpoint) (a : Nat) (m : Msg) (cell : Fin 8), s.serving = true ∧ 64 ≤ ep.val ∧ (s.column ep).down = false ∧ (s.arb ep).busy = some a ∧ s.msg a = some m ∧ m.last = false ∧ cell.val < m.ncell)
    ∧ (∃ (s : State) (ep : Endpoint) (a : Nat) (m : Msg) (_cell : Fin 8), s.serving = true ∧ 64 ≤ ep.val ∧ (s.column ep).down = false ∧ (s.arb ep).busy = some a ∧ s.msg a = some m ∧ 72 ≤ ep.val)
    ∧ (∃ (s : State) (id : Nat) (m : Msg), s.serving = true ∧ s.msg id = some m ∧ m.started = true ∧ m.last = false ∧ m.port < 64)
    ∧ (∃ (s : State) (id : Nat) (m : Msg), s.serving = true ∧ s.msg id = some m ∧ m.queued = true ∧ m.skip = false ∧ m.started = false)
    ∧ (∃ (s : State) (src : Fin 88) (dst : Endpoint) (c : Fin 8), s.serving = true ∧ 64 ≤ dst.val ∧ (∃ m ∈ s.fab.msgs, m.queued = true ∧ m.flow = (flowKey src.val dst.val c.val) ∧ 0 < (fun (m : Msg) => (m.seq + 65536 - Tab.get natAt s.fab.expect (flowKey src.val dst.val c.val)) % 65536) m ∧ (fun (m : Msg) => (m.seq + 65536 - Tab.get natAt s.fab.expect (flowKey src.val dst.val c.val)) % 65536) m < 32768) ∧ (∀ m ∈ s.fab.msgs, m.skip = false ∧ (m.queued = true → m.flow = (flowKey src.val dst.val c.val) → (fun (m : Msg) => (m.seq + 65536 - Tab.get natAt s.fab.expect (flowKey src.val dst.val c.val)) % 65536) m ≠ 0)))
    ∧ (∃ s : State, s.serving = true)
    ∧ (∃ (s u : State) (ups : List (Endpoint × Int)), u = (s.onFab fun f => { f with auditAt := s.flt.scans }).forAll ups (fun x t => t.onColumnN x.1.val fun c => { c with free := ((c.free : Int) - x.2).toNat }) ∧ s.serving = true ∧ s.flt.scans ≠ s.fab.auditAt ∧ s.flt.scans % max 1 (s.rd R.XBR_AUDIT_TICKS) = 0 ∧ (∀ ep : Endpoint, 0 ≤ u.auditD ep.val))
    ∧ (∃ (s : State) (ep : Endpoint), s.started = true ∧ (s.column ep).walk = true) :=
  ⟨⟨(up.onFab fun f => { f with msgs := [msg1], nextId := 10 }), 66, 74, 1, msg1, by decide +kernel⟩,
   ⟨((up.onFab fun f => { f with msgs := [msg1], nextId := 10 }).onColumn 66 fun c => { c with free := 1 }), 66, 74, 1, msg1, by decide +kernel⟩,
   ⟨((up.onFab fun f => { f with msgs := [msg1], nextId := 10 }).onFab fun f => { f with writes := List.replicate 32 (3, 66, 1000) }), 66, 74, 1, msg1, by decide +kernel⟩,
   ⟨(((up.onFab fun f => { f with msgs := [{ msg1 with queued := true }], nextId := 10 })).onArb 66 fun a => { a with busy := some 9 }), 66, 9, { msg1 with queued := true }, 0, by decide +kernel⟩,
   ⟨(((up.onFab fun f => { f with msgs := [{ msg1 with queued := true, last := false }], nextId := 10 })).onArb 66 fun a => { a with busy := some 9 }), 66, 9, { msg1 with queued := true, last := false }, 1, by decide +kernel⟩,
   ⟨(((up.onFab fun f => { f with msgs := [{ msg1 with queued := true, dst := 87, port := 87 }], nextId := 10 })).onArb 87 fun a => { a with busy := some 9 }), 87, 9, { msg1 with queued := true, dst := 87, port := 87 }, 0, by decide +kernel⟩,
   ⟨(up.onFab fun f => { f with msgs := [{ msg1 with queued := true, started := true, last := false, dst := 5, port := 5 }], nextId := 10 }), 9, { msg1 with queued := true, started := true, last := false, dst := 5, port := 5 }, by decide +kernel⟩,
   ⟨(up.onFab fun f => { f with msgs := [{ msg1 with queued := true }], nextId := 10 }), 9, { msg1 with queued := true }, by decide +kernel⟩,
   ⟨(up.onFab fun f => { f with msgs := [{ msg1 with queued := true, seq := 1 }], nextId := 10 }), 74, 66, 1, by decide +kernel⟩,
   ⟨(up.onFab fun f => { f with barriers := [(hd, 0)] }), by decide +kernel⟩,
   ⟨(up.onFlt fun g => { g with scans := 64 }), _, [], rfl, by decide +kernel⟩,
   ⟨(up.onColumn 3 fun c => { c with leakD := 4, walk := true }), 3, by decide +kernel⟩⟩

theorem test_meets_Buckets :
    (∃ s u : State, u = s.reach (s.pit.bk + 128 * s.tabs.refresh) ∧ s.serving = true ∧ s.pit.running = true ∧ 128 * s.tabs.refresh < s.pit.period)
    ∧ (∃ (h : Hdr) (i : Word32) (e : Entry) (s : State), Admitted h [] s ∧ bucketValid e = true ∧ bucketBad e = none ∧ s.bucketSlotBad h i = false ∧ ((s.bucket h.domain.toNat i.toNat).bind Bucket.cleared) = none ∧ s.bucketCrowd h.domain.toNat i.toNat (bucketOf e) = false ∧ s.slotBusy = false)
    ∧ (∃ (h : Hdr) (i : Word32) (b : Bucket) (s : State), Admitted h [] s ∧ s.bucketSlotBad h i = false ∧ s.bucket h.domain.toNat i.toNat = some b ∧ b.cleared = none ∧ s.slotBusy = false)
    ∧ (∃ (d : Fin 4096) (i e : Nat) (s : State), (s.bucket d.val i).bind Bucket.cleared = some e ∧ s.started = true ∧ s.drainedTo e = true) :=
  ⟨⟨((mgr.onTabs fun t => { t with buckets := [(0, some bucket1)], refresh := 7811 }).onPit fun p => { p with running := true, ftime := 999800 }), _, rfl, by decide +kernel⟩,
   ⟨hd, 63, ((BitVec.ofNat 256 (1 + 1024 * 2 ^ 32 + (3 + 4 * 2 ^ 8 + 2 ^ 63) * 2 ^ 64)) : Entry), mgr, admitted (by decide +kernel), by decide +kernel⟩,
   ⟨hd, 63, bucket1, (mgr.onTabs fun t => { t with buckets := [(63, some bucket1)] }), admitted (by decide +kernel), by decide +kernel⟩,
   ⟨0, 63, 0, (mgr.onTabs fun t => { t with buckets := [(63, some { bucket1 with cleared := some 0 })] }), by decide +kernel⟩⟩

theorem test_meets_HomeRequests :
    (∃ (r : HReq) (w : DWin) (s : State), ∃ k d, AtHome r w s ∧ s.findDir r.la = some (k, d) ∧ d.st = .s)
    ∧ (∃ (r : HReq) (w : DWin) (s : State), ∃ k, AtHome r w s ∧ s.findDir r.la = none ∧ s.holdsOlc r.la = false ∧ s.dirRoom r.la = .inl k)
    ∧ (∃ (r : HReq) (w : DWin) (s : State), ∃ k d, AtHome r w s ∧ s.findDir r.la = some (k, d) ∧ d.st = .m ∧ (s.hostOf r).getD noOwner ≠ d.owner ∧ d.owner < 64)
    ∧ (∃ (r : HReq) (w : DWin) (s : State), ∃ k d p, AtHome r w s ∧ s.findDir r.la = some (k, d) ∧ d.st = .s ∧ s.hostOf r = some p ∧ d.shr = shrBit p ∧ shrBit p ≠ 0)
    ∧ (∃ (r : HReq) (w : DWin) (s : State), AtHome r w s ∧ s.findDir r.la = none ∧ s.holdsOlc r.la = false)
    ∧ (∃ (r : HReq) (w : DWin) (s : State), AtHome r w s ∧ s.findDir r.la = none ∧ s.findOlc r.la = none ∧ s.olcFree r.la ≠ [] ∧ r.full = true)
    ∧ (∃ (r : HReq) (w : DWin) (s : State), ∃ (_op : AtomOp) (_w64 : Bool) (_a _b : Word), ∃ k o, AtHome r w s ∧ s.findDir r.la = none ∧ s.findOlc r.la = some (k, o) ∧ o.ev = false)
    ∧ (∃ (r : HReq) (w : DWin) (s : State), ∃ k d p, AtHome r w s ∧ s.findDir r.la = some (k, d) ∧ d.st = .m ∧ s.hostOf r = some p ∧ d.owner = p ∧ d.rt = false ∧ d.watch = false ∧ r.full = true ∧ r.mv = .i ∧ s.findOlc r.la = none ∧ s.olcFree r.la ≠ [])
    ∧ (∃ (r : HReq) (w : DWin) (s : State), ∃ k d p, AtHome r w s ∧ s.findDir r.la = some (k, d) ∧ d.st = .e ∧ s.hostOf r = some p ∧ d.owner = p ∧ d.rt = false ∧ d.watch = false) :=
  ⟨⟨req1, win1, (((up.onTabs fun t => { t with wins := [(5, some win1)] }).onPort 3 fun q => { q with state := .active, role := 2, dll := true }).onHome fun g => { g with dir := [(3, some { ent1 with st := .s, shr := 6 })] }), 3, { ent1 with st := .s, shr := 6 }, atHome (homeQuiet (by decide +kernel)) (by decide +kernel), by decide +kernel⟩,
   ⟨req1, win1, ((up.onTabs fun t => { t with wins := [(5, some win1)] }).onPort 3 fun q => { q with state := .active, role := 2, dll := true }), 0, atHome (homeQuiet (by decide +kernel)) (by decide +kernel), by decide +kernel⟩,
   ⟨req1, win1, (((up.onTabs fun t => { t with wins := [(5, some win1)] }).onPort 3 fun q => { q with state := .active, role := 2, dll := true }).onHome fun g => { g with dir := [(3, some { ent1 with st := .m, owner := 5 })] }), 3, { ent1 with st := .m, owner := 5 }, atHome (homeQuiet (by decide +kernel)) (by decide +kernel), by decide +kernel⟩,
   ⟨req1, win1, (((up.onTabs fun t => { t with wins := [(5, some win1)] }).onPort 3 fun q => { q with state := .active, role := 2, dll := true }).onHome fun g => { g with dir := [(3, some { ent1 with st := .s, shr := 8 })] }), 3, { ent1 with st := .s, shr := 8 }, 3, atHome (homeQuiet (by decide +kernel)) (by decide +kernel), by decide +kernel⟩,
   ⟨req1, win1, ((up.onTabs fun t => { t with wins := [(5, some win1)] }).onPort 3 fun q => { q with state := .active, role := 2, dll := true }), atHome (homeQuiet (by decide +kernel)) (by decide +kernel), by decide +kernel⟩,
   ⟨{ req1 with src := .mar }, win1, ((up.onTabs fun t => { t with wins := [(5, some win1)] }).onPort 3 fun q => { q with state := .active, role := 2, dll := true }), atHome (homeQuiet (by decide +kernel)) (by decide +kernel), by decide +kernel⟩,
   ⟨{ req1 with src := .engine 3 }, win1, (((up.onTabs fun t => { t with wins := [(5, some win1)] }).onPort 3 fun q => { q with state := .active, role := 2, dll := true }).onHome fun g => { g with olc := [(2, some olc1)] }), .smax, true, 5, 6, 2, olc1, atHome (homeQuiet (by decide +kernel)) (by decide +kernel), by decide +kernel⟩,
   ⟨req1, win1, (((up.onTabs fun t => { t with wins := [(5, some win1)] }).onPort 3 fun q => { q with state := .active, role := 2, dll := true }).onHome fun g => { g with dir := [(3, some { ent1 with st := .m, owner := 3 })] }), 3, { ent1 with st := .m, owner := 3 }, 3, atHome (homeQuiet (by decide +kernel)) (by decide +kernel), by decide +kernel⟩,
   ⟨req1, win1, (((up.onTabs fun t => { t with wins := [(5, some win1)] }).onPort 3 fun q => { q with state := .active, role := 2, dll := true }).onHome fun g => { g with dir := [(3, some { ent1 with st := .e, owner := 3 })] }), 3, { ent1 with st := .e, owner := 3 }, 3, atHome (homeQuiet (by decide +kernel)) (by decide +kernel), by decide +kernel⟩⟩

theorem test_meets_HomeAnswers :
    (∃ (s : State) (p y : PortId) (fa : BitVec 52) (t : Trk), s.serving = true ∧ s.home.trk = [(fa.toNat / 64, some t)] ∧ s.home.pins = [] ∧ s.home.confs = [] ∧ s.home.owed = [] ∧ s.lowest p.val = p.val ∧ t.await.getLsbD p.val = true ∧ y ≠ p ∧ t.await.getLsbD y.val = true)
    ∧ (∃ (s : State) (p y : PortId) (fa : BitVec 52) (t : Trk), s.serving = true ∧ s.home.trk = [(fa.toNat / 64, some t)] ∧ s.home.pins = [] ∧ s.home.confs = [] ∧ s.home.owed = [] ∧ s.lowest p.val = p.val ∧ t.await.getLsbD p.val = true ∧ y ≠ p ∧ t.await.getLsbD y.val = true ∧ t.inv = false)
    ∧ (∃ (s : State) (p y : PortId) (tag : BitVec 16) (fa : BitVec 52) (t : Trk) (k : Nat) (d : DirEnt) (_x : Line), s.serving = true ∧ s.home.trk = [(fa.toNat / 64, some t)] ∧ s.home.pins = [] ∧ s.home.confs = [] ∧ s.home.owed = [] ∧ s.findDir (fa.toNat / 64) = some (k, d) ∧ t.awaitFwd = true ∧ t.owner0 = s.lowest p.val ∧ d.trk = tag.toNat ∧ t.await.getLsbD y.val = true)
    ∧ (∃ (s : State) (fa : BitVec 52) (_x : Line) (_b : Bool) (o : RdOut) (r : HReq), HomeQuiet s ∧ s.serving = true ∧ s.home.reads.find? (fun o => o.la = fa.toNat / 64) = some o ∧ o.req = some r ∧ r.io = false ∧ r.tag ≠ recallTag)
    ∧ (∃ (s : State) (_p : PortId) (fa : BitVec 52), HomeQuiet s ∧ s.serving = true ∧ (∀ o ∈ s.home.reads, o.la ≠ fa.toNat / 64))
    ∧ (∃ (s : State) (_h : SliceId) (_p : PortId) (_fa : BitVec 52), s.serving = true) :=
  ⟨⟨(((up.onTabs fun t => { t with wins := [(5, some win1)] }).onPort 3 fun q => { q with state := .active, role := 2, dll := true }).onHome fun g => { g with dir := [(3, some { ent1 with st := .mmA, owner := 3 })], trk := [(0, some trk1)] }), 3, 5, 0, trk1, by decide +kernel⟩,
   ⟨(((up.onTabs fun t => { t with wins := [(5, some win1)] }).onPort 3 fun q => { q with state := .active, role := 2, dll := true }).onHome fun g => { g with dir := [(3, some { ent1 with st := .mmA, owner := 3 })], trk := [(0, some trk1)] }), 3, 5, 0, trk1, by decide +kernel⟩,
   ⟨(((up.onTabs fun t => { t with wins := [(5, some win1)] }).onPort 3 fun q => { q with state := .active, role := 2, dll := true }).onHome fun g => { g with dir := [(3, some { ent1 with st := .mmA, owner := 3, trk := 77 })], trk := [(0, some { trk1 with awaitFwd := true })] }), 3, 5, 77, 0, { trk1 with awaitFwd := true }, 3, { ent1 with st := .mmA, owner := 3, trk := 77 }, 9, by decide +kernel⟩,
   ⟨(((up.onTabs fun t => { t with wins := [(5, some win1)] }).onPort 3 fun q => { q with state := .active, role := 2, dll := true }).onHome fun g => { g with reads := [⟨0, some { req1 with src := .mar }, 0, 0⟩] }), 0, 8, true, ⟨0, some { req1 with src := .mar }, 0, 0⟩, { req1 with src := .mar }, homeQuiet (by decide +kernel), by decide +kernel⟩,
   ⟨up, 3, 64, homeQuiet (by decide +kernel), by decide +kernel⟩,
   ⟨up, 15, 3, 64, by decide +kernel⟩⟩

theorem test_meets_HomeByItself :
    (∃ (s : State) (h : SliceId) (q : Retry) (w : DWin), HomeQuiet s ∧ s.serving = true ∧ s.nextRetry h = some q ∧ s.sc0Waits h = false ∧ s.trackerFree q.req = true ∧ q.req.errs = [] ∧ sliceOf q.req.la = h ∧ (s.slice h).failed = false ∧ s.lineWin q.req.la = some w ∧ w.rt = false ∧ w.u = false ∧ q.kind = 3 ∧ s.findDir q.req.la = none ∧ s.holdsOlc q.req.la = false)
    ∧ (∃ (s : State) (p : PortId) (fa : BitVec 52) (k : Nat) (d : DirEnt) (u : Trk), s.serving = true ∧ s.lowest p.val = p.val ∧ s.findDir (fa.toNat / 64) = some (k, d) ∧ s.trkOf (fa.toNat / 64) = some u ∧ u.awaits p.val = true ∧ (s.port p).state.linked = true)
    ∧ (∃ (s : State) (fa : BitVec 52) (e : Nat × Nat) (w : DWin) (k : Nat) (d : DirEnt), HomeQuiet s ∧ s.serving = true ∧ s.home.recalls.find? (fun e => e.1 = fa.toNat / 64) = some e ∧ s.lineWin (fa.toNat / 64) = some w ∧ w.rt = false ∧ w.u = false ∧ (s.slice (sliceOf (fa.toNat / 64))).failed = false ∧ s.findDir (fa.toNat / 64) = some (k, d) ∧ d.watch = true ∧ d.st = .m ∧ d.owner < 64)
    ∧ (∃ (s : State) (h : SliceId) (k : Nat) (o : OlcEnt), HomeQuiet s ∧ s.serving = true ∧ (s.slice h).failed = false ∧ s.wbUsed h < s.rd R.HOM_WB_RATE ∧ s.wbNext h true = some k ∧ s.olcAt k = some o ∧ sliceOf o.la = h)
    ∧ (∃ (s : State) (fa : BitVec 52) (k : Nat) (o : OlcEnt), HomeQuiet s ∧ s.serving = true ∧ fa.toNat / 64 ∈ s.home.wbOut ∧ (s.slice (sliceOf (fa.toNat / 64))).retry = [] ∧ s.findOlc (fa.toNat / 64) = some (k, o) ∧ o.wb = true ∧ o.dirty = true)
    ∧ (∃ (s u : State) (h : SliceId), u = s.reach (s.multipleDue (s.slice h).scrubAt (s.rd R.HOM_SCRUB_STEP_NS)) ∧ s.serving = true ∧ (s.slice h).failed = false ∧ s.rd R.HOM_SCRUB_EN = 1 ∧ s.sc0Waits h = false ∧ s.flt.inverted = [])
    ∧ (∃ (s u : State) (h : SliceId), ∃ o, u = s.reach (s.multipleDue (s.slice h).scrubAt (s.rd R.HOM_SCRUB_STEP_NS)) ∧ s.serving = true ∧ (s.slice h).failed = false ∧ s.rd R.HOM_SCRUB_EN = 1 ∧ s.sc0Waits h = false ∧ s.flt.inverted = [] ∧ s.olcAt (h.val * 32768 + (s.slice h).scrubPtr) = some o)
    ∧ (∃ (s : State) (u : Unbind), HomeQuiet s ∧ s.serving = true ∧ s.tabs.unbinds.find? (fun u => !u.walking && s.drainedTo u.epoch && !s.retriesIn (u.base * mib2) (u.limit * mib2)) = some u ∧ s.linesIn (u.base * mib2) (u.limit * mib2) = [])
    ∧ (∃ (s : State) (u : Unbind), s.serving = true ∧ s.tabs.unbinds.find? (fun u => u.walking && (s.linesIn (u.base * mib2) (u.limit * mib2)).isEmpty) = some u)
    ∧ (∃ (s : State) (r : Revoke), s.serving = true ∧ s.dom.revokes.find? (fun r => !s.revoking r) = some r) :=
  ⟨⟨(((up.onTabs fun t => { t with wins := [(5, some win1)] }).onPort 3 fun q => { q with state := .active, role := 2, dll := true }).onSlice 0 fun x => { x with retry := [⟨req1, 3, none, 2, 0, 0, none⟩] }), 0, ⟨req1, 3, none, 2, 0, 0, none⟩, win1, homeQuiet (by decide +kernel), by decide +kernel⟩,
   ⟨((((up.onTabs fun t => { t with wins := [(5, some win1)] }).onPort 3 fun q => { q with state := .active, role := 2, dll := true }).onHome fun g => { g with dir := [(3, some { ent1 with st := .mmA, owner := 3 })], trk := [(0, some trk1)] }).onPort 3 fun q => { q with state := .active, role := 2, dll := true }), 3, 0, 3, { ent1 with st := .mmA, owner := 3 }, trk1, by decide +kernel⟩,
   ⟨(((up.onTabs fun t => { t with wins := [(5, some win1)] }).onPort 3 fun q => { q with state := .active, role := 2, dll := true }).onHome fun g => { g with dir := [(3, some { ent1 with st := .m, owner := 5, watch := true })], recalls := [(0, 0)] }), 0, (0, 0), win1, 3, { ent1 with st := .m, owner := 5, watch := true }, homeQuiet (by decide +kernel), by decide +kernel⟩,
   ⟨((((up.onTabs fun t => { t with wins := [(5, some win1)] }).onPort 3 fun q => { q with state := .active, role := 2, dll := true }).onHome fun g => { g with olc := [(2, some { olc1 with ev := true })] }).onTabs fun t => { t with unbinds := [⟨0, 1, 0, true, 0, win1⟩] }), 0, 2, { olc1 with ev := true }, homeQuiet (by decide +kernel), by decide +kernel⟩,
   ⟨((((up.onTabs fun t => { t with wins := [(5, some win1)] }).onPort 3 fun q => { q with state := .active, role := 2, dll := true }).onHome fun g => { g with olc := [(2, some { olc1 with wb := true })], wbOut := [0] }).onSlice 0 fun x => { x with wbFlight := 1 }), 0, 2, { olc1 with wb := true }, homeQuiet (by decide +kernel), by decide +kernel⟩,
   ⟨up, _, 15, rfl, by decide +kernel⟩,
   ⟨(((up.onTabs fun t => { t with wins := [(5, some win1)] }).onPort 3 fun q => { q with state := .active, role := 2, dll := true }).onHome fun g => { g with olc := [(0, some olc1)] }), _, 0, olc1, rfl, by decide +kernel⟩,
   ⟨(up.onTabs fun t => { t with unbinds := [(⟨0, 1, 0, false, 0, win1⟩ : Unbind)] }), (⟨0, 1, 0, false, 0, win1⟩ : Unbind), homeQuiet (by decide +kernel), by decide +kernel⟩,
   ⟨(up.onTabs fun t => { t with unbinds := [(⟨0, 1, 0, true, 0, win1⟩ : Unbind)] }), (⟨0, 1, 0, true, 0, win1⟩ : Unbind), by decide +kernel⟩,
   ⟨(up.onDom fun g => { g with revokes := [⟨4095, 0, 1, 0⟩] }), ⟨4095, 0, 1, 0⟩, by decide +kernel⟩⟩

theorem test_meets_EngineAlu : ∃ (e : EngineId) (x : Fields) (i : Item) (s u : State), ∃ row ∈ aluRows e x, u = s.reach i.firstAt ∧ Runs e row.2.1 x x.aluRegs [] i s :=
  ⟨63, ({ d := 31, a := 1, b := 2, c := 3, f := 0, imm := 0 } : Fields), item1, (eng item1 (ins 1 31 1 2 3 0 0)), _, (.add 63 ({ d := 31, a := 1, b := 2, c := 3, f := 0, imm := 0 } : Fields), 0x01, 1, fun a b => a + b), .head _, rfl, runs (by decide +kernel)⟩

theorem test_meets_EngineControl :
    (∃ (e : EngineId) (x : Fields) (i : Item) (s u : State), u = s.reach i.firstAt ∧ Runs e 0x0C x [x.d] [] i s)
    ∧ (∃ (e : EngineId) (x : Fields) (i : Item) (s u : State), u = s.reach i.firstAt ∧ Runs e 0x0D x [x.d] [] i s)
    ∧ (∃ (e : EngineId) (x : Fields) (i : Item) (s u : State), u = s.reach i.firstAt ∧ Runs e 0x10 x [x.a, x.b] [] i s)
    ∧ (∃ (e : EngineId) (x : Fields) (i : Item) (s u : State), ∃ n, u = s.reach i.firstAt ∧ n = min ((u.engine e).getS x.a).toNat (x.imm.toNat / 2 ^ 16 % 2 ^ 16) ∧ Runs e 0x11 x [x.d, x.a] [] i s ∧ n = 0)
    ∧ (∃ (e : EngineId) (x : Fields) (i : Item) (s u : State), ∃ n, u = s.reach i.firstAt ∧ n = min ((u.engine e).getS x.a).toNat (x.imm.toNat / 2 ^ 16 % 2 ^ 16) ∧ Runs e 0x11 x [x.d, x.a] [] i s ∧ n ≠ 0)
    ∧ (∃ (e : EngineId) (x : Fields) (i : Item) (s u : State), u = s.reach i.firstAt ∧ Runs e 0x13 x [] [] i s ∧ i.reqs.length ≤ x.imm.toNat % 64)
    ∧ (∃ (e : EngineId) (x : Fields) (i : Item) (s u : State), u = s.reach i.firstAt ∧ Runs e 0x12 x [x.a] [] i s ∧ i.bk + ((u.engine e).getS x.a).toNat + x.imm.toNat ≤ u.now)
    ∧ (∃ (e : EngineId) (x : Fields) (i : Item) (s u : State), u = s.reach i.firstAt ∧ Runs e 0x12 x [x.a] [] i s ∧ u.now < i.bk + ((u.engine e).getS x.a).toNat + x.imm.toNat)
    ∧ (∃ (e : EngineId) (_x : Fields) (i : Item) (s u : State), ∃ n v, u = s.reach i.firstAt ∧ v = s.reach n ∧ s.item e = some i ∧ i.waitUntil = some n ∧ s.flt.safe = false ∧ n < s.fenceAt ∧ i.loops = [])
    ∧ (∃ (e : EngineId) (x : Fields) (i : Item) (s u : State), u = s.reach i.firstAt ∧ Runs e 0x1F x [] [] i s ∧ i.reqs = [])
    ∧ (∃ (e : EngineId) (x : Fields) (i : Item) (s u : State), u = s.reach i.firstAt ∧ Runs e 0x1F x [] [] i s ∧ i.reqs ≠ []) :=
  ⟨⟨63, ({ d := 6, a := 1, b := 2, c := 3, f := 8, imm := 4294967295 } : Fields), item1, (eng item1 (ins 12 6 1 2 3 8 4294967295)), _, rfl, runs (by decide +kernel)⟩,
   ⟨63, ({ d := 6, a := 1, b := 2, c := 3, f := 0, imm := 15 } : Fields), item1, (eng item1 (ins 13 6 1 2 3 0 15)), _, rfl, runs (by decide +kernel)⟩,
   ⟨63, ({ d := 6, a := 1, b := 2, c := 3, f := 1, imm := 3 } : Fields), item1, (eng item1 (ins 16 6 1 2 3 1 3)), _, rfl, runs (by decide +kernel)⟩,
   ⟨63, ({ d := 6, a := 0, b := 2, c := 3, f := 0, imm := 5 } : Fields), item1, (eng item1 (ins 17 6 0 2 3 0 5)), _, _, rfl, rfl, runs (by decide +kernel), rfl⟩,
   ⟨63, ({ d := 6, a := 2, b := 2, c := 3, f := 0, imm := 589829 } : Fields), item1, (eng item1 (ins 17 6 2 2 3 0 589829)), _, _, rfl, rfl, runs (by decide +kernel), by decide +kernel⟩,
   ⟨63, ({ d := 6, a := 1, b := 2, c := 3, f := 0, imm := 1 } : Fields), { item1 with reqs := [(⟨4, 9, false, .line 7, 0, 4, true⟩ : EReq)] }, (eng { item1 with reqs := [(⟨4, 9, false, .line 7, 0, 4, true⟩ : EReq)] } (ins 19 6 1 2 3 0 1)), _, rfl, runs (by decide +kernel), by decide +kernel⟩,
   ⟨63, ({ d := 6, a := 0, b := 2, c := 3, f := 0, imm := 0 } : Fields), { item1 with bk := 0 }, (eng { item1 with bk := 0 } (ins 18 6 0 2 3 0 0)), _, rfl, runs (by decide +kernel), by decide +kernel⟩,
   ⟨63, ({ d := 6, a := 1, b := 2, c := 3, f := 0, imm := 5 } : Fields), item1, (eng item1 (ins 18 6 1 2 3 0 5)), _, rfl, runs (by decide +kernel), by decide +kernel⟩,
   ⟨63, ({ d := 6, a := 1, b := 2, c := 3, f := 0, imm := 0 } : Fields), { item1 with waitUntil := some 500 }, (eng { item1 with waitUntil := some 500 } 0), _, 500, _, rfl, rfl, by decide +kernel⟩,
   ⟨63, ({ d := 6, a := 1, b := 2, c := 3, f := 0, imm := 65535 } : Fields), item1, (eng item1 (ins 31 6 1 2 3 0 65535)), _, rfl, runs (by decide +kernel), by decide +kernel⟩,
   ⟨63, ({ d := 6, a := 1, b := 2, c := 3, f := 0, imm := 7 } : Fields), { item1 with reqs := [(⟨4, 9, false, .line 7, 0, 4, true⟩ : EReq)] }, (eng { item1 with reqs := [(⟨4, 9, false, .line 7, 0, 4, true⟩ : EReq)] } (ins 31 6 1 2 3 0 7)), _, rfl, runs (by decide +kernel), by decide +kernel⟩⟩

theorem test_meets_EngineScratchAndLines :
    (∃ (e : EngineId) (x : Fields) (i : Item) (s u : State), ∃ a, u = s.reach i.firstAt ∧ a = ((u.engine e).getS x.a + x.imm.signExtend 64).toNat ∧ Runs e 0x20 x [x.d, x.a] [] i s ∧ u.scratchOk i a x.size = true)
    ∧ (∃ (e : EngineId) (x : Fields) (i : Item) (s u : State), ∃ a, u = s.reach i.firstAt ∧ a = ((u.engine e).getS x.a + x.imm.signExtend 64).toNat ∧ Runs e 0x20 x [x.d, x.a] [] i s ∧ u.scratchOk i a x.size = false)
    ∧ (∃ (e : EngineId) (x : Fields) (i : Item) (s u : State), ∃ a, u = s.reach i.firstAt ∧ a = ((u.engine e).getS x.a + x.imm.signExtend 64).toNat ∧ Runs e 0x21 x [x.a, x.b] [] i s ∧ u.scratchOk i a x.size = true)
    ∧ (∃ (e : EngineId) (x : Fields) (i : Item) (s u : State), ∃ a, u = s.reach i.firstAt ∧ a = ((u.engine e).getS x.a + x.imm.signExtend 64).toNat ∧ Runs e 0x22 x [x.a] [lineReg x.d] i s ∧ u.scratchOk i a 64 = true)
    ∧ (∃ (e : EngineId) (x : Fields) (i : Item) (s u : State), ∃ a, u = s.reach i.firstAt ∧ a = ((u.engine e).getS x.a + x.imm.signExtend 64).toNat ∧ Runs e 0x23 x [x.a] [lineReg x.d] i s ∧ u.scratchOk i a 64 = true ∧ ((u.engine e).getL (lineReg x.d)).2 = false)
    ∧ (∃ (e : EngineId) (x : Fields) (i : Item) (s u : State), u = s.reach i.firstAt ∧ Runs e 0x28 x [x.d] [lineReg x.a] i s ∧ x.imm.toNat % 64 + x.size ≤ 64 ∧ ((u.engine e).getL (lineReg x.a)).2 = false)
    ∧ (∃ (e : EngineId) (x : Fields) (i : Item) (s u : State), u = s.reach i.firstAt ∧ Runs e 0x29 x [x.b] [lineReg x.d] i s ∧ x.imm.toNat % 64 + x.size ≤ 64)
    ∧ (∃ (e : EngineId) (x : Fields) (i : Item) (s u : State), u = s.reach i.firstAt ∧ Runs e 0x2A x [] [lineReg x.d, lineReg x.a, lineReg x.b] i s)
    ∧ (∃ (e : EngineId) (x : Fields) (i : Item) (s u : State), u = s.reach i.firstAt ∧ Runs e 0x2B x [] [lineReg x.d] i s)
    ∧ (∃ (e : EngineId) (x : Fields) (i : Item) (s u : State), u = s.reach i.firstAt ∧ Runs e 0x3C x [x.d] [lineReg x.a] i s ∧ 1 ≤ x.imm.toNat % 128 ∧ x.imm.toNat % 128 ≤ 64 ∧ ((u.engine e).getL (lineReg x.a)).2 = false)
    ∧ (∃ (e : EngineId) (x : Fields) (i : Item) (s u : State), ∃ n a, u = s.reach i.firstAt ∧ n = ((u.engine e).getS x.b).toNat ∧ a = ((u.engine e).getS x.a).toNat ∧ Runs e 0x3D x [x.d, x.a, x.b] [] i s ∧ 1 ≤ n ∧ n ≤ 4096 ∧ a + n ≤ u.scratchSize i.disp.domain) :=
  ⟨⟨63, ({ d := 6, a := 1, b := 2, c := 3, f := 3, imm := 4024 } : Fields), item1, (eng item1 (ins 32 6 1 2 3 3 4024)), _, _, rfl, rfl, runs (by decide +kernel), by decide +kernel⟩,
   ⟨63, ({ d := 6, a := 1, b := 2, c := 3, f := 3, imm := 4032 } : Fields), item1, (eng item1 (ins 32 6 1 2 3 3 4032)), _, _, rfl, rfl, runs (by decide +kernel), by decide +kernel⟩,
   ⟨63, ({ d := 6, a := 1, b := 3, c := 3, f := 3, imm := 4024 } : Fields), item1, (eng item1 (ins 33 6 1 3 3 3 4024)), _, _, rfl, rfl, runs (by decide +kernel), by decide +kernel⟩,
   ⟨63, ({ d := 7, a := 1, b := 2, c := 3, f := 0, imm := 3968 } : Fields), item1, (eng item1 (ins 34 7 1 2 3 0 3968)), _, _, rfl, rfl, runs (by decide +kernel), by decide +kernel⟩,
   ⟨63, ({ d := 7, a := 1, b := 2, c := 3, f := 0, imm := 3968 } : Fields), item1, (eng item1 (ins 35 7 1 2 3 0 3968)), _, _, rfl, rfl, runs (by decide +kernel), by decide +kernel⟩,
   ⟨63, ({ d := 6, a := 7, b := 2, c := 3, f := 3, imm := 56 } : Fields), item1, (eng item1 (ins 40 6 7 2 3 3 56)), _, rfl, runs (by decide +kernel), by decide +kernel⟩,
   ⟨63, ({ d := 7, a := 1, b := 3, c := 3, f := 3, imm := 56 } : Fields), item1, (eng item1 (ins 41 7 1 3 3 3 56)), _, rfl, runs (by decide +kernel), by decide +kernel⟩,
   ⟨63, ({ d := 7, a := 1, b := 2, c := 3, f := 0, imm := 1 } : Fields), item1, (eng item1 (ins 42 7 1 2 3 0 1)), _, rfl, runs (by decide +kernel)⟩,
   ⟨63, ({ d := 7, a := 1, b := 2, c := 3, f := 0, imm := 0 } : Fields), item1, (eng item1 (ins 43 7 1 2 3 0 0)), _, rfl, runs (by decide +kernel)⟩,
   ⟨63, ({ d := 6, a := 7, b := 2, c := 3, f := 0, imm := 64 } : Fields), item1, (eng item1 (ins 60 6 7 2 3 0 64)), _, rfl, runs (by decide +kernel), by decide +kernel⟩,
   ⟨63, ({ d := 6, a := 1, b := 2, c := 3, f := 0, imm := 0 } : Fields), item1, (eng item1 (ins 61 6 1 2 3 0 0)), _, _, _, rfl, rfl, rfl, runs (by decide +kernel), by decide +kernel⟩⟩

theorem test_meets_EngineFabric :
    (∃ (e : EngineId) (x : Fields) (i : Item) (s u : State), ∃ a, u = s.reach i.firstAt ∧ a = ((u.engine e).getS x.a + x.imm.signExtend 64).toNat ∧ Runs e 0x30 x [x.a] [lineReg x.d] i s ∧ u.mayIssue i (a / 64) = true ∧ u.faFault a 64 false = none)
    ∧ (∃ (e : EngineId) (x : Fields) (i : Item) (s u : State), ∃ a, u = s.reach i.firstAt ∧ a = ((u.engine e).getS x.a + x.imm.signExtend 64).toNat ∧ Runs e 0x31 x [x.a] [lineReg x.d] i s ∧ u.mayIssue i (a / 64) = true ∧ u.faFault a 64 false = none)
    ∧ (∃ (e : EngineId) (x : Fields) (i : Item) (s u : State), ∃ a, u = s.reach i.firstAt ∧ a = ((u.engine e).getS x.a + x.imm.signExtend 64).toNat ∧ Runs e 0x32 x [x.a, x.c] [lineReg x.d] i s ∧ u.mayIssue i (a / 64) = true ∧ u.faFault a 64 false = none)
    ∧ (∃ (e : EngineId) (x : Fields) (i : Item) (s u : State), ∃ a, ∃ o, u = s.reach i.firstAt ∧ a = ((u.engine e).getS x.a + x.imm.signExtend 64).toNat ∧ Runs e 0x38 x (if x.f = 5 then [x.d, x.a, x.b, x.c] else [x.d, x.a, x.b]) [] i s ∧ u.mayIssue i (a / 64) = true ∧ atomOp x.f.toNat = some o ∧ u.faFault a 4 true = none)
    ∧ (∃ (e : EngineId) (x : Fields) (i : Item) (s u : State), ∃ a, ∃ o, u = s.reach i.firstAt ∧ a = ((u.engine e).getS x.a + x.imm.signExtend 64).toNat ∧ Runs e 0x39 x (if x.f = 5 then [x.d, x.a, x.b, x.c] else [x.d, x.a, x.b]) [] i s ∧ u.mayIssue i (a / 64) = true ∧ atomOp x.f.toNat = some o ∧ u.faFault a 8 true = none)
    ∧ (∃ (e : EngineId) (x : Fields) (i : Item) (s u : State), ∃ n, u = s.reach i.firstAt ∧ n = ((u.engine e).getS x.c).toNat ∧ Runs e 0x33 x [x.d, x.a, x.c] [] i s ∧ x.f = 0 ∧ 1 ≤ n ∧ n ≤ 4096 ∧ overlap ((u.engine e).getS x.a).toNat ((u.engine e).getS x.d).toNat n = false ∧ u.faFaults (linesFrom ((u.engine e).getS x.a).toNat n ++ linesFrom ((u.engine e).getS x.d).toNat n) = none)
    ∧ (∃ (e : EngineId) (x : Fields) (i : Item) (s u : State), ∃ n, ∃ as, u = s.reach i.firstAt ∧ n = ((u.engine e).getS x.c).toNat ∧ Runs e 0x34 x [x.a, x.b, x.c] [lineReg x.d] i s ∧ 1 ≤ n ∧ n ≤ 256 ∧ i.ending = none ∧ u.tableAddrs e i ((u.engine e).getS x.a).toNat n ((u.engine e).getS x.b) = .inr as ∧ u.faFaults as = none)
    ∧ (∃ (e : EngineId) (x : Fields) (i : Item) (s u : State), ∃ n, ∃ as, u = s.reach i.firstAt ∧ n = ((u.engine e).getS x.c).toNat ∧ Runs e 0x35 x [x.a, x.b, x.c] [lineReg x.d] i s ∧ 1 ≤ n ∧ n ≤ 64 ∧ redOp (x.imm.toNat % 256) = true ∧ u.tableAddrs e i ((u.engine e).getS x.a).toNat n ((u.engine e).getS x.b) = .inr as ∧ u.faFaults as = none)
    ∧ (∃ (e : EngineId) (x : Fields) (i : Item) (s u : State), ∃ n, ∃ fa, u = s.reach i.firstAt ∧ n = ((u.engine e).getS x.c).toNat ∧ fa = ((u.engine e).getS x.b).toNat / 64 % 2 ^ 46 * 64 ∧ Runs e 0x36 x [x.a, x.b] [] i s ∧ ((u.engine e).getS x.a).getLsbD 63 = false ∧ u.itemHeld i = false ∧ decidePart u i.disp.domain 0 0 fa needR = .allowed) :=
  ⟨⟨63, ({ d := 7, a := 1, b := 2, c := 3, f := 0, imm := 2097024 } : Fields), item1, (eng item1 (ins 48 7 1 2 3 0 2097024)), _, _, rfl, rfl, runs (by decide +kernel), by decide +kernel⟩,
   ⟨63, ({ d := 7, a := 1, b := 2, c := 3, f := 0, imm := 64 } : Fields), item1, (eng item1 (ins 49 7 1 2 3 0 64)), _, _, rfl, rfl, runs (by decide +kernel), by decide +kernel⟩,
   ⟨63, ({ d := 7, a := 1, b := 2, c := 3, f := 0, imm := 64 } : Fields), item1, (eng item1 (ins 50 7 1 2 3 0 64)), _, _, rfl, rfl, runs (by decide +kernel), by decide +kernel⟩,
   ⟨63, ({ d := 6, a := 1, b := 2, c := 3, f := 9, imm := 4 } : Fields), item1, (eng item1 (ins 56 6 1 2 3 9 4)), _, _, AtomOp.smax, rfl, rfl, runs (by decide +kernel), by decide +kernel⟩,
   ⟨63, ({ d := 6, a := 1, b := 2, c := 3, f := 0, imm := 8 } : Fields), item1, (eng item1 (ins 57 6 1 2 3 0 8)), _, _, AtomOp.add, rfl, rfl, runs (by decide +kernel), by decide +kernel⟩,
   ⟨63, ({ d := 4, a := 1, b := 2, c := 2, f := 0, imm := 0 } : Fields), item1, (eng item1 (ins 51 4 1 2 2 0 0)), _, _, rfl, rfl, runs (by decide +kernel), by decide +kernel⟩,
   ⟨63, ({ d := 7, a := 1, b := 4, c := 5, f := 0, imm := 0 } : Fields), item1, (eng item1 (ins 52 7 1 4 5 0 0)), _, _, [8192], rfl, rfl, runs (by decide +kernel), by decide +kernel⟩,
   ⟨63, ({ d := 7, a := 1, b := 4, c := 5, f := 0, imm := 1 } : Fields), item1, (eng item1 (ins 53 7 1 4 5 0 1)), _, _, [8192], rfl, rfl, runs (by decide +kernel), by decide +kernel⟩,
   ⟨63, ({ d := 6, a := 0, b := 2, c := 3, f := 0, imm := 0 } : Fields), item1, ((eng item1 (ins 54 6 0 2 3 0 0)).onDom fun g => { g with rules := [(4096, some ⟨0, 2 ^ 52, 0, false, false, false, true, 0, 0, false⟩)] }), _, _, _, rfl, rfl, rfl, runs (by decide +kernel), by decide +kernel⟩⟩

theorem test_meets_EngineItems :
    (∃ (s u : State) (j n : Nat) (d : Disp) (e : EngineId), u = s.reach (s.pit.bk + d.offset) ∧ s.entry j = some d ∧ s.placeOf j = some n ∧ e.val = n ∧ s.serving = true ∧ s.pit.running = true ∧ j < 256 ∧ s.eng.ran.getLsbD j = false ∧ s.rec_.hold = false ∧ s.img.hold = false ∧ s.domainHalted d.domain = false ∧ d.fed = false ∧ (s.engine e).healthy = true ∧ u.now < u.fenceAt ∧ u.defers d n = false ∧ (s.engine e).st = .idle ∧ s.item e = none ∧ s.waitsTurn j = false ∧ (s.slot d.slot).wait = none)
    ∧ (∃ (s u : State) (e : EngineId) (i : Item), u = s.reach (s.now + (5 * (i.disp.budget - (s.engine e).used) + 7) / 8) ∧ s.item e = some i ∧ Item.overran i = false)
    ∧ (∃ (s u : State) (_e : EngineId), u = s.reach s.fenceAt ∧ s.serving = true ∧ s.pit.running = true)
    ∧ (∃ (s : State) (e : EngineId) (tag : Nat) (_x : Line) (i : Item) (r : EReq) (l : Fin 8), s.item e = some i ∧ i.reqs.find? (fun r => r.tag = tag) = some r ∧ r.dest = .line l ∧ i.todo = [] ∧ i.multi = false ∧ i.ending = none)
    ∧ (∃ (s : State) (e : EngineId) (_tag : Nat) (_st : RspStatus) (_x : Line), s.item e = none) :=
  ⟨⟨(((up.onPit fun p => { p with running := true, current := { Plan.factory with disp := [entry1] } }).onEng fun g => { g with place := [some 63] }).onDom fun g => { g with doms := g.doms ++ [(1, { Domain.none with st := .active, scr := 1, prg := 1 })] }), _, 0, 63, entry1, 63, rfl, by decide +kernel⟩,
   ⟨(eng item1 0), _, 63, item1, rfl, by decide +kernel⟩,
   ⟨((eng item1 0).onPit fun p => { p with running := true }), _, 63, rfl, by decide +kernel⟩,
   ⟨(eng { item1 with reqs := [(⟨4, 9, false, .line 7, 0, 4, true⟩ : EReq)] } 0), 63, 4, 8, { item1 with reqs := [(⟨4, 9, false, .line 7, 0, 4, true⟩ : EReq)] }, (⟨4, 9, false, .line 7, 0, 4, true⟩ : EReq), 7, by decide +kernel⟩,
   ⟨up, 63, 5, .ok, 7, by decide +kernel⟩⟩

theorem test_meets_EngineFailures :
    (∃ (s : State) (e : EngineId) (c : Fin 8), s.started = true ∧ 1 ≤ c.val ∧ c.val ≤ 6 ∧ c.val ≠ 5 ∧ (s.engine e).healthy = true)
    ∧ (∃ (s u : State) (e : EngineId) (l : LoadSt), u = s.reach l.doneAt ∧ (s.engine e).st = .loading ∧ (s.engine e).load = some l ∧ l.again = none ∧ s.flt.safe = false)
    ∧ (∃ (s : State) (h : Hdr) (i : Word32) (e : EngineId), Admitted h [] s ∧ i.toNat = e.val ∧ (s.engine e).healthy = true)
    ∧ (∃ (s : State) (h : Hdr) (w10 w18 : Word) (_a : Args) (slot : Nat), ∃ j d, Permitted h s ∧ slot = w10.toNat % 2 ^ 16 ∧ w10.toNat / 2 ^ 16 % 2 ^ 48 = 0 ∧ w18.toNat / 2 ^ 48 % 2 ^ 16 = 0 ∧ s.pit.current.slotEntry slot = some (j, d) ∧ d.domain = h.domain.toNat ∧ d.domain = s.ringDomain h.ring.val ∧ d.fed = true ∧ (s.placeOf j).isSome = true ∧ (s.slot slot).queue.length < 16)
    ∧ (∃ (s : State) (h : Hdr) (w10 w18 : Word) (_a : Args) (slot : Nat), ∃ j d, Permitted h s ∧ slot = w10.toNat % 2 ^ 16 ∧ w10.toNat / 2 ^ 16 % 2 ^ 48 = 0 ∧ w18.toNat / 2 ^ 48 % 2 ^ 16 = 0 ∧ s.pit.current.slotEntry slot = some (j, d) ∧ d.domain = h.domain.toNat ∧ d.domain = s.ringDomain h.ring.val ∧ d.fed = true ∧ s.placeOf j = none)
    ∧ (∃ (s : State) (h : Hdr) (w10 w18 : Word) (_a : Args) (slot : Nat), ∃ j d, Permitted h s ∧ slot = w10.toNat % 2 ^ 16 ∧ w10.toNat / 2 ^ 16 % 2 ^ 48 = 0 ∧ w18.toNat / 2 ^ 48 % 2 ^ 16 = 0 ∧ s.pit.current.slotEntry slot = some (j, d) ∧ d.domain = h.domain.toNat ∧ d.domain = s.ringDomain h.ring.val ∧ d.fed = false)
    ∧ (∃ (s : State) (h : Hdr) (w10 w18 : Word) (_a : Args) (slot : Nat), ∃ j d, Permitted h s ∧ slot = w10.toNat % 2 ^ 16 ∧ w10.toNat / 2 ^ 16 % 2 ^ 48 = 0 ∧ w18.toNat / 2 ^ 48 % 2 ^ 16 = 0 ∧ s.pit.current.slotEntry slot = some (j, d) ∧ (d.domain ≠ h.domain.toNat ∨ d.domain ≠ s.ringDomain h.ring.val)) :=
  ⟨⟨(eng item1 0), 63, 6, by decide +kernel⟩,
   ⟨(up.onEngine 63 fun g => { g with st := .loading, load := some ⟨500, [], none⟩ }), _, 63, ⟨500, [], none⟩, rfl, by decide +kernel⟩,
   ⟨mgr, hd, 63, 63, admitted (by decide +kernel), by decide +kernel⟩,
   ⟨((mgr.onPit fun p => { p with running := true, current := { Plan.factory with disp := [{ entry1 with domain := 0, slot := 65535, fed := true }] } }).onEng fun g => { g with place := [some 63] }), hd, 65535, 5, ⟨1, 2, 3, 4⟩, 65535, 0, { entry1 with domain := 0, slot := 65535, fed := true }, permitted (by decide +kernel), by decide +kernel⟩,
   ⟨(((mgr.onPit fun p => { p with running := true, current := { Plan.factory with disp := [{ entry1 with domain := 0, slot := 65535, fed := true }] } }).onEng fun g => { g with place := [some 63] }).onEng fun g => { g with place := [none] }), hd, 65535, 5, ⟨1, 2, 3, 4⟩, 65535, 0, { entry1 with domain := 0, slot := 65535, fed := true }, permitted (by decide +kernel), by decide +kernel⟩,
   ⟨((mgr.onPit fun p => { p with running := true, current := { Plan.factory with disp := [{ entry1 with domain := 0, slot := 65535, fed := false }] } }).onEng fun g => { g with place := [some 63] }), hd, 65535, 5, ⟨1, 2, 3, 4⟩, 65535, 0, { entry1 with domain := 0, slot := 65535, fed := false }, permitted (by decide +kernel), by decide +kernel⟩,
   ⟨(((mgr.onPit fun p => { p with running := true, current := { Plan.factory with disp := [{ entry1 with domain := 0, slot := 65535, fed := false }] } }).onEng fun g => { g with place := [some 63] }).onPit fun p => { p with current := { p.current with disp := [{ entry1 with slot := 65535 }] } }), hd, 65535, 5, ⟨1, 2, 3, 4⟩, 65535, 0, { entry1 with slot := 65535 }, permitted (by decide +kernel), by decide +kernel⟩⟩

theorem test_meets_QueuesIn :
    (∃ (n : Fin 8192) (evq : Bool) (s : State) (r : Ring), ∃ u, u = s.reach (s.pollDue r) ∧ s.serving = true ∧ s.queueAt n.val evq = some r ∧ r.dbMode = 1 ∧ s.pollDue r < s.pit.bk + s.pit.period)
    ∧ (∃ (n : Fin 8192) (evq : Bool) (s : State) (r : Ring), ∃ u, u = s.reach (s.pollDue r) ∧ s.serving = true ∧ s.queueAt n.val evq = some r ∧ r.dbMode = 1 ∧ s.pit.bk + s.pit.period ≤ s.pollDue r)
    ∧ (∃ (n : Fin 8192) (evq : Bool) (s : State) (r : Ring), s.serving = true ∧ s.queueAt n.val evq = some r ∧ r.dbMode ≠ 1)
    ∧ (∃ (n : Fin 8192) (evq : Bool) (s : State) (r : Ring), ∃ w : Word, s.serving = true ∧ s.queueAt n.val evq = some r ∧ r.state = .active ∧ s.doorbellAllowed r = true ∧ bits w.toNat 32 8 = r.gen ∧ r.kind = .sq ∧ (bits w.toNat 0 32 + 2 ^ 32 - r.cons) % 2 ^ 32 ≤ 2 ^ r.log2n)
    ∧ (∃ (n : Fin 8192) (evq : Bool) (s : State) (r : Ring), ∃ w : Word, s.serving = true ∧ s.queueAt n.val evq = some r ∧ r.state = .active ∧ s.doorbellAllowed r = true ∧ bits w.toNat 32 8 ≠ r.gen)
    ∧ (∃ (n : Fin 8192) (evq : Bool) (s : State) (r : Ring), s.serving = true ∧ s.queueAt n.val evq = some r ∧ r.state = .active ∧ s.doorbellAllowed r = true)
    ∧ (∃ (n : Fin 8192) (s : State) (r : Ring), ∃ (_d : List Word) (c : Ring), s.serving = true ∧ s.ring n.val = some r ∧ s.rec_.hold = false ∧ s.img.hold = false ∧ s.fetchTurn = some n.val ∧ s.cqOf n.val ≠ n.val ∧ s.ring (s.cqOf n.val) = some c ∧ s.hostAllows r.domain r.space r.port (r.base + 64 * (r.cons % 2 ^ r.log2n)) needR = true)
    ∧ (∃ (n : Fin 8192) (s : State) (r : Ring), ∃ _d : Option (List Word), s.serving = true ∧ s.ring n.val = some r ∧ s.fetchTurn ≠ some n.val)
    ∧ (∃ (n : Fin 8192) (s : State) (r : Ring), ∃ (d : List Word) (rest : List (List Word)), ∃ k, cmdRow (bits (wordAt d 0) 0 16) = some k ∧ s.serving = true ∧ s.ring n.val = some r ∧ r.fetched = d :: rest ∧ r.mayStart n.val (hdrOf n.val d) = true ∧ descCheck d = none)
    ∧ (∃ (n : Fin 8192) (s : State) (r : Ring), ∃ (d : List Word) (rest : List (List Word)), ∃ x, s.serving = true ∧ s.ring n.val = some r ∧ r.fetched = d :: rest ∧ r.mayStart n.val (hdrOf n.val d) = true ∧ descCheck d = some x)
    ∧ (∃ (n : Fin 8192) (s : State) (r : Ring), s.serving = true ∧ s.ring n.val = some r ∧ r.fetched = []) :=
  ⟨⟨8191, false, ((withRings [(8191, some (ring1 .sq))]).onPit fun p => { p with running := true, period := 1000000 }), (ring1 .sq), _, rfl, by decide +kernel⟩,
   ⟨8191, false, (withRings [(8191, some { ring1 .sq with pollAt := some 999999 })]), { ring1 .sq with pollAt := some 999999 }, _, rfl, by decide +kernel⟩,
   ⟨8191, false, (withRings [(8191, some { ring1 .sq with dbMode := 2 })]), { ring1 .sq with dbMode := 2 }, by decide +kernel⟩,
   ⟨8191, false, (withRings [(8191, some (ring1 .sq))]), (ring1 .sq), 0x300000040, by decide +kernel⟩,
   ⟨8191, false, (withRings [(8191, some (ring1 .sq))]), (ring1 .sq), 0x200000040, by decide +kernel⟩,
   ⟨8191, false, (withRings [(8191, some (ring1 .sq))]), (ring1 .sq), by decide +kernel⟩,
   ⟨2, (withRings [(2, some { ring1 .sq with prod := 5, cons := 4 }), (3, some (ring1 .cq))]), { ring1 .sq with prod := 5, cons := 4 }, [0x0000000700020001, 0, 0, 0], (ring1 .cq), by decide +kernel⟩,
   ⟨2, (withRings [(2, some (ring1 .sq)), (3, some (ring1 .cq))]), (ring1 .sq), none, by decide +kernel⟩,
   ⟨2, (withRings [(2, some { ring1 .sq with fetched := [[0x0000000700020001, 0, 0, 0]] }), (3, some (ring1 .cq))]), { ring1 .sq with fetched := [[0x0000000700020001, 0, 0, 0]] }, [0x0000000700020001, 0, 0, 0], [], _, rfl, by decide +kernel⟩,
   ⟨2, (withRings [(2, some { ring1 .sq with fetched := [[0x0000000700030001, 0, 0, 0]] }), (3, some (ring1 .cq))]), { ring1 .sq with fetched := [[0x0000000700030001, 0, 0, 0]] }, [0x0000000700030001, 0, 0, 0], [], { status := .unsupported }, by decide +kernel⟩,
   ⟨2, (withRings [(2, some (ring1 .sq))]), (ring1 .sq), by decide +kernel⟩⟩

theorem test_meets_HostReads :
    (∃ (h : Hdr) (s : State), Permitted h s)
    ∧ (∃ (h : Hdr) (s : State), Permitted h s ∧ s.drainedTo s.fab.epoch = true)
    ∧ (∃ (h : Hdr) (s : State), Permitted h s ∧ s.drainedTo s.fab.epoch = false)
    ∧ (∃ (h : Hdr) (s : State), ∃ index : Word32, Permitted h s ∧ index.toNat ≤ 8191)
    ∧ (∃ (h : Hdr) (s : State), ∃ index : Word32, Permitted h s ∧ index.toNat < (s.domain h.domain.toNat).counters)
    ∧ (∃ (h : Hdr) (i : Word32) (s : State), ∃ entry : Entry, Admitted h [] s ∧ counterBad entry = none ∧ i.toNat < (s.domain h.domain.toNat).counters ∧ h.domain.toNat = 0 ∧ s.anyResetting (counterNames entry) = false)
    ∧ (∃ (h : Hdr) (i : Word32) (s : State), ∃ _x : BitVec 16, Admitted h [] s ∧ s.isLowest i.toNat = true) :=
  ⟨⟨hd, mgr, permitted (by decide +kernel)⟩,
   ⟨hd, mgr, permitted (by decide +kernel), by decide +kernel⟩,
   ⟨hd, (mgr.onFab fun f => { f with ledger := [(65535, 1)], epoch := 0 }), permitted (by decide +kernel), by decide +kernel⟩,
   ⟨hd, (withRings [(8191, some (ring1 .sq))]), 8191, permitted (by decide +kernel), by decide +kernel⟩,
   ⟨hd, mgr, 63, permitted (by decide +kernel), by decide +kernel⟩,
   ⟨hd, 63, mgr, (BitVec.ofNat 256 (0x40 + 2 ^ 16 * 5) : Entry), admitted (by decide +kernel), by decide +kernel⟩,
   ⟨hd, 63, mgr, 65535, admitted (by decide +kernel), by decide +kernel⟩⟩

theorem test_meets_Rings :
    (∃ (h : Hdr) (s : State), ∃ (w10 w18 w20 w28 w30 : Word) (r : Ring), Admitted h [] s ∧ r = ringOf h.domain.toNat w10.toNat w18.toNat w20.toNat w28.toNat w30.toNat 0 false ∧ (r.kind = .sq → ∃ q, s.ring r.pair = some q ∧ q.kind = .cq ∧ q.domain = h.domain.toNat) ∧ (r.kind = .stat → s.statRing h.domain.toNat = none) ∧ WatchReady r s ∧ ringBad w10.toNat w18.toNat w20.toNat w28.toNat w30.toNat 0 false = none ∧ 2 ≤ bits w10.toNat 0 13 ∧ s.ring (bits w10.toNat 0 13) = none ∧ s.ringPortsOk r = true ∧ (s.domain h.domain.toNat).debug = false ∧ (s.domain h.domain.toNat).st ≠ .free)
    ∧ (∃ (h : Hdr) (s : State), ∃ (i : Word32) (r : Ring), Admitted h [] s ∧ 2 ≤ i.toNat ∧ i.toNat ≤ 8191 ∧ s.ring i.toNat = some r ∧ s.ringNamed i.toNat = false ∧ r.dbMode ≠ 0 ∧ r.fetched = [] ∧ r.live = [])
    ∧ (∃ (h : Hdr) (s : State), ∃ (i : Word32) (w : Word) (r : Ring), Admitted h [] s ∧ i.toNat ≤ 8191 ∧ bits w.toNat 40 24 = 0 ∧ s.ring i.toNat = some r ∧ r.kind ≠ .sq)
    ∧ (∃ (h : Hdr) (s : State), ∃ (i : Word32) (w20 w28 : Word) (r : Ring), Admitted h [] s ∧ i.toNat ≤ 8191 ∧ firstBad (doorbellChecks w20.toNat w28.toNat) = none ∧ s.ring i.toNat = some r ∧ r.dbMode ≠ 0 ∧ bits w28.toNat 4 2 ≠ 0 ∧ s.isUpstream (bits w28.toNat 16 6) = true) :=
  ⟨⟨hd, (withRings [(3, some (ring1 .cq))]), 12891725823, 0x10000, 0x2000, 15032385557, 0, _, admitted (by decide +kernel), rfl, fun _ => ⟨ring1 .cq, by decide +kernel⟩, fun h => absurd h (by decide +kernel), ⟨by decide +kernel, fun _ h => nomatch (show none = some _ from h)⟩, by decide +kernel⟩,
   ⟨hd, (withRings [(8191, some (ring1 .sq))]), 8191, (ring1 .sq), admitted (by decide +kernel), by decide +kernel⟩,
   ⟨hd, (withRings [(8191, some (ring1 .cq))]), 8191, 30064771077, (ring1 .cq), admitted (by decide +kernel), by decide +kernel⟩,
   ⟨hd, (withRings [(8191, some (ring1 .cq))]), 8191, 0x4000, 15032385557, (ring1 .cq), admitted (by decide +kernel), by decide +kernel⟩⟩

theorem test_meets_EventQueues :
    (∃ (h : Hdr) (s : State), ∃ (w10 w18 w20 w28 w30 w38 : Word) (r : Ring), Admitted h [] s ∧ r = ringOf h.domain.toNat w10.toNat w18.toNat w20.toNat w28.toNat w30.toNat w38.toNat true ∧ WatchReady r s ∧ ringBad w10.toNat w18.toNat w20.toNat w28.toNat w30.toNat w38.toNat true = none ∧ bits w10.toNat 0 13 ≠ 0 ∧ s.evq (bits w10.toNat 0 13) = none ∧ s.evqsOf h.domain.toNat < (s.domain h.domain.toNat).evqs ∧ s.isUpstream r.port = true)
    ∧ (∃ (h : Hdr) (s : State), ∃ (i : Word32) (r : Ring), Admitted h [] s ∧ (∀ e ∈ s.host.rings, ∀ q, e.2 = some q → q.evq ≠ i.toNat) ∧ i.toNat ≠ 0 ∧ i.toNat ≤ 8191 ∧ s.evq i.toNat = some r ∧ r.dbMode ≠ 0)
    ∧ (∃ (h : Hdr) (s : State), ∃ (i : Word32) (entry : Word), Admitted h [i.toNat / 256] s ∧ sourceBad i entry.toNat = none ∧ flag entry.toNat 18 = false ∧ flag entry.toNat 16 = false ∧ s.evq (bits entry.toNat 0 13) = none ∧ s.sourceActive i.toNat = true)
    ∧ (∃ (h : Hdr) (s : State), ∃ (i : Word32) (entry : Word), Admitted h [i.toNat / 256] s ∧ sourceBad i entry.toNat = none ∧ flag entry.toNat 18 = true)
    ∧ (∃ (h : Hdr) (s : State), ∃ i : Word32, Admitted h [i.toNat / 256] s ∧ sourceBad i 0 = none) :=
  ⟨⟨hd, mgr, 6823935, 0x10000, 0x2000, 15032385557, 0, 65541, _, admitted (by decide +kernel), rfl, ⟨by decide +kernel, fun _ h => nomatch (show none = some _ from h)⟩, by decide +kernel⟩,
   ⟨hd, (mgr.onHost fun h => { h with evqs := [(8191, some (ring1 .evq))] }), 8191, (ring1 .evq), admitted (by decide +kernel), fun _ h => (List.not_mem_nil h).elim, by decide +kernel⟩,
   ⟨hd, ((mgr.onHost fun h => { h with evqs := [(0, some (ring1 .evq))] }).wr R.GLB_MRING_STATUS_READY 0 1), 0x18, 139263, admitted (by decide +kernel), by decide +kernel⟩,
   ⟨hd, mgr, 0x18, 262144, admitted (by decide +kernel), by decide +kernel⟩,
   ⟨hd, mgr, 0x18, admitted (by decide +kernel), by decide +kernel⟩⟩

theorem test_meets_PortCommands :
    (∃ (h : Hdr) (i : Word32) (s : State), Admitted h [] s ∧ s.isLowest i.toNat = true ∧ (s.portN i.toNat).state = .active ∧ s.role i.toNat ≠ 0)
    ∧ (∃ (h : Hdr) (i : Word32) (s : State), Admitted h [] s ∧ s.isLowest i.toNat = true ∧ (s.portN i.toNat).bindable = true ∧ s.role i.toNat ≠ 0)
    ∧ (∃ (h : Hdr) (i : Word32) (s : State), Admitted h [] s ∧ s.isLowest i.toNat = true ∧ s.role i.toNat = 0)
    ∧ (∃ (h : Hdr) (i : Word32) (s : State), Admitted h [] s ∧ s.isLowest i.toNat = true ∧ (s.portN i.toNat).canFall = false)
    ∧ (∃ (h : Hdr) (i : Word32) (s : State), Admitted h [] s ∧ s.isLowest i.toNat = true ∧ (s.portN i.toNat).canFall = true)
    ∧ (∃ (h : Hdr) (i : Word32) (s : State), ∃ (aux : Word32) (_key : Entry), Admitted h [] s ∧ s.isLowest i.toNat = true ∧ bits aux.toNat 0 4 ≤ 8 ∧ bits aux.toNat 5 2 ≠ 3 ∧ aux.toNat < 256 ∧ (s.isDownstream i.toNat || s.isFabric i.toNat) = true ∧ (s.portN i.toNat).state.linked = false)
    ∧ (∃ (h : Hdr) (i : Word32) (s : State), ∃ (aux : Word32) (_key : Entry), Admitted h [] s ∧ s.isLowest i.toNat = true ∧ bits aux.toNat 0 4 ≤ 8 ∧ bits aux.toNat 5 2 ≠ 3 ∧ aux.toNat < 256 ∧ (s.isDownstream i.toNat || s.isFabric i.toNat) = true ∧ (s.portN i.toNat).state.linked = true)
    ∧ (∃ (p : PortId) (s : State), s.started = true ∧ s.role p.val = 1 ∧ p.val ≠ s.mgrPort) :=
  ⟨⟨hd, 0, mgr, admitted (by decide +kernel), by decide +kernel⟩,
   ⟨hd, 2, (mgr.onPort 2 fun q => { q with state := .up, merad := .ended, role := 2 }), admitted (by decide +kernel), by decide +kernel⟩,
   ⟨hd, 63, mgr, admitted (by decide +kernel), by decide +kernel⟩,
   ⟨hd, 63, mgr, admitted (by decide +kernel), by decide +kernel⟩,
   ⟨hd, 2, (mgr.onPort 2 fun q => { q with state := .active, role := 2, dll := true, gen := 255 }), admitted (by decide +kernel), by decide +kernel⟩,
   ⟨hd, 2, (mgr.wr R.PRT_CFG_ROLE 2 2), 0xD8, 5, admitted (by decide +kernel), by decide +kernel⟩,
   ⟨hd, 2, (mgr.onPort 2 fun q => { q with state := .active, role := 2, dll := true }), 0xD8, 5, admitted (by decide +kernel), by decide +kernel⟩,
   ⟨2, (mgr.onPort 2 fun q => { q with state := .active, role := 1, dll := true }), by decide +kernel⟩⟩

theorem test_meets_TableCommands :
    (∃ (h : Hdr) (i : Word32) (s : State), ∃ entry : Entry, Admitted h [(winOf entry).domain] s ∧ i.toNat < 16384 ∧ winBad entry = none ∧ s.winRefused i.toNat (winOf entry) = none ∧ (winOf entry).rt = false ∧ s.slotBusy = false)
    ∧ (∃ (h : Hdr) (i : Word32) (s : State), ∃ entry : Entry, Admitted h [(winOf entry).domain] s ∧ i.toNat < 16384 ∧ winBad entry = none ∧ s.winRefused i.toNat (winOf entry) = none ∧ (winOf entry).rt = true ∧ s.newUnits i.toNat (winOf entry) ≠ [])
    ∧ (∃ (h : Hdr) (i : Word32) (s : State), Admitted h [] s ∧ i.toNat < 16384 ∧ s.winAt i.toNat = none)
    ∧ (∃ (h : Hdr) (i : Word32) (s : State), Admitted h [] s ∧ i.toNat < 16384 ∧ s.slotBusy = false ∧ (s.winAt i.toNat).isSome = true ∧ s.watchedIn (s.unmapped i.toNat none) = false)
    ∧ (∃ (h : Hdr) (i : Word32) (s : State), ∃ x : BitVec 16, Admitted h [] s ∧ i.toNat < 4096 ∧ x.toNat < 256 ∧ x.getLsbD 7 = false ∧ s.slotBusy = false)
    ∧ (∃ (h : Hdr) (i : Word32) (s : State), ∃ x : BitVec 16, Admitted h [] s ∧ i.toNat < 4096 ∧ x.toNat < 256 ∧ x.getLsbD 7 = false ∧ s.slotBusy = true)
    ∧ (∃ (h : Hdr) (i : Word32) (s : State), ∃ (o : HRef) (l : List Word32), Admitted h [] s ∧ ObjectOk h o 64 needR s ∧ i.toNat < 1024 ∧ firstBad o.bad = none ∧ tlistBad l = none ∧ (s.objectRead h o 64 needR).slotBusy = false)
    ∧ (∃ (h : Hdr) (i : Word32) (s : State), ∃ aux : Word32, Admitted h [] s ∧ bindBad aux = none ∧ s.slotBusy = false ∧ i.toNat ≤ 63 ∧ s.isDownstream i.toNat = true ∧ s.isUpstream (aux.extractLsb' 16 6).toNat = true ∧ (s.domain h.domain.toNat).debug = false ∧ s.cachesBehindSwitch (bindKey i aux) ⟨(aux.extractLsb' 16 6).toNat, h.domain.toNat⟩ = false)
    ∧ (∃ (h : Hdr) (i : Word32) (s : State), ∃ aux : Word32, Admitted h [] s ∧ bindBad aux = none ∧ s.slotBusy = false ∧ i.toNat ≤ 63 ∧ s.isDownstream i.toNat = true ∧ s.isUpstream (aux.extractLsb' 16 6).toNat = true ∧ Tab.get noneAt s.tabs.binds (bindKey i aux) = none)
    ∧ (∃ (h : Hdr) (i : Word32) (s : State), ∃ aux : Word32, Admitted h [] s ∧ bindBad aux = none ∧ s.slotBusy = false ∧ i.toNat ≤ 63 ∧ s.isDownstream i.toNat = true ∧ s.isUpstream (aux.extractLsb' 16 6).toNat = true ∧ Tab.get noneAt s.tabs.binds (bindKey i aux) ≠ none)
    ∧ (∃ (h : Hdr) (i : Word32) (s : State), ∃ (_n : Fin 16) (w : Word), Admitted h [(ridOf w).domain] s ∧ i.toNat < 64 ∧ ridBad w = none ∧ s.slotBusy = false ∧ ((ridOf w).valid = true → (s.domain (ridOf w).domain).debug = false))
    ∧ (∃ (h : Hdr) (i : Word32) (s : State), ∃ key, ∃ entry : Entry, key = ruleKey h.domain.toNat i.toNat ∧ Admitted h [] s ∧ i.toNat < (s.domain h.domain.toNat).rules ∧ s.slotBusy = false ∧ s.ruleLocked key = false ∧ ruleBad entry s.isUpstream = none)
    ∧ (∃ (h : Hdr) (i : Word32) (s : State), ∃ key, key = ruleKey h.domain.toNat i.toNat ∧ Admitted h [] s ∧ i.toNat < (s.domain h.domain.toNat).rules ∧ s.slotBusy = false ∧ s.ruleLocked key = false)
    ∧ (∃ (h : Hdr) (i : Word32) (s : State), ∃ key, ∃ k, key = ruleKey h.domain.toNat i.toNat ∧ Admitted h [] s ∧ i.toNat < (s.domain h.domain.toNat).rules ∧ s.slotBusy = false ∧ s.ruleLocked key = false ∧ k ≠ key) :=
  ⟨⟨hd, 16383, mgr, (BitVec.ofNat 256 (16385 * 2 ^ 0 + 2147483648 * 2 ^ 64) : Entry), admitted (by decide +kernel), by decide +kernel⟩,
   ⟨hd, 0, ((mgr.onTabs fun t => { t with tlists := [(1, [0x80000003])] }).onPort 3 fun q => { q with state := .active, role := 2 }), (BitVec.ofNat 256 (16399 * 2 ^ 0 + 2147483648 * 2 ^ 64 + 549755813888 * 2 ^ 128) : Entry), admitted (by decide +kernel), by decide +kernel⟩,
   ⟨hd, 16383, mgr, admitted (by decide +kernel), by decide +kernel⟩,
   ⟨hd, 5, (mgr.onTabs fun t => { t with wins := [(5, some (⟨true, false, false, false, true, false, 64, 0, 0, 0, 1, 0, 0, 0, 0, 0⟩ : DWin))] }), admitted (by decide +kernel), by decide +kernel⟩,
   ⟨hd, 4095, mgr, 0x7F, admitted (by decide +kernel), by decide +kernel⟩,
   ⟨hd, 4095, (mgr.onFab fun f => { f with used := true, ledger := [(65281, 1)] }), 0x7F, admitted (by decide +kernel), by decide +kernel⟩,
   ⟨hd, 1023, mgr, obj1, List.replicate 16 0x7FFFFF, admitted (by decide +kernel), objectOk (by decide +kernel), by decide +kernel⟩,
   ⟨hd, 2, ((mgr.onPort 2 fun q => { q with state := .active, role := 2 }).onPort 3 fun q => { q with state := .active, role := 1 }), 251854848, admitted (by decide +kernel), by decide +kernel⟩,
   ⟨hd, 2, ((mgr.onPort 2 fun q => { q with state := .active, role := 2 }).onPort 3 fun q => { q with state := .active, role := 1 }), 251854848, admitted (by decide +kernel), by decide +kernel⟩,
   ⟨hd, 2, (((mgr.onPort 2 fun q => { q with state := .active, role := 2 }).onPort 3 fun q => { q with state := .active, role := 1 }).onTabs fun t => { t with binds := [(79, some ⟨3, 0⟩)] }), 251854848, admitted (by decide +kernel), by decide +kernel⟩,
   ⟨hd, 63, mgr, 15, 281475282130552, admitted (by decide +kernel), by decide +kernel⟩,
   ⟨hd, 1023, mgr, _, (BitVec.ofNat 256 (1048576 * 2 ^ 64 + 285212672 * 2 ^ 128) : Entry), rfl, admitted (by decide +kernel), by decide +kernel⟩,
   ⟨hd, 1023, mgr, _, rfl, admitted (by decide +kernel), by decide +kernel⟩,
   ⟨hd, 1023, mgr, _, 0, rfl, admitted (by decide +kernel), by decide +kernel⟩⟩

theorem test_meets_TableReads :
    (∃ (h : Hdr) (i : Word32) (n : Fin 16) (o : HRef) (s : State) (w : List Nat), (∃ d, Admitted h d s) ∧ ObjectOk h o (8 * w.length) needW s ∧ firstBad o.bad = none ∧ i.toNat < 4096 ∧ s.tableEntry h.domain.toNat 3 i.toNat n.val = some w ∧ (s.objectRead h o (8 * w.length) needW).out = s.out)
    ∧ (∃ (i : Fin 16384) (h : Hdr) (w : DWin) (s : State), s.serving = true ∧ s.tabs.rtLoads = [⟨some h, i.val, w⟩] ∧ s.loadLines ⟨some h, i.val, w⟩ = [] ∧ s.slotBusy = false)
    ∧ (∃ (i : Fin 16384) (s : State), (s.tabs.rtLoads.find? fun x => x.index = i.val) = none)
    ∧ (∃ (h : Hdr) (i : Word32) (x : BitVec 16) (l : List Instr) (s : State), Admitted h [] s ∧ s.fab.wait = .pbrWrite h i x :: l ∧ s.slotBusy = false ∧ i.toNat < 4096 ∧ x.toNat < 256 ∧ x.getLsbD 7 = false)
    ∧ (∃ s : State, s.fab.wait = [])
    ∧ (∃ (h : Hdr) (i : Word32) (_r : Bool) (s : State), Admitted h [] s ∧ i.toNat < (s.domain h.domain.toNat).rules ∧ s.ruleLocked (ruleKey h.domain.toNat i.toNat) = true)
    ∧ (∃ (h : Hdr) (i : Word32) (_r : Bool) (s : State), ∃ entry : Entry, Admitted h [] s ∧ i.toNat < (s.domain h.domain.toNat).rules ∧ s.ruleLocked (ruleKey h.domain.toNat i.toNat) = true ∧ ruleBad entry s.isUpstream = none) :=
  ⟨⟨hd, 4095, 0, obj1, mgr, [0], ⟨[], ⟨by decide +kernel, by decide +kernel, by decide +kernel, by decide +kernel, by decide +kernel⟩⟩, objectOk (by decide +kernel), by decide +kernel⟩,
   ⟨16383, hd, (⟨true, true, true, false, true, false, 64, 0, 0, 0, 1, 0, 0, 0, 0, 0⟩ : DWin), (up.onTabs fun t => { t with wins := [(0, some (⟨true, true, true, false, true, false, 64, 0, 0, 0, 1, 0, 0, 0, 0, 0⟩ : DWin))], rtLoads := [⟨some hd, 16383, (⟨true, true, true, false, true, false, 64, 0, 0, 0, 1, 0, 0, 0, 0, 0⟩ : DWin)⟩] }), by decide +kernel⟩,
   ⟨16383, up, by decide +kernel⟩,
   ⟨hd, 4095, 0x7F, [], (mgr.onFab fun f => { f with wait := [.pbrWrite hd 4095 0x7F] }), admitted (by decide +kernel), by decide +kernel⟩,
   ⟨up, by decide +kernel⟩,
   ⟨hd, 1023, true, (mgr.onDom fun g => { g with rules := [(1023, some ⟨0, 1, 0, true, false, true, true, 0, 1, false⟩)] }), admitted (by decide +kernel), by decide +kernel⟩,
   ⟨hd, 1023, true, (mgr.onDom fun g => { g with rules := [(1023, some ⟨0, 1, 0, true, false, true, true, 0, 1, false⟩)] }), (BitVec.ofNat 256 (1048576 * 2 ^ 64 + 285212672 * 2 ^ 128) : Entry), admitted (by decide +kernel), by decide +kernel⟩⟩

theorem test_meets_DomainLife :
    (∃ (h : Hdr) (w10 w18 w20 : Word) (s : State), Admitted h [] s ∧ domainBad w10.toNat w20.toNat = none ∧ h.domain.toNat ≠ 0 ∧ (s.domain h.domain.toNat).st = .free ∧ s.poolLacks (domainOf w10.toNat w18.toNat w20.toNat) = false)
    ∧ (∃ (h : Hdr) (_q : Bool) (s : State), Admitted h [] s ∧ s.dom.reset = none ∧ h.domain.toNat ≠ 0 ∧ s.slotBusy = false ∧ (s.domain h.domain.toNat).debug = false ∧ (s.domain h.domain.toNat).st ≠ .free)
    ∧ (∃ (h : Hdr) (s : State), Admitted h [] s ∧ s.dom.reset = none ∧ h.domain.toNat ≠ 0 ∧ s.slotBusy = false ∧ s.holdsLock h.domain.toNat = false ∧ s.domainNamed h.domain.toNat = false ∧ (s.domain h.domain.toNat).st ≠ .free)
    ∧ (∃ (s : State) (r : ResetRun), s.serving = true ∧ s.dom.reset = some r ∧ r.step = 4 ∧ s.drainedTo r.epoch = true)
    ∧ (∃ (s : State) (r : ResetRun), s.serving = true ∧ s.dom.reset = some r ∧ r.step = 4 ∧ s.drainedTo r.epoch = false)
    ∧ (∃ (s : State) (r : ResetRun), ∃ u, u = s.reach (r.walkAt + walkNs) ∧ s.serving = true ∧ s.dom.reset = some r ∧ r.step = 5 ∧ s.resetting r = false)
    ∧ (∃ (s : State) (r : ResetRun), s.serving = true ∧ s.dom.reset = some r ∧ r.step = 5 ∧ s.resetting r = true)
    ∧ (∃ (s : State) (r : ResetRun), s.serving = true ∧ s.dom.reset = some r ∧ r.step = 6 ∧ (r.squash = true ∨ s.dirtyLines r.domain = false) ∧ r.destroy = false)
    ∧ (∃ (s : State) (r : ResetRun), s.serving = true ∧ s.dom.reset = some r ∧ r.step = 6 ∧ r.squash = true ∧ r.destroy = true) :=
  ⟨⟨{ hd with domain := 4095 }, 281479271743489, 0x8000000000000001, 0x4040, mgr, admitted (by decide +kernel), by decide +kernel⟩,
   ⟨{ hd with domain := 4095 }, true, (mgr.onDom fun g => { g with doms := g.doms ++ [(4095, { Domain.none with st := .active, rules := 1, scr := 1, mask := 1 })] }), admitted (by decide +kernel), by decide +kernel⟩,
   ⟨{ hd with domain := 4095 }, (mgr.onDom fun g => { g with doms := g.doms ++ [(4095, { Domain.none with st := .active, rules := 1, scr := 1, mask := 1 })] }), admitted (by decide +kernel), by decide +kernel⟩,
   ⟨((mgr.onDom fun g => { g with doms := g.doms ++ [(4095, { Domain.none with st := .active, rules := 1, scr := 1, mask := 1 })] }).onDom fun g => { g with reset := some (⟨hd, 4095, true, false, 4, 0, 0⟩ : ResetRun) }), (⟨hd, 4095, true, false, 4, 0, 0⟩ : ResetRun), by decide +kernel⟩,
   ⟨((up.onFab fun f => { f with epoch := 5, ledger := [(3, 1)] }).onDom fun g => { g with reset := some (⟨hd, 4095, true, false, 4, 5, 0⟩ : ResetRun) }), (⟨hd, 4095, true, false, 4, 5, 0⟩ : ResetRun), by decide +kernel⟩,
   ⟨((mgr.onDom fun g => { g with doms := g.doms ++ [(4095, { Domain.none with st := .active, rules := 1, scr := 1, mask := 1 })] }).onDom fun g => { g with reset := some (⟨hd, 4095, true, false, 5, 0, 0⟩ : ResetRun) }), (⟨hd, 4095, true, false, 5, 0, 0⟩ : ResetRun), _, rfl, by decide +kernel⟩,
   ⟨(((mgr.onDom fun g => { g with doms := g.doms ++ [(4095, { Domain.none with st := .active, rules := 1, scr := 1, mask := 1 })] }).onHome fun g => { g with trk := [(0, some { trk1 with why := .reset 4095 true })] }).onDom fun g => { g with reset := some (⟨hd, 4095, true, false, 5, 0, 0⟩ : ResetRun) }), (⟨hd, 4095, true, false, 5, 0, 0⟩ : ResetRun), by decide +kernel⟩,
   ⟨((mgr.onDom fun g => { g with doms := g.doms ++ [(4095, { Domain.none with st := .active, rules := 1, scr := 1, mask := 1 })] }).onDom fun g => { g with reset := some (⟨hd, 4095, false, false, 6, 0, 0⟩ : ResetRun) }), (⟨hd, 4095, false, false, 6, 0, 0⟩ : ResetRun), by decide +kernel⟩,
   ⟨((mgr.onDom fun g => { g with doms := g.doms ++ [(4095, { Domain.none with st := .active, rules := 1, scr := 1, mask := 1 })] }).onDom fun g => { g with reset := some (⟨hd, 4095, true, true, 6, 0, 0⟩ : ResetRun) }), (⟨hd, 4095, true, true, 6, 0, 0⟩ : ResetRun), by decide +kernel⟩⟩

theorem test_meets_PlansAndPrograms :
    (∃ (h : Hdr) (s : State), ∃ (o : HRef) (w : List Word) (p : Plan), Admitted h [] s ∧ ObjectOk h o (planBytes w) needR s ∧ firstBad o.bad = none ∧ (s.objectRead h o (planBytes w) needR).admitPlan w = .admitted p)
    ∧ (∃ (h : Hdr) (s : State), ∃ (k : BitVec 48) (b : Bool) (n : Nat), Admitted h [] s ∧ n = (if b then s.firstUnfixed else k.toNat) ∧ s.pit.pendingPlan.isSome = true ∧ s.firstUnfixed ≤ n)
    ∧ (∃ (h : Hdr) (s : State), ∃ (_k : BitVec 48) (_b : Bool), Admitted h [] s ∧ s.pit.pendingPlan = none)
    ∧ (∃ (h : Hdr) (s : State), ∃ d : Int, Admitted h [] s ∧ d ≠ 0 ∧ (s.stepTick = s.firstUnfixed → d.natAbs < s.lastPeriod))
    ∧ (∃ (h : Hdr) (i : Word32) (o : HRef) (w : List Word) (s : State) (k : Nat) (p : Prog), p = progOf w o (s.ringPort h.ring.val) ∧ Permitted h s ∧ k = progKey h.domain.toNat i.toNat ∧ ObjectOk h o (imageBytes w) needR s ∧ i.toNat ≤ 4095 ∧ firstBad o.bad = none ∧ progBad w = none ∧ s.progNamed h.domain.toNat i.toNat = false ∧ Tab.get noneAt s.eng.loads k = none ∧ s.progPages h.domain.toNat i.toNat + p.pages ≤ (s.domain h.domain.toNat).prg ∧ p.scrMin ≤ (s.domain h.domain.toNat).scr * 4096)
    ∧ (∃ (d : Fin 4096) (n : BitVec 12) (l : ProgLoad) (s v : State), v = s.reach l.doneAt ∧ s.serving = true ∧ Tab.get noneAt s.eng.loads (progKey d n.toNat) = some l)
    ∧ (∃ (h : Hdr) (i : Word32) (s : State) (k : Nat), Permitted h s ∧ k = progKey h.domain.toNat i.toNat ∧ i.toNat ≤ 4095 ∧ s.progNamed h.domain.toNat i.toNat = false ∧ Tab.get noneAt s.eng.progs k ≠ none)
    ∧ (∃ (h : Hdr) (o : HRef) (w : List Word32) (s : State), Admitted h [] s ∧ ObjectOk h o 256 needR s ∧ coefBad w = none ∧ firstBad o.bad = none ∧ (s.objectRead h o 256 needR).energyChangeOk { (s.objectRead h o 256 needR).energyIn with coef := coefOf w } = true)
    ∧ (∃ (h : Hdr) (v : Word) (s : State), ∃ (off n : Nat) (r : RegRow), ∃ i : Word32, Admitted h [] s ∧ findReg off = some (r, n) ∧ (∀ f ∈ r.fields, s.outOfRange off n v f = false ∧ s.fieldAct off n (s.expert off) v f ≠ .drop 0) ∧ s.energyRefused off (mergeFields r.fields (fun f => s.fieldAct off n (s.expert off) v f = .take) v (s.reg off)) = false ∧ i.toNat ≤ 0x38 ∧ i.toNat % 8 = 0 ∧ off = 0x110000 + i.toNat)
    ∧ (∃ (h : Hdr) (v : Word) (s : State), ∃ (off n : Nat) (r : RegRow), Admitted h [] s ∧ findReg off = some (r, n) ∧ (∀ f ∈ r.fields, s.outOfRange off n v f = false ∧ s.fieldAct off n (s.expert off) v f ≠ .drop 0) ∧ s.energyRefused off (mergeFields r.fields (fun f => s.fieldAct off n (s.expert off) v f = .take) v (s.reg off)) = false ∧ off = R.DBG_CTRL_EN.base ∧ s.anyResetting [bits v.toNat 16 12] = false) :=
  ⟨⟨hd, mgr, obj1, plan1, Plan.factory, admitted (by decide +kernel), objectOk (by decide +kernel), by decide +kernel⟩,
   ⟨hd, (mgr.onPit fun p => { p with pendingPlan := some Plan.factory }), 0xFFFFFFFFFFFF, false, _, admitted (by decide +kernel), rfl, by decide +kernel⟩,
   ⟨hd, mgr, 5, true, admitted (by decide +kernel), by decide +kernel⟩,
   ⟨hd, mgr, -1, admitted (by decide +kernel), by decide +kernel⟩,
   ⟨hd, 4095, obj1, image1, (mgr.setDomain 0 { Domain.zero with prg := 1 }), _, _, rfl, permitted (by decide +kernel), rfl, objectOk (by decide +kernel), by decide +kernel⟩,
   ⟨0, 4095, ⟨hd, prog1 [0], 9⟩, (up.onEng fun g => { g with loads := [(4095, some ⟨hd, prog1 [0], 9⟩)] }), _, rfl, by decide +kernel⟩,
   ⟨hd, 4095, (mgr.onEng fun g => { g with progs := [(4095, some (prog1 [0]))] }), _, permitted (by decide +kernel), rfl, by decide +kernel⟩,
   ⟨hd, obj1, coef1, mgr, admitted (by decide +kernel), objectOk (by decide +kernel), coef1_ok, by decide +kernel⟩,
   ⟨hd, 40, (mgr.wr R.GLB_EXPERT_EN 0 (2 ^ 9)), 0x110030, 0, _, 0x30, admitted (by decide +kernel), rfl, by decide +kernel⟩,
   ⟨hd, 0, mgr, R.DBG_CTRL_EN.base, 0, _, admitted (by decide +kernel), rfl, by decide +kernel⟩⟩

theorem test_meets_TimeSources :
    (∃ s : State, ∃ u n, u = s.reach s.ptmDue ∧ n = u.lowest (u.rd R.TIK_PTM_PORT) ∧ s.started = true ∧ s.pit.source = 2)
    ∧ (∃ s : State, ∃ _err : Int, s.started = true ∧ s.pit.source = 2)
    ∧ (∃ s : State, ∃ _err : Int, s.started = true ∧ s.pit.source = 2 ∧ s.pit.ptmFails ≠ 2)
    ∧ (∃ s : State, ∃ _err : Int, s.started = true ∧ s.pit.source = 2 ∧ s.pit.ptmFails = 2 ∧ s.pit.tstate = .locked)
    ∧ (∃ s : State, s.started = true ∧ s.pit.source = 1 ∧ s.pit.tstate = .acquire ∧ s.ticksRun = false)
    ∧ (∃ s : State, s.started = true ∧ s.pit.source = 1 ∧ s.ticksRun = true)
    ∧ (∃ s : State, s.started = true ∧ s.pit.source ≠ 1)
    ∧ (∃ s : State, ∃ a u, u = s.reach (a + 1500000000) ∧ s.started = true ∧ s.pit.source = 1 ∧ s.pit.ppsLost = false ∧ s.pit.ppsAt = some a ∧ s.pit.tstate = .locked)
    ∧ (∃ s : State, ∃ a u, u = s.reach (a + 4 * s.timeClkNs) ∧ s.started = true ∧ s.pit.source = 1 ∧ s.pit.clkLost = false ∧ s.pit.tstate = .locked)
    ∧ (∃ s : State, s.started = true ∧ s.pit.source = 2 ∧ 3 ≤ s.pit.ptmFails ∧ s.pit.tstate = .locked)
    ∧ (∃ s : State, s.started = true ∧ s.pit.source = 0)
    ∧ (∃ s : State, s.started = true ∧ s.pit.tstate = .holdover)
    ∧ (∃ s : State, (s.pit.tstate = .holdover ∨ s.pit.tstate = .lost) ∧ s.started = true ∧ s.pit.source = 1 ∧ s.pit.clkLost = true ∧ s.pit.ppsLost = false)
    ∧ (∃ s : State, s.started = true ∧ s.pit.source = 1 ∧ s.pit.clkLost = true ∧ s.pit.ppsLost = true) :=
  ⟨⟨(((up.onPort 3 fun q => { q with state := .active, dll := true, role := 2, rate := 6, mode := 2, width := 3, gen := 0 }).onPit fun p => { p with source := 2 }).wr R.TIK_PTM_PORT 0 3), _, _, rfl, rfl, by decide +kernel⟩,
   ⟨(up.onPit fun p => { p with source := 2, tstate := .acquire, good := 15 }), 3, by decide +kernel⟩,
   ⟨(up.onPit fun p => { p with source := 2, ptmFails := 1 }), 0, by decide +kernel⟩,
   ⟨(up.onPit fun p => { p with source := 2, ptmFails := 2, tstate := .locked }), 0, by decide +kernel⟩,
   ⟨(up.onPit fun p => { p with source := 1, tstate := .acquire }), by decide +kernel⟩,
   ⟨(up.onPit fun p => { p with source := 1, tstate := .locked, running := true, fixed := [⟨5, 500, 1000000, none, none, none⟩] }), by decide +kernel⟩,
   ⟨up, by decide +kernel⟩,
   ⟨(up.onPit fun p => { p with source := 1, tstate := .locked, ppsAt := some 5 }), 5, _, rfl, by decide +kernel⟩,
   ⟨(up.onPit fun p => { p with source := 1, tstate := .locked }), 9, _, rfl, by decide +kernel⟩,
   ⟨(up.onPit fun p => { p with source := 2, ptmFails := 3, tstate := .locked }), by decide +kernel⟩,
   ⟨up, by decide +kernel⟩,
   ⟨(up.onPit fun p => { p with tstate := .holdover, source := 1 }), by decide +kernel⟩,
   ⟨(up.onPit fun p => { p with source := 1, tstate := .holdover, clkLost := true }), Or.inl (by decide +kernel), by decide +kernel⟩,
   ⟨(up.onPit fun p => { p with source := 1, tstate := .locked, clkLost := true, ppsLost := true }), by decide +kernel⟩⟩

theorem test_meets_Boundaries :
    (∃ s : State, ∃ u, u = s.reach ((s.fixDue : Int) - s.stepsAhead - s.rd R.TIK_LEAD_LEAD_NS).toNat ∧ (∀ w ∈ s.pit.switches ++ s.pit.steps, w.tick ≠ s.firstUnfixed) ∧ s.started = true ∧ s.pit.running = true ∧ s.pit.stopAfter = false)
    ∧ (∃ s : State, s.started = true ∧ s.pit.running = true ∧ s.pit.stopAfter = true)
    ∧ (∃ s : State, ∃ (f : FixedB) (l : List FixedB), (s.rec_.st ≠ .replay ∨ f.at ≤ s.now) ∧ s.started = true ∧ s.pit.running = true ∧ s.pit.fixed = f :: l)
    ∧ (∃ s : State, ∃ (f : FixedB) (l : List FixedB), s.started = true ∧ s.pit.running = true ∧ s.pit.fixed = f :: l ∧ s.rec_.st = .replay ∧ s.now < f.at)
    ∧ (∃ s : State, s.started = true ∧ s.pit.running = true ∧ s.pit.fixed = [])
    ∧ (∃ (s : State) (w : WinId) (x : Window), ∃ u, u = s.reach (s.pit.bk + x.opn) ∧ s.pit.current.windows[w.val]? = some x ∧ s.serving = true ∧ s.started = true ∧ s.pit.running = true ∧ s.pit.openWin.getLsbD w.val = false ∧ s.offset < x.close)
    ∧ (∃ (s : State) (w : WinId) (x : Window), s.pit.current.windows[w.val]? = some x ∧ s.serving = true ∧ s.started = true ∧ s.pit.openWin.getLsbD w.val = false)
    ∧ (∃ (s : State) (w : WinId) (x : Window), s.pit.current.windows[w.val]? = some x ∧ s.serving = true ∧ s.started = true ∧ s.pit.openWin.getLsbD w.val = true)
    ∧ (∃ (s : State) (w : WinId) (x : Window), ∃ (n : Fin 4) (y : Nat × Nat) (e : Nat) (u : State), e = y.2 + s.rd R.TIK_OUT_WIDTH n.val ∧ u = s.reach e ∧ s.pit.current.windows[w.val]? = some x ∧ s.serving = true ∧ s.started = true ∧ s.pit.pulses.find? (fun z => z.1 = n.val) = some y)
    ∧ (∃ (s : State) (w : WinId) (x : Window), ∃ n : Fin 4, s.pit.current.windows[w.val]? = some x ∧ s.serving = true ∧ s.started = true ∧ s.pit.pulses.find? (fun z => z.1 = n.val) = none) :=
  ⟨⟨(up.onPit fun p => { p with running := true, ftime := 999999 }), _, rfl, fun _ h => (List.not_mem_nil h).elim, by decide +kernel⟩,
   ⟨(up.onPit fun p => { p with running := true, stopAfter := true }), by decide +kernel⟩,
   ⟨(up.onPit fun p => { p with running := true, fixed := [⟨1, 1000000, 1000000, none, none, none⟩] }), ⟨1, 1000000, 1000000, none, none, none⟩, [], Or.inl (by decide +kernel), by decide +kernel⟩,
   ⟨((up.onPit fun p => { p with running := true, fixed := [⟨1, 1000000, 1000000, none, none, none⟩] }).onRec fun r => { r with st := .replay }), ⟨1, 1000000, 1000000, none, none, none⟩, [], by decide +kernel⟩,
   ⟨(up.onPit fun p => { p with running := true }), by decide +kernel⟩,
   ⟨(up.onPit fun p => { p with running := true, ftime := 1000, current := { Plan.factory with windows := List.replicate 32 (⟨1000, 5000, 10, 0, 1, 0, 64⟩ : Window), gates := List.replicate 32 (BitVec.allOnes 256) } }), 31, (⟨1000, 5000, 10, 0, 1, 0, 64⟩ : Window), _, rfl, by decide +kernel⟩,
   ⟨(up.onPit fun p => { p with ftime := 1000, current := { Plan.factory with windows := List.replicate 32 (⟨1000, 5000, 10, 0, 1, 0, 64⟩ : Window), gates := List.replicate 32 (BitVec.allOnes 256) } }), 31, (⟨1000, 5000, 10, 0, 1, 0, 64⟩ : Window), by decide +kernel⟩,
   ⟨(up.onPit fun p => { p with openWin := 0x80000000, current := { Plan.factory with windows := List.replicate 32 (⟨1000, 5000, 10, 0, 1, 0, 64⟩ : Window), gates := List.replicate 32 (BitVec.allOnes 256) } }), 31, (⟨1000, 5000, 10, 0, 1, 0, 64⟩ : Window), by decide +kernel⟩,
   ⟨((up.onPit fun p => { p with ftime := 100000, pulses := [(3, 99000)], current := { Plan.factory with windows := List.replicate 32 (⟨1000, 5000, 10, 0, 1, 0, 64⟩ : Window), gates := List.replicate 32 (BitVec.allOnes 256) } }).onSys fun y => { y with tickOut := 8 }), 31, (⟨1000, 5000, 10, 0, 1, 0, 64⟩ : Window), 3, (3, 99000), _, _, rfl, rfl, by decide +kernel⟩,
   ⟨(up.onPit fun p => { p with ftime := 1000, current := { Plan.factory with windows := List.replicate 32 (⟨1000, 5000, 10, 0, 1, 0, 64⟩ : Window), gates := List.replicate 32 (BitVec.allOnes 256) } }), 31, (⟨1000, 5000, 10, 0, 1, 0, 64⟩ : Window), 3, by decide +kernel⟩⟩

theorem test_meets_BoundaryRecords :
    (∃ s : State, ∃ (d : Fin 4096) (i v : Nat) (c : Counter), s.serving = true ∧ i < 1024 ∧ c = Tab.get counterAt s.host.counters (d.val * 1024 + i) ∧ c.snapAt = some v ∧ s.statRing d.val = none)
    ∧ (∃ s : State, ∃ (d : Fin 4096) (i v n : Nat) (c : Counter) (r : Ring), s.serving = true ∧ i < 1024 ∧ c = Tab.get counterAt s.host.counters (d.val * 1024 + i) ∧ c.snapAt = some v ∧ s.statRing d.val = some (n, r) ∧ r.state = .active ∧ r.dropped = 0 ∧ r.freeEntries ≠ 0 ∧ s.ring n = some r ∧ s.hostAllows r.domain r.space r.port (r.base + 32 * (r.prod % 2 ^ r.log2n)) needW = true)
    ∧ (∃ s : State, ∃ (d : Fin 4096) (i : Nat), s.serving = true ∧ (Tab.get counterAt s.host.counters (d.val * 1024 + i)).snapAt = none)
    ∧ (∃ s : State, ∃ (p : PortId) (b : BwWin), s.serving = true ∧ b = Tab.get bwAt s.host.bw p.val ∧ b.ntick ≠ 0 ∧ b.ntick ≤ b.count ∧ s.statRing 0 = none ∧ s.img.hold = false)
    ∧ (∃ s : State, s.serving = true ∧ s.pit.bk / hourNs = s.sys.life.hour)
    ∧ (∃ s : State, s.serving = true ∧ s.pit.bk / hourNs ≠ s.sys.life.hour)
    ∧ (∃ s : State, ∃ (_age _margin : List Nat) (e : Nat) (u : State), e = s.multipleDue s.sys.ageAt secondNs ∧ u = s.reach e ∧ s.serving = true ∧ s.started = true) :=
  ⟨⟨(mgr.onHost fun h => { h with counters := [(1023, ({ Counter.none with value := 5, snapAt := some 5, sel := 0x40, en := true } : Counter))] }), 0, 1023, 5, ({ Counter.none with value := 5, snapAt := some 5, sel := 0x40, en := true } : Counter), by decide +kernel⟩,
   ⟨(mgr.onHost fun h => { h with counters := [(1023, ({ Counter.none with value := 5, snapAt := some 5, sel := 0x40, en := true } : Counter))], rings := [(9, some (ring1 .stat))] }), 0, 1023, 5, 9, ({ Counter.none with value := 5, snapAt := some 5, sel := 0x40, en := true } : Counter), (ring1 .stat), by decide +kernel⟩,
   ⟨mgr, 4095, 1023, by decide +kernel⟩,
   ⟨(mgr.onHost fun h => { h with bw := [(63, ({ BwWin.none with ntick := 2, count := 2, rx := 7 } : BwWin))] }), 63, ({ BwWin.none with ntick := 2, count := 2, rx := 7 } : BwWin), by decide +kernel⟩,
   ⟨mgr, by decide +kernel⟩,
   ⟨(mgr.onPit fun p => { p with bk := 3600000000000 }), by decide +kernel⟩,
   ⟨up, [5, 3], [7], _, _, rfl, rfl, by decide +kernel⟩⟩

theorem test_meets_PowerEvents :
    (∃ s : State, s.sys.corePower = true ∧ 8 < s.rd R.GLB_START_PHASE_STEP ∧ s.bel.start + 1000 < s.pit.bk + s.pit.period)
    ∧ (∃ s : State, s.sys.corePower = true ∧ 8 < s.rd R.GLB_START_PHASE_STEP ∧ s.pit.bk + s.pit.period ≤ s.bel.start + 1000)
    ∧ (∃ s : State, ∃ u, u = s.reach (s.bel.start + 1000) ∧ s.sys.corePower = true ∧ s.rd R.GLB_START_PHASE_STEP = 5)
    ∧ (∃ s : State, ∃ (q : Int) (l : List Int) (e : Nat), e = s.multipleDue s.bel.tempAt 10000 ∧ s.sys.corePower = true ∧ s.flt.safe = false ∧ (∀ x ∈ l, x ≤ q) ∧ q ≤ 412 ∧ q < 4 * (s.blw R.BLW_THERM_TRIP : Int) - 8 ∧ q < 4 * (s.blw R.BLW_THERM_WARN : Int) - 8)
    ∧ (∃ s : State, ∃ (q : Int) (l : List Int) (e : Nat), e = s.multipleDue s.bel.tempAt 10000 ∧ s.sys.corePower = true ∧ s.flt.safe = false ∧ (∀ x ∈ l, x ≤ q) ∧ 4 * (s.blw R.BLW_THERM_TRIP : Int) ≤ q ∧ s.flt.onset.contains (0x402, 0) = false)
    ∧ (∃ s : State, ∃ _mv _ma p : Nat, p = s.bel.calSum / s.bel.calSpan ∧ s.started = true ∧ s.flt.safe = false ∧ s.blw R.BLW_CAL_EN = 1 ∧ s.bel.calDue = true ∧ s.bel.calSpan ≠ 0 ∧ p ≠ 0)
    ∧ (∃ s : State, ∃ _ma : Option Nat, s.started = true ∧ s.flt.safe = false ∧ s.blw R.BLW_CAL_EN = 1 ∧ s.bel.calDue = true ∧ s.bel.calFails + 1 ≠ 3)
    ∧ (∃ s : State, ∃ _mv _ma : Option Nat, s.started = true ∧ s.flt.safe = false ∧ s.blw R.BLW_CAL_EN = 1 ∧ s.bel.calDue = false) :=
  ⟨⟨(up.onPit fun p => { p with period := 1000000 }), by decide +kernel⟩,
   ⟨((up.onPit fun p => { p with period := 1000000 }).onBel fun b => { b with start := 999500 }), by decide +kernel⟩,
   ⟨(at_ 5), _, rfl, by decide +kernel⟩,
   ⟨(up.onBel fun b => { b with hot := true }), 391, [390, 380], _, rfl, by decide +kernel⟩,
   ⟨up, 480, [100], _, rfl, by decide +kernel⟩,
   ⟨((up.wr R.BLW_CAL_EN 0 1).onBel fun b => { b with calSum := 5000000, calSpan := 1000, calDue := true }), 750, 7000, _, rfl, by decide +kernel⟩,
   ⟨((up.wr R.BLW_CAL_EN 0 1).onBel fun b => { b with calSum := 5000000, calSpan := 1000, calDue := true }), none, by decide +kernel⟩,
   ⟨((up.wr R.BLW_CAL_EN 0 1).onBel fun b => { b with calSum := 5000000, calSpan := 1000, calDue := false }), none, none, by decide +kernel⟩⟩

theorem test_meets_FaultCommands :
    (∃ s : State, ∃ (h : Hdr) (i : Byte) (e : FltEntry), Admitted h [] s ∧ s.fltEntry i.toNat = some e ∧ e.cause ≠ 0x307)
    ∧ (∃ s : State, ∃ (h : Hdr) (i : Byte), Admitted h [] s ∧ s.fltEntry i.toNat = none)
    ∧ (∃ s : State, ∃ (h : Hdr) (c : BitVec 3), Admitted h [] s ∧ 1 ≤ c.toNat ∧ c.toNat ≤ 4)
    ∧ (∃ s : State, ∃ (h : Hdr) (c : BitVec 3), Admitted h [] s ∧ (c = 0 ∨ 4 < c.toNat))
    ∧ (∃ s : State, ∃ u, u = s.reach (s.flt.fellAt + 10000) ∧ s.flt.hold = true ∧ u.flt.faultN = true)
    ∧ (∃ s : State, s.flt.hold = false)
    ∧ (∃ s : State, s.sys.corePower = true ∧ s.flt.safe = false) :=
  ⟨⟨(mgr.onFlt fun g => { g with entries := [(2, some ⟨0x131, 5, 1, false, 0, 0⟩)] }), hd, 2, ⟨0x131, 5, 1, false, 0, 0⟩, admitted (by decide +kernel), by decide +kernel⟩,
   ⟨mgr, hd, 255, admitted (by decide +kernel), by decide +kernel⟩,
   ⟨(mgr.onFlt fun g => { g with entries := [(2, some ⟨0x131, 5, 1, false, 0, 0⟩)] }), hd, 4, admitted (by decide +kernel), by decide +kernel⟩,
   ⟨mgr, hd, 7, admitted (by decide +kernel), by decide +kernel⟩,
   ⟨(up.onFlt fun g => { g with hold := true, faultN := true }), _, rfl, by decide +kernel⟩,
   ⟨up, by decide +kernel⟩,
   ⟨up, by decide +kernel⟩⟩

theorem test_meets_Recording :
    (∃ (h : Hdr) (w10 w18 w20 w28 w38 : Word) (_l : List Word32) (s : State) (k : Nat), Admitted h [bits w28.toNat 16 12] s ∧ k = (if flag w38.toNat 63 then s.pit.tick + 1 else bits w38.toNat 0 48) ∧ s.recRefused (recCfgOf h w10.toNat w18.toNat w20.toNat w28.toNat k []) = false)
    ∧ (∃ (s u : State) (c : RecCfg), u = s.reach (s.pit.bk + c.offset) ∧ HomeQuiet s ∧ s.serving = true ∧ s.rec_.cfg = some c ∧ s.rec_.st = .idle ∧ s.pit.tick = c.tick ∧ s.slotBusy = false ∧ c.wins = [])
    ∧ (∃ (s _u : State) (c : RecCfg), s.serving = true ∧ s.rec_.cfg = some c ∧ s.pit.tick < c.tick)
    ∧ (∃ (s u : State) (c : RecCfg), u = s.reach (s.rec_.qStart + walkNs) ∧ s.serving = true ∧ s.rec_.cfg = some c ∧ s.rec_.st = .quiesce ∧ s.drainedTo s.rec_.epochQ = true ∧ s.homesQuiet = true ∧ s.columnsEmpty = true ∧ s.walkOwes c = false ∧ c.wrap = true)
    ∧ (∃ (s _u : State) (c : RecCfg), s.serving = true ∧ s.rec_.cfg = some c ∧ s.rec_.st = .quiesce ∧ s.columnsEmpty = false)
    ∧ (∃ (s _u : State) (c : RecCfg), EnginesRest s ∧ s.serving = true ∧ s.rec_.cfg = some c ∧ s.rec_.st = .sections ∧ s.rec_.hold = true)
    ∧ (∃ (s u : State) (c : RecCfg), u = s.reach (s.rec_.qStart + 1000 * s.rd R.REC_CTRL_QLIMIT_US) ∧ EnginesRest u ∧ s.serving = true ∧ s.rec_.cfg = some c ∧ s.rec_.st = .quiesce)
    ∧ (∃ s u : State, u = s.reach (s.pit.bk + (s.rec_.span + 1) * 2560) ∧ s.serving = true ∧ s.rec_.st.takes = true ∧ (s.rec_.span + 1) * 2560 < s.pit.period)
    ∧ (∃ s : State, s.pit.period ≤ (s.rec_.span + 1) * 2560)
    ∧ (∃ (s : State) (c : RecCfg) (a : Nat), a = c.base + s.sinkPlace c s.rec_.written ∧ (c.wrap = true ∨ s.rec_.written + 64 < c.room) ∧ s.rec_.cfg = some c ∧ s.serving = true ∧ s.rec_.st = .recording ∧ 8 ≤ s.rec_.buf.length ∧ s.rec_.frozen = false ∧ refusedParts (s.decide c.domain 0 0 needW [a]) = [])
    ∧ (∃ (s : State) (c : RecCfg) (a : Nat), ∃ x : RspStatus, a = c.base + s.sinkPlace c s.rec_.written ∧ s.rec_.cfg = some c ∧ s.serving = true ∧ s.rec_.st = .recording ∧ 8 ≤ s.rec_.buf.length ∧ s.rec_.frozen = false ∧ refusedParts (s.decide c.domain 0 0 needW [a]) = [] ∧ x ≠ .ok)
    ∧ (∃ (s : State) (p : PortId) (_v : Word32) (_tag : BitVec 16), s.started = true ∧ s.recPort (s.lowest p.val) = false)
    ∧ (∃ (s : State) (p : PortId) (v : Word32) (tag : BitVec 16) (i : RecItem) (r : Rec), i = ⟨0x0B, s.lowest p.val, 0, s.cclkInTick, [v.toNat + tag.toNat * 2 ^ 32], 16⟩ ∧ r = s.rec_.cut s.pit.tick i ∧ s.started = true ∧ (s.portN (s.lowest p.val)).negVer = 3 ∧ (s.portN (s.lowest p.val)).state.linked = true ∧ s.recPort (s.lowest p.val) = true ∧ s.rec_.st.takes = true ∧ s.rec_.frozen = false ∧ s.rec_.used + 16 ≤ recBufBytes)
    ∧ (∃ (s : State) (h : Hdr), Admitted h [] s ∧ s.rec_.st.captures = true ∧ s.rec_.hold = false)
    ∧ (∃ (s : State) (h : Hdr), Admitted h [] s ∧ s.rec_.st = .quiesce)
    ∧ (∃ (s : State) (h : Hdr), Admitted h [] s ∧ s.rec_.st = .idle ∧ s.rec_.hold = false) :=
  ⟨⟨hd, 4, 0, 4294967296, 21474836487, 7, [], ((mgr.onTabs fun t => { t with wins := [(5, some ⟨false, false, false, false, true, false, 64, 0, 0, 0, 1, 0, 0, 0, 0, 0⟩)] }).onDom fun g => { g with rules := [(0, some ⟨0, 512, 0, false, false, true, true, 0, 0, false⟩)] }), _, admitted (by decide +kernel), rfl, by decide +kernel⟩,
   ⟨((mgr.onRec fun r => { r with cfg := some (recCfgOf hd 4 0 (2 ^ 32) (1 + 2 ^ 32 * 5) 7 []) }).onPit fun p => { p with tick := 7, ftime := 50 }), _, (recCfgOf hd 4 0 (2 ^ 32) (1 + 2 ^ 32 * 5) 7 []), rfl, homeQuiet (by decide +kernel), by decide +kernel⟩,
   ⟨(mgr.onRec fun r => { r with cfg := some (recCfgOf hd 4 0 (2 ^ 32) (1 + 2 ^ 32 * 5) 7 []) }), mgr, (recCfgOf hd 4 0 (2 ^ 32) (1 + 2 ^ 32 * 5) 7 []), by decide +kernel⟩,
   ⟨((mgr.onRec fun r => { r with cfg := some (recCfgOf hd 4 0 (2 ^ 32) (1 + 2 + 2 ^ 32 * 5) 7 []), st := .quiesce, hold := true, id := 4294967295 })), _, (recCfgOf hd 4 0 (2 ^ 32) (1 + 2 + 2 ^ 32 * 5) 7 []), rfl, by decide +kernel⟩,
   ⟨((mgr.onRec fun r => { r with cfg := some (recCfgOf hd 4 0 (2 ^ 32) (1 + 2 ^ 32 * 5) 7 []), st := .quiesce }).onFab fun f => { f with msgs := [{ msg1 with queued := true }], nextId := 10 }), mgr, (recCfgOf hd 4 0 (2 ^ 32) (1 + 2 ^ 32 * 5) 7 []), by decide +kernel⟩,
   ⟨((mgr.onRec fun r => { r with cfg := some (recCfgOf hd 4 0 (2 ^ 32) (1 + 2 ^ 32 * 5) 7 []), st := .sections, hold := true, id := 4, qStart := 0 }).onPit fun p => { p with ftime := 5000 }), mgr, (recCfgOf hd 4 0 (2 ^ 32) (1 + 2 ^ 32 * 5) 7 []), enginesRest (by decide +kernel), by decide +kernel⟩,
   ⟨((mgr.onRec fun r => { r with cfg := some (recCfgOf hd 4 0 (2 ^ 32) (1 + 2 ^ 32 * 5) 7 []), st := .quiesce, hold := true }).onPit fun p => { p with ftime := 100000000 }), _, (recCfgOf hd 4 0 (2 ^ 32) (1 + 2 ^ 32 * 5) 7 []), rfl, enginesRest (by decide +kernel), by decide +kernel⟩,
   ⟨((mgr.onRec fun r => { r with cfg := some (recCfgOf hd 4 0 (2 ^ 32) (1 + 2 ^ 32 * 5) 7 []), st := .recording, span := 3 }).onPit fun p => { p with ftime := 10240, period := 1000000 }), _, rfl, by decide +kernel⟩,
   ⟨(mgr.onPit fun p => { p with period := 2560 }), by decide +kernel⟩,
   ⟨(((mgr.onTabs fun t => { t with wins := [(5, some ⟨false, false, false, false, true, false, 64, 0, 0, 0, 1, 0, 0, 0, 0, 0⟩)] }).onDom fun g => { g with rules := [(0, some ⟨0, 512, 0, false, false, true, true, 0, 0, false⟩)] }).onRec fun r => { r with cfg := some (recCfgOf hd 4 0 (2 ^ 32) (1 + 2 + 2 ^ 32 * 5) 7 []), st := .recording, used := 80, buf := List.replicate 8 7, written := 2097152 }), (recCfgOf hd 4 0 (2 ^ 32) (1 + 2 + 2 ^ 32 * 5) 7 []), _, rfl, Or.inl (by decide +kernel), by decide +kernel⟩,
   ⟨(((mgr.onTabs fun t => { t with wins := [(5, some ⟨false, false, false, false, true, false, 64, 0, 0, 0, 1, 0, 0, 0, 0, 0⟩)] }).onDom fun g => { g with rules := [(0, some ⟨0, 512, 0, false, false, true, true, 0, 0, false⟩)] }).onRec fun r => { r with cfg := some (recCfgOf hd 4 0 (2 ^ 32) (1 + 2 ^ 32 * 5) 7 []), st := .recording, used := 80, buf := List.replicate 8 7, written := 2097152 }), (recCfgOf hd 4 0 (2 ^ 32) (1 + 2 ^ 32 * 5) 7 []), _, .poison, rfl, by decide +kernel⟩,
   ⟨mgr, 2, 0x12345678, 7, by decide +kernel⟩,
   ⟨((mgr.onPort 2 fun q => { q with state := .active, role := 2, negVer := 3, dll := true }).onRec fun r => { r with cfg := some (recCfgOf hd 4 0 (2 ^ 32) (1 + 2 ^ 32 * 5) 7 []), st := .recording, used := 0 }), 2, 0x12345678, 65535, _, _, rfl, rfl, by decide +kernel⟩,
   ⟨(mgr.onRec fun r => { r with cfg := some (recCfgOf hd 4 0 (2 ^ 32) (1 + 2 ^ 32 * 5) 7 []), st := .recording }), hd, admitted (by decide +kernel), by decide +kernel⟩,
   ⟨(mgr.onRec fun r => { r with cfg := some (recCfgOf hd 4 0 (2 ^ 32) (1 + 2 ^ 32 * 5) 7 []), st := .quiesce }), hd, admitted (by decide +kernel), by decide +kernel⟩,
   ⟨mgr, hd, admitted (by decide +kernel), by decide +kernel⟩⟩

theorem test_meets_ReplayAndInjection :
    (∃ (s r u : State) (h : Hdr) (a b : Word) (n : Nat) (rec : List Word), Admitted h [] s ∧ ObjectOk h ⟨1, Fin.ofNat 64 s.mgrPort, a⟩ n needR s ∧ r = s.objectRead h ⟨1, Fin.ofNat 64 s.mgrPort, a⟩ n needR ∧ ObjectOk h ⟨1, Fin.ofNat 64 s.mgrPort, b⟩ 64 needW r ∧ u = r.objectRead h ⟨1, Fin.ofNat 64 s.mgrPort, b⟩ 64 needW ∧ recordSound (rec.take (n / 8)) = true ∧ u.replayRefused (rec.take (n / 8)) = false ∧ u.rec_.st = .idle)
    ∧ (∃ (s r u : State) (h : Hdr) (a b : Word) (n : Nat) (rec : List Word), Admitted h [] s ∧ ObjectOk h ⟨1, Fin.ofNat 64 s.mgrPort, a⟩ n needR s ∧ r = s.objectRead h ⟨1, Fin.ofNat 64 s.mgrPort, a⟩ n needR ∧ ObjectOk h ⟨1, Fin.ofNat 64 s.mgrPort, b⟩ 64 needW r ∧ u = r.objectRead h ⟨1, Fin.ofNat 64 s.mgrPort, b⟩ 64 needW ∧ recordSound (rec.take (n / 8)) = true ∧ u.replayRefused (rec.take (n / 8)) = true)
    ∧ (∃ (s : State) (h : Hdr), s.rec_.st = .replay ∧ s.rec_.replay = some h ∧ s.spanOver = true ∧ s.replayOutcome = none)
    ∧ (∃ (s : State) (h : Hdr), ∃ (code unit : Nat) (want seen : Digest), (s.spanOver = true ∨ s.rec_.feed = []) ∧ s.rec_.st = .replay ∧ s.rec_.replay = some h ∧ s.replayOutcome = some (code, unit, want, seen))
    ∧ (∃ (s : State) (h : Hdr), s.rec_.st = .replay ∧ s.rec_.replay = some h ∧ s.spanOver = false ∧ s.rec_.feed ≠ [] ∧ (s.feedNow.any fun x => x.item.isNone) = false)
    ∧ (∃ (h : Hdr) (w : Word) (_d _c : BitVec 16) (s : State), Admitted h [] s ∧ injectBad w.toNat = none ∧ (injectOf w.toNat).live = false ∧ s.injectBusy (injectOf w.toNat) = false)
    ∧ (∃ (h : Hdr) (w : Word) (_d _c : BitVec 16) (s : State), ∃ b : InjectBody, Admitted h [] s ∧ b = injectOf (w ||| 2 ^ 28).toNat ∧ injectBad (w ||| 2 ^ 28).toNat = none ∧ s.rd R.FLT_CTRL_INJ_LIVE = 0)
    ∧ (∃ (h : Hdr) (w : Word) (d _c : BitVec 16) (s : State), ∃ b : InjectBody, ∃ (k : Nat) (r : Rule), Admitted h [] s ∧ b = injectOf (w ||| 2 ^ 28).toNat ∧ injectBad (w ||| 2 ^ 28).toNat = none ∧ s.rd R.FLT_CTRL_INJ_LIVE = 1 ∧ b.checker = 0x0B ∧ b.two = true ∧ b.count = 1 ∧ d ≠ 0 ∧ s.ruleAt b.word = some k ∧ s.rule k = some r ∧ r.lock = false) :=
  ⟨⟨mgr, _, _, hd, 0x4000, 0x8000, 288, rec1 1, admitted (by decide +kernel), objectOk (by decide +kernel), rfl, objectOk (by decide +kernel), rfl, by decide +kernel⟩,
   ⟨mgr, _, _, hd, 0x4000, 0x8000, 288, rec1 2, admitted (by decide +kernel), objectOk (by decide +kernel), rfl, objectOk (by decide +kernel), rfl, by decide +kernel⟩,
   ⟨((mgr.onPit fun p => { p with ftime := 3000 }).onRec fun r => { r with st := .replay, replay := some hd, feed := [⟨0, 256, some ⟨1, 0, 0, 9999, [], 16⟩⟩] }), hd, by decide +kernel⟩,
   ⟨((mgr.onPit fun p => { p with ftime := 3000 }).onRec fun r => { r with st := .replay, replay := some hd, report := 0x8000 }), hd, 0, 0, ⟨0, 0⟩, ⟨0, 0⟩, Or.inl (by decide +kernel), by decide +kernel⟩,
   ⟨((mgr.onPit fun p => { p with ftime := 3000 }).onRec fun r => { r with st := .replay, replay := some hd, span := 5, feed := [⟨0, 256, some ⟨1, 0, 0, 9999, [], 16⟩⟩] }), hd, by decide +kernel⟩,
   ⟨hd, 280379793561345, 1, 0, mgr, admitted (by decide +kernel), by decide +kernel⟩,
   ⟨hd, 1125895645495307, 1, 0, mgr, _, admitted (by decide +kernel), rfl, by decide +kernel⟩,
   ⟨hd, 17587924697099, 1, 0, ((mgr.wr R.FLT_CTRL_INJ_LIVE 0 1).onDom fun g => { g with rules := [(1023, some ⟨0, 512, 0, false, false, true, true, 0, 0, false⟩)] }), _, 1023, ⟨0, 512, 0, false, false, true, true, 0, 0, false⟩, admitted (by decide +kernel), rfl, by decide +kernel⟩⟩

theorem test_meets_ImageStaging :
    (∃ (s r : State) (h : Hdr) (i : Word32) (o : HRef) (w : List Word), Admitted h [] s ∧ ObjectOk h o (imageSpan w) needR s ∧ r = s.objectRead h o (imageSpan w) needR ∧ i.toNat < 2 ∧ firstBad o.bad = none ∧ i.toNat ≠ s.runSlot ∧ s.imageIdle = true ∧ r.imageFails w = none)
    ∧ (∃ (s r : State) (h : Hdr) (i : Word32) (o : HRef) (w : List Word), ∃ c : Cpl, Admitted h [] s ∧ ObjectOk h o (imageSpan w) needR s ∧ r = s.objectRead h o (imageSpan w) needR ∧ i.toNat < 2 ∧ firstBad o.bad = none ∧ i.toNat ≠ s.runSlot ∧ s.imageIdle = true ∧ r.imageFails w = some c)
    ∧ (∃ (s : State) (h : Hdr) (n : Nat) (w : List Word), s.serving = true ∧ n < 2 ∧ s.img.stage = some (h, n, w))
    ∧ (∃ s : State, s.serving = true ∧ s.img.stage = none)
    ∧ (∃ (s u : State) (d : Nat) (x : Selector), d = s.multipleDue s.img.hoursAt dayNs ∧ u = s.reach d ∧ s.started = true ∧ u.img.sel = some x ∧ u.img.selCopy = some 0)
    ∧ (∃ s : State, (∀ i w, s.img.bytesOf i = some w → imageBad w = none) ∧ s.serving = true ∧ s.img.phase ≠ .staging ∧ s.img.checked = false)
    ∧ (∃ s : State, ∃ x : Selector, (∀ i w, s.img.bytesOf i = some w → imageBad w = none) ∧ s.serving = true ∧ s.img.phase ≠ .staging ∧ s.img.checked = false ∧ s.img.sel = some x ∧ x.validA = true ∧ s.runSlot = 0)
    ∧ (∃ (s : State) (_a _b _c _d : Bool), s.img.checked = true ∧ s.bit R.IMG_CTRL_RET_EN = false)
    ∧ (∃ s : State, s.serving = true ∧ s.runSlot = 0 ∧ s.aged 0 = false ∧ s.aged 1 = true ∧ s.imageIdle = true)
    ∧ (∃ s : State, s.serving = true ∧ s.runSlot = 0 ∧ s.aged 0 = true ∧ s.aged 1 = false)
    ∧ (∃ s : State, s.serving = true ∧ s.runSlot = 0 ∧ s.img.refresh = none)
    ∧ (∃ (s : State) (i : Nat), s.serving = true ∧ s.img.refresh = some i) :=
  ⟨⟨mgr, _, hd, 1, obj1, img0, admitted (by decide +kernel), objectOk (by decide +kernel), rfl, by decide +kernel⟩,
   ⟨mgr, _, hd, 1, obj1, [], { status := .badDesc, code := 0 }, admitted (by decide +kernel), objectOk (by decide +kernel), rfl, by decide +kernel⟩,
   ⟨(mgr.onImg fun g => { g with phase := .staging, stage := some (hd, 1, img0) }), hd, 1, img0, by decide +kernel⟩,
   ⟨mgr, by decide +kernel⟩,
   ⟨(mgr.onImg fun g => { g with sels := [some sel1, none] }), _, _, sel1, rfl, rfl, by decide +kernel⟩,
   ⟨mgr, slotsGood (by decide +kernel), by decide +kernel⟩,
   ⟨(mgr.onImg fun g => { g with sels := [some sel1, none], src := 1 }), sel1, slotsGood (by decide +kernel), by decide +kernel⟩,
   ⟨((mgr.onImg fun g => { g with checked := true }).wr R.IMG_CTRL_RET_EN 0 0), false, true, false, true, by decide +kernel⟩,
   ⟨(mgr.onImg fun g => { g with sels := [some { sel1 with whoursA := 139999, whoursB := 0 }, none], slotA := some img0, slotB := some img0, src := 1 }), by decide +kernel⟩,
   ⟨(mgr.onImg fun g => { g with sels := [some { sel1 with whoursA := 0, whoursB := 139999 }, none], slotA := some img0, slotB := some img0, src := 1 }), by decide +kernel⟩,
   ⟨(mgr.onImg fun g => { g with src := 1 }), by decide +kernel⟩,
   ⟨(mgr.onImg fun g => { g with phase := .refresh, refresh := some 1, slotB := some img0 }), 1, by decide +kernel⟩⟩

theorem test_meets_ActivationDrains :
    (∃ (s : State) (h : Hdr) (w10 w18 : Word), Admitted h [] s ∧ s.imageIdle = true ∧ bits w18.toNat 56 1 ≠ s.runSlot ∧ activateBad w10.toNat w18.toNat = none)
    ∧ (∃ (s : State) (h : Hdr) (w10 w18 : Word), Admitted h [] s ∧ s.imageIdle = true ∧ bits w18.toNat 56 1 ≠ s.runSlot ∧ activateBad w10.toNat (w18 ||| 2 ^ 48).toNat = none)
    ∧ (∃ (s u : State) (a : Act), u = s.reach (a.started + readNs s.nextImage) ∧ s.serving = true ∧ s.img.act = some a ∧ s.img.phase = .verify ∧ u.slotFails a.slot = none)
    ∧ (∃ (s u : State) (a : Act), ∃ (h : Hdr) (x : Cpl), u = s.reach (a.started + readNs s.nextImage) ∧ s.serving = true ∧ s.img.act = some a ∧ s.img.phase = .verify ∧ (u.img.act.bind fun b => b.hdr) = some h ∧ u.slotFails a.slot = some x)
    ∧ (∃ (s _u : State) (a : Act), s.serving = true ∧ s.img.act = some a ∧ s.img.phase ≠ .verify)
    ∧ (∃ (s u : State) (a : Act), u = s.reach (s.pit.bk + a.offset) ∧ s.serving = true ∧ s.img.act = some a ∧ s.drainOwed = true ∧ a.tries = 0 ∧ s.pit.tick = a.tick ∧ s.rec_.st = .idle)
    ∧ (∃ (s _u : State) (a : Act), s.serving = true ∧ s.img.act = some a ∧ s.pit.tick < a.tick)
    ∧ (∃ (s _u : State) (a : Act), s.serving = true ∧ s.img.act = some a ∧ s.img.hold = true ∧ a.paused = false ∧ a.cold = false ∧ s.drained = true ∧ s.img.phase = .drain)
    ∧ (∃ (s _u : State) (a : Act), s.serving = true ∧ s.img.act = some a ∧ s.drained = false)
    ∧ (∃ (s u : State) (a : Act), ∃ h : Hdr, u = s.reachDrainEnd a ∧ EnginesRest u ∧ s.serving = true ∧ s.img.act = some a ∧ s.img.hold = true ∧ a.paused = false ∧ u.img.phase = .drain ∧ (u.img.act.bind fun b => b.hdr) = some h)
    ∧ (∃ (s u : State) (a : Act), u = s.reach (s.pit.bk + a.offset) ∧ s.serving = true ∧ s.img.act = some a ∧ s.img.phase = .fallback ∧ s.img.hold = false ∧ a.tries ≠ 0 ∧ a.tries < 64 ∧ s.pit.tick = a.tick ∧ s.rec_.st = .idle)
    ∧ (∃ (s _u : State) (a : Act), s.serving = true ∧ s.img.act = some a ∧ s.img.phase = .fallback ∧ s.img.hold = false ∧ 64 ≤ a.tries) :=
  ⟨⟨mgr, hd, 9223372036854775808, 72057594037927941, admitted (by decide +kernel), by decide +kernel⟩,
   ⟨mgr, hd, 7, 72057594037927941, admitted (by decide +kernel), by decide +kernel⟩,
   ⟨((mgr.onImg fun g => { g with phase := .verify, act := some act1, slotB := some img0 }).onPit fun p => { p with ftime := 100000, tick := 7 }), _, act1, rfl, by decide +kernel⟩,
   ⟨((mgr.onImg fun g => { g with phase := .verify, act := some { act1 with slot := 0 }, slotB := some img0 }).onPit fun p => { p with ftime := 100000, tick := 7 }), _, { act1 with slot := 0 }, hd, { status := .badDesc, code := 0 }, rfl, by decide +kernel⟩,
   ⟨((mgr.onImg fun g => { g with phase := .drain, act := some act1, slotB := some img0 }).onPit fun p => { p with ftime := 100000, tick := 7 }), mgr, act1, by decide +kernel⟩,
   ⟨((mgr.onImg fun g => { g with phase := .drain, act := some act1, slotB := some img0 }).onPit fun p => { p with ftime := 100000, tick := 7 }), _, act1, rfl, by decide +kernel⟩,
   ⟨((mgr.onImg fun g => { g with phase := .drain, act := some { act1 with tick := 8 }, slotB := some img0 }).onPit fun p => { p with ftime := 100000, tick := 7 }), mgr, { act1 with tick := 8 }, by decide +kernel⟩,
   ⟨((mgr.onImg fun g => { g with phase := .drain, act := some act1, slotB := some img0, hold := true }).onPit fun p => { p with ftime := 100000, tick := 7 }), mgr, act1, by decide +kernel⟩,
   ⟨(((mgr.onImg fun g => { g with phase := .drain, act := some act1, slotB := some img0, hold := true }).onPit fun p => { p with ftime := 100000, tick := 7 }).onFab fun f => { f with msgs := [{ msg1 with queued := true }], nextId := 10 }), mgr, act1, by decide +kernel⟩,
   ⟨((mgr.onImg fun g => { g with phase := .drain, act := some act1, slotB := some img0, hold := true }).onPit fun p => { p with ftime := 2000000, tick := 7 }), _, act1, hd, rfl, enginesRest (by decide +kernel), by decide +kernel⟩,
   ⟨((mgr.onImg fun g => { g with phase := .fallback, act := some { act1 with tries := 63 }, slotB := some img0 }).onPit fun p => { p with ftime := 100000, tick := 7 }), _, { act1 with tries := 63 }, rfl, by decide +kernel⟩,
   ⟨((mgr.onImg fun g => { g with phase := .fallback, act := some { act1 with tries := 64 }, slotB := some img0 }).onPit fun p => { p with ftime := 100000, tick := 7 }), mgr, { act1 with tries := 64 }, by decide +kernel⟩⟩

theorem test_meets_Trials :
    (∃ (s u : State) (a : Act), ∃ (h : Hdr) (x : Cpl), u = s.reach (a.pauseAt + readNs s.nextImage + 5 * recordsWritten s.img.running s.nextImage) ∧ EnginesRest u ∧ s.serving = true ∧ s.img.act = some a ∧ s.img.phase = .pause ∧ a.paused = true ∧ a.cold = false ∧ a.evict = [] ∧ u.img.phase = .pause ∧ (u.img.act.bind fun b => b.hdr) = some h ∧ u.pauseLoad a = .inl x)
    ∧ (∃ (s u : State) (a : Act), ∃ v : State, u = s.reach (a.pauseAt + readNs s.nextImage + 5 * recordsWritten s.img.running s.nextImage) ∧ u.pauseLoad a = .inr v ∧ s.serving = true ∧ s.img.act = some a ∧ s.img.phase = .pause ∧ a.paused = true ∧ a.cold = false ∧ a.evict = [])
    ∧ (∃ (s _u : State) (a : Act), s.serving = true ∧ s.img.act = some a ∧ s.img.phase = .pause ∧ a.paused = true ∧ a.cold = true ∧ s.evicting a = false)
    ∧ (∃ (s _u : State) (a : Act), s.serving = true ∧ s.img.act = some a ∧ s.img.phase = .pause ∧ a.paused = true ∧ a.cold = true ∧ s.evicting a = true)
    ∧ (∃ (s u : State) (a : Act), ∃ (h : Health) (k : Hdr), u = s.reach (a.trialAt + a.windowS * 1000000000) ∧ (∀ i, u.img.running = some i → i.svnCommit = false) ∧ s.serving = true ∧ s.img.act = some a ∧ s.img.phase = .trial ∧ s.failedNow = none ∧ u.failedAtEnd = none ∧ u.img.health = some h ∧ h.self = true ∧ (u.img.act.bind fun b => b.hdr) = some k)
    ∧ (∃ (s u : State) (a : Act), ∃ b : Act, u = s.reach (a.trialAt + a.windowS * 1000000000) ∧ s.serving = true ∧ s.img.act = some a ∧ s.img.phase = .trial ∧ s.failedNow = none ∧ u.img.health = none ∧ u.img.act = some b ∧ b.hdr = none)
    ∧ (∃ (s _u : State) (a : Act), ∃ k : Hdr, Admitted k [] s ∧ (∀ i, s.img.running = some i → i.svnCommit = false) ∧ s.serving = true ∧ s.img.act = some a ∧ s.img.phase = .trial ∧ s.failedAtEnd = none ∧ a.hdr = none)
    ∧ (∃ (s _u : State) (a : Act), ∃ k : Hdr, Admitted k [] s ∧ s.serving = true ∧ s.img.act = some a ∧ s.img.phase ≠ .trial) :=
  ⟨⟨((mgr.onImg fun g => { g with phase := .pause, act := some { act1 with slot := 0, paused := true }, slotB := some img0 }).onPit fun p => { p with ftime := 100000, tick := 7 }), _, { act1 with slot := 0, paused := true }, hd, { status := .badDesc, code := 0 }, rfl, enginesRest (by decide +kernel), by decide +kernel⟩,
   ⟨((mgr.onImg fun g => { g with phase := .pause, act := some { act1 with paused := true }, slotB := some img0 }).onPit fun p => { p with ftime := 100000, tick := 7 }), _, { act1 with paused := true }, _, rfl, isRight (by decide +kernel), by decide +kernel⟩,
   ⟨((mgr.onImg fun g => { g with phase := .pause, act := some { act1 with cold := true, paused := true }, slotB := some img0 }).onPit fun p => { p with ftime := 100000, tick := 7 }), mgr, { act1 with cold := true, paused := true }, by decide +kernel⟩,
   ⟨((((mgr.onTabs fun t => { t with wins := [(5, some win1)] }).onHome fun g => { g with dir := [(3, some { ent1 with st := .m, owner := 5 })] }).onImg fun g => { g with phase := .pause, act := some { act1 with cold := true, paused := true, evict := [(0, 2097152)] }, slotB := some img0 }).onPit fun p => { p with ftime := 100000, tick := 7 }), mgr, { act1 with cold := true, paused := true, evict := [(0, 2097152)] }, by decide +kernel⟩,
   ⟨((mgr.onImg fun g => { g with phase := .trial, act := some act1, slotB := some img0, health := some ⟨1, true, false, true, false, 0, 0, 0⟩ }).onPit fun p => { p with ftime := 1000000000, tick := 7 }), _, act1, ⟨1, true, false, true, false, 0, 0, 0⟩, hd, rfl, noRun (by decide +kernel), by decide +kernel⟩,
   ⟨((mgr.onImg fun g => { g with phase := .trial, act := some { act1 with hdr := none }, slotB := some img0 }).onPit fun p => { p with ftime := 1000000000, tick := 7 }), _, { act1 with hdr := none }, { act1 with hdr := none }, rfl, by decide +kernel⟩,
   ⟨((mgr.onImg fun g => { g with phase := .trial, act := some { act1 with hdr := none }, slotB := some img0 }).onPit fun p => { p with ftime := 100000, tick := 7 }), mgr, { act1 with hdr := none }, hd, admitted (by decide +kernel), noRun (by decide +kernel), by decide +kernel⟩,
   ⟨((mgr.onImg fun g => { g with phase := .drain, act := some act1, slotB := some img0 }).onPit fun p => { p with ftime := 100000, tick := 7 }), mgr, act1, hd, admitted (by decide +kernel), by decide +kernel⟩⟩


end Sys2Proof.Tests
end

section

/-! ### The order of epochs (R207) -/

namespace Sys2Proof.Machine

/-- The model adds 65,536 before it subtracts, so its distance between two epochs is that of R207, where `E − e` may be negative. -/
theorem epochDistance_cast {e : Nat} (f : Nat) (he : e < 65536) :
    (((f + 65536 - e) % 65536 : Nat) : Int) = ((f : Int) - e) % 65536 := by
  have unwrapped : ((f + 65536 - e : Nat) : Int) = (f : Int) - e + 65536 := by omega
  rw [Int.natCast_emod, unwrapped]
  exact Int.add_emod_right _ _

theorem olderEpoch_iff_natDistance (e f : Nat) :
    olderEpoch e f = true ↔ 1 ≤ (f + 65536 - e) % 65536 ∧ (f + 65536 - e) % 65536 ≤ 255 := by
  rw [olderEpoch, Bool.and_eq_true, decide_eq_true_iff, decide_eq_true_iff]

/-- Settles O11: the model's distance, read as an integer, is the one of R207. The bound on the current epoch is not needed. -/
theorem olderEpochs : Obligations.OlderEpochs := by
  intro e f he _
  rw [olderEpoch_iff_natDistance, ← epochDistance_cast f he]
  omega

end Sys2Proof.Machine
end

section

/-! ### The scalar registers of an engine (R359) -/

namespace Sys2Proof.Machine

@[simp] theorem Engine.getS_zero (g : Engine) : g.getS 0 = 0 := rfl

@[simp] theorem Engine.setS_zero (g : Engine) (v : Word) : g.setS 0 v = g := rfl

theorem Engine.getS_of_ne_zero (g : Engine) {d : Fin 32} (hd : d ≠ 0) : g.getS d = g.sregs[d.val] :=
  if_neg (Fin.val_ne_zero_iff.mpr hd)

theorem Engine.setS_of_ne_zero (g : Engine) {d : Fin 32} (v : Word) (hd : d ≠ 0) :
    g.setS d v = { g with sregs := g.sregs.set d.val v } :=
  if_neg (Fin.val_ne_zero_iff.mpr hd)

theorem Engine.getS_setS_same (g : Engine) {d : Fin 32} (v : Word) (hd : d ≠ 0) : (g.setS d v).getS d = v := by
  rw [Engine.setS_of_ne_zero g v hd, Engine.getS_of_ne_zero _ hd]
  exact Vector.getElem_set_self d.isLt

/-- Either register may be S0: a write to S0 changes nothing, and S0 reads as 0 after any write. -/
theorem Engine.getS_setS_other (g : Engine) {d f : Fin 32} (v : Word) (hfd : f ≠ d) : (g.setS d v).getS f = g.getS f := by
  by_cases hd : d = 0
  · rw [hd, Engine.setS_zero]
  · by_cases hf : f = 0
    · rw [hf, Engine.getS_zero, Engine.getS_zero]
    · rw [Engine.setS_of_ne_zero g v hd, Engine.getS_of_ne_zero _ hf, Engine.getS_of_ne_zero _ hf]
      exact Vector.getElem_set_ne d.isLt f.isLt (Fin.val_ne_of_ne hfd.symm)

/-- Settles O10: the four laws of a scalar register. -/
theorem zeroRegister : Obligations.ZeroRegister :=
  fun g _ _ v => ⟨g.getS_zero, g.setS_zero v, g.getS_setS_same v, g.getS_setS_other v⟩

end Sys2Proof.Machine
end

section

/-! ### The first domain (R391) -/

namespace Sys2Proof.Machine

theorem State.loseAll_dom (s : State) (aon : Bool) : (s.loseAll aon).dom = Dom.init 0 := by
  unfold State.loseAll State.reset
  rfl

theorem State.coldStart_dom (s : State) (cause : Nat) : (s.coldStart cause).dom = Dom.init 0 := by
  unfold State.coldStart
  rw [State.driveFaultN_dom, State.wr_dom, State.bump_dom, State.wr_dom, State.loseAll_dom]

theorem State.coldStart_domain_zero (s : State) (cause : Nat) : (s.coldStart cause).domain 0 = Domain.zero := by
  unfold State.domain
  rw [State.coldStart_dom]
  rfl

/-- D0 is refused before the other grounds are looked at: a FREE domain, and the domain of the debug port. -/
theorem execDomainReset_of_domain_zero {h : Hdr} {s : State} (a : Admitted h [] s) (q : Bool) (named : h.domain = 0) :
    execDomainReset h q s = .next (s.denied h 0) := by
  have zero : h.domain.toNat = 0 := congrArg BitVec.toNat named
  unfold execDomainReset
  rw [a.manager rfl]
  simp only [zero, decide_true, Bool.true_or, if_true]

/-- D0 is refused before the other grounds are looked at: a FREE domain, and a locked rule. -/
theorem execDomainDestroy_of_domain_zero {h : Hdr} {s : State} (a : Admitted h [] s) (named : h.domain = 0) :
    execDomainDestroy h s = .next (s.denied h 0) := by
  have zero : h.domain.toNat = 0 := congrArg BitVec.toNat named
  unfold execDomainDestroy
  rw [a.manager rfl]
  simp only [zero, decide_true, Bool.true_or, if_true]

/-- A command that does nothing but complete DENIED, with reason code 0. -/
theorem completes_of_exec_eq_denied {c : Instr} {h : Hdr} {s : State} (e : exec c s = .next (s.denied h 0)) :
    Completes c h { status := .denied } s (· = s) :=
  ⟨s.denied h 0, e, s, rfl, rfl⟩

/-- Settles O12: a cold start leaves D0 as R389 gives it, and both commands refuse D0 as their first check of their own. -/
theorem firstDomain : Obligations.FirstDomain := by
  refine ⟨fun s cause => ?_, fun h q s a named => ⟨?_, ?_⟩⟩
  · rw [State.coldStart_domain_zero]
    rfl
  · exact completes_of_exec_eq_denied (execDomainReset_of_domain_zero a q named)
  · exact completes_of_exec_eq_denied (execDomainDestroy_of_domain_zero a named)

end Sys2Proof.Machine
end

section

/-! ### Repeated faults (R541) -/

namespace Sys2Proof.Machine

theorem State.findFlt_congr {s t : State} (h : t.flt = s.flt) (cause unit : Nat) : t.findFlt cause unit = s.findFlt cause unit := by
  unfold State.findFlt
  rw [h]

@[simp] theorem State.setFltEntry_out (s : State) (i : Nat) (e : Option FltEntry) : (s.setFltEntry i e).out = s.out := rfl

@[simp] theorem State.setFltEntry_host (s : State) (i : Nat) (e : Option FltEntry) : (s.setFltEntry i e).host = s.host := rfl

@[simp] theorem State.fltEntry_driveFaultN (s : State) (n : Nat) : s.driveFaultN.fltEntry n = s.fltEntry n := by
  unfold State.fltEntry
  rw [State.driveFaultN_entries]

/-- The count of an occurrence in the counter of its class, FC1 to FC3 (R539), before the collector looks for its key. -/
def State.countClass (cause : Nat) (s : State) : State :=
  if causeClass cause = 1 then s.bump R.FLT_FC1_CNT_COUNT 0 1 else if causeClass cause = 2 then s.bump R.FLT_FC2_CNT_COUNT 0 1
  else if causeClass cause = 3 then s.bump R.FLT_FC3_CNT_COUNT 0 1 else s

/-- The count is made in one register at most. -/
theorem State.countClass_cases (cause : Nat) (s : State) :
    s.countClass cause = s ∨ ∃ f : FRef, s.countClass cause = s.bump f 0 1 := by
  unfold State.countClass
  split
  · exact .inr ⟨_, rfl⟩
  · split
    · exact .inr ⟨_, rfl⟩
    · split
      · exact .inr ⟨_, rfl⟩
      · exact .inl rfl

@[simp] theorem State.countClass_flt (cause : Nat) (s : State) : (s.countClass cause).flt = s.flt := by
  obtain e | ⟨f, e⟩ := s.countClass_cases cause <;> rw [e]
  exact s.bump_flt f 0 1

@[simp] theorem State.countClass_out (cause : Nat) (s : State) : (s.countClass cause).out = s.out := by
  obtain e | ⟨f, e⟩ := s.countClass_cases cause <;> rw [e]
  exact s.bump_out f 0 1

@[simp] theorem State.countClass_host (cause : Nat) (s : State) : (s.countClass cause).host = s.host := by
  obtain e | ⟨f, e⟩ := s.countClass_cases cause <;> rw [e]
  exact s.bump_host f 0 1

/-- Of an occurrence whose entry is found the collector counts twice, for its class and in the entry, and drives FAULT_N. `ev`, which would
raise its event, is not used. -/
theorem State.collectBy_of_findFlt {s : State} {cause unit i : Nat} {e : FltEntry} (found : s.findFlt cause unit = some (i, e))
    (ev : Raise) (inj : Bool) (detail addr : Nat) :
    s.collectBy ev cause unit inj detail addr
      = ((s.countClass cause).setFltEntry i (some { e with count := min 65535 (e.count + 1) })).driveFaultN := by
  have counted : (s.countClass cause).findFlt cause unit = some (i, e) :=
    (State.findFlt_congr (s.countClass_flt cause) cause unit).trans found
  unfold State.countClass at counted ⊢
  unfold State.collectBy
  simp only [counted]

/-- Settles O9: the entry is the only one written, and neither the class's counter nor FAULT_N is an entry, an output or a part of the host
interface. -/
theorem repeatedFaults : Obligations.RepeatedFaults := by
  intro s cause unit detail addr i inj e found
  unfold State.collectAs
  rw [State.collectBy_of_findFlt found]
  refine ⟨?_, fun j other => ?_, ?_, ?_⟩
  · rw [State.fltEntry_driveFaultN, State.fltEntry_setFltEntry, if_pos rfl]
  · rw [State.fltEntry_driveFaultN, State.fltEntry_setFltEntry, if_neg other, State.fltEntry_congr (s.countClass_flt cause)]
  · rw [State.driveFaultN_out, State.setFltEntry_out, State.countClass_out]
  · rw [State.driveFaultN_host, State.setFltEntry_host, State.countClass_host]

end Sys2Proof.Machine
end
